-- ==== Sys2Proof/Word.lean ====
section
/-! DEFINITION. Words, sparse maps as plain data, and the records that commands carry as operands. -/

namespace Sys2Proof

/-- One byte. -/
abbrev Byte := BitVec 8
/-- A vector lane, an accumulator slot, a token (01 R17). -/
abbrev W32 := BitVec 32
/-- A scalar register, an instruction word, a device address (01 R17, 05 R133). -/
abbrev W64 := BitVec 64

/-- A sparse map from numbers to words: keys strictly rising, no zero word listed; an unlisted key reads zero. -/
abbrev SMap (w : Nat) := List (Nat × BitVec w)

/-- The canonical form of a sparse map. -/
abbrev SMap.wf {w : Nat} (m : SMap w) : Prop :=
  m.Pairwise (fun a b => a.1 < b.1) ∧ ∀ c ∈ m, c.2 ≠ 0

/-- Changed bits of a 64-byte granule with its 64 check bits, as it is stored or sent (07 R191, R193, R206, R210): bits 0 to 511 are its data, bits
512 to 575 its check bits, eight to a data word of 64 bits. -/
abbrev Flips := List Nat

/-- What happened to an on-die packet on its last hop (07 R191, R192): the changed bits of its header (0 to 255 data, 256 to 287 check bits) and of
payload granules by number; `read` is the header that comes out where the word code misses an error. -/
structure PacketError where
  header : Flips
  payload : List (Nat × Flips)
  read : List Byte
  deriving DecidableEq, Repr

/-- Nothing happened to it. -/
def PacketError.none : PacketError := ⟨[], [], []⟩

/-- How a host-window read completes (07 R203). -/
inductive HostStatus where
  | success
  | unsupported
  | abort
  | timeout
  deriving DecidableEq, Repr

/-- What the fetch of a command entry returns (12 R339). -/
inductive FetchResult where
  | entry (bytes : List Byte)
  | error
  | poisoned
  deriving DecidableEq, Repr

/-- A Seif frame (08 R215): header fields, the 992 payload bytes (fewer stand for zeros at the end) and the CRC-64 it carries. -/
structure Frame where
  typ : Byte
  seq : BitVec 12
  ack : BitVec 12
  ackValid : Bool
  nak : Bool
  payload : List Byte
  crc : BitVec 64
  deriving DecidableEq, Repr

/-- A Seif packet (08 R224): header fields, payload granules as bytes, and the header CRC-32 it carries.
`reserved` is the bits the header table reserves, as one number. -/
structure SeifPacket where
  job : W64
  srcRank : BitVec 16
  dstRank : BitVec 16
  kind : Byte
  len : Byte
  flow : BitVec 16
  target : W64
  tag : W32
  segment : W32
  poison : W64
  reserved : W32
  digest : BitVec 128
  crc : W32
  payload : List Byte
  deriving DecidableEq, Repr

/-- One statistics entry of a step control record (09 R274). -/
structure StepStat where
  tensor : W32
  amax : W32
  nonZero : W64
  zeroed : W64
  overflowed : W32
  nonFinite : W32
  deriving DecidableEq, Repr

/-- A step control record (09 R273). `tagOk` says that bytes 0 to 7 hold the tag; `reserved` is what the reserved fields hold. -/
structure StepRec where
  tagOk : Bool
  job : W64
  stepCounter : W64
  source : BitVec 16
  kind : Byte
  attempt : Byte
  pendingVersion : BitVec 16
  ranks : W32
  flags : W32
  commitTime : W64
  stats : List StepStat
  reserved : W32
  deriving DecidableEq, Repr

/-- A discovery record (08 R220). Claims are (job identifier, rank, module count). -/
structure Discovery where
  tagOk : Bool
  serial : W64
  identity : List Byte
  port : Byte
  versions : Byte
  selected : Byte
  capabilities : W32
  gm : W64
  gmClass : Byte
  gmPriority : Byte
  hops : Byte
  claims : List (W64 × BitVec 16 × BitVec 16)
  deriving DecidableEq, Repr

/-- Little-endian number of a byte list (00 R8). -/
def leNat : List Byte → Nat
  | [] => 0
  | b :: bs => b.toNat + 256 * leNat bs

/-- The `n` little-endian bytes of a number (00 R8). -/
def leBytes : Nat → Nat → List Byte
  | 0, _ => []
  | n + 1, v => BitVec.ofNat 8 v :: leBytes n (v / 256)

/-- The bytes of an ASCII text. -/
def ascii (t : String) : List Byte := t.toList.map (fun c => BitVec.ofNat 8 c.toNat)

end Sys2Proof
end

