-- ==== Sys2Proof/Syntax.lean ====
section
/-! DEFINITION. The commands of the block: one constructor per row of the opcode table. Operands: `k` a context number, `l` a logical core,
`q` a wadi queue, `p` a Seif port (or an oasis pair), `die` a compute die, `n` a ring, `id` a fetched host command, `errs` the scratchpad granules
in which the command's reads find changed bits (07 R193), `stop` the number of blocks after which a save stops an mx.mm (04 R121), `owners` the
memory-plane packets whose flow owns the next link in the ripple that begins (07 R199). -/

namespace Sys2Proof

/-- The commands that the block takes (95, opcode table). -/
inductive Instr where
  /-- SEQ_NOP (R136). -/
  | seqNop (k l : Nat)
  /-- SEQ_LOOP (R129). -/
  | seqLoop (k l : Nat)
  /-- SEQ_ENDL (R129). -/
  | seqEndl (k l : Nat)
  /-- SEQ_BRLC (R130). -/
  | seqBrlc (k l : Nat)
  /-- SEQ_WAIT_ST (R128). -/
  | seqWaitSt (k l : Nat)
  /-- SEQ_TB (R131). -/
  | seqTb (k l : Nat)
  /-- SEQ_FENCE (R136). -/
  | seqFence (k l : Nat)
  /-- SEQ_END (R132). -/
  | seqEnd (k l : Nat)
  /-- SEQ_LI (R136). -/
  | seqLi (k l : Nat)
  /-- SEQ_LIH (R136). -/
  | seqLih (k l : Nat)
  /-- SEQ_ADDI (R136). -/
  | seqAddi (k l : Nat)
  /-- SEQ_ADD (R136). -/
  | seqAdd (k l : Nat)
  /-- SEQ_SUB (R136). -/
  | seqSub (k l : Nat)
  /-- SEQ_MUL (R136). -/
  | seqMul (k l : Nat)
  /-- SEQ_AND (R136). -/
  | seqAnd (k l : Nat)
  /-- SEQ_OR (R136). -/
  | seqOr (k l : Nat)
  /-- SEQ_XOR (R136). -/
  | seqXor (k l : Nat)
  /-- SEQ_SHL (R136). -/
  | seqShl (k l : Nat)
  /-- SEQ_SHR (R136). -/
  | seqShr (k l : Nat)
  /-- SEQ_RDLC (R136). -/
  | seqRdlc (k l : Nat)
  /-- SEQ_RDID (R136). -/
  | seqRdid (k l : Nat)
  /-- MX_MM (R107). -/
  | mxMm (k l : Nat) (stop : Option Nat) (errs : List (Nat × Flips))
  /-- MX_MERGE (R112). -/
  | mxMerge (k l : Nat) (errs : List (Nat × Flips))
  /-- MX_SPILL (R112). -/
  | mxSpill (k l : Nat)
  /-- MX_DRAIN (R113). -/
  | mxDrain (k l : Nat) (errs : List (Nat × Flips))
  /-- MX_STAT (R138). -/
  | mxStat (k l : Nat)
  /-- MX_CLOSE (R138). -/
  | mxClose (k l : Nat)
  /-- VX_LD (R158). -/
  | vxLd (k l : Nat) (errs : List (Nat × Flips))
  /-- VX_ST (R158). -/
  | vxSt (k l : Nat)
  /-- VX_ADD (R158). -/
  | vxAdd (k l : Nat)
  /-- VX_SUB (R158). -/
  | vxSub (k l : Nat)
  /-- VX_MUL (R158). -/
  | vxMul (k l : Nat)
  /-- VX_FMA (R158). -/
  | vxFma (k l : Nat)
  /-- VX_MIN (R158). -/
  | vxMin (k l : Nat)
  /-- VX_MAX (R158). -/
  | vxMax (k l : Nat)
  /-- VX_SEL (R158). -/
  | vxSel (k l : Nat)
  /-- VX_CVT (R463). -/
  | vxCvt (k l : Nat)
  /-- VX_CVTMX (R158). -/
  | vxCvtmx (k l : Nat) (errs : List (Nat × Flips))
  /-- VX_LDMX (R158). -/
  | vxLdmx (k l : Nat) (errs : List (Nat × Flips))
  /-- VX_RCP (R163). -/
  | vxRcp (k l : Nat)
  /-- VX_RSQ (R163). -/
  | vxRsq (k l : Nat)
  /-- VX_EXP2 (R164). -/
  | vxExp2 (k l : Nat)
  /-- VX_LOG2 (R164). -/
  | vxLog2 (k l : Nat)
  /-- VX_SQRT (R167). -/
  | vxSqrt (k l : Nat)
  /-- VX_PADD (R158). -/
  | vxPadd (k l : Nat)
  /-- VX_PMUL (R158). -/
  | vxPmul (k l : Nat)
  /-- VX_PFMA (R158). -/
  | vxPfma (k l : Nat)
  /-- VX_IADD (R158). -/
  | vxIadd (k l : Nat)
  /-- VX_ISUB (R158). -/
  | vxIsub (k l : Nat)
  /-- VX_IMUL (R158). -/
  | vxImul (k l : Nat)
  /-- VX_AND (R158). -/
  | vxAnd (k l : Nat)
  /-- VX_OR (R158). -/
  | vxOr (k l : Nat)
  /-- VX_XOR (R158). -/
  | vxXor (k l : Nat)
  /-- VX_SHL (R158). -/
  | vxShl (k l : Nat)
  /-- VX_SHR (R158). -/
  | vxShr (k l : Nat)
  /-- VX_SRA (R158). -/
  | vxSra (k l : Nat)
  /-- VX_RSUM (R158). -/
  | vxRsum (k l : Nat)
  /-- VX_RMAX (R158). -/
  | vxRmax (k l : Nat)
  /-- VX_NFC (R139). -/
  | vxNfc (k l : Nat)
  /-- VX_M48ADD (R158). -/
  | vxM48add (k l : Nat)
  /-- VX_M48FMA (R158). -/
  | vxM48fma (k l : Nat)
  /-- VX_M48CVT (R158). -/
  | vxM48cvt (k l : Nat)
  /-- VX_LI (R158). -/
  | vxLi (k l : Nat)
  /-- GR_DRAW (R140). -/
  | grDraw (k l : Nat)
  /-- ROW_STAT (R172). -/
  | rowStat (k l : Nat) (errs : List (Nat × Flips))
  /-- ROW_MERGE (R173). -/
  | rowMerge (k l : Nat) (errs : List (Nat × Flips))
  /-- ROW_APPLY (R174). -/
  | rowApply (k l : Nat) (errs : List (Nat × Flips))
  /-- ROW_BWD (R174). -/
  | rowBwd (k l : Nat) (errs : List (Nat × Flips))
  /-- ROW_KEEP (R175). -/
  | rowKeep (k l : Nat) (errs : List (Nat × Flips))
  /-- ROW_FETCH (R175). -/
  | rowFetch (k l : Nat) (errs : List (Nat × Flips))
  /-- WQ_POST (R198). -/
  | wqPost (k l q : Nat) (errs : List (Nat × Flips))
  /-- WQ_WATCH (R143). -/
  | wqWatch (k l q : Nat)
  /-- NET_SEND (R189). -/
  | netSend (k l : Nat) (errs : List (Nat × Flips))
  /-- NET_MCAST (R190). -/
  | netMcast (k l : Nat) (errs : List (Nat × Flips))
  /-- CK_RDF (R144). -/
  | ckRdf (k l : Nat)
  /-- CK_CLRF (R144). -/
  | ckClrf (k l : Nat)
  /-- CK_CAP (R144). -/
  | ckCap (k l : Nat)
  /-- CK_POISON (R144). -/
  | ckPoison (k l : Nat)
  /-- GT_VOTE (R145). -/
  | gtVote (k l : Nat) (shadow : W64)
  /-- GT_WAIT (R145). -/
  | gtWait (k l : Nat)
  /-- GT_CLR (R144). -/
  | gtClr (k l : Nat)
  /-- SEQUENCER_DISPATCH (R123). -/
  | sequencerDispatch (k l : Nat)
  /-- INSTRUCTION_COMPLETION (R125). -/
  | instructionCompletion (k l engine : Nat) (shadow : W64)
  /-- WATCH_FIRE (R143). -/
  | watchFire (k l q i : Nat)
  /-- WAIT_LIMIT_EXPIRY (R127). -/
  | waitLimitExpiry (k l engine : Nat) (watch : Bool)
  /-- ST_TARGET_REACHED (R128). -/
  | stTargetReached (k l : Nat)
  /-- CONTEXT_FAULT_STOP (R147). -/
  | contextFaultStop (k : Nat)
  /-- RIPPLE_BOUNDARY (R22). -/
  | rippleBoundary (owners : List Nat)
  /-- ON_DIE_PACKET_ARRIVAL (R192). -/
  | onDiePacketArrival (memoryPlane : Bool) (i : Nat) (err : PacketError)
  /-- WADI_DESCRIPTOR_START (R198). -/
  | wadiDescriptorStart (k l q : Nat) (errs : List (Nat × Flips))
  /-- WADI_REQUEST_ISSUE (R199). -/
  | wadiRequestIssue (k l q : Nat) (errs : List (Nat × Flips)) (shadow : W64)
  /-- MEMORY_REQUEST (R207). -/
  | memoryRequest (i : Nat) (errs : List Flips)
  /-- WADI_DATA_ARRIVAL (R199). -/
  | wadiDataArrival (i : Nat)
  /-- WADI_DESCRIPTOR_COMPLETION (R200). -/
  | wadiDescriptorCompletion (k l q : Nat)
  /-- WADI_RESPONSE_TIMEOUT (R203). -/
  | wadiResponseTimeout (i : Nat)
  /-- HOST_READ_COMPLETION (R203). -/
  | hostReadCompletion (i : Nat) (status : HostStatus) (data : List Byte)
  /-- MEMORY_REFRESH (R207). -/
  | memoryRefresh (far : Bool) (unit bank : Nat)
  /-- PATROL_SCRUB (R206). -/
  | patrolScrub (addr : Nat) (err : Flips)
  /-- ROW_REPAIR (R208). -/
  | rowRepair (die pc row : Nat)
  /-- DATA_MOVE_COMPLETE (R209). -/
  | dataMoveComplete (die : Nat)
  /-- STACK_TEMPERATURE_READ (R414). -/
  | stackTemperatureRead (stack : Nat) (celsius : Int)
  /-- PORT_TRAINING (R218). -/
  | portTraining (p : Nat)
  /-- TRAINING_RATE_FALLBACK (R218). -/
  | trainingRateFallback (p : Nat)
  /-- LANE_QUALIFICATION (R218). -/
  | laneQualification (p : Nat) (bad : BitVec 9)
  /-- DATA_FRAME_RECEIVE (R217). -/
  | dataFrameReceive (p : Nat) (fec : Option Nat) (frame : Frame)
  /-- CONTROL_FRAME_RECEIVE (R216). -/
  | controlFrameReceive (p : Nat) (fec : Option Nat) (frame : Frame)
  /-- IDLE_FRAME_RECEIVE (R216). -/
  | idleFrameReceive (p : Nat) (fec : Option Nat) (frame : Frame)
  /-- DISCOVERY_FRAME_RECEIVE (R222). -/
  | discoveryFrameReceive (p : Nat) (fec : Option Nat) (frame : Frame)
  /-- ACK_TIMEOUT (R217). -/
  | ackTimeout (p : Nat)
  /-- CONTROL_FRAME_SEND (R216). -/
  | controlFrameSend (p : Nat)
  /-- DISCOVERY_FRAME_SEND (R220). -/
  | discoveryFrameSend (p : Nat)
  /-- TIMESTAMP (R229). -/
  | timestamp (p : Nat)
  /-- GRANDMASTER_ANNOUNCEMENT (R231). -/
  | grandmasterAnnouncement (p : Nat)
  /-- LANE_SWAP (R219). -/
  | laneSwap (p : Nat)
  /-- LANE_ERROR_THRESHOLD (R219). -/
  | laneErrorThreshold (p lane : Nat)
  /-- RESEND_REQUEST (R245). -/
  | resendRequest (p : Nat)
  /-- PACING (R248). -/
  | pacing (p : Nat)
  /-- MANAGEMENT_RELAY (R327). -/
  | managementRelay (p : Nat)
  /-- DEPARTURE_NOTICE (R222). -/
  | departureNotice (p : Nat)
  /-- WRITE_ACKNOWLEDGEMENT (R227). -/
  | writeAcknowledgement (p : Nat)
  /-- COLLECTIVE_ABORT (R246). -/
  | collectiveAbort (p : Nat)
  /-- PARTNER_SILENCE_TIMEOUT (R222). -/
  | partnerSilenceTimeout (p : Nat)
  /-- ROUTE_ABSENCE_TIMEOUT (R247). -/
  | routeAbsenceTimeout (job : W64) (rank : Nat)
  /-- HOLDOVER_ENTRY (R232). -/
  | holdoverEntry
  /-- HOLDOVER_LIMIT (R232). -/
  | holdoverLimit
  /-- TREF_PPS_EDGE (R233). -/
  | trefPpsEdge (highNs : Nat)
  /-- TREF_10M_DEVIATION (R233). -/
  | tref10mDeviation
  /-- SEIF_PACKET_ARRIVAL (R225). -/
  | seifPacketArrival (p : Nat)
  /-- PEER_WRITE_TIMEOUT (R227). -/
  | peerWriteTimeout (tag : Nat)
  /-- LINK_WINDOW_OPEN (R235). -/
  | linkWindowOpen (k i : Nat)
  /-- LINK_WINDOW_CLOSE (R236). -/
  | linkWindowClose (k i : Nat)
  /-- COLLECTIVE_START (R238). -/
  | collectiveStart (k : Nat) (desc : List Byte)
  /-- CONTRIBUTION_ARRIVAL (R245). -/
  | contributionArrival (k : Nat)
  /-- COLLECTIVE_COMPLETION (R242). -/
  | collectiveCompletion (k cid : Nat)
  /-- COLLECTIVE_DEADLINE_EXPIRY (R246). -/
  | collectiveDeadlineExpiry (k cid : Nat)
  /-- PACING_PERIOD_BOUNDARY (R248). -/
  | pacingPeriodBoundary
  /-- STEP_PHASE_START (R26). -/
  | stepPhaseStart (k phase : Nat)
  /-- GATE_REPORT (R272). -/
  | gateReport (k : Nat) (r : StepRec)
  /-- GATE_DECISION (R275). -/
  | gateDecision (k : Nat) (r : StepRec)
  /-- PENDING_VERSION_ALLOCATION (R257). -/
  | pendingVersionAllocation (k : Nat)
  /-- SHARD_DIGEST_COMPLETE (R260). -/
  | shardDigestComplete (k : Nat) (mirror : Bool)
  /-- PREPARE_REPORT (R276). -/
  | prepareReport (k : Nat) (r : StepRec)
  /-- DECISION_LOG (R277). -/
  | decisionLog (k : Nat)
  /-- COMMIT (R277). -/
  | commit (k : Nat) (r : StepRec)
  /-- COMMIT_TIME_REACHED (R278). -/
  | commitTimeReached (k : Nat)
  /-- ABORT (R280). -/
  | abort (k : Nat) (r : StepRec)
  /-- FAILURE_REPORT (R280). -/
  | failureReport (k : Nat) (r : StepRec)
  /-- DECISION_QUERY (R278). -/
  | decisionQuery (k : Nat) (r : StepRec)
  /-- DECISION_REPLY (R278). -/
  | decisionReply (k : Nat) (r : StepRec)
  /-- EXCHANGE_DEADLINE_EXPIRY (R273). -/
  | exchangeDeadlineExpiry (k : Nat)
  /-- FENCE_RELEASE (R255). -/
  | fenceRelease (k version holder : Nat)
  /-- WEIGHT_DIGEST_COMPLETE (R58). -/
  | weightDigestComplete (k : Nat)
  /-- TENSOR_DIGEST_COMPLETE (R60). -/
  | tensorDigestComplete (k : Nat) (tensor : W32) (places : List (Nat × Nat))
  /-- CAIRN_SIGNATURE_COMPLETE (R430). -/
  | cairnSignatureComplete (k : Nat)
  /-- RING_SPACE_FREED (R64). -/
  | ringSpaceFreed (k ring : Nat) (index : W64)
  /-- ROUND_START (R293). -/
  | roundStart (k : Nat)
  /-- ROLLOUT_ADMISSION (R294). -/
  | rolloutAdmission (k round ix : Nat)
  /-- TOKEN_CHOICE (R295). -/
  | tokenChoice (k round ix : Nat) (logits : List W32)
  /-- ROLLOUT_END (R297). -/
  | rolloutEnd (k round ix : Nat)
  /-- WEIGHT_PUBLICATION (R302). -/
  | weightPublication (k : Nat)
  /-- PUBLICATION_DIGEST_CHECK (R303). -/
  | publicationDigestCheck (k entry : Nat) (held : Bool)
  /-- CHECKPOINT_START (R305). -/
  | checkpointStart (k : Nat)
  /-- CHECKPOINT_COMPLETE (R307). -/
  | checkpointComplete (k : Nat)
  /-- MIRAGE_CHECK (R312). -/
  | mirageCheck (die i : Nat)
  /-- RECHECK_VERDICT (R316). -/
  | recheckVerdict (i : Nat) (xs ys : List W64)
  /-- MIRAGE_SELF_TEST (R317). -/
  | mirageSelfTest (die : Nat) (pass : Bool)
  /-- TWIN_MISMATCH (R321). -/
  | twinMismatch (k l engine index : Nat) (shadow : W64)
  /-- SIEVE_DUE (R322). -/
  | sieveDue (die core : Nat)
  /-- SIEVE_FORCED (R323). -/
  | sieveForced (die core : Nat)
  /-- SIEVE_COMPLETE (R322). -/
  | sieveComplete (die core : Nat) (pass : Bool)
  /-- SUSPECT_CLEAR_TIMEOUT (R326). -/
  | suspectClearTimeout (i : Nat)
  /-- OASIS_PAIR_FAILURE (R19). -/
  | oasisPairFailure (p : Nat)
  /-- MESA_FAILURE (R395). -/
  | mesaFailure
  /-- DOORBELL_WRITE (R339). -/
  | doorbellWrite (n : Nat) (v : W32)
  /-- COMMAND_FETCH (R339). -/
  | commandFetch (n : Nat) (result : FetchResult)
  /-- COMMAND_START (R347). -/
  | commandStart (id : Nat)
  /-- REPLY_WRITE (R341). -/
  | replyWrite (n : Nat)
  /-- RQ_TAIL_WRITE (R341). -/
  | rqTailWrite (n : Nat) (v : W32)
  /-- RQ_ARM_WRITE (R342). -/
  | rqArmWrite (n : Nat) (v : W32)
  /-- SQ_ENABLE (R340). -/
  | sqEnable (n : Nat) (v : W32)
  /-- SQ_DISABLE (R339). -/
  | sqDisable (n : Nat) (v : W32)
  /-- RQ_ENABLE (R340). -/
  | rqEnable (n : Nat) (v : W32)
  /-- RQ_DISABLE (R340). -/
  | rqDisable (n : Nat) (v : W32)
  /-- RING_ERROR_CLEAR (R338). -/
  | ringErrorClear (n : Nat) (reply : Bool) (v : W32)
  /-- WIN_BASE_WRITE (R335). -/
  | winBaseWrite (v : W64)
  /-- RESET_REQUEST_MODULE (R392). -/
  | resetRequestModule
  /-- RESET_REQUEST_RETRAIN (R392). -/
  | resetRequestRetrain
  /-- LOW_HALF_READ (R442). -/
  | lowHalfRead (off : Nat)
  /-- LOW_HALF_WRITE (R442). -/
  | lowHalfWrite (off : Nat) (v : W32)
  /-- REGISTER_WRITE (R441). -/
  | registerWrite (off width : Nat) (v : W64) (full : Bool)
  /-- BAR2_READ (R335). -/
  | bar2Read (off len : Nat)
  /-- BAR2_WRITE (R335). -/
  | bar2Write (off : Nat) (bytes : List Byte)
  /-- NOP (R354). -/
  | nop (id : Nat)
  /-- OPEN_SESSION (R355). -/
  | openSession (id : Nat)
  /-- LOAD_PROGRAM (R155). -/
  | loadProgram (id : Nat)
  /-- MAP_MEMORY (R357). -/
  | mapMemory (id : Nat)
  /-- CREATE_CONTEXT (R358). -/
  | createContext (id : Nat)
  /-- DESTROY_CONTEXT (R378). -/
  | destroyContext (id : Nat)
  /-- RUN (R359). -/
  | run (id : Nat)
  /-- STEP (R26). -/
  | step (id : Nat)
  /-- PUBLISH_WEIGHTS (R360). -/
  | publishWeights (id : Nat)
  /-- CHECKPOINT (R360). -/
  | checkpoint (id : Nat)
  /-- RESTORE (R308). -/
  | restore (id : Nat) (host : List Byte)
  /-- SET_SHARES (R369). -/
  | setShares (id : Nat)
  /-- SET_CARAVAN_TABLE (R372). -/
  | setCaravanTable (id : Nat)
  /-- SET_POWER_LIMIT (R400). -/
  | setPowerLimit (id : Nat)
  /-- QUERY_ATTENTION (R357). -/
  | queryAttention (id : Nat)
  /-- ACK_ATTENTION (R353). -/
  | ackAttention (id : Nat)
  /-- READ_CAPTURE (R385). -/
  | readCapture (id : Nat)
  /-- RESET_DOMAIN (R389). -/
  | resetDomain (id : Nat)
  /-- REINSTATE (R397). -/
  | reinstate (id : Nat) (host : List Byte)
  /-- ATTEST (R428). -/
  | attest (id : Nat)
  /-- COMMAND_DEADLINE_EXPIRY (R383). -/
  | commandDeadlineExpiry (id : Nat)
  /-- SLICE_BOUNDARY (R370). -/
  | sliceBoundary
  /-- CARAVAN_TABLE_ACTIVATION (R372). -/
  | caravanTableActivation
  /-- CARAVAN_LEAD_TIME (R373). -/
  | caravanLeadTime (i : Nat)
  /-- CARAVAN_WINDOW_OPEN (R373). -/
  | caravanWindowOpen (i : Nat)
  /-- CARAVAN_WINDOW_CLOSE (R373). -/
  | caravanWindowClose (i : Nat)
  /-- PREEMPTION_SAVE_COMPLETE (R375). -/
  | preemptionSaveComplete (k : Nat)
  /-- RESTORE_COMPLETE (R375). -/
  | restoreComplete (k : Nat)
  /-- TEARDOWN_QUIESCENCE (R378). -/
  | teardownQuiescence (k : Nat)
  /-- TEARDOWN_TIMEOUT (R379). -/
  | teardownTimeout (k : Nat)
  /-- RESET_COMPLETION (R391). -/
  | resetCompletion (kind die num : Nat) (untrained : List Nat)
  /-- RESET_COMPLETION_TIMEOUT (R384). -/
  | resetCompletionTimeout (kind die num : Nat)
  /-- REGULATOR_PHASE_LOSS (R398). -/
  | regulatorPhaseLoss (rail : Nat)
  /-- POWER_EVALUATION (R405). -/
  | powerEvaluation (raw : Nat) (temps : List Int)
  /-- POWER_INTERVAL (R406). -/
  | powerInterval (measured : Nat)
  /-- POWER_DISAGREEMENT (R404). -/
  | powerDisagreement
  /-- LIMIT_UNREACHABLE (R409). -/
  | limitUnreachable
  /-- VOLTAGE_LOOP_STEP (R410). -/
  | voltageLoopStep
  /-- FAST_LIMIT_TRIP (R407). -/
  | fastLimitTrip
  /-- FAST_LIMIT_END (R405). -/
  | fastLimitEnd
  /-- PWRBRAKE_ASSERT (R408). -/
  | pwrbrakeAssert
  /-- PWRBRAKE_RELEASE (R408). -/
  | pwrbrakeRelease
  /-- THERMAL_TRIP (R413). -/
  | thermalTrip
  /-- RAIL_MONITOR_EXCURSION (R411). -/
  | railMonitorExcursion (die : Nat)
  /-- INPUT_POWER_APPLIED (R456). -/
  | inputPowerApplied
  /-- PWR_EN_RISE (R456). -/
  | pwrEnRise
  /-- PWR_EN_FALL (R456). -/
  | pwrEnFall
  /-- INPUT_VOLTAGE_FAULT (R457). -/
  | inputVoltageFault
  /-- MOD_RESET_N_ASSERT (R459). -/
  | modResetNAssert
  /-- MOD_RESET_N_RELEASE (R459). -/
  | modResetNRelease
  /-- PERST_N_ASSERT (R389). -/
  | perstNAssert
  /-- PERST_N_RELEASE (R456). -/
  | perstNRelease
  /-- FUNCTION_LEVEL_RESET (R334). -/
  | functionLevelReset
  /-- LINK_TRAINED (R334). -/
  | linkTrained (speed width : Nat)
  /-- REFCLK_LOSS (R453). -/
  | refclkLoss
  /-- SMBUS_TRANSACTION (R449). -/
  | smbusTransaction (addr : Nat)
  /-- SMBUS_CLOCK_TIMEOUT (R453). -/
  | smbusClockTimeout
  /-- TAP_INSTRUCTION (R455). -/
  | tapInstruction (ir : Nat)
  /-- BOOT (R421). -/
  | boot
  /-- FLASH_TRANSACTION_TIMEOUT (R453). -/
  | flashTransactionTimeout
  /-- FIRMWARE_UPDATE (R422). -/
  | firmwareUpdate (typ version : Nat) (verifies digestOk : Bool) (serial : W64)
  /-- GET_VERSION (R427). -/
  | getVersion (transport : Nat)
  /-- GET_CAPABILITIES (R427). -/
  | getCapabilities (transport : Nat)
  /-- NEGOTIATE_ALGORITHMS (R427). -/
  | negotiateAlgorithms (transport : Nat) (sha3Offered mldsaOffered : Bool)
  /-- GET_DIGESTS (R427). -/
  | getDigests (transport : Nat)
  /-- GET_CERTIFICATE (R427). -/
  | getCertificate (transport slot offset len : Nat)
  /-- CHALLENGE (R427). -/
  | challenge (transport slot : Nat) (nonce : List Byte)
  /-- GET_MEASUREMENTS (R427). -/
  | getMeasurements (transport index : Nat) (sign : Bool) (nonce : List Byte)
  /-- SPDM_UNSUPPORTED_REQUEST (R427). -/
  | spdmUnsupportedRequest (transport code : Nat)
  /-- HOT_RESET (R333). -/
  | hotReset
  /-- REFCLK_RETURN (R453). -/
  | refclkReturn
  /-- SERVICE_RESTART_COMPLETE (R440). -/
  | serviceRestartComplete (p : Nat)
  /-- CHECKPOINT_DEADLINE_EXPIRY (R307). -/
  | checkpointDeadlineExpiry (k : Nat)
  /-- RESET_COUNT_WINDOW_EXPIRY (R394). -/
  | resetCountWindowExpiry (day : Bool)
  /-- TREF_10M_AMPLITUDE_LOSS (R453). -/
  | tref10mAmplitudeLoss
  /-- TREF_10M_RECOVERY (R233). -/
  | tref10mRecovery
  /-- CONFIG_SPACE_WRITE (R342). -/
  | configSpaceWrite (msixEnable functionMask : Bool)
  deriving DecidableEq, Repr

end Sys2Proof
end

