-- ==== Sys2Proof/Config.lean ====
section
/-! DEFINITION. Free values: what the specification leaves open and the machine produces all the same. No body gives them a value. -/

namespace Sys2Proof

/-- DESIGN CHOICE (log 20): the draw of a stochastic rounding of a padding element of a tile (04 R106 gives it none), by tensor, row, column and ordinal. -/
opaque Config.paddingDraw : BitVec 32 → Nat → Nat → Nat → BitVec 16

/-- DESIGN CHOICE (log 21): how far the System Time a core observes lags the unit's, in units of 1/16 ns, kept within 16 where it is used (05 R128). -/
opaque Config.observedLag : Nat → Nat

/-- DESIGN CHOICE (log 22): the job seed of a job, 32 bytes (02 R34, 06 R178; no rule gives a path by which it enters). -/
opaque Config.jobSeed : BitVec 64 → Nat → BitVec 8

/-- DESIGN CHOICE (log 23): whether an ML-DSA-44 signature over bytes verifies under the key burnt in for a purpose (16 R419, R429). -/
opaque Config.verifies : Nat → List (BitVec 8) → List (BitVec 8) → Bool

/-- DESIGN CHOICE (log 23): byte `i` of the `n`-th ML-DSA-44 signature made (16 R430, 02 R53). -/
opaque Config.signature : Nat → List (BitVec 8) → Nat → BitVec 8

/-- DESIGN CHOICE (log 24): byte `i` of the certificate chain of slot 0 (16 R420, R428). -/
opaque Config.certificate : Nat → BitVec 8

/-- DESIGN CHOICE (log 24): bytes of the certificate chain. -/
opaque Config.chainLength : Nat

/-- DESIGN CHOICE (log 24): byte `i` of the identity public key (16 R420). -/
opaque Config.identityKey : Nat → BitVec 8

/-- DESIGN CHOICE (log 25): byte of a measurement (16 R426): index of the measurement, what tells its object apart, and byte; from byte 32 on, the
security version where the object has none. -/
opaque Config.measured : Nat → Nat → Nat → BitVec 8

/-- DESIGN CHOICE (log 26): a fresh value that nothing constrains, by the counter of the state. -/
opaque Config.fresh : Nat → Nat

/-- DESIGN CHOICE (log 27): what bytes a poisoned or failed read delivers, by the counter and the byte. -/
opaque Config.lost : Nat → Nat → BitVec 8

/-- DESIGN CHOICE (log 58): what a byte behind the host or peer window reads as, by the counter of the state and the address. -/
opaque Config.behind : Nat → Nat → BitVec 8

/-- DESIGN CHOICE (log 61): where the KV slots of a rollout context begin in near memory, and in far memory the spill area, by its epoch (10 R294). -/
opaque Config.kvBase : BitVec 16 → Bool → Nat

/-- DESIGN CHOICE (log 28): does the bank of a row that needs repair still have a repair resource, by the counter of the state (07 R209 gives no number)? -/
opaque Config.repairLeft : Nat → Bool

end Sys2Proof
end

