-- ==== Sys2Proof/Machine/Hash.lean ====
section
/-! DEFINITION. SHA3-256 (FIPS 202, which 02 R58 names), the cyclic redundancy checks of 07 R191, 08 R215 and R224, and the hash over GF(2^128) of 08 R244. -/

namespace Sys2Proof.Machine

/-- Rotation offsets of Keccak, by lane x + 5y. -/
def keccakRot : List Nat :=
  [0, 1, 62, 28, 27, 36, 44, 6, 55, 20, 3, 10, 43, 25, 39, 41, 45, 15, 21, 8, 18, 2, 61, 56, 14]

/-- Round constants of Keccak-f[1600]. -/
def keccakRc : List W64 :=
  [0x0000000000000001, 0x0000000000008082, 0x800000000000808A, 0x8000000080008000, 0x000000000000808B, 0x0000000080000001,
   0x8000000080008081, 0x8000000000008009, 0x000000000000008A, 0x0000000000000088, 0x0000000080008009, 0x000000008000000A]
  ++ [0x000000008000808B, 0x800000000000008B, 0x8000000000008089, 0x8000000000008003, 0x8000000000008002, 0x8000000000000080,
   0x000000000000800A, 0x800000008000000A, 0x8000000080008081, 0x8000000000008080, 0x0000000080000001, 0x8000000080008008]

def rotl64 (x : W64) (k : Nat) : W64 := (x <<< k) ||| (x >>> (64 - k))

/-- One round on 25 lanes, lane (x, y) at index x + 5y. -/
def keccakRound (a : List W64) (rc : W64) : List W64 :=
  let at' (l : List W64) (i : Nat) : W64 := l.getD i 0
  let c := (List.range 5).map (fun x => at' a x ^^^ at' a (x + 5) ^^^ at' a (x + 10) ^^^ at' a (x + 15) ^^^ at' a (x + 20))
  let d := (List.range 5).map (fun x => at' c ((x + 4) % 5) ^^^ rotl64 (at' c ((x + 1) % 5)) 1)
  let t := (List.range 25).map (fun i => rotl64 (at' a i ^^^ at' d (i % 5)) (keccakRot.getD i 0))
  -- rho and pi: lane (x, y) moves to (y, 2x + 3y); the lane that lands on (X, Y) comes from x = X + 3Y, y = X
  let b := (List.range 25).map (fun i => at' t ((i % 5 + 3 * (i / 5)) % 5 + 5 * (i % 5)))
  (List.range 25).map (fun i =>
    let x := i % 5
    let y := i / 5
    let v := at' b i ^^^ (~~~(at' b ((x + 1) % 5 + 5 * y)) &&& at' b ((x + 2) % 5 + 5 * y))
    if i = 0 then v ^^^ rc else v)

def keccakF (a : List W64) : List W64 := keccakRc.foldl keccakRound a

/-- Absorb one block of 136 bytes. -/
def sha3Absorb (a : List W64) (block : List Byte) : List W64 :=
  keccakF (a.mapIdx (fun i l => if i < 17 then l ^^^ BitVec.ofNat 64 (leNat ((block.drop (8 * i)).take 8)) else l))

/-- The padded message: 0x06, zeros, and 0x80 in the last byte of a block. -/
def sha3Pad (m : List Byte) : List Byte :=
  let r := m.length % 136
  if r = 135 then m ++ [0x86] else m ++ [0x06] ++ List.replicate (134 - r) 0 ++ [0x80]

/-- Absorb blocks; the fuel is the number of blocks. -/
def sha3Blocks : Nat → List W64 → List Byte → List W64
  | 0, a, _ => a
  | n + 1, a, m => sha3Blocks n (sha3Absorb a (m.take 136)) (m.drop 136)

/-- SHA3-256: 32 bytes. -/
def sha3 (m : List Byte) : List Byte :=
  let p := sha3Pad m
  let a := sha3Blocks (p.length / 136) (List.replicate 25 0) p
  (a.take 4).flatMap (fun l => leBytes 8 l.toNat)

/-- One bit step of a most-significant-first cyclic redundancy check of width w. -/
def crcBits (w poly : Nat) : Nat → Nat → Nat
  | 0, r => r
  | n + 1, r => crcBits w poly n (if r.testBit (w - 1) then ((r * 2) % 2 ^ w) ^^^ poly else (r * 2) % 2 ^ w)

/-- A cyclic redundancy check, bytes most significant bit first. -/
def crcMsb (w poly init : Nat) (bytes : List Byte) : Nat :=
  bytes.foldl (fun r b => crcBits w poly 8 (r ^^^ (b.toNat * 2 ^ (w - 8)))) init

/-- The on-die header check (07 R191). -/
def crc16 (bytes : List Byte) : Nat := crcMsb 16 0x1021 0xFFFF bytes

/-- The frame and twin-digest check (08 R215, 11 R320). -/
def crc64 (bytes : List Byte) : Nat := crcMsb 64 0x42F0E1EBA9EA3693 (2 ^ 64 - 1) bytes

/-- Bit-reversed step of the IEEE 802.3 check. -/
def crc32Bits : Nat → Nat → Nat
  | 0, r => r
  | n + 1, r => crc32Bits n (if r.testBit 0 then (r / 2) ^^^ 0xEDB88320 else r / 2)

/-- CRC-32 of IEEE 802.3 (08 R224): reflected, initial value and final inversion all ones. -/
def crc32 (bytes : List Byte) : Nat :=
  (bytes.foldl (fun r b => crc32Bits 8 (r ^^^ b.toNat)) 0xFFFFFFFF) ^^^ 0xFFFFFFFF

/-- gf_mul of R244 on the bits of b from the lowest: modulo x^128 + x^7 + x^2 + x + 1. -/
def gfMulGo : Nat → Nat → BitVec 128 → BitVec 128 → BitVec 128 → BitVec 128
  | 0, _, _, _, z => z
  | n + 1, i, a, b, z =>
    let z := if b.getLsbD i then z ^^^ a else z
    let a' := a <<< 1
    gfMulGo n (i + 1) (if a.getLsbD 127 then a' ^^^ 0x87 else a') b z

def gfMul (a b : BitVec 128) : BitVec 128 := gfMulGo 128 0 a b 0

/-- The 16-byte blocks of a byte list, the last completed with zero bytes (R244). -/
def blocks16 : Nat → List Byte → List (BitVec 128)
  | 0, _ => []
  | n + 1, l => if l.isEmpty then [] else BitVec.ofNat 128 (leNat (l.take 16)) :: blocks16 n (l.drop 16)

/-- sandline(blocks) of R244 under hash key h and mask k. -/
def sandline (h k : BitVec 128) (blocks : List (BitVec 128)) : BitVec 128 :=
  blocks.foldl (fun acc b => gfMul (acc ^^^ b) h) 0 ^^^ k

end Sys2Proof.Machine
end

