-- ==== Sys2Proof/Machine/Store.lean ====
section
/-! DEFINITION. Sparse maps: the operations behind every memory, register file and table of the state. -/

namespace Sys2Proof.Machine

/-- Read a key; an unlisted key reads zero. -/
def sget {w : Nat} : SMap w → Nat → BitVec w
  | [], _ => 0
  | c :: m, k => if c.1 = k then c.2 else sget m k

/-- Write a key, keeping the canonical form: keys strictly rising, no zero listed. -/
def sset {w : Nat} : SMap w → Nat → BitVec w → SMap w
  | [], k, v => if v = 0 then [] else [(k, v)]
  | c :: m, k, v =>
    if k < c.1 then (if v = 0 then c :: m else (k, v) :: c :: m)
    else if k = c.1 then (if v = 0 then m else (k, v) :: m)
    else c :: sset m k v

/-- Write consecutive keys. -/
def ssetAll {w : Nat} : SMap w → Nat → List (BitVec w) → SMap w
  | m, _, [] => m
  | m, k, v :: vs => ssetAll (sset m k v) (k + 1) vs

/-- Read consecutive keys. -/
def sgetAll {w : Nat} (m : SMap w) (k n : Nat) : List (BitVec w) := (List.range n).map (fun i => sget m (k + i))

/-- A table of records by number: the first entry with the number, or a default. -/
def nget {α : Type} (d : α) : List (Nat × α) → Nat → α
  | [], _ => d
  | c :: m, k => if c.1 = k then c.2 else nget d m k

/-- Replace or insert the record of a number, keeping numbers rising. -/
def nset {α : Type} : List (Nat × α) → Nat → α → List (Nat × α)
  | [], k, v => [(k, v)]
  | c :: m, k, v => if k < c.1 then (k, v) :: c :: m else if k = c.1 then (k, v) :: m else c :: nset m k v

/-- Is a number present? -/
def nmem {α : Type} (m : List (Nat × α)) (k : Nat) : Bool := m.any (fun c => c.1 == k)

/-- Look a number up. -/
def nfind {α : Type} : List (Nat × α) → Nat → Option α
  | [], _ => none
  | c :: m, k => if c.1 = k then some c.2 else nfind m k

/-- Remove a number. -/
def ndel {α : Type} (m : List (Nat × α)) (k : Nat) : List (Nat × α) := m.filter (fun c => c.1 != k)

/-- Replace element `i` of a list by a function of it. -/
def updAt {α : Type} (l : List α) (i : Nat) (f : α → α) : List α :=
  match l, i with
  | [], _ => []
  | a :: r, 0 => f a :: r
  | a :: r, i + 1 => a :: updAt r i f

/-- Replace every element that satisfies a test. -/
def updWhere {α : Type} (l : List α) (p : α → Bool) (f : α → α) : List α := l.map (fun a => if p a then f a else a)

/-- The bit field of a word from bit `lo`, `n` bits wide. -/
def fld {w : Nat} (x : BitVec w) (lo n : Nat) : Nat := x.toNat / 2 ^ lo % 2 ^ n

/-- Add with saturation at the largest value of the width (a saturating counter). -/
def satAdd (w : Nat) (x : BitVec w) (n : Nat) : BitVec w := BitVec.ofNat w (min (x.toNat + n) (2 ^ w - 1))

/-- Round up a quotient. -/
def ceilDiv (a b : Nat) : Nat := (a + b - 1) / b

end Sys2Proof.Machine
end

