-- ==== Sys2Proof/Machine/Codes.lean ====
section
/-! DEFINITION. Error codes of granules and headers, and the header of an on-die packet (07 R191 to R193, R206, R210). -/

namespace Sys2Proof.Machine

/-- What a code finds. `missed`: more errors than it detects, of which no rule says what comes out (log 144). -/
inductive Found where
  | clean
  | corrected
  | uncorrectable
  | missed
  deriving DecidableEq, Repr

/-- Errors in each of `n` code units. -/
def errorsIn (unit : Nat → Nat) (n : Nat) (f : Flips) : List Nat := (List.range n).map (fun i => (f.dedup.filter (fun b => unit b == i)).length)

/-- The 8-byte word of a bit of `n` words: first the words' bits, then 8 check bits of each. -/
def wordOfBit (n b : Nat) : Nat := if b < 64 * n then b / 64 else (b - 64 * n) / 8

/-- SEC-DED in every 8-byte word (R191, R193, R210): one changed bit of a word is corrected, two are detected. -/
def secded (n : Nat) (f : Flips) : Found :=
  let c := errorsIn (wordOfBit n) n f
  if c.any (· == 2) then .uncorrectable else if c.any (fun e => decide (2 < e)) then .missed else if c.any (· == 1) then .corrected else .clean

/-- RS(72,64) over the bytes of a near-memory granule (R206): errors in up to 2 bytes are corrected, in up to 6 detected. -/
def rs72 (f : Flips) : Found :=
  let n := ((f.filter (fun b => decide (b < 576))).map (· / 8)).dedup.length
  if n = 0 then .clean else if n ≤ 2 then .corrected else if n ≤ 6 then .uncorrectable else .missed

/-- Granule `g` as its code delivers it: its bytes, free where an error is missed (log 144), and whether it is poisoned. -/
def Found.deliver (x : Found) (free g : Nat) (bytes : List Byte) : List Byte × Bool :=
  match x with
  | .clean | .corrected => (bytes, false)
  | .uncorrectable => (bytes, true)
  | .missed => ((List.range 64).map (fun i => Config.lost free (64 * g + i)), false)

/-! ## Headers (R191) -/

/-- The fields of a packet header; `poison` is the map of its payload granules, one for each. -/
structure Header where
  epoch : BitVec 16
  ctx : Nat
  kind : Nat
  core : Nat
  queue : Nat
  dest : Nat
  granule : Nat
  tag : Nat
  token : Nat
  signal : Bool
  poison : List Bool
  remote : Nat
  deriving DecidableEq, Repr

/-- Bit i set for the i-th of a list that holds. -/
def bitsOf : List Bool → Nat
  | [] => 0
  | b :: r => (if b then 1 else 0) + 2 * bitsOf r

/-- The 32 bytes of a header, with the check over bytes 0 to 29. `len` is its payload granules. -/
def Header.bytes (h : Header) (len : Nat) : List Byte :=
  let b := leBytes 2 h.epoch.toNat ++ [BitVec.ofNat 8 (h.ctx % 64 + 64 * h.kind), BitVec.ofNat 8 len] ++ leBytes 2 (h.core + 1024 * h.queue)
    ++ leBytes 2 h.dest ++ leBytes 2 h.granule ++ leBytes 2 h.tag ++ [BitVec.ofNat 8 (h.token + if h.signal then 32 else 0)] ++ List.replicate 3 0
    ++ leBytes 8 (bitsOf h.poison) ++ leBytes 6 h.remote
  b ++ leBytes 2 (crc16 b)

/-- The `n` bytes of a header from `a` as a number. -/
def headerNat (b : List Byte) (a n : Nat) : Nat := leNat ((b.drop a).take n)

/-- A header whose check agrees; none on a mismatch. -/
def Header.read (b : List Byte) : Option Header :=
  if crc16 (b.take 30) = headerNat b 30 2 then
    some { epoch := BitVec.ofNat 16 (headerNat b 0 2), ctx := headerNat b 2 1 % 64, kind := headerNat b 2 1 / 64, core := headerNat b 4 2 % 1024,
           queue := headerNat b 4 2 / 1024 % 16, dest := headerNat b 6 2 % 1024, granule := headerNat b 8 2, tag := headerNat b 10 2,
           token := headerNat b 12 1 % 32, signal := headerNat b 12 1 / 32 % 2 == 1,
           poison := (List.range (headerNat b 3 1 % 128)).map (fun i => headerNat b 16 8 / 2 ^ i % 2 == 1), remote := headerNat b 24 6 }
  else none

/-- Is a reserved field of a header zero? -/
def reservedClear (b : List Byte) : Bool :=
  decide (headerNat b 3 1 < 128 ∧ headerNat b 4 2 < 2 ^ 14 ∧ headerNat b 6 2 < 2 ^ 10 ∧ headerNat b 12 1 < 2 ^ 6 ∧ headerNat b 13 3 = 0)

/-- Kind 0b11, a reserved field that is not zero, or a destination granule range beyond granule 49,151 (R192). -/
def badPacket (b : List Byte) : Bool :=
  headerNat b 2 1 / 64 == 3 || !reservedClear b || decide (49152 < headerNat b 8 2 + headerNat b 3 1 % 128)

/-- What a receiver reads of a header that was sent as `sent`: nothing if its errors are detected and not corrected, or its check disagrees. -/
def receivedHeader (sent : List Byte) (flips : Flips) (read : List Byte) : Option (List Byte) :=
  match secded 4 flips with
  | .clean | .corrected => some sent
  | .uncorrectable => none
  | .missed => if (Header.read read).isSome then some read else none

end Sys2Proof.Machine
end

