-- ==== Sys2Proof/Machine/HostState.lean ====
section
/-! DEFINITION. State of the host interface, of attention, of captures and of resets (12, 14, 17). -/

namespace Sys2Proof.Machine

/-- A reply that has not been written to its ring yet (12 R341, R344), with the number of its command. Its status field is formed when it is written. -/
structure Reply where
  id : Nat
  sq : Nat
  ring : Nat
  tag : BitVec 16
  code : Byte
  result : W32
  time : W64
  tail : List Byte
  deriving DecidableEq, Repr

/-- The registers of ring n (12 R337, R338) and the counts the module keeps for it. -/
structure Ring where
  sqBase : W64
  sqEnable : Bool
  sqError : Bool
  sqReply : Nat
  sqExp : Nat
  sqHead : W32
  sqDoor : W32
  rqBase : W64
  rqEnable : Bool
  rqError : Bool
  rqExp : Nat
  rqTail : W32
  rqProduced : W32
  rqShadow : W64
  armed : Bool
  waiting : List Reply
  deriving DecidableEq, Repr

def Ring.reset : Ring := ⟨0, false, false, 0, 0, 0, 0, 0, false, false, 0, 0, 0, 0, false, []⟩

/-- A command that the module has fetched and not yet replied to (12 R347, R348, R361): `started` by R347, `begun` once its effect has; `mark` is
the first request after a change of translation that it waits for (R464). -/
structure HostCmd where
  id : Nat
  sq : Nat
  ring : Nat
  bytes : List Byte
  fetched : W64
  version : Nat
  started : Bool
  begun : Bool
  mark : Nat
  deriving DecidableEq, Repr

/-- An entry of the attention log (12 R350). -/
structure AttnEntry where
  seq : W32
  level : Nat
  source : Nat
  cause : Nat
  acked : Bool
  tagValid : Bool
  register : W32
  value : W32
  suspect : BitVec 16
  ctx : Byte
  epoch : BitVec 16
  tag : BitVec 16
  code : Byte
  step : W64
  time : W64
  count : W64
  deriving DecidableEq, Repr

/-- Attention (12 R349 to R352). -/
structure Attention where
  seq : W32
  log : List AttnEntry
  lost : Nat
  lostLevel : Nat
  deriving DecidableEq, Repr

def Attention.reset : Attention := ⟨0, [], 0, 0⟩

/-- Data of the last BAR read that completed: bytes and poison (12 R335, 17 R441). An output. -/
structure ReadData where
  bytes : List Byte
  poisoned : Bool
  deriving DecidableEq, Repr

/-- The host interface (12, 17). `busWrites`, `msixSent` and `lastRead` are outputs. -/
structure HostIf where
  rings : List (Nat × Ring)
  winBase : W64
  badAccess : W32
  csCount : Nat
  csKind : Nat
  csOffset : Nat
  latch : Option W32
  held : Option (Nat × W32)
  session : Nat
  msixTable : List (Nat × W32)
  msixEnable : Bool
  functionMask : Bool
  pba : W64
  msixSent : List Nat
  cmds : List HostCmd
  nextCmd : Nat
  busWrites : List (Nat × List Byte)
  lastRead : Option ReadData
  linkUp : Bool
  linkSpeed : Nat
  linkWidth : Nat
  heldDoorbells : List (Nat × W32)
  deriving DecidableEq, Repr

/-- The host interface after a module reset: rings disabled, no session (14 R389, 17 R434). -/
def HostIf.reset : HostIf :=
  { rings := [], winBase := 0, badAccess := 0, csCount := 0, csKind := 0, csOffset := 0, latch := none, held := none, session := 0,
    msixTable := [], msixEnable := true, functionMask := false, pba := 0, msixSent := [], cmds := [], nextCmd := 0, busWrites := [],
    lastRead := none, linkUp := false, linkSpeed := 0, linkWidth := 0, heldDoorbells := [] }

/-- A fault record (14 R387). -/
structure FaultRec where
  code : Nat
  engine : Nat
  instr : Nat
  core : Nat
  time : W64
  deriving DecidableEq, Repr

/-- A capture held in its slot of the capture area (14 R385, R386): its index and bytes. -/
structure Capture where
  index : BitVec 16
  bytes : List Byte
  read : Bool
  deriving DecidableEq, Repr

/-- A reset in progress (14 R389, R392): kind, die, number, cause, whether it is counted, the commands that wait for it, the context it was begun
for, when it began and how often it has been tried. -/
structure ResetRec where
  kind : Nat
  die : Nat
  num : Nat
  cause : Nat
  counted : Bool
  cmds : List Nat
  ctx : Option Nat
  started : Nat
  tries : Nat
  deriving DecidableEq, Repr

/-- Resets and service (14 R392 to R398, 17 R440). -/
structure ResetState where
  inProgress : List ResetRec
  state : Nat
  outOfService : Bool
  degraded : List Nat
  lastKind : Nat
  lastCause : Nat
  hour : Nat
  day : Nat
  total : Nat
  deriving DecidableEq, Repr

/-- An oasis pair (17 R440): 0 in service, 1 failed, 2 restarting; the pair that hosts its services. -/
structure Service where
  state : Nat
  host : Nat
  deriving DecidableEq, Repr

end Sys2Proof.Machine
end

