-- ==== Sys2Proof/Machine/Num.lean ====
section
/-! DEFINITION. Number formats, exact values, the one rounding procedure and conversions between formats (03 R66 to R89). -/

namespace Sys2Proof.Machine

/-- The rounding modes of R82; the encoding is that of R106. -/
inductive Rounding where
  | rne
  | rtz
  | sr
  deriving DecidableEq, Repr

/-- The rounding field of R106 and R135: 0b11 is reserved. -/
def Rounding.ofCode : Nat → Option Rounding
  | 0 => some .rne
  | 1 => some .rtz
  | 2 => some .sr
  | _ => none

/-- The exact value of a code: NaN, an infinity, or (-1)^neg * m * 2^e. A zero keeps its sign (R71). -/
inductive FVal where
  | nan
  | inf (neg : Bool)
  | fin (neg : Bool) (m : Nat) (e : Int)
  deriving DecidableEq, Repr

/-- What an operation does to the sticky flags (R90): `cause` is 0 for no invalid event, else a code of R92. -/
structure Ev where
  ov : Bool := false
  un : Bool := false
  ix : Bool := false
  cause : Nat := 0
  deriving DecidableEq, Repr

/-- No flag. -/
def Ev.none : Ev := {}

/-- Both events; the first cause stands (R91). -/
def Ev.or (a b : Ev) : Ev :=
  { ov := a.ov || b.ov, un := a.un || b.un, ix := a.ix || b.ix, cause := if a.cause = 0 then b.cause else a.cause }

/-- Events of a list of steps, in order. -/
def Ev.all (l : List Ev) : Ev := l.foldl Ev.or {}

/-- An invalid event; it sets no other flag (R90). -/
def Ev.invalid (c : Nat) : Ev := { cause := c }

/-- A binary floating-point format of R66: `p` fraction bits, `ew` exponent bits, its bias.
`special` says how codes with the top exponent are read (R68): 0 infinities and NaN, 1 only the all-ones code is NaN (E4M3), 2 none. -/
structure FFmt where
  p : Nat
  ew : Nat
  bias : Nat
  special : Nat
  nan : Nat
  deriving DecidableEq, Repr

namespace Fmts
def e4m3 : FFmt := ⟨3, 4, 7, 1, 0x7F⟩
def e5m2 : FFmt := ⟨2, 5, 15, 0, 0x7E⟩
def e3m2 : FFmt := ⟨2, 3, 3, 2, 0⟩
def e2m3 : FFmt := ⟨3, 2, 1, 2, 0⟩
def e2m1 : FFmt := ⟨1, 2, 1, 2, 0⟩
def bf16 : FFmt := ⟨7, 8, 127, 0, 0x7FC0⟩
def fp16 : FFmt := ⟨10, 5, 15, 0, 0x7E00⟩
def fp32 : FFmt := ⟨23, 8, 127, 0, 0x7FC00000⟩
/-- Master48 and E8M39 as one 48-bit code: the FP32 word above the 16-bit tail (R79, R80). -/
def m48 : FFmt := ⟨39, 8, 127, 0, 0x7FC000000000⟩
end Fmts

/-- Exponent of the smallest normal binade. -/
def FFmt.emin (f : FFmt) : Int := 1 - (f.bias : Int)

/-- Exponent of the largest normal binade, the emax column of R66. -/
def FFmt.emax (f : FFmt) : Int :=
  if f.special = 0 then (2 ^ f.ew : Nat) - 2 - (f.bias : Int) else (2 ^ f.ew : Nat) - 1 - (f.bias : Int)

/-- The largest finite magnitude is maxM * 2^(emax - p). -/
def FFmt.maxM (f : FFmt) : Nat := if f.special = 1 then 2 ^ (f.p + 1) - 2 else 2 ^ (f.p + 1) - 1

/-- The number of bits of a code. -/
def FFmt.width (f : FFmt) : Nat := f.p + f.ew + 1

/-- The exact value of a code (R66, R68). A Master48 tail is ignored when the word is not finite (R79). -/
def FFmt.decode (f : FFmt) (code : Nat) : FVal :=
  let neg := code.testBit (f.p + f.ew)
  let ex := code / 2 ^ f.p % 2 ^ f.ew
  let fr := code % 2 ^ f.p
  let top := 2 ^ f.ew - 1
  if f.special = 0 ∧ ex = top then
    (if (if f.p = 39 then fr / 2 ^ 16 else fr) = 0 then .inf neg else .nan)
  else if f.special = 1 ∧ ex = top ∧ fr = 2 ^ f.p - 1 then .nan
  else if ex = 0 then .fin neg fr (f.emin - f.p)
  else .fin neg (2 ^ f.p + fr) ((ex : Int) - f.bias - f.p)

/-- Sign bit of a code. -/
def FFmt.signBit (f : FFmt) (neg : Bool) : Nat := if neg then 2 ^ (f.p + f.ew) else 0

/-- The code of (-1)^neg * k * 2^u for a value on the format's grid (k at most 2^(p+1), u at least emin - p). -/
def FFmt.encodeGrid (f : FFmt) (neg : Bool) (k : Nat) (u : Int) : Nat :=
  let (k, u) := if k = 2 ^ (f.p + 1) then (2 ^ f.p, u + 1) else (k, u)
  let mag := if k < 2 ^ f.p then k else (u + f.p + f.bias).toNat * 2 ^ f.p + (k - 2 ^ f.p)
  f.signBit neg + mag

/-- The code of an infinity, for a format that has one. -/
def FFmt.infCode (f : FFmt) (neg : Bool) : Nat := f.signBit neg + (2 ^ f.ew - 1) * 2 ^ f.p

/-- The code of the largest finite magnitude. -/
def FFmt.maxCode (f : FFmt) (neg : Bool) : Nat := f.encodeGrid neg f.maxM (f.emax - f.p)

/-- The integer e0 with 2^e0 at most m * 2^e and below 2^(e0 + 1) (R87); m is not zero. -/
def floorLog2 (m : Nat) (e : Int) : Int := (Nat.log2 m : Int) + e

/-- Multiply by a power of two: the exact quotient and remainder of m * 2^e by 2^u, the remainder in units of 2^(u - sh). -/
def splitAt (m : Nat) (e u : Int) : Nat × Nat × Nat :=
  if u ≤ e then (m * 2 ^ (e - u).toNat, 0, 0)
  else
    let sh := (u - e).toNat
    (m / 2 ^ sh, m % 2 ^ sh, sh)

/-- The rounding procedure of R82 on the grid of unit 2^u: the rounded magnitude in units, and whether it is inexact. -/
def roundUnits (m : Nat) (e u : Int) (mode : Rounding) (draw : Nat) : Nat × Bool :=
  let (k, rem, sh) := splitAt m e u
  if rem = 0 then (k, false)
  else
    let up : Bool := match mode with
      | .rtz => false
      | .rne => decide (2 * rem > 2 ^ sh) || (decide (2 * rem = 2 ^ sh) && decide (k % 2 = 1))
      | .sr => decide (draw < rem * 2 ^ 16 / 2 ^ sh)
    (if up then k + 1 else k, true)

/-- The unit of R82 for a magnitude m * 2^e in a floating-point grid of `p` fraction bits: subnormals share the emin binade. -/
def ulpExp (m : Nat) (e : Int) (p : Nat) (emin : Int) : Int := max (floorLog2 m e) emin - p

/-- Compare m1 * 2^e1 with m2 * 2^e2. -/
def magLt (m1 : Nat) (e1 : Int) (m2 : Nat) (e2 : Int) : Bool :=
  let e := min e1 e2
  decide (m1 * 2 ^ (e1 - e).toNat < m2 * 2 ^ (e2 - e).toNat)

/-- What a finite value beyond the largest magnitude becomes. -/
inductive OverflowTo where
  | infinity   -- R107, and RNE and SR of R85
  | largest    -- RTZ of R85, the saturate option, R78
  deriving DecidableEq, Repr

/-- Round a finite non-zero value into a format, with the flags of R85. -/
def FFmt.roundFin (f : FFmt) (mode : Rounding) (draw : Nat) (o : OverflowTo) (neg : Bool) (m : Nat) (e : Int) : Nat × Ev :=
  let u := ulpExp m e f.p f.emin
  let (k, inx) := roundUnits m e u mode draw
  if magLt f.maxM (f.emax - f.p) k u then
    (match o with | .infinity => f.infCode neg | .largest => f.maxCode neg, { ov := true, ix := true })
  else (f.encodeGrid neg k u, { un := inx && magLt m e 1 f.emin, ix := inx })

/-- The overflow rule of a conversion (R85). -/
def overflowRule (mode : Rounding) (sat : Bool) : OverflowTo :=
  if sat || mode == .rtz then .largest else .infinity

/-- A conversion into a format that has infinities (R85); also the rounding of an arithmetic result (R159). -/
def FFmt.convert (f : FFmt) (mode : Rounding) (sat : Bool) (draw : Nat) : FVal → Nat × Ev
  | .nan => (f.nan, {})
  | .inf neg => (f.infCode neg, {})
  | .fin neg m e => if m = 0 then (f.signBit neg, {}) else f.roundFin mode draw (overflowRule mode sat) neg m e

/-- A sum entering an accumulator: as a conversion, but overflow gives an infinity in every mode (R107). -/
def FFmt.accumulate (f : FFmt) (mode : Rounding) (draw : Nat) : FVal → Nat × Ev
  | .nan => (f.nan, {})
  | .inf neg => (f.infCode neg, {})
  | .fin neg m e => if m = 0 then (f.signBit neg, {}) else f.roundFin mode draw .infinity neg m e

/-- Encoding into tensor-scaled FP8 (R77, R78): a finite value never becomes an infinity; an infinity becomes NaN in E4M3. -/
def FFmt.convertScaled (f : FFmt) (mode : Rounding) (draw : Nat) : FVal → Nat × Ev
  | .nan => (f.nan, {})
  | .inf neg => if f.special = 0 then (f.infCode neg, {}) else (f.nan, Ev.invalid 5)
  | .fin neg m e => if m = 0 then (f.signBit neg, {}) else f.roundFin mode draw .largest neg m e

/-- Conversion of an exact value to INT32 (R81). -/
def toInt32 (mode : Rounding) (draw : Nat) : FVal → W32 × Ev
  | .nan => (0, Ev.invalid 5)
  | .inf neg => (if neg then 0x80000000 else 0x7FFFFFFF, Ev.invalid 7)
  | .fin neg m e =>
    let (k, inx) := roundUnits m e 0 mode draw
    if neg then
      (if k > 2 ^ 31 then (0x80000000, Ev.invalid 7) else (BitVec.ofInt 32 (-(k : Int)), { ix := inx }))
    else
      (if k ≥ 2 ^ 31 then (0x7FFFFFFF, Ev.invalid 7) else (BitVec.ofNat 32 k, { ix := inx }))

/-- The exact value of an INT32 (R81). -/
def ofInt32 (w : W32) : FVal :=
  if w.toInt < 0 then .fin true (-w.toInt).toNat 0 else .fin false w.toNat 0

/-- Negation of an exact value. -/
def FVal.neg : FVal → FVal
  | .nan => .nan
  | .inf n => .inf (!n)
  | .fin n m e => .fin (!n) m e

/-- Is the value a zero? -/
def FVal.isZero : FVal → Bool
  | .fin _ m _ => m == 0
  | _ => false

/-- Is the value neither NaN nor an infinity (R95)? -/
def FVal.isFinite : FVal → Bool
  | .fin _ _ _ => true
  | _ => false

/-- Is the value a positive finite number (R77)? -/
def FVal.posFinite : FVal → Bool
  | .fin false m _ => m != 0
  | _ => false

/-- Magnitude of a finite value; infinities and NaN have none. -/
def FVal.abs : FVal → FVal
  | .nan => .nan
  | .inf _ => .inf false
  | .fin _ m e => .fin false m e

/-- The exact product, with the cause of R92 when zero meets an infinity; the sign is the exclusive or (R71). -/
def FVal.mul : FVal → FVal → FVal × Nat
  | .nan, _ => (.nan, 0)
  | _, .nan => (.nan, 0)
  | .inf a, .inf b => (.inf (a != b), 0)
  | .inf a, .fin b m _ => if m = 0 then (.nan, 1) else (.inf (a != b), 0)
  | .fin a m _, .inf b => if m = 0 then (.nan, 1) else (.inf (a != b), 0)
  | .fin a m e, .fin b n g => (.fin (a != b) (m * n) (e + g), 0)

/-- Signed integer value of a finite number in units of 2^u, u at most its exponent. -/
def signedUnits (neg : Bool) (m : Nat) (e u : Int) : Int :=
  let k : Int := (m * 2 ^ (e - u).toNat : Nat)
  if neg then -k else k

/-- The exact sum (R71: opposite zeros and x + (-x) give +0), with cause 2 for opposite infinities. -/
def FVal.add : FVal → FVal → FVal × Nat
  | .nan, _ => (.nan, 0)
  | _, .nan => (.nan, 0)
  | .inf a, .inf b => if a = b then (.inf a, 0) else (.nan, 2)
  | .inf a, .fin _ _ _ => (.inf a, 0)
  | .fin _ _ _, .inf b => (.inf b, 0)
  | .fin a m e, .fin b n g =>
    if m = 0 ∧ n = 0 then (.fin (a && b) 0 0, 0)
    else
      let u := min e g
      let t := signedUnits a m e u + signedUnits b n g u
      (.fin (decide (t < 0)) t.natAbs u, 0)

/-- The exact a * b + c (R158): zero times an infinity gives cause 1 even if c is NaN. -/
def FVal.fma (a b c : FVal) : FVal × Nat :=
  let (p, k) := FVal.mul a b
  if k ≠ 0 then (.nan, k) else FVal.add p c

/-- Is a below b, with -0 below +0 (R158)? NaN compares false. -/
def FVal.lt : FVal → FVal → Bool
  | .nan, _ => false
  | _, .nan => false
  | .inf a, .inf b => a && !b
  | .inf a, .fin _ _ _ => a
  | .fin _ _ _, .inf b => !b
  | .fin a m e, .fin b n g =>
    if m = 0 ∧ n = 0 then a && !b
    else
      let u := min e g
      decide (signedUnits a m e u < signedUnits b n g u)

/-- Exact power of two times a value. -/
def FVal.scale (x : FVal) (k : Int) : FVal :=
  match x with
  | .fin n m e => .fin n m (e + k)
  | y => y

/-- Digits of an integer square root below bit `i`. -/
def isqrtFrom (n : Nat) : Nat → Nat → Nat
  | 0, r => r
  | i + 1, r => isqrtFrom n i (if (r + 2 ^ i) * (r + 2 ^ i) ≤ n then r + 2 ^ i else r)

/-- The integer square root. -/
def isqrt (n : Nat) : Nat := isqrtFrom n (Nat.log2 n / 2 + 1) 0

/-- Square root of a positive finite value as a value that rounds as the exact root does in RNE and RTZ to at most 60 bits. -/
def sqrtSticky (m : Nat) (e : Int) : FVal :=
  let (m, e) := if e % 2 = 0 then (m, e) else (2 * m, e - 1)
  let n := m * 2 ^ 128
  let r := isqrt n
  .fin false (2 * r + if r * r = n then 0 else 1) (e / 2 - 65)

/-- A code of the named format as an exact value, given as a bit vector. -/
def f32 (w : W32) : FVal := Fmts.fp32.decode w.toNat

end Sys2Proof.Machine
end

