-- ==== Sys2Proof/Machine/Tables.lean ====
section
/-! DEFINITION. The tables and constants of the reference algorithms (06 R162): each entry is the correctly rounded value of the real number that R162 names. -/

namespace Sys2Proof.Machine.Tables

def tr0 : List W32 := [
   0x3F7E03F8, 0x3F7A232D, 0x3F76603E, 0x3F72B9D6, 0x3F6F2EB7, 0x3F6BBDB3, 0x3F6865AC, 0x3F652598,
   0x3F61FC78, 0x3F5EE95C, 0x3F5BEB62, 0x3F5901B2, 0x3F562B81, 0x3F53680D, 0x3F50B6A0, 0x3F4E168A,
   0x3F4B8728, 0x3F4907DA, 0x3F46980C, 0x3F443730, 0x3F41E4BC, 0x3F3FA030, 0x3F3D6910, 0x3F3B3EE7,
   0x3F392144, 0x3F370FBB, 0x3F3509E7, 0x3F330F63, 0x3F311FD4, 0x3F2F3ADE, 0x3F2D602B, 0x3F2B8F6A]

def tr1 : List W32 := [
   0x3F29C84A, 0x3F280A81, 0x3F2655C4, 0x3F24A9CF, 0x3F23065E, 0x3F216B31, 0x3F1FD80A, 0x3F1E4CAD,
   0x3F1CC8E1, 0x3F1B4C70, 0x3F19D723, 0x3F1868C8, 0x3F17012E, 0x3F15A025, 0x3F144581, 0x3F12F114,
   0x3F11A2B4, 0x3F105A38, 0x3F0F177A, 0x3F0DDA52, 0x3F0CA29C, 0x3F0B7034, 0x3F0A42F8, 0x3F091AC7,
   0x3F07F781, 0x3F06D905, 0x3F05BF37, 0x3F04A9FA, 0x3F039930, 0x3F028CC0, 0x3F01848E, 0x3F008081]

/-- TR[i] = RNE(1 / (1 + (2i + 1) / 128)), 64 entries. -/
def tr : List W32 := tr0 ++ tr1

def tq0 : List W32 := [
   0x3F7F017E, 0x3F7D0D3E, 0x3F7B2452, 0x3F79464E, 0x3F7772CB, 0x3F75A969, 0x3F73E9CB, 0x3F723399,
   0x3F708681, 0x3F6EE232, 0x3F6D4660, 0x3F6BB2C5, 0x3F6A271A, 0x3F68A31D, 0x3F672691, 0x3F65B139,
   0x3F6442DB, 0x3F62DB41, 0x3F617A36, 0x3F601F87, 0x3F5ECB04, 0x3F5D7C7F, 0x3F5C33CC, 0x3F5AF0BF,
   0x3F59B330, 0x3F587AF7, 0x3F5747EE, 0x3F5619F2, 0x3F54F0DF, 0x3F53CC93, 0x3F52ACEE, 0x3F5191D1]

def tq1 : List W32 := [
   0x3F507B1D, 0x3F4F68B6, 0x3F4E5A7F, 0x3F4D505E, 0x3F4C4A38, 0x3F4B47F4, 0x3F4A497A, 0x3F494EB3,
   0x3F485787, 0x3F4763E2, 0x3F4673AC, 0x3F4586D3, 0x3F449D42, 0x3F43B6E6, 0x3F42D3AD, 0x3F41F383,
   0x3F411659, 0x3F403C1C, 0x3F3F64BD, 0x3F3E902C, 0x3F3DBE58, 0x3F3CEF34, 0x3F3C22B1, 0x3F3B58C0,
   0x3F3A9154, 0x3F39CC60, 0x3F3909D6, 0x3F3849AA, 0x3F378BD0, 0x3F36D03D, 0x3F3616E4, 0x3F355FBA]

def tq2 : List W32 := [
   0x3F34AAB4, 0x3F33F7C9, 0x3F3346ED, 0x3F329816, 0x3F31EB3B, 0x3F314052, 0x3F309752, 0x3F2FF032,
   0x3F2F4AE9, 0x3F2EA76E, 0x3F2E05BA, 0x3F2D65C3, 0x3F2CC782, 0x3F2C2AF0, 0x3F2B9004, 0x3F2AF6B7,
   0x3F2A5F03, 0x3F29C8E0, 0x3F293446, 0x3F28A131, 0x3F280F98, 0x3F277F76, 0x3F26F0C4, 0x3F26637D,
   0x3F25D79A, 0x3F254D15, 0x3F24C3EA, 0x3F243C11, 0x3F23B587, 0x3F233045, 0x3F22AC46, 0x3F222985]

def tq3 : List W32 := [
   0x3F21A7FE, 0x3F2127AC, 0x3F20A889, 0x3F202A91, 0x3F1FADC0, 0x3F1F3210, 0x3F1EB77F, 0x3F1E3E06,
   0x3F1DC5A3, 0x3F1D4E52, 0x3F1CD80D, 0x3F1C62D1, 0x3F1BEE9B, 0x3F1B7B67, 0x3F1B0930, 0x3F1A97F3,
   0x3F1A27AE, 0x3F19B85B, 0x3F1949F8, 0x3F18DC82, 0x3F186FF5, 0x3F18044E, 0x3F17998A, 0x3F172FA5,
   0x3F16C69E, 0x3F165E70, 0x3F15F718, 0x3F159095, 0x3F152AE3, 0x3F14C5FF, 0x3F1461E7, 0x3F13FE97]

def tq4 : List W32 := [
   0x3F139C0E, 0x3F133A49, 0x3F12D945, 0x3F127900, 0x3F121978, 0x3F11BAA9, 0x3F115C92, 0x3F10FF30,
   0x3F10A281, 0x3F104684, 0x3F0FEB35, 0x3F0F9092, 0x3F0F369A, 0x3F0EDD4A, 0x3F0E84A0, 0x3F0E2C9B,
   0x3F0DD538, 0x3F0D7E75, 0x3F0D2851, 0x3F0CD2C9, 0x3F0C7DDC, 0x3F0C2988, 0x3F0BD5CB, 0x3F0B82A4,
   0x3F0B3010, 0x3F0ADE0E, 0x3F0A8C9D, 0x3F0A3BBA, 0x3F09EB64, 0x3F099B9A, 0x3F094C59, 0x3F08FDA1]

def tq5 : List W32 := [
   0x3F08AF6F, 0x3F0861C3, 0x3F08149B, 0x3F07C7F5, 0x3F077BD0, 0x3F07302A, 0x3F06E503, 0x3F069A58,
   0x3F065029, 0x3F060674, 0x3F05BD38, 0x3F057474, 0x3F052C25, 0x3F04E44C, 0x3F049CE7, 0x3F0455F4,
   0x3F040F72, 0x3F03C961, 0x3F0383BF, 0x3F033E8B, 0x3F02F9C3, 0x3F02B568, 0x3F027176, 0x3F022DEF,
   0x3F01EAD0, 0x3F01A818, 0x3F0165C6, 0x3F0123DA, 0x3F00E253, 0x3F00A12E, 0x3F00606D, 0x3F00200C]

/-- TQ[i] = RNE(1 / sqrt(1 + (2i + 1) / 128)), 192 entries. -/
def tq : List W32 := tq0 ++ tq1 ++ tq2 ++ tq3 ++ tq4 ++ tq5

def te0 : List W32 := [
   0x3F800000, 0x3F8164D2, 0x3F82CD87, 0x3F843A29, 0x3F85AAC3, 0x3F871F62, 0x3F88980F, 0x3F8A14D5,
   0x3F8B95C2, 0x3F8D1ADF, 0x3F8EA43A, 0x3F9031DC, 0x3F91C3D3, 0x3F935A2B, 0x3F94F4F0, 0x3F96942D,
   0x3F9837F0, 0x3F99E046, 0x3F9B8D3A, 0x3F9D3EDA, 0x3F9EF532, 0x3FA0B051, 0x3FA27043, 0x3FA43516,
   0x3FA5FED7, 0x3FA7CD94, 0x3FA9A15B, 0x3FAB7A3A, 0x3FAD583F, 0x3FAF3B79, 0x3FB123F6, 0x3FB311C4]

def te1 : List W32 := [
   0x3FB504F3, 0x3FB6FD92, 0x3FB8FBAF, 0x3FBAFF5B, 0x3FBD08A4, 0x3FBF179A, 0x3FC12C4D, 0x3FC346CD,
   0x3FC5672A, 0x3FC78D75, 0x3FC9B9BE, 0x3FCBEC15, 0x3FCE248C, 0x3FD06334, 0x3FD2A81E, 0x3FD4F35B,
   0x3FD744FD, 0x3FD99D16, 0x3FDBFBB8, 0x3FDE60F5, 0x3FE0CCDF, 0x3FE33F89, 0x3FE5B907, 0x3FE8396A,
   0x3FEAC0C7, 0x3FED4F30, 0x3FEFE4BA, 0x3FF28177, 0x3FF5257D, 0x3FF7D0DF, 0x3FFA83B3, 0x3FFD3E0C]

/-- TE[j] = RNE(2^(j / 64)), 64 entries. -/
def te : List W32 := te0 ++ te1

def tl0 : List W32 := [
   0x3FA9C84A, 0x3FA80A81, 0x3FA655C4, 0x3FA4A9CF, 0x3FA3065E, 0x3FA16B31, 0x3F9FD80A, 0x3F9E4CAD,
   0x3F9CC8E1, 0x3F9B4C70, 0x3F99D723, 0x3F9868C8, 0x3F97012E, 0x3F95A025, 0x3F944581, 0x3F92F114,
   0x3F91A2B4, 0x3F905A38, 0x3F8F177A, 0x3F8DDA52, 0x3F8CA29C, 0x3F8B7034, 0x3F8A42F8, 0x3F891AC7,
   0x3F87F781, 0x3F86D905, 0x3F85BF37, 0x3F84A9FA, 0x3F839930, 0x3F828CC0, 0x3F81848E, 0x3F800000]

def tl1 : List W32 := [
   0x3F800000, 0x3F7D08E5, 0x3F7B1885, 0x3F792FB2, 0x3F774E40, 0x3F757404, 0x3F73A0D5, 0x3F71D48C,
   0x3F700F01, 0x3F6E500F, 0x3F6C9791, 0x3F6AE564, 0x3F693965, 0x3F679373, 0x3F65F36D, 0x3F645933,
   0x3F62C4A7, 0x3F6135AA, 0x3F5FAC1F, 0x3F5E27EB, 0x3F5CA8F1, 0x3F5B2F17, 0x3F59BA42, 0x3F584A5A,
   0x3F56DF44, 0x3F5578E9, 0x3F541733, 0x3F52BA08, 0x3F516154, 0x3F500D01, 0x3F4EBCF9, 0x3F4D7127]

def tl2 : List W32 := [
   0x3F4C2978, 0x3F4AE5D8, 0x3F49A634, 0x3F486A79, 0x3F473294, 0x3F45FE74, 0x3F44CE08, 0x3F43A13E,
   0x3F427806, 0x3F415250, 0x3F40300C, 0x3F3F112B, 0x3F3DF59D, 0x3F3CDD53, 0x3F3BC841, 0x3F3AB656,
   0x3F39A786, 0x3F389BC3, 0x3F379301, 0x3F368D31, 0x3F358A48, 0x3F348A3A, 0x3F338CFA, 0x3F32927C,
   0x3F319AB6, 0x3F30A59B, 0x3F2FB322, 0x3F2EC33E, 0x3F2DD5E6, 0x3F2CEB10, 0x3F2C02B0, 0x3F2B1CBE]

/-- TL[i] = RNE(1 / (0.75 + (2i + 1) / 256)), and 1.0 at 31 and 32; 96 entries. -/
def tl : List W32 := tl0 ++ tl1 ++ tl2

def tb0 : List W32 := [
   0xBED0A977, 0xBEC90C02, 0xBEC1826C, 0xBEBA0C56, 0xBEB2A959, 0xBEAB5916, 0xBEA41B2F, 0xBE9CEF46,
   0xBE95D504, 0xBE8ECC18, 0xBE87D425, 0xBE80ECDE, 0xBE742BEA, 0xBE669E35, 0xBE593016, 0xBE4BE0EA,
   0xBE3EB027, 0xBE319D42, 0xBE24A7C5, 0xBE17CF19, 0xBE0B12C9, 0xBDFCE4A9, 0xBDE3DA8B, 0xBDCB0653,
   0xBDB2671E, 0xBD99FBE1, 0xBD81C3EF, 0xBD537CEB, 0xBD23D4F5, 0xBCE91D95, 0xBC8B512E, 0x00000000]

def tb1 : List W32 := [
   0x00000000, 0x3C89B197, 0x3CE49B30, 0x3D1F6988, 0x3D4C2DF8, 0x3D789C48, 0x3D925ADE, 0x3DA83DBF,
   0x3DBDF774, 0x3DD3888E, 0x3DE8F1A8, 0x3DFE3351, 0x3E09A70E, 0x3E14214A, 0x3E1E88A1, 0x3E28DD5C,
   0x3E331FB5, 0x3E3D4FF5, 0x3E476E5A, 0x3E517B1A, 0x3E5B767B, 0x3E6560B3, 0x3E6F3A01, 0x3E790297,
   0x3E815D5D, 0x3E86314D, 0x3E8AFD32, 0x3E8FC131, 0x3E947D5B, 0x3E9931CA, 0x3E9DDE9C, 0x3EA283E9]

def tb2 : List W32 := [
   0x3EA721C6, 0x3EABB84A, 0x3EB0478E, 0x3EB4CFA8, 0x3EB950B1, 0x3EBDCABD, 0x3EC23DE0, 0x3EC6AA33,
   0x3ECB0FC8, 0x3ECF6EB4, 0x3ED3C70A, 0x3ED818DE, 0x3EDC6445, 0x3EE0A955, 0x3EE4E816, 0x3EE920A6,
   0x3EED5312, 0x3EF17F6C, 0x3EF5A5C1, 0x3EF9C62C, 0x3EFDE0B7, 0x3F00FAB9, 0x3F030238, 0x3F0506E2,
   0x3F0708BB, 0x3F0907CF, 0x3F0B0421, 0x3F0CFDBE, 0x3F0EF4A9, 0x3F10E8EA, 0x3F12DA8B, 0x3F14C98F]

/-- TB[i] = RNE(-log2(TL[i])), and +0 at 31 and 32; 96 entries. -/
def tb : List W32 := tb0 ++ tb1 ++ tb2

/-- RNE(ln 2). -/
def c1 : W32 := 0x3F317218
/-- RNE((ln 2)^2 / 2). -/
def c2 : W32 := 0x3E75FDF0
/-- RNE((ln 2)^3 / 6). -/
def c3 : W32 := 0x3D635847
/-- RNE(1 / 3). -/
def k3 : W32 := 0x3EAAAAAB
/-- RNE(1 / 5). -/
def k5 : W32 := 0x3E4CCCCD
/-- RNE(1 / ln 2). -/
def l2e : W32 := 0x3FB8AA3B

end Sys2Proof.Machine.Tables
end

