-- ==== Sys2Proof/Machine/Float.lean ====
section
/-! DEFINITION. FP32 and narrower arithmetic as the engines do it, and the reference algorithms (06 R158 to R167). -/

namespace Sys2Proof.Machine

/-- An FP32 result with the flags it sets. -/
abbrev FRes := W32 × Ev

/-- Round an exact value, or its invalid event, into FP32. -/
def f32Round (mode : Rounding) (sat : Bool) (x : FVal × Nat) : FRes :=
  if x.2 ≠ 0 then (0x7FC00000, Ev.invalid x.2)
  else
    let (c, ev) := Fmts.fp32.convert mode sat 0 x.1
    (BitVec.ofNat 32 c, ev)

def f32Add (mode : Rounding) (sat : Bool) (a b : W32) : FRes := f32Round mode sat (FVal.add (f32 a) (f32 b))
def f32Sub (mode : Rounding) (sat : Bool) (a b : W32) : FRes := f32Round mode sat (FVal.add (f32 a) (f32 b).neg)
def f32Mul (mode : Rounding) (sat : Bool) (a b : W32) : FRes := f32Round mode sat (FVal.mul (f32 a) (f32 b))
def f32Fma (mode : Rounding) (sat : Bool) (a b c : W32) : FRes := f32Round mode sat (FVal.fma (f32 a) (f32 b) (f32 c))

/-- The sign bit flipped (a negated operand of a step). -/
def f32Neg (a : W32) : W32 := a ^^^ 0x80000000

def isNan32 (a : W32) : Bool := f32 a == .nan

/-- The smaller or larger operand with -0 below +0; NaN if either is NaN; no flag (R158). -/
def f32Min (a b : W32) : W32 :=
  if isNan32 a || isNan32 b then 0x7FC00000 else if FVal.lt (f32 b) (f32 a) then b else a
def f32Max (a b : W32) : W32 :=
  if isNan32 a || isNan32 b then 0x7FC00000 else if FVal.lt (f32 a) (f32 b) then b else a

/-- Each step of a reference algorithm, in RNE; intermediate lines set no flag (R161). -/
def stepAdd (a b : W32) : W32 := (f32Add .rne false a b).1
def stepMul (a b : W32) : W32 := (f32Mul .rne false a b).1
def stepFma (a b c : W32) : W32 := (f32Fma .rne false a b c).1

/-- Square root (R167). -/
def f32Sqrt (mode : Rounding) (a : W32) : FRes :=
  match f32 a with
  | .nan => (0x7FC00000, {})
  | .inf neg => if neg then (0x7FC00000, Ev.invalid 4) else (0x7F800000, {})
  | .fin neg m e =>
    if m = 0 then (a, {})
    else if neg then (0x7FC00000, Ev.invalid 4)
    else f32Round mode false (sqrtSticky m e, 0)

/-- m with 1 <= m < 2 and e, from a finite non-zero magnitude n * 2^g (R161): the 24-bit significand and e. -/
def decompose (n : Nat) (g : Int) : Nat × Int :=
  let e := floorLog2 n g
  (n * 2 ^ (23 - (e - g).toNat), e)

/-- The FP32 code of k * 2^(-23), a significand of 24 bits in [1, 2). -/
def sigF32 (k : Nat) : W32 := BitVec.ofNat 32 (Fmts.fp32.encodeGrid false k (-23))

/-- scale(sgn, q, n): the exact product rounded once in RNE (R161); `exact` says that an exact path of R165 was taken. -/
def scaleF (neg : Bool) (q : FVal) (n : Int) (exact : Bool) : FRes :=
  let v := (FVal.mul (.fin neg 1 n) q).1
  let (c, ev) := Fmts.fp32.convert .rne false 0 v
  let tiny := decide (c % 2 ^ 31 < 2 ^ 23)
  (BitVec.ofNat 32 c, { ov := ev.ov, ix := !exact, un := !exact && tiny })

/-- The constant 1.0. -/
def one32 : W32 := 0x3F800000

/-- rcp_ref with its special inputs (R161, R163). -/
def rcpRef (x : W32) : FRes :=
  match f32 x with
  | .nan => (0x7FC00000, {})
  | .inf neg => (if neg then 0x80000000 else 0, {})
  | .fin neg n g =>
    if n = 0 then (if neg then 0xFF800000 else 0x7F800000, {})
    else
      let (k, e) := decompose n g
      if k = 2 ^ 23 then scaleF neg (.fin false 1 0) (-e) (decide (-128 < e))
      else
        let m := sigF32 k
        let r0 := Tables.tr.getD ((k - 2 ^ 23) / 2 ^ 17) 0
        let t := stepFma (f32Neg m) r0 one32
        let u := stepFma t t t
        let u := stepFma u t t
        let q := stepFma r0 u r0
        scaleF neg (f32 q) (-e) false

/-- rsq_ref with its special inputs (R161, R163). -/
def rsqRef (x : W32) : FRes :=
  match f32 x with
  | .nan => (0x7FC00000, {})
  | .inf neg => if neg then (0x7FC00000, Ev.invalid 4) else (0, {})
  | .fin neg n g =>
    if n = 0 then (if neg then 0xFF800000 else 0x7F800000, {})
    else if neg then (0x7FC00000, Ev.invalid 4)
    else
      let (k, e) := decompose n g
      if k = 2 ^ 23 ∧ e % 2 = 0 then scaleF false (.fin false 1 0) (-(e / 2)) true
      else
        let odd := e % 2 ≠ 0
        let m := if odd then BitVec.ofNat 32 (Fmts.fp32.encodeGrid false k (-22)) else sigF32 k
        let i := if odd then (2 * k - 2 ^ 23) / 2 ^ 17 else (k - 2 ^ 23) / 2 ^ 17
        let e2 := if odd then (e - 1) / 2 else e / 2
        let r0 := Tables.tq.getD i 0
        let h := stepMul r0 r0
        let t := stepFma (f32Neg m) h one32
        let u := stepFma t 0x3EA00000 0x3EC00000
        let u := stepFma u t 0x3F000000
        let u := stepMul u t
        let q := stepFma r0 u r0
        scaleF false (f32 q) (-e2) false

/-- Nearest integer to m * 2^e, ties to even, signed. -/
def nearestInt (neg : Bool) (m : Nat) (e : Int) : Int :=
  let k : Int := (roundUnits m e 0 .rne 0).1
  if neg then -k else k

/-- exp2_ref with its special inputs (R161, R164). -/
def exp2Ref (x : W32) : FRes :=
  match f32 x with
  | .nan => (0x7FC00000, {})
  | .inf neg => (if neg then 0 else 0x7F800000, {})
  | .fin neg m e =>
    if m = 0 then (one32, {})
    else if !neg && !(magLt m e 128 0) then (0x7F800000, { ov := true, ix := true })
    else if neg && magLt 151 0 m e then (0, { un := true, ix := true })
    else if (splitAt m e 0).2.1 = 0 then
      let n : Int := if neg then -((splitAt m e 0).1 : Int) else (splitAt m e 0).1
      scaleF false (.fin false 1 0) n (decide (-149 ≤ n))
    else
      let k := nearestInt neg m (e + 6)
      let n := k / 64
      let j := (k % 64).toNat
      let g := (Fmts.fp32.convert .rne false 0 (FVal.add (.fin neg m e) (.fin (decide (0 < k)) k.natAbs (-6))).1).1
      let g := BitVec.ofNat 32 g
      let p := stepFma g Tables.c3 Tables.c2
      let p := stepFma p g Tables.c1
      let p := stepMul p g
      let te := Tables.te.getD j 0
      let q := stepFma te p te
      scaleF false (f32 q) n false

/-- The FP32 code of an integer, rounded in RNE. -/
def f32OfInt (n : Int) : W32 := BitVec.ofNat 32 (Fmts.fp32.convert .rne false 0 (.fin (decide (n < 0)) n.natAbs 0)).1

/-- log2_ref with its special inputs (R161, R164). -/
def log2Ref (x : W32) : FRes :=
  match f32 x with
  | .nan => (0x7FC00000, {})
  | .inf neg => if neg then (0x7FC00000, Ev.invalid 4) else (0x7F800000, {})
  | .fin neg n g =>
    if n = 0 then (0xFF800000, {})
    else if neg then (0x7FC00000, Ev.invalid 4)
    else
      let (k, e) := decompose n g
      if k = 2 ^ 23 then (f32OfInt e, {})
      else
        -- m as k * 2^(-23) or, when m >= 1.5, as k * 2^(-24)
        let big := decide (3 * 2 ^ 22 ≤ k)
        let e := if big then e + 1 else e
        let m := if big then BitVec.ofNat 32 (Fmts.fp32.encodeGrid false k (-24)) else sigF32 k
        let i := if big then (k - 3 * 2 ^ 22) / 2 ^ 17 else (2 * k - 3 * 2 ^ 22) / 2 ^ 17
        let s := if i = 31 ∨ i = 32 then stepAdd m 0xBF800000 else stepFma m (Tables.tl.getD i 0) 0xBF800000
        let p := stepFma s Tables.k5 0xBE800000
        let p := stepFma p s Tables.k3
        let p := stepFma p s 0xBF000000
        let w := stepMul p s
        let v := stepFma w s s
        let q := stepMul v Tables.l2e
        let z := stepAdd (Tables.tb.getD i 0) q
        let r := stepAdd (f32OfInt e) z
        let tiny := decide (r.toNat % 2 ^ 31 < 2 ^ 23)
        (r, { ix := true, un := tiny })

/-- Packed BF16 halves (R158): each half rounded separately into BF16. -/
def bf16Round (mode : Rounding) (sat : Bool) (x : FVal × Nat) : BitVec 16 × Ev :=
  if x.2 ≠ 0 then (0x7FC0, Ev.invalid x.2)
  else
    let (c, ev) := Fmts.bf16.convert mode sat 0 x.1
    (BitVec.ofNat 16 c, ev)

def bf16 (h : BitVec 16) : FVal := Fmts.bf16.decode h.toNat

/-- Apply a half operation to both halves of a lane: element 2i low, element 2i + 1 high. -/
def packed (f : BitVec 16 → BitVec 16 → BitVec 16 → BitVec 16 × Ev) (a b c : W32) : FRes :=
  let lo := f (a.truncate 16) (b.truncate 16) (c.truncate 16)
  let hi := f ((a >>> 16).truncate 16) ((b >>> 16).truncate 16) ((c >>> 16).truncate 16)
  (hi.1 ++ lo.1, Ev.or lo.2 hi.2)

/-- The exact value of a Master48 pair (R79): word and tail. -/
def m48Val (w : W32) (t : W32) : FVal := Fmts.m48.decode (w.toNat * 2 ^ 16 + t.toNat % 2 ^ 16)

/-- Split a Master48 code into its word and tail. -/
def m48Split (c : Nat) : W32 × W32 := (BitVec.ofNat 32 (c / 2 ^ 16), BitVec.ofNat 32 (c % 2 ^ 16))

/-- Round an exact value, or its invalid event, into Master48 (R158). -/
def m48Round (mode : Rounding) (sat : Bool) (x : FVal × Nat) : (W32 × W32) × Ev :=
  if x.2 ≠ 0 then ((0x7FC00000, 0), Ev.invalid x.2)
  else
    let (c, ev) := Fmts.m48.convert mode sat 0 x.1
    (m48Split c, ev)

/-- The R109 tree over a list, `node lowest left right` combining two neighbours; one level. -/
def treeLevel {α : Type} (node : Nat → α → α → α) (n : Nat) : List α → List α × Nat
  | a :: b :: r =>
    let (q, n') := treeLevel node (n + 1) r
    (node n a b :: q, n')
  | l => (l, n)

/-- The canonical tree of R109: `node` receives the node number. The fuel is the number of levels. -/
def treeGo {α : Type} (node : Nat → α → α → α) : Nat → Nat → List α → List α
  | 0, _, l => l
  | k + 1, n, l =>
    match l with
    | [] => []
    | [a] => [a]
    | l =>
      let (q, n') := treeLevel node n l
      treeGo node k n' q

/-- canonical_tree (R109) with a default for the empty list. -/
def canonicalTree {α : Type} (d : α) (node : Nat → α → α → α) (l : List α) : α :=
  (treeGo node (l.length + 1) 0 l).headD d

end Sys2Proof.Machine
end

