-- ==== Sys2Proof/Machine/Mx.lean ====
section
/-! DEFINITION. Format codes, MX blocks and squares, and their encoding and decoding (03 R68 to R89, 05 R135). -/

namespace Sys2Proof.Machine

/-- An element of a block or a tensor-scaled tensor: a small float or an MXINT8 integer. -/
inductive Elem where
  | flt (f : FFmt)
  | int8
  deriving DecidableEq, Repr

/-- What a five-bit format code of R135 names. -/
inductive Format where
  | fp32
  | bf16
  | fp16
  | int32
  | master48
  | scaled (f : FFmt)              -- tensor-scaled E4M3 or E5M2
  | mx (e : Elem) (square : Bool)  -- row-scaled or square-scaled
  deriving DecidableEq, Repr

/-- The MX element of the low three bits of a row-scaled or square-scaled code (R135). -/
def mxElem : Nat → Option Elem
  | 0 => some (.flt Fmts.e4m3)
  | 1 => some (.flt Fmts.e5m2)
  | 2 => some (.flt Fmts.e3m2)
  | 3 => some (.flt Fmts.e2m3)
  | 4 => some (.flt Fmts.e2m1)
  | 5 => some .int8
  | _ => none

/-- Format codes (R135); reserved codes give none. -/
def Format.ofCode (c : Nat) : Option Format :=
  match c with
  | 0 => some .fp32
  | 1 => some .bf16
  | 2 => some .fp16
  | 3 => some .int32
  | 4 => some .master48
  | 6 => some (.scaled Fmts.e4m3)
  | 7 => some (.scaled Fmts.e5m2)
  | c =>
    if 8 ≤ c ∧ c < 16 then (mxElem (c - 8)).map (Format.mx · false)
    else if 16 ≤ c ∧ c < 24 then (mxElem (c - 16)).map (Format.mx · true)
    else none

/-- Bits of an element code. -/
def Elem.bits : Elem → Nat
  | .flt f => f.width
  | .int8 => 8

/-- The exponent of the format's largest binade (R66). -/
def Elem.emax : Elem → Int
  | .flt f => f.emax
  | .int8 => 0

/-- The exact value of an element code before its scale (R66, R72). -/
def Elem.decode : Elem → Nat → FVal
  | .flt f, c => f.decode c
  | .int8, c => if c < 128 then .fin false c (-6) else .fin true (256 - c) (-6)

/-- Bits of one element in memory (R74, R75). -/
def Format.bits : Format → Nat
  | .fp32 => 32
  | .int32 => 32
  | .master48 => 32
  | .bf16 => 16
  | .fp16 => 16
  | .scaled _ => 8
  | .mx e _ => e.bits

/-- Granules of one square of the blocked layout (R74): 1,024 elements. -/
def Format.granules (f : Format) : Nat := f.bits * 2

/-- Is the format an MX format with scales row by row? -/
def Format.rowScaled : Format → Bool
  | .mx _ false => true
  | _ => false

def Format.squareScaled : Format → Bool
  | .mx _ true => true
  | _ => false

/-- Value of an E8M0 code as an exponent of two; 0xFF is NaN (R73). -/
def e8m0 (c : Nat) : Option Int := if c = 255 then none else some ((c : Int) - 127)

/-- An MX element under its block's scale (R88). -/
def mxValue (e : Elem) (scale code : Nat) : FVal :=
  match e8m0 scale with
  | none => .nan
  | some k => (e.decode code).scale k

/-- The largest finite magnitude among the sources of a group, as mantissa and exponent; zero if none (R86). -/
def mxAmax : List FVal → Nat × Int
  | [] => (0, 0)
  | .fin _ m e :: r =>
    let (n, g) := mxAmax r
    if magLt n g m e then (m, e) else (n, g)
  | _ :: r => mxAmax r

/-- The shared exponent of R86: floor(log2 amax) less emax, clamped into E8M0; -127 for a group of zeros. -/
def mxExponent (e : Elem) (xs : List FVal) : Int :=
  let (m, g) := mxAmax xs
  if m = 0 then -127 else max (-127) (min 127 (floorLog2 m g - e.emax))

/-- The position of the first source that an MX block cannot hold (R86), if any. -/
def mxBad (e : Elem) (xs : List FVal) : Option Nat :=
  let holdsInf := match e with | .flt f => f.special == 0 | .int8 => false
  xs.findIdx? (fun x => match x with | .nan => true | .inf _ => !holdsInf | _ => false)

/-- One element of R86 with the shared exponent k: its code and flags. -/
def mxElement (el : Elem) (k : Int) (mode : Rounding) (draw : Nat) (x : FVal) : Nat × Ev :=
  match x with
  | .nan => (0, {})
  | .inf neg => match el with | .flt f => (f.infCode neg, {}) | .int8 => (0, {})
  | .fin neg m e =>
    match el with
    | .flt f =>
      if m = 0 then (f.signBit neg, {})
      else
        let q := e - k
        let u := ulpExp m q f.p f.emin
        let (r, inx) := roundUnits m q u mode draw
        if magLt f.maxM (f.emax - f.p) r u then (f.maxCode neg, { ix := true })
        else (f.encodeGrid neg r u, { ix := inx, un := decide (r = 0) })
    | .int8 =>
      if m = 0 then (0, {})
      else
        let (r, inx) := roundUnits m (e - k) (-6) mode draw
        let (r, inx) := if 127 < r then (127, true) else (r, inx)
        (if neg then (256 - r) % 256 else r, { ix := inx, un := decide (r = 0) })

/-- The outcome of encoding a block or square: scale code, element codes, flags, and the first bad source. -/
structure MxOut where
  scale : Nat
  codes : List Nat
  ev : Ev
  bad : Option Nat
  deriving DecidableEq, Repr

/-- mx_encode of R86 over the group `xs` in ascending logical element index; `draw i` is the draw of element i. -/
def mxEncode (el : Elem) (mode : Rounding) (draw : Nat → Nat) (xs : List FVal) : MxOut :=
  match mxBad el xs with
  | some i => { scale := 255, codes := xs.map (fun _ => 0), ev := Ev.invalid 5, bad := some i }
  | none =>
    let k := mxExponent el xs
    let rs := xs.mapIdx (fun i x => mxElement el k mode (draw i) x)
    { scale := (k + 127).toNat, codes := rs.map (·.1), ev := Ev.all (rs.map (·.2)), bad := none }

/-- The bytes of a row of codes, packed in ascending order from the low bit (R75). -/
def packCodes (bits : Nat) (codes : List Nat) : List Byte :=
  leBytes (codes.length * bits / 8) (codes.foldr (fun c acc => c % 2 ^ bits + 2 ^ bits * acc) 0)

/-- Code `i` of a packed row given as a little-endian number. -/
def unpackCode (bits : Nat) (row : Nat) (i : Nat) : Nat := row / 2 ^ (bits * i) % 2 ^ bits

/-- A scale pair of tensor-scaled FP8: dequantisation scale s and quantisation multiplier m (R77). -/
structure ScalePair where
  s : W32
  m : W32
  deriving DecidableEq, Repr

/-- Both members must be positive and finite (R77). -/
def ScalePair.ok (q : ScalePair) : Bool := (f32 q.s).posFinite && (f32 q.m).posFinite

/-- A scale pair from a scalar register: m in bits [31:0], s in bits [63:32] (R74, R139). -/
def ScalePair.ofReg (w : W64) : ScalePair := ⟨(w >>> 32).truncate 32, w.truncate 32⟩

/-- Decode one tensor-scaled element exactly as e * s (R77). -/
def scaledValue (f : FFmt) (q : ScalePair) (code : Nat) : FVal × Nat :=
  if q.ok then FVal.mul (f.decode code) (f32 q.s) else (.nan, 6)

/-- Encode one tensor-scaled element from the exact product with m (R77, R78). -/
def scaledEncode (f : FFmt) (q : ScalePair) (mode : Rounding) (draw : Nat) (x : FVal) : Nat × Ev :=
  if q.ok then
    let (p, c) := FVal.mul x (f32 q.m)
    if c ≠ 0 then (f.nan, Ev.invalid c) else f.convertScaled mode draw p
  else (f.nan, Ev.invalid 6)

/-- Encode an exact value into a plain lane format, as vx.cvt and a drain do (R85, R81); not for MX. -/
def encodePlain (fm : Format) (mode : Rounding) (sat : Bool) (draw : Nat) (q : ScalePair) (x : FVal) : Nat × Ev :=
  match fm with
  | .fp32 => Fmts.fp32.convert mode sat draw x
  | .bf16 => Fmts.bf16.convert mode sat draw x
  | .fp16 => Fmts.fp16.convert mode sat draw x
  | .master48 => Fmts.m48.convert mode sat draw x
  | .int32 => let (w, ev) := toInt32 mode draw x; (w.toNat, ev)
  | .scaled f => scaledEncode f q mode draw x
  | .mx _ _ => (0, {})

/-- The exact value of a code of a plain lane format, with the cause of a bad scale pair. -/
def decodePlain (fm : Format) (q : ScalePair) (code : Nat) : FVal × Nat :=
  match fm with
  | .fp32 => (Fmts.fp32.decode (code % 2 ^ 32), 0)
  | .bf16 => (Fmts.bf16.decode (code % 2 ^ 16), 0)
  | .fp16 => (Fmts.fp16.decode (code % 2 ^ 16), 0)
  | .master48 => (Fmts.m48.decode code, 0)
  | .int32 => (ofInt32 (BitVec.ofNat 32 code), 0)
  | .scaled f => scaledValue f q (code % 256)
  | .mx _ _ => (.nan, 0)

end Sys2Proof.Machine
end

