-- ==== Sys2Proof/Machine/Grain.lean ====
section
/-! DEFINITION. Grain generators (06 R178 to R181). -/

namespace Sys2Proof.Machine

def rotl32 (x : W32) (k : Nat) : W32 := (x <<< k) ||| (x >>> (32 - k))

/-- A row of R180's table: the rotation amounts ra[r] and rb[r] and the round constant c[r]. -/
structure GrainRow where
  ra : Nat
  rb : Nat
  c : W32
  deriving DecidableEq, Repr

/-- The table of R180. DEDUCED (log 143): its last constant differs from the sentence after it, and the table states the rule (00, after R13). -/
def grainRows : List GrainRow :=
  [⟨13, 16, 0x9E3779B9⟩, ⟨15, 28, 0x3C6EF372⟩, ⟨26, 5, 0xDAA66D2B⟩, ⟨6, 19, 0x78DDE6E4⟩, ⟨17, 23, 0x1715609D⟩,
   ⟨29, 9, 0xB54CDA56⟩, ⟨16, 11, 0x5384540F⟩, ⟨24, 7, 0xF1BBCDC8⟩, ⟨13, 16, 0x8FF34781⟩, ⟨15, 28, 0x2E2B413A⟩]

/-- Key word i (R178): bytes 4i to 4i + 3 of the key, little-endian, the key being held as one number. -/
def keyWord (key : BitVec 128) (i : Nat) : W32 := (key >>> (32 * (i % 4))).truncate 32

/-- One round of R180 on (x0, x1, x2, x3). -/
def grainRound (key : BitVec 128) (r : Nat) (row : GrainRow) (x : W32 × W32 × W32 × W32) : W32 × W32 × W32 × W32 :=
  let (x0, x1, x2, x3) := x
  let x0 := x0 + x1
  let x1 := rotl32 x1 row.ra ^^^ x0
  let x2 := x2 + x3
  let x3 := rotl32 x3 row.rb ^^^ x2
  (x0 + keyWord key (r + 1), x3, x2 + (keyWord key (r + 3) ^^^ row.c), x1)

/-- grain(k, w) of R180; the 128-bit output has x0 in its low word. -/
def grain (key : BitVec 128) (w0 w1 w2 w3 : W32) : BitVec 128 :=
  let start := (w0 ^^^ keyWord key 0, w1 ^^^ keyWord key 1, w2 ^^^ keyWord key 2, w3 ^^^ keyWord key 3)
  let (x0, x1, x2, x3) := (grainRows.zipIdx).foldl (fun x rr => grainRound key rr.2 rr.1 x) start
  x3 ++ x2 ++ x1 ++ x0

/-- The output for a tensor identifier, a logical element index and a use count (R179). -/
def grainAt (key : BitVec 128) (tensor : W32) (elem : W64) (use : W32) : BitVec 128 :=
  grain key use (elem.truncate 32) ((elem >>> 32).truncate 32) tensor

/-- The use count of a domain and an ordinal (R179). -/
def useCount (domain ordinal : Nat) : W32 := BitVec.ofNat 32 (domain * 2 ^ 30 + ordinal % 2 ^ 30)

/-- The 16-bit draw of a stochastic rounding (R83, R181). -/
def srDraw (key : BitVec 128) (tensor : W32) (elem : Nat) (domain ordinal : Nat) : Nat :=
  (grainAt key tensor (BitVec.ofNat 64 elem) (useCount domain ordinal)).toNat % 2 ^ 16

end Sys2Proof.Machine
end

