-- ==== Sys2Proof/Machine/CoreState.lean ====
section
/-! DEFINITION. State of one logical core (01 R17, 02 R44, 04 R121, 05 R149): sequencer, engines, registers, scratchpad and side memory. -/

namespace Sys2Proof.Machine

/-- Sticky flags and the first-invalid capture of one engine (03 R90, R91). -/
structure EngineFlags where
  ov : Bool
  un : Bool
  ix : Bool
  iv : Bool
  capValid : Bool
  capCause : Byte
  capInstr : BitVec 16
  capTensor : W32
  capElem : W64
  capBlock : W32
  deriving DecidableEq, Repr

/-- An event of one element of an instruction: destination element index, K block index, and what it sets. -/
structure ElemEv where
  elem : Nat
  block : Nat
  ev : Ev
  deriving DecidableEq, Repr

/-- Where an mx.mm stands that a save has stopped (04 R121): the next block, counted from the instruction's first, and the events of the blocks that
have entered. -/
structure BlockPos where
  next : Nat
  evs : List ElemEv
  deriving DecidableEq, Repr

/-- A wait of the sequencer (engine 0) or of the head of an engine's queue (05 R127): the fault it ends in, the instruction, the engine's active beats
when it began, which tell one execution from the next, and how long it has lasted, in units of 1/16 ns. -/
structure Wait where
  engine : Nat
  fault : Nat
  idx : Nat
  stamp : W64
  lasted : Nat
  deriving DecidableEq, Repr

/-- The update gate predicate (05 R146). -/
inductive Gate where
  | undecided
  | apply
  | skip
  deriving DecidableEq, Repr

/-- An instruction in an engine queue (05 R123, R149): its word, its index in the image, the scalar values copied with it,
its copy of the gate predicate, whether the engine has executed it and awaits its completion, and in twin mode the digest of its output (11 R320). -/
structure QEntry where
  word : W64
  idx : Nat
  scal : SMap 64
  g : Gate
  executed : Bool
  twin : Option W64
  deriving DecidableEq, Repr

/-- One open loop level (05 R129): the index of the first body instruction, the iteration count and the loop counter. -/
structure LoopLevel where
  start : Nat
  count : Nat
  lc : Nat
  deriving DecidableEq, Repr

/-- An open tile (04 R106): the descriptor it was opened with, kept scales, whether both scale pairs were positive and finite (03 R77), poison mark. -/
structure Tile where
  slot : Nat
  shape : Nat
  region : Nat
  tensor : W32
  rowOrigin : Nat
  colOrigin : Nat
  slice : Nat
  statSlot : Nat
  accFormat : Nat
  mode : Nat
  saturate : Bool
  nb : Nat
  parts : Nat
  tail : Nat
  scaled : Bool
  sA : W32
  sB : W32
  pairOk : Bool
  poisoned : Bool
  deriving DecidableEq, Repr

/-- An entry of the tensor statistics table (04 R118). -/
structure StatEntry where
  tensor : W32
  valid : Bool
  tiles : W32
  nonFiniteTiles : W32
  poisonedTiles : W32
  overflowed : W32
  firstNonFinite : W64
  nonFiniteElems : W64
  nonZero : W64
  zeroed : W64
  amax : W32
  deriving DecidableEq, Repr

/-- A pending watch of a wadi queue (05 R143), and how long it has been pending (05 R127). -/
structure Watch where
  value : W32
  token : Nat
  count : Nat
  idx : Nat
  lasted : Nat
  deriving DecidableEq, Repr

/-- A rectangle of a wadi transfer (07 R197). -/
structure Rect where
  remote : Nat
  rstride : Nat
  rowLen : Nat
  granule : Nat
  lstride : Nat
  rows : Nat
  reserved : Nat
  deriving DecidableEq, Repr

/-- A contiguous part of a transfer, at most 64 granules (07 R199). -/
structure Span where
  remote : Nat
  granule : Nat
  len : Nat
  deriving DecidableEq, Repr

/-- Phases of an accepted wadi descriptor (07 R198 to R200). -/
inductive DescPhase where
  | accepted
  | started
  | completed
  deriving DecidableEq, Repr

/-- An accepted wadi descriptor: its operation, whether it is a skipped post (05 R146), the spans not yet issued, the number of
requests in flight, and the translation entry that covered it at acceptance (12 R464). -/
structure Desc where
  id : Nat
  idx : Nat
  write : Bool
  ordered : Bool
  listCount : Nat
  listAddr : Nat
  inline' : Rect
  skipped : Bool
  phase : DescPhase
  spans : List Span
  inFlight : Nat
  entryVersions : List (Nat × Nat)
  deriving DecidableEq, Repr

/-- One wadi queue: the completion counter, descriptors in posting order, pending watches and the next descriptor number. -/
structure WadiQueue where
  c : W32
  descs : List Desc
  watches : List Watch
  nextId : Nat
  deriving DecidableEq, Repr

/-- A hop of a slot in a route plan (07 R187, R190): the link and the ripple of the frame, the hop before it (its number in the slot's list plus one, 0
for a first hop), the node it reaches, and the logical cores that the packet is for there. -/
structure PlanHop where
  link : Nat × Nat × Nat
  ripple : Nat
  after : Nat
  node : Nat
  members : List Nat
  deriving DecidableEq, Repr

/-- A packet whose launch has begun (07 R189, R190): its frame's first ripple, the slot's hops, and the first hops that are still to be launched. -/
structure Launch where
  base : Nat
  hops : List PlanHop
  left : List Nat
  deriving DecidableEq, Repr

/-- A packet held in a send buffer of the ripple port (07 R189): source bytes and poison map, slot, destination; `launch` once its first hop has left. -/
structure SendBuf where
  slot : Nat
  group : Bool
  dest : Nat
  granule : Nat
  token : Nat
  signal : Bool
  len : Nat
  bytes : List Byte
  poison : List Bool
  launch : Option Launch
  deriving DecidableEq, Repr

/-- The sequencer of a core (05 R129 to R132, R149). `waitTarget` is the target of a seq.wait.st that has started and holds. -/
structure Sequencer where
  pos : Nat
  loops : List LoopLevel
  waitTarget : Option W64
  ended : Bool
  stopped : Bool
  deriving DecidableEq, Repr

/-- The whole state of a logical core. `atBlock`: an mx.mm at the head of the matrix array's queue has stopped between blocks. `folded`: another logical core has its host (02 R46); `inSlot`: its state lies in its slot of the save area (13 R367); `on`: the physical core (die, number)
that holds its state, none while the slot does or before its first program. -/
structure Core where
  seq : Sequencer
  s : SMap 64
  t : SMap 32
  v : SMap 32
  vPoison : SMap 1
  acc : SMap 32
  marks : SMap 1
  tiles : List Tile
  stats : List (Nat × StatEntry)
  fm : EngineFlags
  fv : EngineFlags
  fr : EngineFlags
  gateCount : W32
  g : Gate
  tileIndex : W64
  key : BitVec 128
  queues : List (Nat × List QEntry)
  wadi : List (Nat × WadiQueue)
  sends : List SendBuf
  sp : SMap 8
  spPoison : SMap 1
  side : SMap 8
  sidePoison : SMap 1
  tileBeats : SMap 64
  beats : SMap 64
  image : Nat
  atBlock : Option BlockPos
  waits : List Wait
  folded : Bool
  inSlot : Bool
  on : Option (Nat × Nat)
  deriving DecidableEq, Repr

/-- Flags clear, capture invalid (03 R90: at context creation). -/
def EngineFlags.clear : EngineFlags := ⟨false, false, false, false, false, 0, 0, 0, 0, 0⟩

/-- A cleared statistics entry (04 R118): no first non-finite origin. -/
def StatEntry.clear : StatEntry := ⟨0, false, 0, 0, 0, 0, 0xFFFFFFFFFFFFFFFF, 0, 0, 0, 0⟩

/-- A wadi queue at the start of a run (05 R156). -/
def WadiQueue.empty : WadiQueue := ⟨0, [], [], 0⟩

/-- The sequencer at instruction 0 with an empty loop stack (05 R156). -/
def Sequencer.start : Sequencer := ⟨0, [], none, false, false⟩

/-- A core at context creation: flags, statistics, gate count and side memory clear (03 R90, 04 R118, 05 R139, 06 R175);
registers and scratchpad as log entry 17 says. -/
def Core.fresh : Core :=
  { seq := { Sequencer.start with ended := true }, s := [], t := [], v := [], vPoison := [], acc := [], marks := [], tiles := [], stats := [],
    fm := .clear, fv := .clear, fr := .clear, gateCount := 0, g := .undecided, tileIndex := 0, key := 0,
    queues := [], wadi := [], sends := [], sp := [], spPoison := [], side := [], sidePoison := [],
    tileBeats := [], beats := [], image := 0, atBlock := none, waits := [], folded := false, inSlot := false, on := none }

/-- A tensor table entry of a container (05 R153). -/
structure TensorEntry where
  id : W32
  format : Nat
  flags : Nat
  rank : Nat
  dims : List Nat
  deriving DecidableEq, Repr

/-- An invocation table entry (05 R154) with its tensor lists. -/
structure Invocation where
  operator : W32
  classReq : Nat
  classes : Nat
  inputs : List W32
  outputs : List W32
  split : Nat
  image : Nat
  first : Nat
  last : Nat
  deriving DecidableEq, Repr

/-- A slot of the slot map (07 R186). -/
structure SlotEntry where
  source : Nat
  group : Bool
  dest : Nat
  position : Nat
  allowance : Nat
  base : Nat
  length : Nat
  deriving DecidableEq, Repr

/-- A slot map (07 R186). -/
structure SlotMap where
  frame : Nat
  slots : List SlotEntry
  groups : List (List Nat)
  deriving DecidableEq, Repr

/-- A record of a scratchpad preload (05 R152). -/
structure Preload where
  granule : Nat
  bytes : List Byte
  deriving DecidableEq, Repr

/-- A loaded program container (05 R151 to R154), with the digest of its bytes as loaded (02 R58). -/
structure Program where
  cores : Nat
  modules : Nat
  bound : Nat
  waitLimit : Nat
  liveSize : Nat
  usesGate : Bool
  images : List (List W64)
  coreMap : List Nat
  tensors : List TensorEntry
  invocations : List Invocation
  slotMap : SlotMap
  tokenPlan : List (List Nat)
  preloads : List (List Preload)
  scalars : List (List W64)
  digest : List Byte
  deriving DecidableEq, Repr

end Sys2Proof.Machine
end

