-- ==== Sys2Proof/Machine/Operands.lean ====
section
/-! DEFINITION. Operand fields of instruction words (05 R133 to R144), the scalar registers an instruction names, and view descriptors (05 R137). -/

namespace Sys2Proof.Machine

/-! ## Header fields (R133) -/

def opClass (w : W64) : Nat := fld w 60 4
def opCode (w : W64) : Nat := fld w 54 6
def opP (w : W64) : Bool := w.getLsbD 53
def opTw (w : W64) : Nat := fld w 48 5
def opCw (w : W64) : Nat := fld w 45 3
def opTs (w : W64) : Nat := fld w 40 5
def opCs (w : W64) : Nat := fld w 37 3

/-! ## Five-bit register fields of seq., mx., row., wq., net., gr., ck. -/

/-- Register field in bits [36:32]. -/
def opR0 (w : W64) : Nat := fld w 32 5
/-- Register field in bits [31:27]. -/
def opR1 (w : W64) : Nat := fld w 27 5
/-- Register field in bits [26:22]. -/
def opR2 (w : W64) : Nat := fld w 22 5
/-- Register field in bits [21:17]. -/
def opR3 (w : W64) : Nat := fld w 17 5
/-- Register field in bits [16:12]. -/
def opR4 (w : W64) : Nat := fld w 12 5

/-! ## Vector fields (R139) -/

def opVd (w : W64) : Nat := fld w 31 6
def opVa (w : W64) : Nat := fld w 25 6
def opVb (w : W64) : Nat := fld w 19 6
def opVc (w : W64) : Nat := fld w 13 6
def opFmt (w : W64) : Nat := fld w 8 5
def opRnd (w : W64) : Nat := fld w 6 2
def opSat (w : W64) : Bool := w.getLsbD 5
def opSx (w : W64) : Nat := fld w 0 5

/-- Engine codes (R122). -/
def engMatrix : Nat := 1
def engVector : Nat := 2
def engRow : Nat := 3
def engRipple : Nat := 4
def engWadi (q : Nat) : Nat := 16 + q

/-- The engine whose queue takes an instruction, by its class (R122); none for a sequencer-class instruction or a reserved class. -/
def engineOf (w : W64) : Option Nat :=
  match opClass w with
  | 1 => some engMatrix
  | 2 => some engVector
  | 6 => some engVector
  | 3 => some engRow
  | 5 => some engRipple
  | 4 => some (engWadi (fld w 33 4))
  | _ => none

/-- Queue depth of an engine (R122). -/
def queueDepth (code : Nat) : Nat := if code < 16 then 32 else 16

/-- A block of consecutive scalar registers, those that exist. -/
def sBlock (n len : Nat) : List Nat := (List.range len).map (n + ·) |>.filter (· < 32)

/-- The scalar registers that a vector instruction names from sx upward (R139). -/
def vectorScalars (w : W64) : List Nat :=
  match opCode w with
  | 0x00 => sBlock (opSx w) 1
  | 0x01 => sBlock (opSx w) 1
  | 0x09 => sBlock (opSx w) 4
  | 0x0A => sBlock (opSx w) 5
  | 0x0B => sBlock (opSx w) 5
  | 0x22 => sBlock (opSx w) 4
  | 0x23 => sBlock (opSx w) 1
  | _ => []

/-- The scalar registers that a dispatched instruction names (R123), by class and op. -/
def namedScalars (w : W64) : List Nat :=
  match opClass w, opCode w with
  | 1, 0 => [opR0 w, opR1 w] ++ sBlock (opR2 w) 3 ++ [opR3 w, opR4 w]
  | 1, 1 => opR0 w :: sBlock (opR2 w) 3
  | 1, 2 => opR0 w :: sBlock (opR2 w) 3
  | 1, 3 => [opR0 w, opR1 w] ++ sBlock (opR2 w) 3
  | 1, 4 => [opR0 w]
  | 1, 5 => sBlock (opR2 w) 3
  | 2, _ => vectorScalars w
  | 3, _ => [opR0 w, opR1 w, opR2 w, fld w 13 5]
  | 4, _ => [fld w 28 5]
  | 5, _ => [opR0 w, opR1 w]
  | 6, _ => [fld w 26 5, fld w 21 5, fld w 16 5]
  | _, _ => []

/-- The copied scalar values of a queue entry: the named registers and no others (R123). -/
def copyScalars (w : W64) (s : SMap 64) : SMap 64 := s.filter (fun c => (namedScalars w).contains c.1)

/-! ## View descriptors (R137) -/

/-- A view descriptor held in a scalar register. -/
structure View where
  elem : Nat
  scale : Nat
  kStride : Nat
  fStride : Nat
  column : Bool
  code : Nat
  deriving DecidableEq, Repr

def View.ofReg (r : W64) : View :=
  { elem := fld r 48 16, scale := fld r 26 22, kStride := fld r 16 10, fStride := fld r 6 10,
    column := r.getLsbD 5, code := fld r 0 5 }

/-- Granules in a scratchpad (07 R193). -/
def spGranules : Nat := 49152

/-- What an instruction of an engine or of the sequencer does to its core: a new core, a fault of R148,
poison made visible (07 R213), or a wait. -/
inductive CRes where
  | ok (c : Core)
  | fault (code : Nat)
  | poison (granule : Nat)
  | wait
  deriving DecidableEq, Repr

/-- What a core's instructions see beside the core (05 R136, R153, 06 R178): identity, geometry, versions, program tables and stepping. -/
structure Env where
  steppingB0 : Bool
  core : Nat
  coresPer : Nat
  rank : Nat
  modules : Nat
  stepCounter : Nat
  version : Nat
  pending : Nat
  image : List W64
  tensors : List TensorEntry
  slotMap : SlotMap
  partition : Nat
  deriving DecidableEq, Repr

/-- The tensor table entry of an identifier (R153). -/
def Env.tensor (v : Env) (id : W32) : Option TensorEntry := v.tensors.find? (fun t => t.id == id)

/-- Is the tensor tagged as a gradient (03 R84, 05 R153)? -/
def TensorEntry.gradient (t : TensorEntry) : Bool := t.flags % 2 == 1

/-- Slices, rows and columns of a tensor (03 R74): a tensor of rank 1 is one slice of one row. -/
def TensorEntry.slices (t : TensorEntry) : Nat := ((t.dims.take (t.rank - 2))).foldl (· * ·) 1
def TensorEntry.rows (t : TensorEntry) : Nat := if t.rank ≤ 1 then 1 else t.dims.getD (t.rank - 2) 1
def TensorEntry.cols (t : TensorEntry) : Nat := t.dims.getD (t.rank - 1) 1

/-- Logical element index of (slice, row, column), none for padding (03 R75, 04 R106). -/
def TensorEntry.index (t : TensorEntry) (slice row col : Nat) : Option Nat :=
  if slice < t.slices ∧ row < t.rows ∧ col < t.cols then some (slice * (t.rows * t.cols) + row * t.cols + col) else none

end Sys2Proof.Machine
end

