-- ==== Sys2Proof/Machine/Flags.lean ====
section
/-! DEFINITION. Sticky flags and first-invalid captures (03 R90 to R94), and the draws of stochastic roundings (03 R83, R84, 06 R179). -/

namespace Sys2Proof.Machine

/-- The K block index of an event that has none (R91). -/
def noBlock : Nat := 0xFFFFFFFF

/-- The invalid event that R91 calls first: lowest element index, then lowest K block index. -/
def firstInvalid : List ElemEv → Option ElemEv
  | [] => none
  | e :: r =>
    match firstInvalid r with
    | none => if e.ev.cause = 0 then none else some e
    | some f =>
      if e.ev.cause = 0 then some f
      else if e.elem < f.elem ∨ (e.elem = f.elem ∧ e.block ≤ f.block) then some e else some f

/-- Set flags and, unless one is valid, the capture (R90, R91). -/
def EngineFlags.record (f : EngineFlags) (idx : Nat) (tensor : W32) (evs : List ElemEv) : EngineFlags :=
  let f := { f with
    ov := f.ov || evs.any (·.ev.ov)
    un := f.un || evs.any (·.ev.un)
    ix := f.ix || evs.any (·.ev.ix)
    iv := f.iv || evs.any (fun e => e.ev.cause != 0) }
  match firstInvalid evs with
  | none => f
  | some e =>
    if f.capValid then f
    else { f with
      capValid := true
      capCause := BitVec.ofNat 8 e.ev.cause
      capInstr := BitVec.ofNat 16 idx
      capTensor := tensor
      capElem := BitVec.ofNat 64 e.elem
      capBlock := BitVec.ofNat 32 e.block }

/-- The flags word of ck.rdf (05 R144). -/
def EngineFlags.word (f : EngineFlags) : W64 :=
  BitVec.ofNat 64 ((if f.ov then 8 else 0) + (if f.un then 4 else 0) + (if f.ix then 2 else 0) + (if f.iv then 1 else 0))

/-- The 32 bytes of a capture (R91). -/
def EngineFlags.capture (f : EngineFlags) : List Byte :=
  [if f.capValid then 1 else 0, f.capCause] ++ leBytes 2 f.capInstr.toNat ++ leBytes 4 f.capTensor.toNat
    ++ leBytes 8 f.capElem.toNat ++ leBytes 4 f.capBlock.toNat ++ List.replicate 12 0

/-- Flags of an engine by the code of ck. instructions (05 R144): 0 matrix, 1 vector, 2 row. -/
def Core.flagsOf (c : Core) : Nat → EngineFlags
  | 0 => c.fm
  | 1 => c.fv
  | _ => c.fr

def Core.setFlags (c : Core) (e : Nat) (f : EngineFlags) : Core :=
  match e with
  | 0 => { c with fm := f }
  | 1 => { c with fv := f }
  | _ => { c with fr := f }

/-- The rounding mode of a conversion into a tensor: stochastic for a gradient, whatever the instruction names (R84). -/
def roundingFor (t : TensorEntry) (mode : Rounding) : Rounding := if t.gradient then .sr else mode

/-- Add active beats of an engine (02 R55, 05 R131). -/
def Core.addBeats (c : Core) (code n : Nat) : Core :=
  { c with
    tileBeats := sset c.tileBeats code (sget c.tileBeats code + BitVec.ofNat 64 n)
    beats := sset c.beats code (sget c.beats code + BitVec.ofNat 64 n) }

end Sys2Proof.Machine
end

