-- ==== Sys2Proof/Machine/Scratch.lean ====
section
/-! DEFINITION. Scratchpad, side memory and register accesses of a core (05 R124, 06 R175, 07 R193). -/

namespace Sys2Proof.Machine

/-- The granules that a byte range touches. -/
def granulesOf (a n : Nat) : List Nat := if n = 0 then [] else (List.range ((a + n - 1) / 64 - a / 64 + 1)).map (a / 64 + ·)

/-- Is any of the granules poisoned? -/
def anyPoison (p : SMap 1) (gs : List Nat) : Bool := gs.any (fun g => sget p g != 0)

def bit1 (b : Bool) : BitVec 1 := if b then 1 else 0

/-- Mark granules. -/
def setPoison (p : SMap 1) (gs : List Nat) (b : Bool) : SMap 1 := gs.foldl (fun p g => sset p g (bit1 b)) p

/-- Poison bits after bytes are written over [a, a + n): a granule covered whole takes the poison of the data,
one covered in part stays poisoned if it was and takes poison that the data carries (R193, R213). -/
def poisonAfter (p : SMap 1) (a n : Nat) (b : Bool) : SMap 1 :=
  (granulesOf a n).foldl (fun p g =>
    if a ≤ 64 * g ∧ 64 * g + 64 ≤ a + n then sset p g (bit1 b) else if b then sset p g 1 else p) p

/-- Read scratchpad bytes. -/
def Core.spRead (c : Core) (a n : Nat) : List Byte := sgetAll c.sp a n

/-- Is any granule under a scratchpad byte range poisoned? -/
def Core.spPoisoned (c : Core) (a n : Nat) : Bool := anyPoison c.spPoison (granulesOf a n)

/-- Write scratchpad bytes, with the poison that the data carries (R193). -/
def Core.spWrite (c : Core) (a : Nat) (bytes : List Byte) (b : Bool) : Core :=
  { c with sp := ssetAll c.sp a bytes, spPoison := poisonAfter c.spPoison a bytes.length b }

/-- Write whole granules, each with its own poison bit. -/
def Core.spWriteGranules (c : Core) (g : Nat) (bytes : List Byte) : List Bool → Core
  | [] => c
  | b :: bs => (c.spWrite (64 * g) (bytes.take 64) b).spWriteGranules (g + 1) (bytes.drop 64) bs

/-- Lane `i` of vector register `r`. -/
def Core.lane (c : Core) (r i : Nat) : W32 := sget c.v (64 * r + i)

/-- The 64 lanes of a vector register. -/
def Core.lanes (c : Core) (r : Nat) : List W32 := sgetAll c.v (64 * r) 64

/-- Write the 64 lanes of a vector register and its poison mark (R213). -/
def Core.setLanes (c : Core) (r : Nat) (l : List W32) (b : Bool) : Core :=
  { c with v := ssetAll c.v (64 * r) l, vPoison := sset c.vPoison r (bit1 b) }

/-- Is a vector register poisoned? -/
def Core.vPoisoned (c : Core) (r : Nat) : Bool := sget c.vPoison r != 0

/-- Scalar register read. -/
def Core.sreg (c : Core) (r : Nat) : W64 := sget c.s r

/-- Scalar register write. -/
def Core.setS (c : Core) (r : Nat) (x : W64) : Core := { c with s := sset c.s r x }

/-- A scalar value copied with a dispatched instruction (R123). -/
def QEntry.reg (e : QEntry) (r : Nat) : W64 := sget e.scal r

/-- Is the instruction a predicated one whose copy of the gate says skip (R146)? -/
def QEntry.skips (e : QEntry) : Bool := opP e.word && e.g == .skip

/-- Little-endian 32-bit words of a byte list. -/
def words32 : Nat → List Byte → List W32
  | 0, _ => []
  | n + 1, l => BitVec.ofNat 32 (leNat (l.take 4)) :: words32 n (l.drop 4)

/-- Bytes of 32-bit words. -/
def bytes32 (l : List W32) : List Byte := l.flatMap (fun w => leBytes 4 w.toNat)

end Sys2Proof.Machine
end

