-- ==== Sys2Proof/Machine/SequencerOps.lean ====
section
/-! DEFINITION. What each sequencer-class, check and gate instruction does to its core, and the token rules (05 R122 to R132, R136, R144, R145). -/

namespace Sys2Proof.Machine

/-! ## Tokens (R125) -/

def Core.token (c : Core) (i : Nat) : Nat := (sget c.t i).toNat

/-- Is the token wait of an instruction satisfied? A wait count of zero waits for nothing. -/
def Core.tokenReady (c : Core) (w : W64) : Bool := decide (opCw w ≤ c.token (opTw w))

/-- The wait count is subtracted in the step in which the instruction starts. -/
def Core.takeToken (c : Core) (w : W64) : Core :=
  if opCw w = 0 then c else { c with t := sset c.t (opTw w) (BitVec.ofNat 32 (c.token (opTw w) - opCw w)) }

/-- Add to a token; none where the addition would pass 2^32 - 1, and the token keeps its value (TOKEN_OVERFLOW). -/
def Core.addToken (c : Core) (i n : Nat) : Option Core :=
  if c.token i + n ≥ 2 ^ 32 then none else some { c with t := sset c.t i (BitVec.ofNat 32 (c.token i + n)) }

/-- The completion signal of an instruction. -/
def Core.signal (c : Core) (w : W64) : Option Core := if opCs w = 0 then some c else c.addToken (opTs w) (opCs w)

/-! ## Queues -/

def Core.queue (c : Core) (code : Nat) : List QEntry := nget [] c.queues code
def Core.setQueue (c : Core) (code : Nat) (q : List QEntry) : Core := { c with queues := nset c.queues code q }
def Core.wq (c : Core) (q : Nat) : WadiQueue := nget .empty c.wadi q
def Core.setWq (c : Core) (q : Nat) (x : WadiQueue) : Core := { c with wadi := nset c.wadi q x }

/-- Has an engine completed every instruction dispatched to it? -/
def Core.engineIdle (c : Core) (code : Nat) : Bool := (c.queue code).isEmpty

/-- All engines of R122 but the sequencer. -/
def allEngines : List Nat := [1, 2, 3, 4] ++ (List.range 16).map (16 + ·)

/-- Transfers of a core not yet completed (07 R201). -/
def Core.outstanding (c : Core) : Nat :=
  (c.wadi.map (fun q => (q.2.descs.filter (fun d => d.phase != .completed)).length)).foldl (· + ·) 0

/-- Every earlier instruction has completed, every wadi descriptor has completed and every watch has fired (R131). -/
def Core.quiescent (c : Core) : Bool :=
  allEngines.all c.engineIdle && c.wadi.all (fun q => q.2.watches.isEmpty && q.2.descs.all (fun d => d.phase == .completed))

/-! ## Sequencer position -/

def Core.setPos (c : Core) (p : Nat) : Core := { c with seq := { c.seq with pos := p } }

/-- To the next instruction. -/
def Core.advance (c : Core) : Core := c.setPos (c.seq.pos + 1)

/-- A sequencer instruction that writes a scalar register (R136). -/
def seqWrite (d : Nat) (x : W64) (c : Core) : CRes := .ok (c.setS d x).advance

/-- Sign-extended 22-bit immediate of seq.addi. -/
def imm22 (w : W64) : W64 := (w.truncate 22 : BitVec 22).signExtend 64

def seqLi (w : W64) (c : Core) : CRes := seqWrite (opR0 w) ((w.truncate 32 : W32).zeroExtend 64) c
def seqLih (w : W64) (c : Core) : CRes :=
  seqWrite (opR0 w) ((w.truncate 32 : W32) ++ ((c.sreg (opR0 w)).truncate 32 : W32)) c
def seqAddi (w : W64) (c : Core) : CRes := seqWrite (opR0 w) (c.sreg (opR1 w) + imm22 w) c

/-- seq.add to seq.xor: sd := sa op sb. -/
def seqAlu (f : W64 → W64 → W64) (w : W64) (c : Core) : CRes := seqWrite (opR0 w) (f (c.sreg (opR1 w)) (c.sreg (opR2 w))) c

/-- seq.shl and seq.shr: logical shifts by the immediate [5:0]. -/
def seqShift (f : W64 → Nat → W64) (w : W64) (c : Core) : CRes := seqWrite (opR0 w) (f (c.sreg (opR1 w)) (fld w 0 6)) c

/-! ## Loops (R129, R130) -/

/-- Loop counter and iteration count of a level, 0 outermost. -/
def Core.loopAt (c : Core) (level : Nat) : Option LoopLevel := c.seq.loops.reverse[level]?

/-- Instructions from here to just past the seq.endl that closes the level already open: `depth` inner levels are open. -/
def skipBody : List W64 → Nat → Nat → Nat
  | [], _, n => n
  | w :: r, depth, n =>
    if opClass w = 0 ∧ opCode w = 1 then skipBody r (depth + 1) (n + 1)
    else if opClass w = 0 ∧ opCode w = 2 then (if depth = 0 then n + 1 else skipBody r (depth - 1) (n + 1))
    else skipBody r depth (n + 1)

/-- seq.loop: a register count above 2^24 - 1 raises LOOP_RANGE; a count of 0 skips the body. -/
def seqLoop (v : Env) (w : W64) (c : Core) : CRes :=
  let reg := w.getLsbD 36
  let count := if reg then fld (c.sreg (opR1' w)) 0 32 else fld w 0 24
  if reg ∧ count ≥ 2 ^ 24 then .fault 0x08
  else if count = 0 then .ok (c.setPos (skipBody (v.image.drop (c.seq.pos + 1)) 0 (c.seq.pos + 1)))
  else
    let p := c.seq.pos + 1
    .ok { c with seq := { c.seq with pos := p, loops := ⟨p, count, 0⟩ :: c.seq.loops } }
where
  /-- Register field [35:31] of seq.loop. -/
  opR1' (w : W64) : Nat := fld w 31 5

/-- seq.endl: the innermost loop repeats or is left. -/
def seqEndl (c : Core) : CRes :=
  match c.seq.loops with
  | [] => .wait
  | l :: r =>
    if l.lc + 1 < l.count then .ok { c with seq := { c.seq with pos := l.start, loops := { l with lc := l.lc + 1 } :: r } }
    else .ok { c with seq := { c.seq with pos := c.seq.pos + 1, loops := r } }

/-- Condition codes of seq.brlc (R130). -/
def brlcHolds (cond lc count value : Nat) : Bool :=
  match cond with
  | 0 => lc == value
  | 1 => lc != value
  | 2 => decide (lc < value)
  | 3 => decide (value ≤ lc)
  | 4 => lc + 1 == count
  | 5 => lc + 1 != count
  | _ => false

/-- seq.brlc: skip n instructions if the condition holds on the named level. -/
def seqBrlc (w : W64) (c : Core) : CRes :=
  match c.loopAt (fld w 35 2) with
  | none => .wait
  | some l =>
    let skip := if brlcHolds (fld w 32 3) l.lc l.count (fld w 0 18) then fld w 18 14 else 0
    .ok (c.setPos (c.seq.pos + 1 + skip))

/-- seq.rdlc: the loop counter of an enclosing level. -/
def seqRdlc (w : W64) (c : Core) : CRes :=
  match c.loopAt (fld w 30 2) with
  | none => .wait
  | some l => seqWrite (opR0 w) (BitVec.ofNat 64 l.lc) c

/-- The items of seq.rdid; reserved items give none (R136). -/
def rdidItem (v : Env) (c : Core) : Nat → Option W64
  | 0 => some (BitVec.ofNat 64 v.core)
  | 1 => some (BitVec.ofNat 64 v.coresPer)
  | 2 => some (BitVec.ofNat 64 v.rank)
  | 3 => some (BitVec.ofNat 64 v.modules)
  | 4 => some (BitVec.ofNat 64 v.stepCounter)
  | 5 => some (BitVec.ofNat 64 v.version)
  | 6 => some (BitVec.ofNat 64 v.pending)
  | 7 => some c.tileIndex
  | _ => none

def seqRdid (v : Env) (w : W64) (c : Core) : CRes :=
  match rdidItem v c (fld w 28 4) with
  | none => .wait
  | some x => seqWrite (opR0 w) x c

/-! ## Fences and boundaries (R131, R132, R136) -/

/-- The engines that a seq.fence names: matrix [36], vector [35], row [34], ripple port [33], wadi queues 15 to 0 in [32:17]. -/
def fenceEngines (w : W64) : List Nat :=
  (if w.getLsbD 36 then [1] else []) ++ (if w.getLsbD 35 then [2] else []) ++ (if w.getLsbD 34 then [3] else [])
    ++ (if w.getLsbD 33 then [4] else []) ++ ((List.range 16).filter (fun q => w.getLsbD (17 + q))).map (16 + ·)

def seqFence (w : W64) (c : Core) : CRes := if (fenceEngines w).all c.engineIdle then .ok c.advance else .wait

/-- The largest count of active beats of any engine since the last boundary (R131). -/
def Core.tileLength (c : Core) : Nat := (c.tileBeats.map (·.2.toNat)).foldl max 0

/-- The boundary of a seq.tb once all is quiet: tile index, tile length measured anew. -/
def seqTb (c : Core) : CRes :=
  if c.quiescent then .ok { c.advance with tileIndex := c.tileIndex + 1, tileBeats := [] } else .wait

/-- seq.end: as seq.tb waits; an open tile raises ACC_OPEN_AT_END; then the core has completed (R132). -/
def seqEnd (c : Core) : CRes :=
  if !c.quiescent then .wait
  else if !c.tiles.isEmpty then .fault 0x29
  else .ok { c with seq := { c.seq with ended := true }, tileBeats := [] }

/-! ## Check and gate instructions (R144, R145) -/

/-- The engine of a ck. instruction as an engine code of R122. -/
def ckEngine (w : W64) : Nat := fld w 30 2

def ckRdf (w : W64) (c : Core) : CRes :=
  if c.engineIdle (ckEngine w + 1) then seqWrite (opR0 w) (c.flagsOf (ckEngine w)).word c else .wait

def ckClrf (w : W64) (c : Core) : CRes :=
  if c.engineIdle (ckEngine w + 1) then .ok (c.setFlags (ckEngine w) .clear).advance else .wait

/-- ck.cap: 32 bytes of capture and 32 of zeros into granule sAddr. -/
def ckCap (w : W64) (c : Core) : CRes :=
  let g := (c.sreg (opR0 w)).toNat
  if !c.engineIdle (ckEngine w + 1) then .wait
  else if g ≥ spGranules then .fault 0x0A
  else .ok (c.spWrite (64 * g) ((c.flagsOf (ckEngine w)).capture ++ List.replicate 32 0) false).advance

/-- ck.poison: poison found becomes visible. `busy`: a queued instruction writes the tested granules. -/
def ckPoison (busy : Nat → Nat → Bool) (w : W64) (c : Core) : CRes :=
  let g := (c.sreg (opR0 w)).toNat
  let n := (c.sreg (fld w 25 5)).toNat
  if busy g n then .wait
  else if n = 0 ∨ n > spGranules ∨ g + n > spGranules then .fault 0x0A
  else if c.spPoisoned (64 * g) (64 * n) then .poison g
  else .ok c.advance

/-- Is the core's vote "finite" (R145)? -/
def Core.vote (c : Core) (w : W64) : Bool :=
  (!w.getLsbD 20 || c.gateCount == 0) &&
    (List.range 16).all (fun i => !w.getLsbD (21 + i) || (nget StatEntry.clear c.stats i).nonFiniteTiles == 0)

/-- gt.vote waits for the matrix array and the vector unit; the vote itself goes to the step driver. -/
def gtVote (c : Core) : CRes := if c.engineIdle 1 && c.engineIdle 2 then .ok c.advance else .wait

/-- gt.wait sets the gate predicate once the decision is there. -/
def gtWait (decision : Option Gate) (c : Core) : CRes :=
  match decision with
  | none => .wait
  | some g => .ok { c.advance with g := g }

/-- gt.clr waits for the vector unit and clears its gate count. -/
def gtClr (c : Core) : CRes := if c.engineIdle 2 then .ok { c.advance with gateCount := 0 } else .wait

/-! ## Dispatch (R123, R146) -/

/-- The sequencer places an instruction in its engine's queue; a full queue stalls it. -/
def dispatch (w : W64) (c : Core) : CRes :=
  match engineOf w with
  | none => .wait
  | some code =>
    if (c.queue code).length ≥ queueDepth code then .wait
    else if opP w ∧ c.g = .undecided then .fault 0x09
    else .ok (c.setQueue code (c.queue code ++ [⟨w, c.seq.pos, copyScalars w c.s, c.g, false, none⟩])).advance

end Sys2Proof.Machine
end

