-- ==== Sys2Proof/Machine/QueueOps.lean ====
section
/-! DEFINITION. What wq. and net. instructions do to their core: descriptors, watches and sends (05 R142, R143, 07 R189, R196 to R201). -/

namespace Sys2Proof.Machine

/-! ## Descriptors (R196, R197) -/

/-- A rectangle from its 32 bytes; `reserved` gathers the fields that must be zero. -/
def Rect.ofBytes (l : List Byte) : Rect :=
  let f := fun a n => leNat ((l.drop a).take n)
  { remote := f 0 8, rstride := f 8 4, rowLen := f 12 4, granule := f 16 2, lstride := f 18 2, rows := f 20 4, reserved := f 24 8 }

/-- Does a rectangle break a rule of WQ_DESCRIPTOR (R198)? -/
def Rect.malformed (r : Rect) : Bool :=
  decide (r.rows = 0 ∨ r.rowLen = 0 ∨ r.rows > spGranules ∨ r.rowLen > spGranules ∨ r.remote % 64 ≠ 0 ∨ r.remote ≥ 2 ^ 48 ∨ r.reserved ≠ 0)

/-- The rows of a rectangle: device address, granule and length; strides of a single row are ignored (R197). -/
def Rect.rowSpans (r : Rect) : List Span :=
  (List.range r.rows).map (fun i => ⟨r.remote + i * r.rstride * 64, r.granule + i * r.lstride, r.rowLen⟩)

/-- Requests of up to 64 granules in ascending address order (R199); the fuel is the number of requests. -/
def splitSpan : Nat → Span → List Span
  | 0, _ => []
  | n + 1, s => if s.len = 0 then [] else ⟨s.remote, s.granule, min 64 s.len⟩ :: splitSpan n ⟨s.remote + 64 * 64, s.granule + 64, s.len - 64⟩

def Rect.spans (r : Rect) : List Span := r.rowSpans.flatMap (fun s => splitSpan (ceilDiv s.len 64) s)

/-- The fault of a rectangle, if any, in the order of R198. `remoteOk` says whether a device address range may be accessed. -/
def Rect.check (remoteOk : Nat → Nat → Bool) (r : Rect) : Option Nat :=
  if r.malformed then some 0x30
  else if !r.rowSpans.all (fun s => remoteOk s.remote (64 * s.len)) then some 0x31
  else if !r.rowSpans.all (fun s => decide (s.granule + s.len ≤ spGranules)) then some 0x0A
  else none

/-- A descriptor granule (R196). -/
structure RawDesc where
  op : Nat
  flags : Nat
  listCount : Nat
  listAddr : Nat
  reserved : Nat
  inline' : Rect
  inlineRaw : Nat
  deriving DecidableEq, Repr

def RawDesc.ofBytes (l : List Byte) : RawDesc :=
  let f := fun a n => leNat ((l.drop a).take n)
  { op := f 0 1, flags := f 1 1, listCount := f 2 2, listAddr := f 4 2, reserved := f 6 10 + f 48 16,
    inline' := Rect.ofBytes ((l.drop 16).take 32), inlineRaw := f 16 32 }

/-- Is the descriptor malformed before its rectangles are looked at (R196, R198)? -/
def RawDesc.malformed (d : RawDesc) : Bool :=
  decide ((d.op ≠ 1 ∧ d.op ≠ 2) ∨ d.flags > 1 ∨ d.listCount > 64 ∨ d.reserved ≠ 0 ∨ (d.listCount = 0 ∧ d.listAddr ≠ 0)
    ∨ (d.listCount ≠ 0 ∧ d.inlineRaw ≠ 0))

/-- wq.post: the descriptor granule is read and checked and the queue accepts it (R198, R200, R201).
`entries` gives the translation entries that cover a range at acceptance (12 R464). -/
def wqPost (q : Nat) (remoteOk : Bool → Nat → Nat → Bool) (entries : List Span → List (Nat × Nat)) (e : QEntry) (c : Core) : CRes :=
  let g := (e.reg (fld e.word 28 5)).toNat
  if g ≥ spGranules then .fault 0x0A
  else if 120 ≤ c.outstanding then .wait
  else if c.spPoisoned (64 * g) 64 then .poison g
  else
    let d := RawDesc.ofBytes (c.spRead (64 * g) 64)
    let write := d.op == 2
    if d.malformed then .fault 0x30
    else match (if d.listCount = 0 then d.inline'.check (remoteOk write) else none) with
      | some f => .fault f
      | none =>
        let x := c.wq q
        let n : Desc :=
          { id := x.nextId, idx := e.idx, write := write, ordered := d.flags == 1, listCount := d.listCount, listAddr := d.listAddr,
            inline' := d.inline', skipped := e.skips, phase := .accepted, spans := [], inFlight := 0,
            entryVersions := if d.listCount = 0 then entries d.inline'.rowSpans else [] }
        .ok ((c.setWq q { x with descs := x.descs ++ [n], nextId := x.nextId + 1 }).addBeats (engWadi q) 2)

/-- wq.watch: a ninth watch waits; the watch is placed and fires by itself (R143). -/
def wqWatch (q : Nat) (e : QEntry) (c : Core) : CRes :=
  let x := c.wq q
  if 8 ≤ x.watches.length then .wait
  else
    let v := (e.reg (fld e.word 28 5)).truncate 32
    .ok ((c.setWq q { x with watches := x.watches ++ [⟨v, opTs e.word, opCs e.word, e.idx, 0⟩] }).addBeats (engWadi q) 1)

/-- Has the completion counter reached a watch value (R143)? -/
def watchReached (c v : W32) : Bool := decide ((c - v).toNat < 2 ^ 31)

/-- Rectangles of a descriptor's list, two to a granule (R196). -/
def Core.listRects (c : Core) (d : Desc) : List Rect :=
  (List.range d.listCount).map (fun i => Rect.ofBytes (c.spRead (64 * d.listAddr + 32 * i) 32))

/-- A queue starts its next descriptor: the first not started, if it is not ordered or everything before it has completed (R196, R198). -/
def startDesc (q : Nat) (remoteOk : Bool → Nat → Nat → Bool) (entries : List Span → List (Nat × Nat)) (c : Core) : CRes :=
  let x := c.wq q
  match x.descs.find? (fun d => d.phase == .accepted) with
  | none => .wait
  | some d =>
    let earlier := x.descs.takeWhile (fun y => y.id != d.id)
    if d.ordered && !earlier.all (fun y => y.phase == .completed) then .wait
    else if d.listCount ≠ 0 ∧ 64 * d.listAddr + 32 * d.listCount > 64 * spGranules then .fault 0x0A
    else if d.listCount ≠ 0 ∧ c.spPoisoned (64 * d.listAddr) (32 * d.listCount) then .poison d.listAddr
    else
      let rects := if d.listCount = 0 then [d.inline'] else c.listRects d
      match (if d.listCount = 0 then none else rects.findSome? (Rect.check (remoteOk d.write))) with
      | some f => .fault f
      | none =>
        let spans := rects.flatMap Rect.spans
        let ev := if d.listCount = 0 then d.entryVersions else entries (rects.flatMap Rect.rowSpans)
        let d' := { d with phase := .started, spans := spans, entryVersions := ev }
        .ok (c.setWq q { x with descs := updWhere x.descs (fun y => y.id == d.id) (fun _ => d') })

/-- Remove completed descriptors from the front, counting each (R200: strictly in posting order). -/
def countCompleted : List Desc → W32 → List Desc × W32
  | [], c => ([], c)
  | d :: r, c => if d.phase == .completed then countCompleted r (c + 1) else (d :: r, c)

/-- A started descriptor with nothing left to move completes and the counter advances in posting order (R199, R200). -/
def completeDesc (q : Nat) (c : Core) : CRes :=
  let x := c.wq q
  match x.descs.find? (fun d => d.phase == .started && d.spans.isEmpty && d.inFlight == 0) with
  | none => .wait
  | some d =>
    let ds := updWhere x.descs (fun y => y.id == d.id) (fun y => { y with phase := .completed })
    let (ds, n) := countCompleted ds x.c
    .ok (c.setWq q { x with descs := ds, c := n })

/-! ## Sends (R189, R190) -/

/-- The operands of net.send and net.mcast (05 R142). -/
structure SendOps where
  granule : Nat
  len : Nat
  dest : Nat
  destGranule : Nat
  token : Nat
  signal : Bool
  slot : Nat
  deriving DecidableEq, Repr

def SendOps.of (e : QEntry) : SendOps :=
  let src := e.reg (opR0 e.word)
  let dst := e.reg (opR1 e.word)
  { granule := fld src 0 16, len := fld src 16 7, dest := fld dst 0 10, destGranule := fld dst 10 16, token := fld dst 26 5,
    signal := dst.getLsbD 31, slot := fld e.word 0 16 }

/-- The checks of R189 in their order: a fault code or none. -/
def sendCheck (v : Env) (group : Bool) (o : SendOps) : Option Nat :=
  if !group ∧ v.partition ≤ o.dest then some 0x42
  else match v.slotMap.slots[o.slot]? with
    | none => some 0x40
    | some s =>
      if s.source ≠ v.core ∨ s.group ≠ group ∨ s.dest ≠ o.dest ∨ o.destGranule < s.base ∨ s.base + s.length < o.destGranule + o.len then some 0x40
      else if o.len = 0 ∨ s.allowance < o.len then some 0x41
      else if o.granule + o.len > spGranules then some 0x0A
      else none

/-- net.send and net.mcast: the source granules are read into one of four send buffers (R189). -/
def netSend (group : Bool) (v : Env) (e : QEntry) (c : Core) : CRes :=
  let o := SendOps.of e
  match sendCheck v group o with
  | some f => .fault f
  | none =>
    if 4 ≤ c.sends.length then .wait
    else
      let b : SendBuf :=
        { slot := o.slot, group := group, dest := o.dest, granule := o.destGranule, token := o.token, signal := o.signal, len := o.len,
          bytes := c.spRead (64 * o.granule) (64 * o.len),
          poison := (List.range o.len).map (fun i => sget c.spPoison (o.granule + i) != 0)
          launch := none }
      .ok ({ c with sends := c.sends ++ [b] }.addBeats engRipple 1)

end Sys2Proof.Machine
end

