-- ==== Sys2Proof/Machine/LearnState.lean ====
section
/-! DEFINITION. State of the learner step, of rollouts, publication and checkpoints, and of audit rings (02 R57 to R64, 09, 10). -/

namespace Sys2Proof.Machine

/-- States of a version buffer (09 R254). -/
inductive BufState where
  | free
  | pending
  | current
  | held
  deriving DecidableEq, Repr

/-- Who holds a version (09 R255). -/
inductive Holder where
  | microBatch (cmd batch : Nat)
  | round (k : Nat)
  | checkpoint
  | publication
  deriving DecidableEq, Repr

/-- A version buffer (09 R254, R255, R271): its device address, version, holders (the fence is their number), the tracked-state copy and the digest once known. -/
structure VersionBuf where
  addr : Nat
  state : BufState
  version : Nat
  holders : List Holder
  tracked : List (List Byte)
  digest : Option (List Byte)
  deriving DecidableEq, Repr

/-- A group entry of the optimiser table (09 R261). -/
structure GroupEntry where
  first : Nat
  count : Nat
  lr : W32
  b1 : W32
  b2 : W32
  eps : W32
  lambda : W32
  rho : W32
  p1 : W32
  p2 : W32
  flags : Nat
  deriving DecidableEq, Repr

/-- Scalars of a group for one attempt (09 R263). -/
structure GroupScalars where
  q1 : W32
  q2 : W32
  omb1 : W32
  omb2 : W32
  k1 : W32
  k2 : W32
  nlr : W32
  nlrwd : W32
  deriving DecidableEq, Repr

/-- A tracked entry (09 R268). -/
structure TrackedEntry where
  tensor : W32
  kind : Nat
  params : Nat
  margin : Nat
  fill : Nat
  quiet : Nat
  format : Nat
  s : W32
  m : W32
  hist : List W32
  deriving DecidableEq, Repr

/-- A patch entry (09 R271). -/
structure PatchEntry where
  kind : Nat
  reg : Nat
  image : Nat
  tracked : Nat
  addr : Nat
  deriving DecidableEq, Repr

/-- A master area (09 R259): its address and the version whose state it holds, 0 for none. -/
structure MasterArea where
  addr : Nat
  version : Nat
  deriving DecidableEq, Repr

/-- The optimiser table and what the step driver keeps from step to step (09 R253 to R271). `hashing` are committed versions whose digest the hash
engines are still computing, with the digest that their contents at the commit have (02 R58);
`committed` is the group and tracked entries as they stood at the last commit (10 R306). -/
structure Learner where
  algorithm : Nat
  buffers : List VersionBuf
  stepFlow : Nat
  commitLead : Nat
  stepCount : W64
  statsArea : Nat
  controlArea : Nat
  params : List W32
  groups : List GroupEntry
  tracked : List TrackedEntry
  patches : List PatchEntry
  own : List MasterArea
  buddy : List MasterArea
  lastStep : Option Nat
  lastTime : W64
  discarded : Nat
  decisionLog : List (Nat × Nat)
  lastGroup : Option Nat
  hashing : List (Nat × List Byte)
  committed : List Byte
  deriving DecidableEq, Repr

/-- The iteration phases of a STEP that the step driver runs (01 R26). -/
inductive StepPhase where
  | accepted
  | scoring
  | advantage
  | learner
  | exchange
  | gate
  | optimise
  | prepared
  | decided
  | outcome
  | digest
  deriving DecidableEq, Repr

/-- The outcome of a step (09 R275 to R280). -/
inductive StepOutcome where
  | committed
  | skippedVote
  | skippedResult
  | failed
  deriving DecidableEq, Repr

/-- What a module has gathered for a report to its parent (09 R272 to R276). -/
structure Gathered where
  children : List Nat
  finite : Bool
  result : Bool
  mismatch : Bool
  poison : Bool
  prepared : Bool
  ranks : Nat
  stats : List StepStat
  own : Bool
  sent : Bool
  deriving DecidableEq, Repr

/-- A STEP in progress (09 R272 to R282). `collFlags` are the sticky flags of its collectives (08 R242), `waited` cores that have passed a gt.wait of the
attempt; `copyTag` and `logTag` are the last tags of the shard copy and of the decision log's write, `logAck` when that write was acknowledged; `sentAt`
is when the module's last report went up. `batch` is the micro-batch that runs, of `batches`; `source` is the step whose commit made the version consumed;
`ownStats` are the module's own statistics, `shards` where its reduced gradient lies and `retain` where the copy of it went (R272); `poisoned` says that a
digest made poison visible; `count` is the optimiser step count after the step, `rewards` and `rates` the host inputs read (02 R62) and `digest` that of
the version committed. -/
structure StepRun where
  cmd : Nat
  counter : Nat
  slots : List Nat
  supplied : Bool
  phase : StepPhase
  attempt : Nat
  consumed : Nat
  pending : Nat
  progDone : Bool
  votes : List (Nat × Bool)
  results : List (Nat × Bool)
  waited : List Nat
  collFinite : Bool
  collFlags : Nat
  shardCopied : Bool
  copyTag : Option Nat
  gate : Gathered
  prep : Gathered
  combined : List StepStat
  heard : Bool
  decision : Option Bool
  allocated : Bool
  scalars : List GroupScalars
  ownDigest : Option (List Byte)
  mirrorDigest : Option (List Byte)
  buddyDigest : Option (List Byte)
  logTag : Option Nat
  logAck : Option W64
  logged : Bool
  sentAt : Option Nat
  commitTime : Option W64
  inDoubt : Bool
  outcome : Option StepOutcome
  reason : Nat
  mapDigest : List Byte
  seedDigest : List Byte
  ringNoted : Bool
  batch : Nat
  batches : Nat
  source : Option Nat
  ownStats : Option (List StepStat)
  shards : List (Nat × Nat)
  retain : Option Nat
  poisoned : Bool
  count : Nat
  rewards : List Byte
  rates : List Byte
  digest : Option (List Byte)
  deriving DecidableEq, Repr

/-- A rollout in a generation round (10 R292 to R298). `kvSlots` are the slots of its stretches, in order: in the spill area or not, and the number. -/
structure RolloutRun where
  index : Nat
  promptAddr : Nat
  promptLen : Nat
  promptId : W64
  samples : Nat
  sample : Nat
  admitted : Bool
  tokens : List W32
  logProbs : List W32
  slotsNear : Nat
  slotsSpill : Nat
  kvSlots : List (Bool × Nat)
  ended : Nat
  recorded : Bool
  deriving DecidableEq, Repr

/-- A prompt entry of the prompt ring (10 R292). -/
structure PromptEntry where
  addr : Nat
  len : Nat
  samples : Nat
  id : W64
  deriving DecidableEq, Repr

/-- A generation round (10 R292 to R298, R304). -/
structure RoundRun where
  number : Nat
  seed : W64
  version : Nat
  key : BitVec 128
  rollouts : List RolloutRun
  aborting : Bool
  started : Bool
  deriving DecidableEq, Repr

/-- A generation table (10 R291). -/
structure GenTable where
  vocab : Nat
  temperature : W32
  topK : Nat
  topP : W32
  answerLimit : Nat
  drawTensor : W32
  stops : List W32
  policy : Nat
  roundLimit : Nat
  kvBytes : Nat
  pool : Nat
  perRound : Nat
  spill : Nat
  deriving DecidableEq, Repr

/-- A learner rollout table (10 R300). -/
structure LearnerTable where
  groups : Nat
  capacity : Nat
  mode : Nat
  sources : Nat
  wRm : W32
  eps : W32
  rolloutRing : Nat
  rewardRing : Nat
  mapArea : Nat
  deriving DecidableEq, Repr

/-- A ring of 02 R64: kind (0 cairn, 1 regeneration, 2 prompt, 3 rollout, 4 reward), address, entry size and count, indices, and entries waiting for space. -/
structure DataRing where
  addr : Nat
  size : Nat
  count : Nat
  producer : W64
  consumer : W64
  waiting : List (List Byte)
  deriving DecidableEq, Repr

/-- A publication (10 R302, R303): the list entry, the version in flight (0 none), how often it was sent, the version that waits (0 none),
and the commands that wait for the one and for the other. -/
structure Publication where
  entry : Nat
  flight : Nat
  sends : Nat
  waiting : Nat
  cmds : List Nat
  next : List Nat
  deriving DecidableEq, Repr

/-- A completed or running checkpoint (10 R305 to R307); `place` and `len` are the device address of its manifest and all its bytes, `chunks` and `mirror` are the chunk entries of the
own shard and of the mirror. -/
structure Checkpoint where
  id : Nat
  version : Nat
  full : Bool
  base : Nat
  place : Nat
  len : Nat
  sink : Option (Nat × Nat)
  changedOnly : Bool
  chunks : List (List Byte × Nat × Nat)
  mirror : List (List Byte × Nat × Nat)
  digest : List Byte
  shardDigest : List Byte
  stepCount : Nat
  sent : Nat
  cmd : Option Nat
  started : Nat
  deriving DecidableEq, Repr

end Sys2Proof.Machine
end

