-- ==== Sys2Proof/Machine/ModuleState.lean ====
section
/-! DEFINITION. State of the module outside contexts: records in flash, boot, pins, power, time, memories, on-die networks, suspects (07, 11, 15, 16, 18). -/

namespace Sys2Proof.Machine

/-! ## Flash, boot and identity (16) -/

/-- The signed configuration record (16 R420). A silent field is `none`. -/
structure ConfigRec where
  grade : Nat
  stepping : Nat
  romRevision : Nat
  serial : W64
  powerLimit : Option Nat
  ceiling : Option Nat
  priority : Option Nat
  sieveInterval : Option Nat
  floors : List Nat
  deriving DecidableEq, Repr

/-- The contents of the health record (16 R424) and the flash counter (16 R418), with the counter fields of both copies (16 R425). -/
structure Health where
  floors : List Nat
  bankB : List Bool
  retiredCores : List (Nat × Nat)
  coreResults : List (Nat × Nat × Bool)
  retiredPcs : List (Nat × Nat)
  hardRepairs : List (Nat × Nat × Nat)
  outOfService : Bool
  total : Nat
  copies : List Nat
  counter : Nat
  deriving DecidableEq, Repr

/-- An image of flash (16 R419, R422) as its checks find it. -/
structure FlashImage where
  version : Nat
  verifies : Bool
  digestOk : Bool
  serial : W64
  deriving DecidableEq, Repr

/-- What flash holds that the boot reads (16 R418 to R423). Images by (type − 1): bank A, bank B. -/
structure Flash where
  readable : Bool
  rootOk : Bool
  manifestOk : Bool
  identityOk : Bool
  bankA : List FlashImage
  bankB : List FlashImage
  config : FlashImage
  configMatches : Bool
  retries : Nat
  deriving DecidableEq, Repr

/-- An SPDM response, one per transport (16 R427). -/
structure SpdmMsg where
  request : Nat
  slot : Nat
  body : List Byte
  error : Bool
  deriving DecidableEq, Repr

/-- The Mesa controller (16): boot progress, loaded versions, SPDM, cairn signing. -/
structure Mesa where
  stage : Nat
  failure : Nat
  typ : Nat
  bankB : Nat
  loaded : List Nat
  healthAt : Nat
  lifecycle : Bool
  failed : Bool
  spdmVersion : List Nat
  spdmCaps : List Nat
  spdmNegotiated : List Nat
  spdmOut : List (Nat × SpdmMsg)
  signed : Nat
  signQueue : List (Nat × List Byte)
  deriving DecidableEq, Repr

/-! ## Pins (18) -/

/-- Pins, supply and board buses (18 R448 to R459). -/
structure Pins where
  input48 : Bool
  pwrEn : Bool
  pwrGood : Bool
  railsOn : Bool
  lockout : Bool
  modResetN : Bool
  perstN : Bool
  thermtripN : Bool
  pwrbrakeN : Bool
  modPresentN : Bool
  straps : Nat
  smbAddr : Nat
  refclk : Bool
  tenMAmplitude : Bool
  smbBusy : Option Nat
  smbTaken : List Nat
  tap : Nat
  tapOut : Option W32
  deriving DecidableEq, Repr

/-! ## Power (15) -/

/-- Power, calms and thermal limits (15). Powers are in W. `intMax` says that the power component was 56 throughout the present 1 ms, `fastAt` when
the fast limit tripped last; `lastFast` and `lastBrake` are when their notices were raised. -/
structure Power where
  setLimit : Nat
  effective : Nat
  trim : Rat
  gain : Nat
  estimate : Rat
  eSum : Rat
  eCount : Nat
  lastE : Rat
  measured : Rat
  control : Rat
  history : List Nat
  kPower : Nat
  kThermal : Nat
  kFast : Nat
  kJob : Nat
  periodMax : Nat
  brake : Bool
  applied : Nat
  disagreeRun : Nat
  agreeRun : Nat
  sumM : Rat
  sumE : Rat
  disagreement : Bool
  sensorFault : Bool
  unreachable : Bool
  atMaxRun : Nat
  intMax : Bool
  loopSum : Nat
  loopCount : Nat
  loopZero : Bool
  loopBelow : Bool
  calmCount : W64
  thermWarning : Bool
  site : Nat
  junction : Int
  stackTemps : List Nat
  stackDoubled : List Bool
  rails : List Nat
  lost : List Nat
  fitted : List Nat
  fastAt : Option Nat
  lastFast : Option Nat
  lastBrake : Option Nat
  deriving DecidableEq, Repr

/-! ## System Time (08) -/

/-- The System Time unit (08 R228 to R233, R252). -/
structure SysTime where
  now : W64
  offset : Int
  hops : Nat
  parent : Option Nat
  mode : Nat
  ppsValid : Bool
  tenValid : Bool
  capable : Bool
  gm : W64
  gmClass : Nat
  gmPriority : Nat
  ppsReject : W32
  ppsBad : Nat
  ppsGood : Nat
  ppsLast : Option Nat
  thetas : List Int
  ratePpm : Int
  holdover : Option Nat
  holdoverWarned : Bool
  locked : Bool
  gmHeard : Nat
  slewing : Bool
  deriving DecidableEq, Repr

/-! ## Memories (07) -/

/-- Error history of a near-memory row (07 R208): die, pseudo-channel, row, times of corrected errors, uncorrectable seen. -/
structure RowErr where
  die : Nat
  pc : Nat
  row : Nat
  corrected : List Nat
  bad : Bool
  deriving DecidableEq, Repr

/-- Near and far memory and their status (07 R204 to R212). The lines of a pseudo-channel in `lost` read as poisoned but for the granules `rewritten` since (R209). -/
structure Mem where
  bytes : SMap 8
  poison : SMap 1
  rows : List RowErr
  softRepairs : List (Nat × Nat × Nat)
  ueTimes : List (Nat × Nat × Nat)
  moving : List Bool
  lost : List (Nat × Nat)
  rewritten : SMap 1
  ceNear : List W32
  ueNear : List W32
  ceFar : W32
  ueFar : W32
  farIn : BitVec 16
  spCe : List W32
  netDrop : List W32
  refresh : Option (Bool × Nat × Nat)
  deriving DecidableEq, Repr

/-! ## On-die networks (07) -/

/-- A ripple-plane packet (07 R183, R191): header fields, payload and poison, the first ripple of its frame and the hops of its slot. It makes hop number
`hop` (`moving`), or has made it and lies in the forwarding buffer of that hop's link, with the hops in `left` still to be made from there. `lost`:
its header was lost on an earlier hop (log 145). -/
structure Packet where
  id : Nat
  ctx : Nat
  epoch : BitVec 16
  src : Nat
  dest : Nat
  granule : Nat
  slot : Nat
  token : Nat
  signal : Bool
  bytes : List Byte
  poison : List Bool
  base : Nat
  hops : List PlanHop
  hop : Nat
  moving : Bool
  left : List Nat
  lost : Bool
  deriving DecidableEq, Repr

/-- Where a request of a wadi transfer goes (07 R204); a window request keeps what its translation entry said when it was issued (12 R464). -/
inductive Target where
  | near (die : Nat)
  | far
  | host (entry bus : Nat)
  | peer (entry rank flow remote : Nat)
  | nowhere
  deriving DecidableEq, Repr

/-- A request of a wadi transfer in flight, or the part of it that one controller holds (07 R199): its transfer, the granules of it by offset, and its
data once served. `route` is the memory-plane hops, from node to node, it has still to make, to its endpoint or, once served, back to its core; `moving`
says that it makes the first of them in this ripple, `last` is the one it came by. -/
structure Request where
  id : Nat
  ctx : Nat
  epoch : BitVec 16
  core : Nat
  q : Nat
  desc : Nat
  write : Bool
  addr : Nat
  granule : Nat
  offsets : List Nat
  target : Target
  bytes : List Byte
  poison : List Bool
  served : Bool
  route : List (Nat × Nat)
  moving : Bool
  last : Option (Nat × Nat)
  issued : Nat
  tag : Nat
  deriving DecidableEq, Repr

/-- The on-die networks (01 R22, 07 R182 to R192). `calm`: the period is a calm (R185). Links out of service by number: die, link set, link. -/
structure Net where
  ripple : BitVec 48
  calmPhase : Nat
  calm : Bool
  packets : List Packet
  requests : List Request
  nextId : Nat
  badLinks : List (Nat × Nat × Nat)
  linkCe : List ((Nat × Nat × Nat) × Nat)
  deriving DecidableEq, Repr

/-! ## Faults (11) -/

/-- The key of a suspect (11 R324). For a module, `index` is zero and serial or (job, rank) names it. -/
structure SuspectKey where
  kind : Nat
  die : Nat
  index : Nat
  serial : W64
  job : W64
  rank : Nat
  deriving DecidableEq, Repr

/-- A suspect table entry (11 R324). -/
structure Suspect where
  key : SuspectKey
  state : Nat
  first : Nat
  last : Nat
  rank : Nat
  job : W64
  serial : W64
  transients : List Nat
  reports : Nat
  firstTime : W64
  lastTime : W64
  step : W64
  tensor : W32
  seq : Nat
  deriving DecidableEq, Repr

/-- What a physical core does (01 R16, 11 R315, R317, R322). -/
inductive PhysState where
  | spare
  | assigned
  | sieve
  | recheck
  | retired
  deriving DecidableEq, Repr

/-- A physical core: state, times of transients charged, last sieve, since when a sieve is due, whether it is forced, the other member of a
mismatched twin pair, and whether this member has passed its sieve since. -/
structure Phys where
  state : PhysState
  transients : List Nat
  lastSieve : Nat
  due : Option Nat
  forced : Bool
  twin : Option Nat
  passed : Bool
  deriving DecidableEq, Repr

/-- A physical core that nothing has happened to. -/
def Phys.fresh : Phys := ⟨.spare, [], 0, none, false, none, false⟩

/-- A checked element of a sampled tile (11 R309, R310): row and column in the tile, the operand pairs of every product, the initial value and
merged partials, whether a scale was invalid, the number of roundings, the core's value, and whether its drained code is right. -/
structure MirageElem where
  row : Nat
  col : Nat
  pairs : List (FVal × FVal)
  addends : List FVal
  bad : Bool
  nr : Nat
  core : Nat
  drainOk : Bool
  deriving DecidableEq, Repr

/-- A sampled tile with its copies (11 R309 to R311): `rows`, `cols`, `slices` of its tensor and its `slice`; `blocks` the global blocks added.
`state`: 0 open, 1 closed and unchecked, 2 re-check pending; `other` is core Y once the re-check runs; `alive` that the tile's context still lives. -/
structure Sample where
  die : Nat
  phys : Nat
  ctx : Nat
  core : Nat
  tile : Nat × Nat × Nat
  tensor : W32
  step : W64
  rowOrigin : Nat
  colOrigin : Nat
  depth : Nat
  acc : Nat
  mode : Nat
  floatPair : Bool
  rows : Nat
  cols : Nat
  slices : Nat
  slice : Nat
  blocks : List Nat
  elements : List MirageElem
  bytes : Nat
  state : Nat
  attempts : Nat
  other : Option (Nat × Nat)
  freed : Bool
  alive : Bool
  deriving DecidableEq, Repr

/-- The mirage unit of a die (11 R309, R317, R330). -/
structure MirageUnit where
  tiles : Nat
  checked : W32
  skipped : W32
  disagree : W32
  inService : Bool
  testing : Bool
  transients : List Nat
  sieveRun : W32
  sieveFail : W32
  deriving DecidableEq, Repr

/-- What a report says beside its key and cause. -/
structure Report where
  rank : Nat := 0
  job : W64 := 0
  serial : W64 := 0
  step : W64 := 0xFFFFFFFFFFFFFFFF
  tensor : W32 := 0xFFFFFFFF
  ctx : Option Nat := none
  deriving DecidableEq, Repr

/-- A key's reports on their way to rank 0 of a job (11 R327): the last cause, what the report says, when the last message went, reports since. -/
structure Relay where
  key : SuspectKey
  cause : Nat
  rep : Report
  last : Option Nat
  count : Nat
  deriving DecidableEq, Repr

/-- The fault aggregator (11): suspect table, physical cores (key 136 × die + number), die core maps, folds, re-checks, relay counts. -/
structure Faults where
  suspects : List (Nat × Suspect)
  overflow : Bool
  lastOverflow : Option Nat
  mirage : List MirageUnit
  folded : List Bool
  phys : List (Nat × Phys)
  map : List (Nat × Nat)
  samples : List Sample
  relaySent : List Relay
  deriving DecidableEq, Repr

end Sys2Proof.Machine
end

