-- ==== Sys2Proof/Machine/SeifState.lean ====
section
/-! DEFINITION. State of Seif ports, routes, windows, pacing and the collective engine (08). -/

namespace Sys2Proof.Machine

/-- A Seif port (08 R214 to R222, R250, R251). `stream` is accepted payload not yet taken as packets and `times` the length and arrival of its frames,
`inbox` the control messages not yet taken, `outbox` those not yet sent, `heard` the last announcement and `heardAt` its time, `slots` the data frames
sent since the last control frame, `swapTx` and `swapRx` a lane swap at a frame still to be sent or received (R219). -/
structure Port where
  state : Nat
  version : Nat
  fast : Bool
  retried : Bool
  spare : Bool
  replaced : Nat
  attempts : Nat
  partner : Option Discovery
  changed : W64
  fecCorr : W32
  fecUncorr : W32
  replays : W32
  drop : W32
  txSeq : BitVec 12
  acked : BitVec 12
  rxNext : BitVec 12
  nak : Bool
  buffer : List Frame
  resent : Nat
  resentSeq : BitVec 12
  stream : List Byte
  inbox : List (List Byte)
  outbox : List (List Byte)
  lastRx : W64
  arrival : W64
  echoTx : W64
  ackTime : W64
  delay : Int
  heard : Option (Nat × Nat × W64 × Nat)
  heardAt : Nat
  slots : Nat
  times : List (Nat × Nat)
  swapTx : Option (Nat × BitVec 12)
  swapRx : Option (Nat × BitVec 12)
  deriving DecidableEq, Repr

/-- A port after a module reset: down, counters zero (08 R250, R251). -/
def Port.down : Port :=
  { state := 0, version := 0, fast := false, retried := false, spare := false, replaced := 0, attempts := 0, partner := none, changed := 0,
    fecCorr := 0, fecUncorr := 0, replays := 0, drop := 0, txSeq := 0, acked := 0, rxNext := 0, nak := false, buffer := [], resent := 0,
    resentSeq := 0, stream := [], inbox := [], outbox := [], lastRx := 0, arrival := 0, echoTx := 0, ackTime := 0, delay := 0, heard := none, heardAt := 0, slots := 0, times := [], swapTx := none, swapRx := none }

/-- A rank claim: job, rank, module count, the serial that claims, whether that is this module, the ports over which it is seen, and when it arrived
(08 R223). -/
structure Claim where
  job : W64
  rank : Nat
  modules : Nat
  serial : W64
  own : Bool
  ports : List Nat
  time : W64
  refused : Bool
  deriving DecidableEq, Repr

/-- A route entry of a job (08 R226): the egress port of a rank, none while there is no port. -/
structure Route where
  job : W64
  rank : Nat
  port : Option Nat
  since : W64
  departed : Bool
  deriving DecidableEq, Repr

/-- A packet ready to be sent in a window of its flow on a port (08 R235). -/
structure ReadyPacket where
  ctx : Nat
  port : Nat
  pkt : SeifPacket
  ready : W64
  deriving DecidableEq, Repr

/-- A peer-window transfer that waits for its partner (08 R227): tag, request of a wadi transfer (none for a write of the module itself), rank, issue time. -/
structure PeerXfer where
  tag : Nat
  request : Option Nat
  ctx : Nat
  rank : Nat
  write : Bool
  issued : W64
  deriving DecidableEq, Repr

/-- Pacing state of a context's job (08 R248): the module's own ratios by period, reports of children (rank, period, ratio, ranks covered), periods already
reported, job maxima by period, the first period that counts, and ranks warned about. -/
structure Pacing where
  ctx : Nat
  first : Nat
  own : List (Nat × Nat)
  reports : List (Nat × Nat × Nat × Nat)
  sent : List Nat
  maxima : List (Nat × Nat)
  warned : List Nat
  deriving DecidableEq, Repr

/-- An open link window (08 R234 to R236): `left` is the payload that it can still carry, `first` when the first packet of a flow that was empty at the
opening became ready. -/
structure OpenWindow where
  ctx : Nat
  entry : Nat
  port : Nat
  flow : Nat
  opened : W64
  closes : W64
  expected : Bool
  sent : Nat
  left : Nat
  first : Option Nat
  empty : Bool
  deriving DecidableEq, Repr

/-- Everything Seif outside single ports (08). `out` is an output: what left each port. -/
structure Seif where
  ports : List (Nat × Port)
  claims : List Claim
  routes : List Route
  ready : List ReadyPacket
  windows : List OpenWindow
  peers : List PeerXfer
  nextTag : Nat
  pacing : List Pacing
  out : List (Nat × Frame)
  deriving DecidableEq, Repr

/-- A collective descriptor (08 R238). -/
structure CollDesc where
  id : W32
  op : Nat
  cls : Nat
  format : Nat
  acc : Nat
  root : Nat
  flow : Nat
  flows : Nat
  n : Nat
  input : Nat
  output : Nat
  segments : Nat
  localSegments : Nat
  segmentList : Nat
  reserved : Nat
  deriving DecidableEq, Repr

/-- A contribution held until its node can be formed (08 R239, R241): chunk, leaf (rank or segment), and the bytes of the context's collective region
that hold its payload. -/
structure Leaf where
  chunk : Nat
  leaf : Nat
  addr : Nat
  len : Nat
  deriving DecidableEq, Repr

/-- A collective phase in progress (08 R238 to R246). -/
structure Coll where
  ctx : Nat
  step : W64
  started : W64
  desc : CollDesc
  h : BitVec 128
  k : BitVec 128
  leaves : List Leaf
  done : List Nat
  mismatches : List (Nat × Nat × Nat × Nat)
  inbox : List SeifPacket
  flags : Nat
  nonFinite : Nat
  deriving DecidableEq, Repr

end Sys2Proof.Machine
end

