-- ==== Sys2Proof/Machine/CtxState.lean ====
section
/-! DEFINITION. State of a context (12 R358, 13) and of the schedule. -/

namespace Sys2Proof.Machine

/-- States of a context (13 R364). -/
inductive CtxStatus where
  | absent
  | creating
  | idle
  | waiting
  | running
  | saved
  | closing
  deriving DecidableEq, Repr

def CtxStatus.code : CtxStatus → Nat
  | .absent => 0
  | .creating => 1
  | .idle => 2
  | .waiting => 3
  | .running => 4
  | .saved => 5
  | .closing => 6

/-- The fields of a context descriptor (12 R358). -/
structure CtxDesc where
  job : W64 := 0
  rank : Nat := 0
  modules : Nat := 1
  cores : Nat := 0
  kind : Nat := 1
  audit : Nat := 0
  twin : Bool := false
  paced : Bool := false
  mirage : Nat := 0xFF
  policy : Nat := 0
  weight : Nat := 1
  margin : Nat := 0
  saveAddr : Nat := 0
  saveLen : Nat := 0
  windows : Nat := 0
  hist : Nat := 0
  optimiser : Nat := 0
  kindTable : Nat := 0
  watch : Nat := 0
  watchRecords : Nat := 0
  cairnRing : Nat := 0
  regenRing : Nat := 0
  cairnCount : Nat := 0
  regenCount : Nat := 0
  sigAddr : Nat := 0
  sigLen : Nat := 0
  collAddr : Nat := 0
  collLen : Nat := 0
  standInList : Nat := 0
  standIns : Nat := 0
  watchCount : Nat := 0
  promptRing : Nat := 0
  rolloutRing : Nat := 0
  replayed : W64 := 0
  pubList : Nat := 0
  pubCount : Nat := 0
  cadence : Nat := 0
  fullInterval : Nat := 0
  ckptAddr : Nat := 0
  ckptLen : Nat := 0
  genSlot : Nat := 0
  deriving DecidableEq, Repr

/-- A descriptor of one learner module without areas or lists. -/
def CtxDesc.zero : CtxDesc := { }

/-- A grant of MAP_MEMORY (12 R357): address, length, access bits. -/
structure Grant where
  addr : Nat
  len : Nat
  access : Nat
  deriving DecidableEq, Repr

/-- A program phase in progress on a context's cores: the command it serves, the slot, the step counter, whether it is one phase of a STEP or a round,
and the place in the list of stand-in ranks of the rank as which it runs (02 R65). -/
structure RunPhase where
  cmd : Option Nat
  slot : Nat
  step : W64
  overruns : Nat
  lates : Nat
  round : Option Nat
  turn : Nat
  deriving DecidableEq, Repr

/-- Route plan of a program on a core map (07 R187): the hops of each slot, the frame length, and whether a shared link is used. -/
structure Plan where
  slots : List (List PlanHop)
  frame : Nat
  shared : Bool
  deriving DecidableEq, Repr

/-- A context (13). `hung` marks a context that the hang procedure closed (14 R383). `preempt` says that it is asked to leave its cores, `resume` that
the schedule has placed it; `asked` is when it was asked to leave, `lateFrom` when a stretch that it must finish began to overrun, and `deferred` the
key and the version of a program that starts once the context is on its cores. `drained` counts the elements drained of each tensor in the program that
runs (02 R60), and `ckptLog` holds identifier and version of every checkpoint started (02 R63). -/
structure Ctx where
  status : CtxStatus
  epoch : BitVec 16
  size : Nat
  die : Nat
  index : Nat
  desc : CtxDesc
  weight : Nat
  vtime : Nat
  engineTime : W64
  overrun : W32
  folded : Bool
  placed : W64
  slots : List (Nat × Program)
  grants : List Grant
  cores : List (Nat × Core)
  faults : List FaultRec
  poison : Option (Nat × Nat)
  stopping : Bool
  run : Option RunPhase
  plan : Option Plan
  frameStart : Nat
  taken : List (Nat × Nat)
  late : Nat
  overruns : Nat
  lastLate : Option Nat
  preempt : Bool
  resume : Bool
  asked : Option Nat
  lateFrom : Option Nat
  deferred : Option (BitVec 128 × Nat)
  hung : Bool
  closedAt : W64
  closeCmd : Option Nat
  learn : Option Learner
  steps : List StepRun
  rounds : List RoundRun
  nextRound : Nat
  returned : List PromptEntry
  gen : Option GenTable
  rollouts : Option LearnerTable
  kvUsed : Nat
  spillUsed : Nat
  rings : List (Nat × DataRing)
  pubs : List Publication
  ckpts : List Checkpoint
  ckptNow : Option Checkpoint
  ckptDue : Bool
  lastDone : Option Nat
  drained : List (Nat × Nat)
  ckptLog : List (Nat × Nat)
  watchNoted : List (Nat × Nat)
  unsignedWarned : Bool
  deriving DecidableEq, Repr

/-- A window of a caravan table (13 R372). -/
structure CaravanWindow where
  ctx : Nat
  exclusive : Bool
  epoch : BitVec 16
  offset : Nat
  length : Nat
  deriving DecidableEq, Repr

/-- A caravan table (13 R372). -/
structure CaravanTable where
  start : Nat
  frame : Nat
  windows : List CaravanWindow
  deriving DecidableEq, Repr

/-- Caravan state (13 R372, R373): the table in force, the accepted one, the windows whose lead
time has come and those open, by number, and notice times. -/
structure Caravan where
  table : Option CaravanTable
  next : Option CaravanTable
  armed : List Nat
  openWindows : List Nat
  lastNotice : List (Nat × Nat)
  deriving DecidableEq, Repr

/-- A valid translation entry (12 R336, 08 R226); `version` counts the writes of the index. -/
structure XlateEntry where
  typ : Nat
  ctx : Nat
  size : Nat
  window : Nat
  bus : Nat
  attr : Nat
  rank : Nat
  flow : Nat
  remote : Nat
  version : Nat
  deriving DecidableEq, Repr

end Sys2Proof.Machine
end

