-- ==== Sys2Proof/Machine/State.lean ====
section
/-! DEFINITION. The state of the block, the reasons a step can stop, and the state after reset. -/

namespace Sys2Proof.Machine

/-- Why a step stops. Each is raised when a command names a unit that no module has; safe: the block has no such command. -/
inductive Fault where
  /-- A context number above 63 (12 R343). Raised by commands that name a context. Safe. -/
  | noContext
  /-- A logical core number above 511 (01 R15, 07 R195). Raised by commands that name a logical core. Safe. -/
  | noCore
  /-- An engine code or wadi queue that no core has (05 R122). Safe. -/
  | noEngine
  /-- A Seif port number above 17 (08). Safe. -/
  | noPort
  /-- A ring number above 63 (12 R337). Safe. -/
  | noRing
  /-- A compute die, physical core, stack, channel, rail or oasis pair that the module does not have (01, 15 R416). Safe. -/
  | noUnit
  deriving DecidableEq, Repr

/-- Why a command is refused. -/
inductive Refusal where
  /-- A command with no meaning yet; raised by `exec` for a row of the table by its mnemonic. Safe. -/
  | notModelled (mnemonic : String)
  deriving DecidableEq, Repr

/-- The state of the block. `pending` is the queue of commands that are waiting, first in, first out. `freeCount` is the model's own. -/
structure State where
  pending : List Instr
  cfg : ConfigRec
  health : Health
  flash : Flash
  mesa : Mesa
  pins : Pins
  st : SysTime
  host : HostIf
  attn : Attention
  faults : Faults
  power : Power
  rst : ResetState
  svc : List Service
  captures : List (Nat × Capture)
  nextCapture : BitVec 16
  mem : Mem
  xlate : List (Nat × XlateEntry)
  xlVersion : Nat
  net : Net
  seif : Seif
  colls : List Coll
  ctxs : List (Nat × Ctx)
  caravan : Caravan
  epochCounter : BitVec 16
  freeCount : Nat
  deriving DecidableEq, Repr

/-! ## Reset values -/

/-- DESIGN CHOICE (log 10): the record of this module: VX4-512, stepping A1, serial 1, all optional fields silent. -/
def ConfigRec.reset : ConfigRec :=
  { grade := 1, stepping := 1, romRevision := 0, serial := 1, powerLimit := none, ceiling := none, priority := none,
    sieveInterval := none, floors := List.replicate 8 0 }

/-- DESIGN CHOICE (log 11): a health record with nothing retired. -/
def Health.reset : Health :=
  { floors := List.replicate 8 0, bankB := List.replicate 8 false, retiredCores := [], coreResults := [], retiredPcs := [], hardRepairs := [],
    outOfService := false, total := 0, copies := [0, 0], counter := 0 }

/-- DESIGN CHOICE (log 11): acceptable images of version 0 in both banks. -/
def Flash.reset : Flash :=
  { readable := true, rootOk := true, manifestOk := true, identityOk := true, bankA := List.replicate 7 ⟨0, true, true, 0⟩,
    bankB := List.replicate 7 ⟨0, true, true, 0⟩, config := ⟨0, true, true, 1⟩, configMatches := true, retries := 0 }

/-- The Mesa controller before stage 0x1 (16 R431). -/
def Mesa.reset : Mesa :=
  { stage := 0, failure := 0, typ := 0, bankB := 0, loaded := List.replicate 7 0, healthAt := 0, lifecycle := false, failed := false, spdmVersion := [],
    spdmCaps := [], spdmNegotiated := [], spdmOut := [], signed := 0, signQueue := [] }

/-- DESIGN CHOICE (log 12): a module that is powered, with both reset pins released and straps open. -/
def Pins.reset : Pins :=
  { input48 := true, pwrEn := true, pwrGood := true, railsOn := true, lockout := false, modResetN := true, perstN := true, thermtripN := true,
    pwrbrakeN := true, modPresentN := false, straps := 7, smbAddr := 0x5F, refclk := true, tenMAmplitude := true, smbBusy := none, smbTaken := [],
    tap := 0, tapOut := none }

/-- Power at module reset (15 R400, R402, R406, R416); rail set points and phase counts: DESIGN CHOICE (log 14). -/
def Power.resetWith (limit : Nat) : Power :=
  { setLimit := limit, effective := limit, trim := 0, gain := 4096, estimate := 0, eSum := 0, eCount := 0, lastE := 0, measured := 0, control := 0,
    history := [], kPower := 0, kThermal := 0, kFast := 0, kJob := 0, periodMax := 0, brake := false, applied := 0, disagreeRun := 0,
    agreeRun := 0, sumM := 0, sumE := 0, disagreement := false, sensorFault := false, unreachable := false, atMaxRun := 0, intMax := true, loopSum := 0,
    loopCount := 0, loopZero := true, loopBelow := true, calmCount := 0, thermWarning := false, site := 0, junction := 0, stackTemps := List.replicate 16 0,
    stackDoubled := List.replicate 16 false, rails := List.replicate 8 800, lost := List.replicate 8 0, fitted := List.replicate 8 4,
    fastAt := none, lastFast := none, lastBrake := none }

/-- System Time at module reset: free-running, no parent (08 R252); the count itself: DESIGN CHOICE (log 15). -/
def SysTime.reset : SysTime :=
  { now := 0, offset := 0, hops := 0, parent := none, mode := 0, ppsValid := false, tenValid := false, capable := false, gm := 0, gmClass := 1,
    gmPriority := 128, ppsReject := 0, ppsBad := 0, ppsGood := 0, ppsLast := none, thetas := [], ratePpm := 0, holdover := none, holdoverWarned := false,
    locked := false, gmHeard := 0, slewing := false }

/-- Memories at power-on: nothing written (log 16), no poison, counters zero (07 R211, R212). -/
def Mem.reset : Mem :=
  { bytes := [], poison := [], rows := [], softRepairs := [], ueTimes := [], moving := List.replicate 4 false, lost := [], rewritten := [], ceNear := List.replicate 4 0,
    ueNear := List.replicate 4 0, ceFar := 0, ueFar := 0, farIn := 0xFFFF, spCe := List.replicate 4 0, netDrop := List.replicate 4 0, refresh := none }

/-- The networks at module reset (07 R185). -/
def Net.reset : Net := { ripple := 0, calmPhase := 0, calm := false, packets := [], requests := [], nextId := 0, badLinks := [], linkCe := [] }

/-- A mirage unit at module reset (11 R330). -/
def MirageUnit.reset : MirageUnit :=
  { tiles := 0, checked := 0, skipped := 0, disagree := 0, inService := true, testing := false, transients := [], sieveRun := 0, sieveFail := 0 }

/-- The fault aggregator at module reset (11 R330). The core map is the identity on the lowest-numbered cores: log 18. -/
def Faults.reset : Faults :=
  { suspects := [], overflow := false, lastOverflow := none, mirage := List.replicate 4 .reset, folded := List.replicate 4 false, phys := [],
    map := [], samples := [], relaySent := [] }

/-- Resets at power-on (14 R392, R393). -/
def ResetState.reset : ResetState :=
  { inProgress := [], state := 0, outOfService := false, degraded := [], lastKind := 0, lastCause := 0, hour := 0, day := 0, total := 0 }

/-- Services after reset: every pair runs its own services (17 R440). -/
def Service.reset : List Service := [⟨0, 0⟩, ⟨0, 1⟩, ⟨0, 2⟩, ⟨0, 3⟩]

/-- Seif after reset: all ports down (08 R250). -/
def Seif.reset : Seif :=
  { ports := [], claims := [], routes := [], ready := [], windows := [], peers := [], nextTag := 0, pacing := [], out := [] }

/-- No caravan table. -/
def Caravan.reset : Caravan := ⟨none, none, [], [], []⟩

/-- The machine right after reset: an empty queue, every register at its reset value, no memory written, boot not begun (16 R421, 17 R434). -/
def State.reset : State :=
  { pending := [], cfg := .reset, health := .reset, flash := .reset, mesa := .reset, pins := .reset, st := .reset, host := .reset, attn := .reset,
    faults := .reset, power := .resetWith 4000, rst := .reset, svc := Service.reset, captures := [], nextCapture := 0, mem := .reset, xlate := [],
    xlVersion := 0, net := .reset, seif := .reset, colls := [], ctxs := [], caravan := .reset, epochCounter := 0, freeCount := 0 }

end Sys2Proof.Machine
end

