-- ==== Sys2Proof/Machine/Registers.lean ====
section
/-! DEFINITION. The values of the control-space registers (17 R434 to R446) from the state. -/

namespace Sys2Proof.Machine

def b2n (b : Bool) : Nat := if b then 1 else 0

/-! ## Geometry and spares (01, 17 R438, R439) -/

/-- Logical cores of a die by grade (17 R438). -/
def ConfigRec.perDie (c : ConfigRec) : Nat := match c.grade with | 1 => 128 | 2 => 112 | _ => 96

/-- Physical core of a die-local logical position: its own number unless the core map says otherwise; 255 says that no core is left. -/
def State.posPhys (s : State) (die pos : Nat) : Option Nat :=
  let v := nget pos s.faults.map (136 * die + pos)
  if v < 136 then some v else none

/-- State of a physical core: working unless the fault aggregator says otherwise; retired if the health record says so. -/
def State.phys (s : State) (die p : Nat) : Phys :=
  let x := nget Phys.fresh s.faults.phys (136 * die + p)
  if s.health.retiredCores.contains (die, p) then { x with state := .retired } else x

def State.mapped (s : State) (die p : Nat) : Bool := (List.range s.cfg.perDie).any (fun l => s.posPhys die l == some p)

/-- Free spares of a die, ascending (17 R439). -/
def State.freeSpares (s : State) (die : Nat) : List Nat :=
  (List.range 136).filter (fun p => (s.phys die p).state == .spare && !s.mapped die p)

/-! ## Attention (12 R349, R352) -/

/-- The attention level of a reply. -/
def State.attnLevel (s : State) : Nat :=
  if s.rst.outOfService then 6
  else (s.attn.log.filter (fun e => !e.acked)).foldl (fun m e => max m e.level) s.attn.lostLevel

def State.attnSummary (s : State) : Nat :=
  (s.attn.log.filter (fun e => !e.acked)).length * 2 ^ 19 + min s.attn.lost 2047 * 2 ^ 8 + s.attn.lostLevel * 2 ^ 4 + s.attnLevel

def bits4 (l : List Bool) : Nat := (l.zipIdx.map (fun x => if x.1 then 2 ^ x.2 else 0)).foldl (· + ·) 0

/-- FAULT_SUMMARY (11 R330). -/
def State.faultSummary (s : State) : Nat :=
  s.faults.suspects.length * 2 ^ 21
    + min 255 (s.faults.suspects.filter (fun x => x.2.state == 3 || x.2.state == 4)).length * 2 ^ 13
    + bits4 (s.faults.mirage.map (·.inService)) * 2 ^ 9 + bits4 s.faults.folded * 2 ^ 5 + b2n s.faults.overflow * 2 ^ 4

/-! ## Contexts (13 R371) -/

def State.inCaravan (s : State) (k : Nat) (e : BitVec 16) : Bool :=
  match s.caravan.table with
  | none => false
  | some t => t.windows.any (fun w => w.ctx == k && w.epoch == e)

/-- Is a context in a non-preemptible stretch (13 R377): from phase 4 of a STEP to its outcome, or a collective phase of a RUN? -/
def State.inStretch (s : State) (k : Nat) (c : Ctx) : Bool :=
  (c.steps.isEmpty && s.colls.any (fun x => x.ctx == k))
    || c.steps.any (fun st => st.outcome.isNone && (st.phase == .exchange || st.phase == .gate || st.phase == .optimise || st.phase == .prepared || st.phase == .decided))

def State.ctxStateReg (s : State) (k : Nat) : Nat :=
  match nfind s.ctxs k with
  | none => 0
  | some c => if c.status == .absent then 0 else
      c.epoch.toNat * 2 ^ 16 + c.status.code * 2 ^ 12 + c.size * 2 ^ 9 + c.die * 2 ^ 7 + c.index * 2 ^ 3
        + b2n (s.inStretch k c) * 4 + b2n c.folded * 2 + b2n (s.inCaravan k c.epoch)

/-- A field of a present context, zero while it is Absent. -/
def State.ctxField (s : State) (k : Nat) (f : Ctx → Nat) : Nat :=
  match nfind s.ctxs k with
  | none => 0
  | some c => if c.status == .absent then 0 else f c

/-! ## Rings (12 R337, R338) -/

def ringGet (h : HostIf) (n : Nat) : Ring := nget Ring.reset h.rings n

/-- Idle: no fetched command of the ring is outstanding. -/
def HostIf.sqIdle (h : HostIf) (n : Nat) : Bool :=
  h.cmds.all (fun c => c.sq != n) && h.rings.all (fun r => r.2.waiting.all (fun w => w.sq != n))

/-- Commands and replies that a reply ring still has to take. -/
def HostIf.rqIdle (h : HostIf) (n : Nat) : Bool := h.cmds.all (fun c => c.ring != n) && (ringGet h n).waiting.isEmpty

def HostIf.sqCtrl (h : HostIf) (n : Nat) : Nat :=
  let r := ringGet h n
  b2n r.sqEnable * 2 ^ 31 + b2n r.sqError * 2 ^ 30 + b2n (h.sqIdle n) * 2 ^ 29 + r.sqReply * 2 ^ 16 + r.sqExp

def HostIf.rqCtrl (h : HostIf) (n : Nat) : Nat :=
  let r := ringGet h n
  b2n r.rqEnable * 2 ^ 31 + b2n r.rqError * 2 ^ 30 + b2n (h.rqIdle n) * 2 ^ 29 + r.rqExp

/-! ## Power, time, resets, memory, Seif -/

def sat16 (x : Rat) : Nat := min 65535 x.floor.toNat

def State.calmRatioReg (s : State) : Nat :=
  let p := s.power
  p.applied * 2 ^ 26 + p.kPower * 2 ^ 20 + p.kThermal * 2 ^ 14 + p.kJob * 2 ^ 8 + b2n p.brake * 2 ^ 7 + b2n (p.kFast != 0) * 2 ^ 6
    + b2n p.disagreement * 2 ^ 5 + b2n p.sensorFault * 2 ^ 4 + b2n p.unreachable * 2 ^ 3

def State.thermReg (s : State) : Nat :=
  let p := s.power
  p.stackTemps.foldl max 0 % 256 * 2 ^ 24 + b2n p.thermWarning * 2 ^ 23 + b2n (p.kThermal != 0) * 2 ^ 22 + p.site * 2 ^ 19 + (BitVec.ofInt 16 p.junction).toNat

def State.stStatusReg (s : State) : Nat :=
  s.st.hops * 2 ^ 24 + s.st.parent.getD 31 * 2 ^ 19 + s.st.mode * 2 ^ 16 + b2n s.st.ppsValid * 2 ^ 15 + b2n s.st.tenValid * 2 ^ 14

/-- ST_OFFSET saturates as an i32 (08 R252). -/
def sat32 (x : Int) : W32 := BitVec.ofInt 32 (max (-(2 ^ 31)) (min (2 ^ 31 - 1) x))

def ResetState.largest (r : ResetState) : Option ResetRec :=
  r.inProgress.foldl (fun m x => match m with | none => some x | some y => if y.kind < x.kind then some x else m) none

def State.resetCtrlReg (s : State) : Nat :=
  let m := s.rst.largest
  s.rst.state * 2 ^ 28 + (match m with | none => 0 | some r => r.kind * 2 ^ 24 + r.num % 256 * 2 ^ 16 + r.die % 4 * 2 ^ 14)
    + b2n s.rst.outOfService * 2 ^ 13 + b2n (!s.rst.degraded.isEmpty) * 2 ^ 12 + min 15 s.rst.inProgress.length * 2 ^ 8

def State.resetHistoryReg (s : State) : Nat :=
  s.rst.lastKind * 2 ^ 28 + s.rst.lastCause * 2 ^ 24 + min 15 s.rst.hour * 2 ^ 16 + min 15 s.rst.day * 2 ^ 12 + min 4095 s.rst.total

def State.svcReg (s : State) : Nat := (s.svc.zipIdx.map (fun x => (x.1.state * 4 + x.1.host) * 256 ^ x.2)).foldl (· + ·) 0

def portGet (s : Seif) (p : Nat) : Port := nget Port.down s.ports p

def State.seifStateReg (s : State) (p : Nat) : Nat :=
  let x := portGet s.seif p
  x.state * 2 ^ 28 + x.version * 2 ^ 24 + b2n (x.fast && decide (2 ≤ x.state ∧ x.state ≤ 4)) * 2 ^ 23 + b2n x.spare * 2 ^ 22 + x.replaced % 8 * 2 ^ 19
    + b2n (s.st.parent == some p) * 2 ^ 18 + (match x.partner with | none => 0 | some d => d.port.toNat) * 2 ^ 8

def State.retired (s : State) (die : Nat) : Nat := (s.health.retiredPcs.filter (fun x => x.1 == die)).length

def State.nearStateReg (s : State) (d : Nat) : Nat :=
  let r := s.retired d
  r * 2 ^ 13 + b2n (r != 0) * 2 ^ 12 + b2n (s.mem.moving.getD d false) * 2 ^ 11 + (128 - r)

def cnt (l : List W32) (d : Nat) : Nat := (l.getD d 0).toNat

/-! ## The map (R434) -/

/-- Access kinds of a 32-bit word of BAR0, with the offset of its register. -/
inductive RegKind where
  | ro32
  | ro64 (base : Nat)
  | rw32
  | rw64 (base : Nat)
  | wo32
  | msix
  | reserved
  deriving DecidableEq, Repr

/-- The kind of the word at a 4-aligned offset. -/
def regKind (off : Nat) : RegKind :=
  if off = 0x10 ∨ off = 0x14 then .ro64 0x10
  else if off ≤ 0x0C ∨ off = 0x18 ∨ off = 0x1C ∨ off = 0x20 then .ro32
  else if 0x1000 ≤ off ∧ off < 0x2000 then (if off % 0x40 = 0 then .wo32 else .reserved)
  else if 0x10000 ≤ off ∧ off < 0x11000 then
    match off % 0x40 with
    | 0x00 => .rw64 off
    | 0x04 => .rw64 (off - 4)
    | 0x08 => .rw32
    | 0x0C => .ro32
    | 0x10 => .rw64 off
    | 0x14 => .rw64 (off - 4)
    | 0x18 => .rw32
    | 0x1C => .rw32
    | 0x20 => .rw64 off
    | 0x24 => .rw64 (off - 4)
    | 0x28 => .wo32
    | _ => .reserved
  else if off = 0x11000 ∨ off = 0x11004 then .rw64 0x11000
  else if off = 0x11008 ∨ off = 0x1100C ∨ off = 0x11010 then .ro32
  else if 0x12000 ≤ off ∧ off < 0x12400 then .msix
  else if off = 0x13000 ∨ off = 0x13004 then .ro64 0x13000
  else if off = 0x20000 ∨ off = 0x20004 ∨ off = 0x20008 then .ro32
  else if 0x20100 ≤ off ∧ off < 0x20150 then .ro32
  else if 0x30000 ≤ off ∧ off ≤ 0x30010 then .ro32
  else if off = 0x30018 ∨ off = 0x3001C then .ro64 0x30018
  else if 0x30020 ≤ off ∧ off < 0x30040 then .ro32
  else if off = 0x40000 ∨ off = 0x40004 then .ro64 0x40000
  else if off = 0x40008 ∨ off = 0x4000C ∨ off = 0x40018 then .ro32
  else if off = 0x40010 ∨ off = 0x40014 then .ro64 0x40010
  else if off = 0x50000 then .rw32
  else if off = 0x50004 ∨ off = 0x50008 then .ro32
  else if 0x60000 ≤ off ∧ off < 0x60200 then .ro32
  else if 0x60200 ≤ off ∧ off < 0x60400 then .ro64 (off - off % 8)
  else if 0x60400 ≤ off ∧ off < 0x60500 then .ro32
  else if 0x70000 ≤ off ∧ off < 0x70048 then .ro32
  else if 0x70080 ≤ off ∧ off < 0x70110 then .ro64 (off - off % 8)
  else if 0x70200 ≤ off ∧ off < 0x70248 then .ro32
  else if 0x70280 ≤ off ∧ off < 0x702C8 then .ro32
  else if 0x70300 ≤ off ∧ off < 0x70348 then .ro32
  else if 0x70380 ≤ off ∧ off < 0x703C8 then .ro32
  else if 0x80000 ≤ off ∧ off ≤ 0x80010 then .ro32
  else if 0x80020 ≤ off ∧ off < 0x80048 then .ro32
  else if 0x80050 ≤ off ∧ off < 0x80070 then .ro32
  else .reserved

def lo32 (x : W64) : Nat := x.toNat % 2 ^ 32
def hi32 (x : W64) : Nat := x.toNat / 2 ^ 32

/-- The half of a 64-bit value that lies at an offset. -/
def half (off : Nat) (x : W64) : Nat := if off % 8 = 0 then lo32 x else hi32 x

def State.identityReg (s : State) (off : Nat) : Nat :=
  match off with
  | 0x00 => 0x04565800
  | 0x04 => s.cfg.stepping * 2 ^ 24 + s.cfg.romRevision * 2 ^ 16
  | 0x08 => s.cfg.grade * 2 ^ 24 + s.cfg.perDie * 2 ^ 16 + 4 * s.cfg.perDie * 2 ^ 6
  | 0x0C => ((List.range 4).map (fun d => (s.freeSpares d).length * 256 ^ d)).foldl (· + ·) 0
  | 0x10 => lo32 s.cfg.serial
  | 0x14 => hi32 s.cfg.serial
  | 0x18 => 0x0010180C
  | 0x1C => s.host.session
  | 0x20 => s.mesa.stage * 2 ^ 28 + s.mesa.failure * 2 ^ 24 + s.mesa.typ * 2 ^ 16 + s.mesa.bankB * 2 ^ 8
  | _ => 0

def State.ringReg (s : State) (off : Nat) : Nat :=
  let n := (off - 0x10000) / 0x40
  let r := ringGet s.host n
  match off % 0x40 with
  | 0x00 => lo32 r.sqBase
  | 0x04 => hi32 r.sqBase
  | 0x08 => s.host.sqCtrl n
  | 0x0C => r.sqHead.toNat
  | 0x10 => lo32 r.rqBase
  | 0x14 => hi32 r.rqBase
  | 0x18 => s.host.rqCtrl n
  | 0x1C => r.rqTail.toNat
  | 0x20 => lo32 r.rqShadow
  | 0x24 => hi32 r.rqShadow
  | _ => 0

def State.hostReg (s : State) (off : Nat) : Nat :=
  match off with
  | 0x11000 => lo32 s.host.winBase
  | 0x11004 => hi32 s.host.winBase
  | 0x11008 => s.host.badAccess.toNat
  | 0x1100C => s.host.csCount * 2 ^ 8 + s.host.csKind * 2 ^ 4
  | 0x11010 => s.host.csOffset
  | 0x13000 => lo32 s.host.pba
  | 0x13004 => hi32 s.host.pba
  | _ => if 0x12000 ≤ off ∧ off < 0x12400 then (nget (if off % 16 = 12 then (1 : W32) else 0) s.host.msixTable (off - 0x12000)).toNat else 0

def State.faultReg (s : State) (off : Nat) : Nat :=
  let m := s.faults.mirage.getD (off % 0x10 / 4) .reset
  match off with
  | 0x20000 => s.attnSummary
  | 0x20004 => s.attn.seq.toNat
  | 0x20008 => s.faultSummary
  | _ =>
    match (off - 0x20100) / 0x10 with
    | 0 => m.checked.toNat
    | 1 => m.skipped.toNat
    | 2 => m.disagree.toNat
    | 3 => m.sieveRun.toNat
    | _ => m.sieveFail.toNat

def State.powerReg (s : State) (off : Nat) : Nat :=
  match off with
  | 0x30000 => min 65535 s.power.setLimit * 2 ^ 16 + min 65535 s.power.effective
  | 0x30004 => min 65535 (s.power.history.foldl max 0) * 2 ^ 16 + sat16 s.power.measured
  | 0x30008 => s.power.gain * 2 ^ 16 + sat16 s.power.estimate
  | 0x3000C => s.calmRatioReg
  | 0x30010 => s.thermReg
  | 0x30018 => lo32 s.power.calmCount
  | 0x3001C => hi32 s.power.calmCount
  | _ =>
    let r := (off - 0x30020) / 4
    s.power.rails.getD r 0 * 2 ^ 16 + s.power.lost.getD r 0 * 2 ^ 8 + s.power.fitted.getD r 0

def State.timeReg (s : State) (off : Nat) : Nat :=
  match off with
  | 0x40000 => lo32 s.st.now
  | 0x40004 => hi32 s.st.now
  | 0x40008 => (sat32 s.st.offset).toNat
  | 0x4000C => s.stStatusReg
  | 0x40010 => lo32 s.st.gm
  | 0x40014 => hi32 s.st.gm
  | 0x40018 => s.st.ppsReject.toNat
  | 0x50000 => s.resetCtrlReg
  | 0x50004 => s.resetHistoryReg
  | 0x50008 => s.svcReg
  | _ => 0

def State.schedReg (s : State) (off : Nat) : Nat :=
  if off < 0x60100 then s.ctxStateReg ((off - 0x60000) / 4)
  else if off < 0x60200 then s.ctxField ((off - 0x60100) / 4) (·.weight)
  else if off < 0x60400 then half off (BitVec.ofNat 64 (s.ctxField ((off - 0x60200) / 8) (·.engineTime.toNat)))
  else s.ctxField ((off - 0x60400) / 4) (·.overrun.toNat)

def State.seifReg (s : State) (off : Nat) : Nat :=
  if off < 0x70080 then s.seifStateReg ((off - 0x70000) / 4)
  else if off < 0x70200 then
    half off (match (portGet s.seif ((off - 0x70080) / 8)).partner with | none => 0 | some d => d.serial)
  else if off < 0x70280 then (portGet s.seif ((off - 0x70200) / 4)).fecCorr.toNat
  else if off < 0x70300 then (portGet s.seif ((off - 0x70280) / 4)).fecUncorr.toNat
  else if off < 0x70380 then (portGet s.seif ((off - 0x70300) / 4)).replays.toNat
  else (portGet s.seif ((off - 0x70380) / 4)).drop.toNat

def State.memReg (s : State) (off : Nat) : Nat :=
  let d := off % 0x10 / 4
  if off < 0x80010 then s.nearStateReg d
  else if off = 0x80010 then s.mem.farIn.toNat * 2 ^ 16
  else if off < 0x80030 then cnt s.mem.ceNear d
  else if off < 0x80040 then cnt s.mem.ueNear d
  else if off = 0x80040 then s.mem.ceFar.toNat
  else if off = 0x80044 then s.mem.ueFar.toNat
  else if off < 0x80060 then cnt s.mem.spCe d
  else cnt s.mem.netDrop d

/-- The 32-bit word at a 4-aligned offset of the control space, as the registers stand; reserved offsets and WO registers read zero. -/
def State.readWord (s : State) (off : Nat) : W32 :=
  match regKind off with
  | .reserved => 0
  | .wo32 => 0
  | _ => BitVec.ofNat 32 (
    if off < 0x1000 then s.identityReg off
    else if off < 0x11000 then s.ringReg off
    else if off < 0x20000 then s.hostReg off
    else if off < 0x30000 then s.faultReg off
    else if off < 0x40000 then s.powerReg off
    else if off < 0x60000 then s.timeReg off
    else if off < 0x70000 then s.schedReg off
    else if off < 0x80000 then s.seifReg off
    else s.memReg off)

/-- A module reset of a kind in progress. -/
def State.resetting (s : State) (kind : Nat) : Bool := s.rst.inProgress.any (fun r => r.kind == kind)

/-- The word a BAR0 read finds, by the state of the module (R446): during boot and a reset of kind 0x07 other blocks read their reset values,
and after a failed boot only the identity block shows. -/
def State.visibleWord (s : State) (off : Nat) : W32 :=
  if off < 0x1000 then s.readWord off
  else if s.mesa.stage = 0xE then 0
  else if s.resetting 7 ∧ (off = 0x50000 ∨ off = 0x50004) then s.readWord off
  else if s.resetting 7 ∨ s.mesa.stage ≠ 0xF then
    (if off = 0x50000 then s.readWord off else
      { State.reset with cfg := s.cfg, health := s.health, st := s.st, power := .resetWith (s.cfg.powerLimit.getD 4000) }.readWord off)
  else s.readWord off

end Sys2Proof.Machine
end

