-- ==== Sys2Proof/Machine/Ops.lean ====
section
/-! DEFINITION. Named operations on the state: guards, contexts and cores, attention, replies, device memory, placement of logical cores. -/

namespace Sys2Proof.Machine

/-- Completion codes of refusals (12 R344). -/
def badField : Nat := 0x11
def outOfRange : Nat := 0x12
def noResources : Nat := 0x21

def inRange (lo hi x : Nat) : Bool := decide (lo ≤ x) && decide (x ≤ hi)

/-- The outcome of a command. -/
abbrev Out := Host.Outcome State Fault Refusal

/-- One second, one millisecond and one microsecond in System Time units of 1/16 ns (08 R228). -/
def second : Nat := 16000000000
def millisecond : Nat := 16000000
def microsecond : Nat := 16000

def dayUnits : Nat := 86400 * second
def hourUnits : Nat := 3600 * second

/-- Zero bytes. -/
def zeros (n : Nat) : List Byte := List.replicate n 0

/-! ## Contexts and cores -/

def State.putCtx (s : State) (k : Nat) (c : Ctx) : State := { s with ctxs := nset s.ctxs k c }
def State.ctx? (s : State) (k : Nat) : Option Ctx := nfind s.ctxs k
def State.updCtx (s : State) (k : Nat) (f : Ctx → Ctx) : State :=
  match s.ctx? k with
  | none => s
  | some c => s.putCtx k (f c)
def Ctx.core? (c : Ctx) (l : Nat) : Option Core := nfind c.cores l
def Ctx.putCore (c : Ctx) (l : Nat) (x : Core) : Ctx := { c with cores := nset c.cores l x }

/-- A command on a context: a number above 63 names none; an event of a context that is not there has nothing to act on (log 2). -/
def withCtx (k : Nat) (s : State) (f : Ctx → State) : Out :=
  if 64 ≤ k then .fault .noContext else .next (match s.ctx? k with | none => s | some c => f c)

/-- A command on a logical core of a context. -/
def withCore (k l : Nat) (s : State) (f : Ctx → Core → State) : Out :=
  if 64 ≤ k then .fault .noContext
  else if 512 ≤ l then .fault .noCore
  else .next (match s.ctx? k with
    | none => s
    | some c => match c.core? l with | none => s | some x => f c x)

/-- A command on a Seif port. -/
def withPort (p : Nat) (s : State) (f : Port → State) : Out :=
  if 18 ≤ p then .fault .noPort else .next (f (portGet s.seif p))

def State.putPort (s : State) (p : Nat) (x : Port) : State := { s with seif := { s.seif with ports := nset s.seif.ports p x } }
def State.updPort (s : State) (p : Nat) (f : Port → Port) : State := s.putPort p (f (portGet s.seif p))

/-- A command on a ring. -/
def withRing (n : Nat) (s : State) (f : Ring → State) : Out :=
  if 64 ≤ n then .fault .noRing else .next (f (ringGet s.host n))

def State.putRing (s : State) (n : Nat) (r : Ring) : State := { s with host := { s.host with rings := nset s.host.rings n r } }

/-- A command on a unit numbered below a bound. -/
def withUnit (n bound : Nat) (f : State) : Out := if bound ≤ n then .fault .noUnit else .next f

/-! ## Attention (12 R349 to R351) -/

/-- What an attention event reports (R350). -/
structure Event where
  level : Nat
  source : Nat
  cause : Nat := 0
  reg : Option Nat := none
  suspect : Option Nat := none
  ctx : Option Nat := none
  tag : Option (BitVec 16) := none
  code : Byte := 0
  step : Option W64 := none
  count : Nat := 0
  deriving DecidableEq, Repr

def oldestIdx (p : AttnEntry → Bool) (l : List AttnEntry) : Option Nat := l.findIdx? p

/-- An entry enters the log (R351): a free place, the oldest acknowledged entry, or for level 3 and up the oldest entry of level 1 or 2; otherwise it is lost.
The log is in order of entry, oldest first. -/
def Attention.add (a : Attention) (e : AttnEntry) : Attention :=
  let lose := fun (a : Attention) (lv : Nat) => { a with lost := min 2047 (a.lost + 1), lostLevel := max a.lostLevel lv }
  let a := { a with seq := e.seq }
  if a.log.length < 4096 then { a with log := a.log ++ [e] }
  else match a.log.findIdx? (·.acked) with
    | some i => { a with log := a.log.eraseIdx i ++ [e] }
    | none =>
      if e.level ≤ 2 then lose a e.level
      else match a.log.findIdx? (fun x => decide (x.level ≤ 2)) with
        | some i => lose { a with log := a.log.eraseIdx i ++ [e] } ((a.log.map (·.level)).getD i 0)
        | none => lose a e.level

/-- Raise an attention event (R349): the log entry and ATTN_SEQ. -/
def State.raise (s : State) (e : Event) : State :=
  let seq := s.attn.seq + 1
  let c := match e.ctx with | none => none | some k => s.ctx? k
  let x : AttnEntry :=
    { seq := seq, level := e.level, source := e.source, cause := e.cause, acked := false, tagValid := e.tag.isSome,
      register := BitVec.ofNat 32 (e.reg.getD 0xFFFFFFFF),
      value := match e.reg with | none => 0 | some off => s.readWord off,
      suspect := BitVec.ofNat 16 (e.suspect.getD 0xFFFF), ctx := BitVec.ofNat 8 (e.ctx.getD 0xFF),
      epoch := match c with | none => 0 | some c => c.epoch,
      tag := e.tag.getD 0, code := e.code, step := e.step.getD 0xFFFFFFFFFFFFFFFF, time := s.st.now, count := BitVec.ofNat 64 e.count }
  { s with attn := s.attn.add x }

/-! ## Replies (12 R341, R344) -/

def State.cmd? (s : State) (id : Nat) : Option HostCmd := s.host.cmds.find? (fun c => c.id == id)

def HostCmd.tag (c : HostCmd) : BitVec 16 := BitVec.ofNat 16 (leNat (c.bytes.take 2))
def HostCmd.opcode (c : HostCmd) : Nat := leNat ((c.bytes.drop 2).take 1)
def HostCmd.fieldAt (c : HostCmd) (off n : Nat) : Nat := leNat ((c.bytes.drop off).take n)

/-- A command completes: its reply waits for its reply ring, and the command is gone from the module. The completion time is System Time now. -/
def State.complete (s : State) (id : Nat) (code : Nat) (result : Nat) (tail : List Byte) : State :=
  match s.cmd? id with
  | none => s
  | some c =>
    let r : Reply := ⟨id, c.sq, c.ring, c.tag, BitVec.ofNat 8 code, BitVec.ofNat 32 result, s.st.now, (tail ++ List.replicate 16 0).take 16⟩
    let ring := ringGet s.host c.ring
    { s with host := { s.host with
        cmds := s.host.cmds.filter (fun x => x.id != id),
        rings := nset s.host.rings c.ring { ring with waiting := ring.waiting ++ [r] } } }

/-- What the module writes on the host bus: an output. -/
def State.busWrite (s : State) (addr : Nat) (bytes : List Byte) : State :=
  { s with host := { s.host with busWrites := s.host.busWrites ++ [(addr, bytes)] } }

/-! ## Device memory (07 R204 to R213) -/

def nearTop : Nat := 0xC000000000
def farBase : Nat := 0x100000000000
def farTop : Nat := 0x10E000000000
def viewBase : Nat := 0x200000000000
def viewTop : Nat := 0x200080000000
def windowBase : Nat := 0x800000000000
def addrTop : Nat := 0x1000000000000

inductive DevRegion where
  | near (die : Nat)
  | far
  | view
  | window
  | unmapped
  deriving DecidableEq, Repr

/-- The region of a device address (R204). -/
def regionOf (a : Nat) : DevRegion :=
  if a < nearTop then .near (a / 0x3000000000)
  else if farBase ≤ a ∧ a < farTop then .far
  else if viewBase ≤ a ∧ a < viewTop then .view
  else if windowBase ≤ a ∧ a < addrTop then .window
  else .unmapped

/-- Bytes of a withdrawn band: 1.5 GiB. -/
def bandSize : Nat := 0x60000000

/-- Does an address lie in a withdrawn band of its die (R209)? -/
def State.withdrawn (s : State) (a : Nat) : Bool :=
  decide (a < nearTop) && decide (0x3000000000 - bandSize * s.retired (a / 0x3000000000) ≤ a % 0x3000000000)

/-- Channel, 2 KiB block of the channel, and data line of the block of a far-memory address (R210). -/
def farPlace (a : Nat) : Nat × Nat × Nat :=
  let n := (a - farBase) / 256
  (n % 16, n / 16 / 7, n / 16 % 7)

/-- Is the far-memory channel of an address out of service (14 R384)? -/
def State.farOut (s : State) (a : Nat) : Bool := decide (farBase ≤ a ∧ a < farTop) && !s.mem.farIn.getLsbD (farPlace a).1

/-- The line of a die's region that backs a line when the pseudo-channels of a list are retired (R205, R209): the lines outside the withdrawn
bands whose pseudo-channel is retired and the lines of the withdrawn bands whose pseudo-channel is in service, matched in ascending order. -/
def backingLine (retired : List Nat) (line : Nat) : Nat :=
  let k := retired.length
  let sorted := (List.range 128).filter (fun p => retired.contains p)
  let good := (List.range 128).filter (fun p => !retired.contains p)
  match sorted.idxOf? (line % 128) with
  | none => line
  | some j =>
    let i := line / 128 * k + j
    128 * (6291456 - 49152 * k + i / (128 - k)) + good.getD (i % (128 - k)) 0

/-- Retired pseudo-channels of a die in order of retirement. -/
def State.retiredOf (s : State) (die : Nat) : List Nat := (s.health.retiredPcs.filter (fun x => x.1 == die)).map (·.2)

/-- Die, and line of its region, of a near-memory address (R205). -/
def lineOf (a : Nat) : Nat × Nat := (a / 0x3000000000, a % 0x3000000000 / 256)

/-- The pseudo-channel that holds a near-memory address, as its die, index and location. -/
def State.placeOf (s : State) (a : Nat) : Nat × Nat × Nat :=
  let (die, n) := lineOf a
  let b := backingLine (s.retiredOf die) n
  (die, b % 128, b / 128)

/-- Did the i-th retirement of the die lose the contents of a line? -/
def lostBy (rs : List Nat) (lost : List (Nat × Nat)) (die n i : Nat) : Bool :=
  let q := rs.getD i 128
  lost.contains (die, q) && backingLine (rs.take i) n % 128 == q

/-- Has the granule lost its contents to a retirement, and not been written since (R209)? -/
def State.lostAt (s : State) (a : Nat) : Bool :=
  let (die, n) := lineOf a
  let rs := s.retiredOf die
  decide (a < nearTop) && (List.range rs.length).any (lostBy rs s.mem.lost die n) && sget s.mem.rewritten (a / 64) == 0

/-- Poison of the granule that holds an address of near or far memory. -/
def State.poisonAt (s : State) (a : Nat) : Bool := s.withdrawn a || s.farOut a || s.lostAt a || sget s.mem.poison (a / 64) != 0

/-- Bytes of near or far memory. -/
def State.load (s : State) (a n : Nat) : List Byte := sgetAll s.mem.bytes a n

/-- Does a range of near or far memory hold poison? -/
def State.loadPoison (s : State) (a n : Nat) : Bool :=
  n != 0 && (List.range ((a + n - 1) / 64 - a / 64 + 1)).any (fun i => s.poisonAt (64 * (a / 64 + i)))

/-- The first poisoned granule of a range. -/
def State.firstPoison (s : State) (a n : Nat) : Option Nat :=
  if n = 0 then none
  else ((List.range ((a + n - 1) / 64 - a / 64 + 1)).map (fun i => 64 * (a / 64 + i))).find? (fun g => s.poisonAt g)

/-- Part of one granule is written (R206, R213): a poisoned granule written in part stays poisoned; a withdrawn band discards.
A poisoned granule is stored as zero data. -/
def State.storePart (s : State) (a : Nat) (bytes : List Byte) (p : Bool) : State :=
  if s.withdrawn a ∨ s.farOut a then s
  else
    let g := a / 64
    let whole := decide (a % 64 = 0 ∧ bytes.length = 64)
    let was := s.lostAt a || sget s.mem.poison g != 0
    if p || (was && !whole) then
      { s with mem := { s.mem with bytes := ssetAll s.mem.bytes (64 * g) (List.replicate 64 0), poison := sset s.mem.poison g 1 } }
    else { s with mem := { s.mem with
             bytes := ssetAll s.mem.bytes a bytes, poison := sset s.mem.poison g 0
             rewritten := if s.lostAt a then sset s.mem.rewritten g 1 else s.mem.rewritten } }

/-- Write bytes of near or far memory, granule by granule; the fuel is the number of granules touched. -/
def State.storeGo : Nat → State → Nat → List Byte → Bool → State
  | 0, s, _, _, _ => s
  | n + 1, s, a, bytes, p =>
    if bytes.isEmpty then s
    else
      let r := 64 - a % 64
      storeGo n (s.storePart a (bytes.take r) p) (a + r) (bytes.drop r) p

def State.store (s : State) (a : Nat) (bytes : List Byte) : State := State.storeGo (bytes.length / 64 + 2) s a bytes false

/-- Write whole granules with a poison flag each. -/
def State.storeGranules (s : State) (a : Nat) (bytes : List Byte) : List Bool → State
  | [] => s
  | p :: ps => (s.storePart a (bytes.take 64) p).storeGranules (a + 64) (bytes.drop 64) ps

def State.loadNat (s : State) (a n : Nat) : Nat := leNat (s.load a n)

/-! ## Grants and translation (12 R336, R357) -/

/-- The 64 KiB units that a range touches. -/
def unitsOf (a n : Nat) : List Nat := if n = 0 then [] else (List.range ((a + n - 1) / 65536 - a / 65536 + 1)).map (a / 65536 + ·)

/-- Is a range granted with an access bit (0 wadi read, 1 wadi write, 2 peer access)? -/
def Ctx.granted (c : Ctx) (bit a n : Nat) : Bool :=
  (unitsOf a n).all (fun u => c.grants.any (fun g => g.access / 2 ^ bit % 2 == 1 && decide (g.addr ≤ 65536 * u ∧ 65536 * u < g.addr + g.len)))

/-- The translation entry of a context that covers a window address. -/
def State.entryAt (s : State) (k a : Nat) : Option (Nat × XlateEntry) :=
  s.xlate.find? (fun e => e.2.ctx == k && decide (e.2.window ≤ a ∧ a < e.2.window + 65536 * e.2.size))

/-- May context k's wadi queues move a device address range (07 R198, 12 R336)? -/
def State.remoteOk (s : State) (k : Nat) (c : Ctx) (write : Bool) (a n : Nat) : Bool :=
  match regionOf a, regionOf (a + n - 1) with
  | .near _, .near _ => c.granted (b2n write) a n && (granulesOf a n).all (fun g => !s.withdrawn (64 * g))
  | .far, .far => c.granted (b2n write) a n
  | .window, .window => decide (a + n ≤ addrTop) && (unitsOf a n).all (fun u =>
      match s.entryAt k (65536 * u) with
      | none => false
      | some (_, e) => e.typ == 2 || e.attr / 2 ^ (b2n write) % 2 == 1)
  | _, _ => false

/-- The translation entries, with their versions, that cover the window parts of spans at acceptance (12 R464). -/
def State.entriesOf (s : State) (k : Nat) (spans : List Span) : List (Nat × Nat) :=
  spans.flatMap (fun p => (unitsOf p.remote (64 * p.len)).filterMap (fun u =>
    if windowBase ≤ 65536 * u then (s.entryAt k (65536 * u)).map (fun e => (e.1, e.2.version)) else none))

/-! ## Placement of logical cores (13 R362, R363, 02 R45) -/

/-- The dies of a partition. -/
def Ctx.dies (c : Ctx) : List Nat := match c.size with | 5 => [c.die, c.die + 1] | 6 => [0, 1, 2, 3] | _ => [c.die]

def Ctx.small (c : Ctx) : Bool := decide (c.size ≤ 4)

/-- Die-local positions of a partition on one of its dies. -/
def State.positions (s : State) (c : Ctx) : List Nat :=
  if c.size ≤ 3 then (List.range (8 * 2 ^ c.size)).map (8 * 2 ^ c.size * c.index + ·) else List.range s.cfg.perDie

/-- Logical cores hosted on the i-th die of the partition (R362). -/
def Ctx.coresOn (c : Ctx) (i : Nat) : Nat :=
  let d := c.dies.length
  c.desc.cores / d + b2n (decide (i < c.desc.cores % d))

/-- Die and die-local number of a logical core. -/
def Ctx.locateGo (c : Ctx) : List (Nat × Nat) → Nat → Nat × Nat
  | [], l => (c.die, l)
  | (d, n) :: r, l => if l < n then (d, l) else c.locateGo r (l - n)

def Ctx.locate (c : Ctx) (l : Nat) : Nat × Nat := c.locateGo (c.dies.zipIdx.map (fun x => (x.1, c.coresOn x.2))) l

/-- The physical cores that the core map assigns to a partition on a die, in core-map order; of a twin pair the primary (R319: the lower number). -/
def State.assigned (s : State) (c : Ctx) (die : Nat) : List Nat :=
  let ps := s.positions c
  if c.desc.twin then
    ps.filterMap (fun p => if p % 2 = 0 then
      (match s.posPhys die p, s.posPhys die (p + 1) with | some a, some b => some (min a b) | _, _ => none) else none)
  else ps.filterMap (s.posPhys die)

/-- The host of a logical core: its die and physical core (R45). -/
def State.hostOf (s : State) (c : Ctx) (l : Nat) : Option (Nat × Nat) :=
  let (d, x) := c.locate l
  let a := s.assigned c d
  if a.isEmpty then none else (a[x % a.length]?).map (fun p => (d, p))

/-- Where a logical core is: the physical core that holds its state, else the one that the core map gives it (05 R131: it moves at its own tile boundary). -/
def State.coreAt (s : State) (c : Ctx) (l : Nat) : Option (Nat × Nat) := ((c.core? l).bind (·.on)).orElse (fun _ => s.hostOf c l)

/-- Do the partitions of two contexts share a position (R362)? -/
def State.overlap (s : State) (a b : Ctx) : Bool :=
  a.dies.any (fun d => b.dies.contains d) && (s.positions a).any (fun p => (s.positions b).contains p)

/-! ## Programs and the environment of a core -/

def Ctx.program (c : Ctx) : Option Program := match c.run with | none => none | some r => nfind c.slots r.slot

/-- Does the hold-commit policy apply: a container of the context uses the update gate (11 R318; a context with none: log 164)? -/
def Ctx.holdsCommit (c : Ctx) : Bool := c.desc.policy == 1 && c.slots.any (fun x => x.2.usesGate)

/-- Does the context's work proceed: it is Running a program and no pre-emption of a small partition holds it (13 R375)? In a stretch it goes on
(R377). -/
def Ctx.live (c : Ctx) : Bool := c.status == .running && c.run.isSome && !(c.preempt && c.small && c.lateFrom.isNone)

/-- The version number whose buffer is current; 0 where the context has none (09 R254). -/
def Ctx.currentVersion (c : Ctx) : Nat :=
  match c.learn with
  | none => 0
  | some l => match l.buffers.find? (fun b => b.state == .current) with | none => 0 | some b => b.version

def Ctx.pendingVersion (c : Ctx) : Nat :=
  match c.learn with
  | none => 0
  | some l => match l.buffers.find? (fun b => b.state == .pending) with | none => 0 | some b => b.version

/-- The STEP that a program phase belongs to. -/
def Ctx.stepOf (c : Ctx) : Option StepRun :=
  match c.run with
  | none => none
  | some r => c.steps.find? (fun x => some x.cmd == r.cmd)

/-- The weight version of seq.rdid item 5: of the round in a generation program, consumed by the step, 0 in a program started by RUN (05 R136). -/
def Ctx.versionSeen (c : Ctx) : Nat :=
  match c.run with
  | none => 0
  | some r =>
    match r.round with
    | some n => ((c.rounds.find? (fun x => x.number == n)).map RoundRun.version).getD 0
    | none => (c.stepOf.map StepRun.consumed).getD 0

/-- Logical ranks that a context computes: its own, or its stand-in ranks (02 R65). -/
def State.localRanks (s : State) (c : Ctx) : List Nat :=
  if c.desc.standIns = 0 then [c.desc.rank] else (List.range c.desc.standIns).map (fun i => s.loadNat (c.desc.standInList + 2 * i) 2 % 32768)

/-- The logical rank as which a program runs: the context's own, or that stand-in rank whose turn it is (02 R65, log 154). -/
def State.rankOf (s : State) (c : Ctx) : Nat := (s.localRanks c).getD ((c.run.map RunPhase.turn).getD 0) c.desc.rank

/-- What a logical core's instructions see (05 R136). -/
def State.env (s : State) (c : Ctx) (l : Nat) (x : Core) : Env :=
  let p := c.program
  { steppingB0 := s.cfg.stepping == 2, core := l, coresPer := c.desc.cores, rank := s.rankOf c, modules := c.desc.modules,
    stepCounter := (c.run.map (fun r => r.step.toNat)).getD 0, version := c.versionSeen,
    pending := (c.stepOf.map StepRun.pending).getD 0, image := ((p.map Program.images).getD []).getD x.image [],
    tensors := (p.map Program.tensors).getD [], slotMap := (p.map Program.slotMap).getD (SlotMap.mk 1 [] []),
    partition := c.desc.cores }

/-! ## Faults and visible poison of a context (05 R147, 07 R213) -/

/-- A fault is raised: its record is kept, the core stops and the context begins to stop. -/
def Ctx.raiseFault (c : Ctx) (now : W64) (l engine code idx : Nat) : Ctx :=
  let c := { c with faults := c.faults ++ [FaultRec.mk code engine idx l now], stopping := true }
  match c.core? l with
  | none => c
  | some x => c.putCore l { x with seq := { x.seq with stopped := true } }

/-- Poison is made visible by a use of 14 R386 (byte 56) at a device address. -/
def Ctx.raisePoison (c : Ctx) (addr use : Nat) : Ctx :=
  { c with poison := c.poison.orElse (fun _ => some (addr, use)), stopping := true }

/-- Device address of a granule of a logical core's scratchpad view (07 R195). -/
def viewAddr (l g : Nat) : Nat := viewBase + l * 0x400000 + 64 * g

/-- What an instruction's result does to its context: a stopping context keeps only newly raised faults and poison (05 R147). -/
def Ctx.absorb (c : Ctx) (now : W64) (l engine idx use : Nat) (r : CRes) : Ctx :=
  match r with
  | .wait => c
  | .fault code => c.raiseFault now l engine code idx
  | .poison g => c.raisePoison (viewAddr l g) use
  | .ok x => if c.stopping then c else c.putCore l x

/-! ## Free values (log 26) -/

/-- A fresh value that nothing constrains. -/
def State.fresh (s : State) : Nat := Config.fresh s.freeCount
def State.spend (s : State) : State := { s with freeCount := s.freeCount + 1 }

/-- Bytes at a device address as a service of the module reads them: of its own memory, or of another agent's behind a window, which are free (log 58). -/
def State.peek (s : State) (a n : Nat) : List Byte := if a < windowBase then s.load a n else (List.range n).map (fun i => Config.behind s.freeCount (a + i))
def State.peekNat (s : State) (a n : Nat) : Nat := leNat (s.peek a n)

/-- Bytes that nothing constrains (log 27). -/
def State.freeBytes (s : State) (n : Nat) : List Byte := (List.range n).map (Config.lost s.freeCount)

end Sys2Proof.Machine
end

