-- ==== Sys2Proof/Machine/Routes.lean ====
section
/-! DEFINITION. Links, routes and route plans (07 R182, R187, R188, R190, R199, R205). A node is 136 × die + physical core; the hub is 1000 + die on the
ripple plane and 2000 + die on the memory plane; memory controller n of a die is 3000 + 32 × die + n. -/

namespace Sys2Proof.Machine

/-- Row and column of a physical core (01 R15). -/
def rowOf (n : Nat) : Nat := n % 136 / 17
def colOf (n : Nat) : Nat := n % 136 % 17
def nodeAt (die r c : Nat) : Nat := 136 * die + 17 * r + c

/-- A directed hop: from node, to node. -/
abbrev Hop := Nat × Nat

/-- The number of a link: die, link set (row, column, bridge, controller), number in ascending order of the lower end; of the two links of a pair of
cores that of the ripple plane comes first (log 147). -/
abbrev Link := Nat × Nat × Nat

/-- The bridge link of a hub node and the core at its other end: links 0 to 7 are of the ripple plane, 8 to 15 of the memory plane. -/
def bridgeLink (hub n : Nat) : Link := if hub < 2000 then (hub - 1000, 2, rowOf n) else (hub - 2000, 2, 8 + rowOf n)

/-- The link of a hop on the ripple plane, or on the memory plane. -/
def linkOf (memory : Bool) (h : Hop) : Link :=
  let a := min h.1 h.2
  let b := max h.1 h.2
  let pair := fun (n : Nat) => 2 * n + b2n memory
  if 3000 ≤ b then ((b - 3000) / 32, 3, (b - 3000) % 32)
  else if 1000 ≤ b then bridgeLink b a
  else if rowOf a = rowOf b then (a / 136, 0, pair (16 * rowOf a + colOf a)) else (a / 136, 1, pair (17 * rowOf a + colOf a))

/-- The link that stands for no link: a core's packet to itself. -/
def noLink : Link := (4, 0, 0)

/-- The die of a node. -/
def nodeDie (n : Nat) : Nat := if n < 1000 then n / 136 else if n < 2000 then n - 1000 else if n < 3000 then n - 2000 else (n - 3000) / 32

/-- What the routes of a context see on a plane: the nodes of its partition, its wheel positions, and links out of service. -/
structure Mesh where
  memory : Bool
  own : List Nat
  modulus : Nat
  residue : Nat
  bad : List (Nat × Nat × Nat)
  deriving DecidableEq, Repr

/-- `n` bits of `i` reversed. -/
def bitReverse : Nat → Nat → Nat
  | 0, _ => 0
  | n + 1, i => (i % 2) * 2 ^ n + bitReverse n (i / 2)

def State.mesh (s : State) (memory : Bool) (c : Ctx) : Mesh :=
  let nodes := c.dies.flatMap (fun d => (s.positions c).filterMap (fun p => (s.posPhys d p).map (fun x => 136 * d + x)))
  let m := if c.size ≤ 3 then 16 / 2 ^ c.size else 1
  { memory := memory, own := nodes, modulus := m, residue := if c.size ≤ 3 then bitReverse (Nat.log2 m) c.index else 0, bad := s.net.badLinks }

/-- Does the hop's link belong to the partition in every ripple (R188)? -/
def Mesh.owns (m : Mesh) (h : Hop) : Bool := m.own.contains h.1 && m.own.contains h.2

/-- A link out of service is not usable. -/
def Mesh.usable (m : Mesh) (h : Hop) : Bool := !m.bad.contains (linkOf m.memory h)

/-- Straight walk along a row or a column. -/
def walkCols (die r : Nat) (c1 c2 : Nat) : List Nat :=
  if c1 ≤ c2 then (List.range (c2 - c1)).map (fun i => nodeAt die r (c1 + 1 + i)) else (List.range (c1 - c2)).map (fun i => nodeAt die r (c1 - 1 - i))
def walkRows (die c : Nat) (r1 r2 : Nat) : List Nat :=
  if r1 ≤ r2 then (List.range (r2 - r1)).map (fun i => nodeAt die (r1 + 1 + i) c) else (List.range (r1 - r2)).map (fun i => nodeAt die (r1 - 1 - i) c)

/-- The hops of a list of nodes from a start. -/
def hopsOf : Nat → List Nat → List Hop
  | _, [] => []
  | a, b :: r => (a, b) :: hopsOf b r

/-- Neighbours in the order east, west, north, south (R187); row 0 is the northern one: log 33. -/
def neighbours (n : Nat) : List Nat :=
  let d := n / 136
  (if colOf n < 16 then [nodeAt d (rowOf n) (colOf n + 1)] else []) ++ (if 0 < colOf n then [nodeAt d (rowOf n) (colOf n - 1)] else [])
    ++ (if 0 < rowOf n then [nodeAt d (rowOf n - 1) (colOf n)] else []) ++ (if rowOf n < 7 then [nodeAt d (rowOf n + 1) (colOf n)] else [])

/-- Breadth-first search: paths (last node first) of one length, nodes visited. -/
def bfs (m : Mesh) (goal : Nat) : Nat → List (List Nat) → List Nat → Option (List Nat)
  | 0, _, _ => none
  | fuel + 1, paths, seen =>
    match paths.find? (fun p => p.head? == some goal) with
    | some p => some p.reverse
    | none =>
      let (next, seen) := paths.foldl (fun (acc : List (List Nat) × List Nat) p =>
        match p with
        | [] => acc
        | a :: _ => (neighbours a).foldl (fun acc b =>
            if acc.2.contains b || !m.usable (a, b) then acc else (acc.1 ++ [b :: p], b :: acc.2)) acc) ([], seen)
      if next.isEmpty then none else bfs m goal fuel next seen

/-- A route on one die (R187): row then column, column then row, else the shortest. -/
def Mesh.onDie (m : Mesh) (a b : Nat) : Option (List Hop) :=
  let d := a / 136
  let p1 := hopsOf a (walkCols d (rowOf a) (colOf a) (colOf b) ++ walkRows d (colOf b) (rowOf a) (rowOf b))
  let p2 := hopsOf a (walkRows d (colOf a) (rowOf a) (rowOf b) ++ walkCols d (rowOf b) (colOf a) (colOf b))
  if p1.all m.usable then some p1
  else if p2.all m.usable then some p2
  else (bfs m b 137 [[a]] [a]).map (fun l => hopsOf a (l.drop 1))

/-- The rows of a die by distance from a row, the lower row first among equals. -/
def rowsByDistance (r : Nat) : List Nat :=
  (List.range 8).flatMap (fun d => (if d ≤ r then [r - d] else []) ++ (if 0 < d ∧ r + d < 8 then [r + d] else []))

/-- The hub switch as an end of a die's bridge links of the plane. -/
def Mesh.hub (m : Mesh) (die : Nat) : Nat := (if m.memory then 2000 else 1000) + die

/-- The bridge row by which a packet leaves or enters a die. -/
def Mesh.bridge (m : Mesh) (die r : Nat) : Option Nat := (rowsByDistance r).find? (fun k => m.usable (nodeAt die k 16, m.hub die))

/-- The hops by which a packet leaves a die for the hub. -/
def Mesh.up (m : Mesh) (a : Nat) : Option (List Hop) := do
  let k ← m.bridge (a / 136) (rowOf a)
  let edge := nodeAt (a / 136) k 16
  let p ← m.onDie a edge
  some (p ++ [(edge, m.hub (a / 136))])

/-- The hops by which a packet comes down from the hub to a core. -/
def Mesh.down (m : Mesh) (b : Nat) : Option (List Hop) := do
  let k ← m.bridge (b / 136) (rowOf b)
  let edge := nodeAt (b / 136) k 16
  let p ← m.onDie edge b
  some ((m.hub (b / 136), edge) :: p)

/-- The route from one core to another (R187). -/
def Mesh.route (m : Mesh) (a b : Nat) : Option (List Hop) :=
  if a / 136 = b / 136 then m.onDie a b
  else do
    let p ← m.up a
    let q ← m.down b
    some (p ++ q)

/-! ## Memory-plane routes (R182, R187, R199, R205) -/

/-- Stack, channel and pseudo-channel of the channel that a pseudo-channel index of a die names (R205). -/
def pcParts (die p : Nat) : Nat × Nat × Nat := (4 * die + p % 4, p / 4 % 16, p / 64)

/-- The controller of a die that holds a pseudo-channel index, by its link (R182): two channels of the stack each (log 146). Links 0 to 15 lie at row 0,
16 to 31 at row 7. -/
def controllerOf (die p : Nat) : Nat := let (stack, channel, _) := pcParts die p; 8 * (stack % 4) + channel / 2

/-- The core at the other end of a controller's link. -/
def controllerCore (die n : Nat) : Nat := nodeAt die (if n < 16 then 0 else 7) (n % 16)

/-- Where a memory-plane packet of a core goes: a controller of a die, or an endpoint of the hub. -/
inductive MemEnd where
  | controller (die n : Nat)
  | hub
  deriving DecidableEq, Repr

/-- The hops of a request from a core to its endpoint, and those of the data that comes back. -/
def Mesh.memRoute (m : Mesh) (core : Nat) : MemEnd → Option (List Hop × List Hop)
  | .hub => do
    let p ← m.up core
    let q ← m.down core
    some (p, q)
  | .controller die n => do
    let c := controllerCore die n
    let p ← m.route core c
    let q ← m.route c core
    let edge := 3000 + 32 * die + n
    some (p ++ [(c, edge)], (edge, c) :: q)

/-! ## Route plans (R187, R188, R190) -/

/-- The earliest ripple from `t` on in which a hop's link is free and usable by the partition. -/
def Mesh.earliest (m : Mesh) (busy : List (Hop × Nat)) (h : Hop) : Nat → Nat → Nat
  | 0, t => t
  | fuel + 1, t =>
    if (m.owns h || t % m.modulus == m.residue) && !busy.contains (h, t) then t else m.earliest busy h fuel (t + 1)

/-- State of plan building: links taken, and the hops of the current slot by the path that leads to them (shared by the members of a group, R190). -/
structure Placing where
  busy : List (Hop × Nat)
  mine : List (List Hop × PlanHop)
  deriving DecidableEq, Repr

/-- Place the hops of one route: `pre` is the hops already walked, `after` the number of the last of them plus one, `t` the earliest ripple. -/
def Mesh.placeRoute (m : Mesh) : List Hop → List Hop → Nat → Nat → Placing → Nat × Placing
  | [], _, after, _, p => (after, p)
  | h :: r, pre, after, t, p =>
    let pre := pre ++ [h]
    match p.mine.findIdx? (fun x => x.1 == pre) with
    | some i => m.placeRoute r pre (i + 1) (((p.mine[i]?).map (fun x => x.2.ripple)).getD t + 1) p
    | none =>
      let u := m.earliest p.busy h (64 * (p.busy.length + 2)) t
      m.placeRoute r pre (p.mine.length + 1) (u + 1) { busy := (h, u) :: p.busy, mine := p.mine ++ [(pre, ⟨linkOf m.memory h, u, after, h.2, []⟩)] }

/-- Place a route and name its destination at its end; a core's packet to itself takes no link. -/
def Mesh.placeMember (m : Mesh) (base : Nat) (p : Placing) (rt : Nat × Nat × List Hop) : Placing :=
  let (after, p) := m.placeRoute rt.2.2 [] 0 base p
  if after = 0 then { p with mine := p.mine ++ [([], ⟨noLink, base, 0, rt.2.1, [rt.1]⟩)] }
  else { p with mine := updAt p.mine (after - 1) (fun x => (x.1, { x.2 with members := x.2.members ++ [rt.1] })) }

/-- A slot with its destinations: logical core, node and route. -/
structure SlotRoutes where
  idx : Nat
  position : Nat
  routes : List (Nat × Nat × List Hop)
  deriving DecidableEq, Repr

/-- The latest ripple of a first hop. -/
def lastFirst (hops : List PlanHop) : Nat := ((hops.filter (fun h => h.after == 0)).map (·.ripple)).foldl max 0

/-- Place slots in order; `base` is T(p), `next` one more than the latest first hop of the position. -/
def Mesh.placeAll (m : Mesh) : List SlotRoutes → Nat → Nat → Nat → List (Hop × Nat) → List (Nat × List PlanHop) → List (Nat × List PlanHop)
  | [], _, _, _, _, acc => acc
  | x :: r, pos, base, next, busy, acc =>
    let (base, next) := if x.position = pos then (base, next) else (next, next)
    let p := x.routes.foldl (m.placeMember base) ⟨busy, []⟩
    let hops := p.mine.map (·.2)
    m.placeAll r x.position base (max next (lastFirst hops + 1)) p.busy (acc ++ [(x.idx, hops)])

/-- Slots by ascending frame position, then index. -/
def insertSlot (x : SlotRoutes) : List SlotRoutes → List SlotRoutes
  | [] => [x]
  | y :: r => if x.position < y.position ∨ (x.position = y.position ∧ x.idx ≤ y.idx) then x :: y :: r else y :: insertSlot x r

/-- The destinations of a slot. -/
def SlotMap.dests (sm : SlotMap) (e : SlotEntry) : List Nat := if e.group then sm.groups.getD e.dest [] else [e.dest]

/-- The route plan of a slot map for a context whose cores lie where `at'` says; none if some slot has no route (R187). -/
def State.planAt (s : State) (c : Ctx) (at' : Nat → Option (Nat × Nat)) (sm : SlotMap) : Option Plan := do
  let m := s.mesh false c
  let node := fun l => (at' l).map (fun h => 136 * h.1 + h.2)
  let routed ← (sm.slots.zipIdx).mapM (fun x => do
    let a ← node x.1.source
    let rs ← (sm.dests x.1).mapM (fun d => do
      let b ← node d
      let p ← m.route a b
      some (d, b, p))
    some (SlotRoutes.mk x.2 x.1.position rs))
  let placed := m.placeAll (routed.foldr insertSlot []) 0 0 0 [] []
  let shared := routed.any (fun r => r.routes.any (fun x => x.2.2.any (fun h => !m.owns h)))
  let len := (placed.flatMap (fun x => x.2.map (·.ripple))).foldl max 0 + 1
  some { slots := (List.range sm.slots.length).map (nget [] placed)
         frame := if shared then 64 * ceilDiv len 64 else len
         shared := shared }

/-- The route plan on the core map. -/
def State.planOf (s : State) (c : Ctx) (sm : SlotMap) : Option Plan := s.planAt c (s.hostOf c) sm

/-- The route plan with every logical core where it is now: one whose host has changed moves at its own tile boundary (05 R131). -/
def State.planNow (s : State) (c : Ctx) (sm : SlotMap) : Option Plan := s.planAt c (s.coreAt c) sm

end Sys2Proof.Machine
end

