-- ==== Sys2Proof/Machine/MatrixArray.lean ====
section
/-! DEFINITION. What each instruction of the matrix array computes on its core (04 R97 to R120, 05 R137, R138). -/

namespace Sys2Proof.Machine

/-! ## Tiles (R104 to R106) -/

/-- Rows and columns of a shape code. -/
def shapeRows (shape : Nat) : Nat := if shape = 2 then 32 else 64
def shapeCols (shape : Nat) : Nat := if shape = 0 then 64 else 32

/-- First cell of a region (R104). -/
def regionRow (shape region : Nat) : Nat := if shape = 2 then 32 * (region / 2) else 0
def regionCol (shape region : Nat) : Nat := if shape = 2 then 32 * (region % 2) else 32 * region

/-- Regions of a shape (R104). -/
def shapeRegions (shape : Nat) : Nat := if shape = 0 then 1 else if shape = 1 then 2 else 4

def Tile.m (t : Tile) : Nat := shapeRows t.shape
def Tile.n (t : Tile) : Nat := shapeCols t.shape
def Tile.row0 (t : Tile) : Nat := regionRow t.shape t.region
def Tile.col0 (t : Tile) : Nat := regionCol t.shape t.region
def Tile.slots (t : Tile) : Nat := if t.accFormat = 1 then 2 else 1

/-- The accumulator format as a float format (03 R80). -/
def Tile.fmt (t : Tile) : FFmt := if t.accFormat = 1 then Fmts.m48 else Fmts.fp32

/-- Do two tiles share a slot of a cell (R105)? -/
def Tile.overlaps (a b : Tile) : Bool :=
  decide (a.slot < b.slot + b.slots ∧ b.slot < a.slot + a.slots ∧ a.row0 < b.row0 + b.m ∧ b.row0 < a.row0 + a.m ∧
    a.col0 < b.col0 + b.n ∧ b.col0 < a.col0 + a.n)

/-- Does a descriptor's word 1 name this tile (R106)? -/
def Tile.named (t : Tile) (w1 : W64) : Bool := t.slot == fld w1 8 3 && t.shape == fld w1 11 2 && t.region == fld w1 6 2

/-- Key of the accumulator slot of a cell. -/
def accKey (slot row col : Nat) : Nat := slot * 4096 + row * 64 + col

/-- The accumulator code of element (i, j). -/
def Core.accCode (c : Core) (t : Tile) (i j : Nat) : Nat :=
  let k := accKey t.slot (t.row0 + i) (t.col0 + j)
  if t.accFormat = 1 then (sget c.acc k).toNat * 2 ^ 16 + (sget c.acc (k + 4096)).toNat % 2 ^ 16 else (sget c.acc k).toNat

/-- The overflow marker of element (i, j) (R104). -/
def Core.mark (c : Core) (t : Tile) (i j : Nat) : Bool := sget c.marks (accKey t.slot (t.row0 + i) (t.col0 + j)) != 0

/-- Write the accumulator and marker of element (i, j). -/
def Core.setAcc (c : Core) (t : Tile) (i j code : Nat) (mark : Bool) : Core :=
  let k := accKey t.slot (t.row0 + i) (t.col0 + j)
  let acc := if t.accFormat = 1 then sset (sset c.acc k (m48Split code).1) (k + 4096) (m48Split code).2
    else sset c.acc k (BitVec.ofNat 32 code)
  { c with acc := acc, marks := sset c.marks k (bit1 mark) }

/-- Cells of a tile in row-major order. -/
def Tile.cells (t : Tile) : List (Nat × Nat) := (List.range t.m).flatMap (fun i => (List.range t.n).map (fun j => (i, j)))

/-- Logical element index of cell (i, j), none for padding (R106). -/
def Tile.index (t : Tile) (te : TensorEntry) (i j : Nat) : Option Nat :=
  te.index t.slice (32 * t.rowOrigin + i) (32 * t.colOrigin + j)

/-- A rounding mode from the running-sum mode field (R106). -/
def Tile.rounding (t : Tile) : Rounding := (Rounding.ofCode t.mode).getD .rne

/-- The draw of a matrix rounding (R108, 06 R179): domain 0b01 and the ordinal; padding takes none, so its draw is free. -/
def Core.tileDraw (c : Core) (t : Tile) (idx : Option Nat) (i j ordinal : Nat) : Nat :=
  match idx with
  | some e => srDraw c.key t.tensor e 1 ordinal
  | none => (Config.paddingDraw t.tensor i j ordinal).toNat

/-- Replace an open tile, named by slot, shape and region. -/
def Core.putTile (c : Core) (t : Tile) : Core :=
  { c with tiles := c.tiles.map (fun u => if u.slot = t.slot ∧ u.shape = t.shape ∧ u.region = t.region then t else u) }

/-- Close a tile. -/
def Core.closeTile (c : Core) (t : Tile) : Core :=
  { c with tiles := c.tiles.filter (fun u => !(u.slot == t.slot && u.shape == t.shape && u.region == t.region)) }

/-- Is the shape reserved or the region outside the shape (R106)? -/
def badShape (w1 : W64) : Bool := fld w1 11 2 == 3 || decide (shapeRegions (fld w1 11 2) ≤ fld w1 6 2)

/-- The open tile that a descriptor names: ACC_RESERVED for an impossible shape, ACC_NOT_OPEN if none is open (R106, 05 R148). -/
def Core.tileNamed (c : Core) (w1 : W64) : Except Nat Tile :=
  if badShape w1 then .error 0x23
  else match c.tiles.find? (·.named w1) with
    | some t => .ok t
    | none => .error 0x21

/-- A tile from a descriptor's three words (R106). -/
def Tile.ofDescriptor (w0 w1 w2 : W64) : Tile :=
  { slot := fld w1 8 3, shape := fld w1 11 2, region := fld w1 6 2, tensor := BitVec.ofNat 32 (fld w0 32 32),
    rowOrigin := fld w1 44 20, colOrigin := fld w0 12 20, slice := fld w1 24 20, statSlot := fld w1 20 4,
    accFormat := fld w1 18 2, mode := fld w1 16 2, saturate := w1.getLsbD 15, nb := fld w2 32 32, parts := fld w2 16 16,
    tail := fld w2 0 6, scaled := false, sA := 0, sB := 0, pairOk := true, poisoned := false }

/-- The checks of opening a tile (R106, R110, 06 R179): a fault code, or the tile. -/
def openTile (v : Env) (c : Core) (classC : Bool) (w0 w1 w2 : W64) : Except Nat Tile :=
  let t := Tile.ofDescriptor w0 w1 w2
  if badShape w1 ∨ fld w0 0 12 ≠ 0 ∨ fld w1 0 6 ≠ 0 ∨ fld w2 6 10 ≠ 0 ∨ t.accFormat > 1 ∨ t.mode = 3 ∨ fld w1 13 2 > 1
      ∨ t.nb = 0 ∨ t.parts = 0 ∨ t.tail = 0 ∨ t.tail > 32 then .error 0x23
  else if t.accFormat = 1 ∧ t.slot % 2 = 1 then .error 0x22
  else if c.tiles.any (·.overlaps t) then .error 0x20
  else if (v.tensor t.tensor).isNone ∨ t.nb + t.parts - 1 ≥ 2 ^ 30 then .error 0x0B
  else if classC ∧ t.parts ≠ ceilDiv t.nb 128 then .error 0x24
  else .ok t

/-! ## Operands (R97, R116, 05 R137) -/

/-- The kinds of operand that may pair (R97), with the rate of MXFP4. -/
inductive OperandKind where
  | float (f : FFmt)
  | mx (el : Elem)
  | scaled (f : FFmt)
  deriving DecidableEq, Repr

/-- The kind of a format code, none outside R96. -/
def operandKind (code : Nat) : Option OperandKind :=
  match Format.ofCode code with
  | some .bf16 => some (.float Fmts.bf16)
  | some .fp16 => some (.float Fmts.fp16)
  | some (.mx el _) => some (.mx el)
  | some (.scaled f) => some (.scaled f)
  | _ => none

/-- Beats per block of 32 of an allowed pair (R97). -/
def pairBeats : OperandKind → OperandKind → Option Nat
  | .float a, .float b => if a = b then some 32 else none
  | .mx a, .mx b => if a.bits = 4 ∧ b.bits = 4 then some 8 else some 16
  | .scaled _, .scaled _ => some 16
  | _, _ => none

/-- Is a view unusable (05 R137, R116)? `side` is 64 or 32, `align` asks for an aligned element address. -/
def badView (w : View) (fm : Format) (side : Nat) : Bool :=
  decide (w.elem % fm.granules ≠ 0) || w.kStride == 0 || (side == 64 && w.fStride == 0)
    || (w.column && fm.rowScaled) || (match fm with | .scaled _ => decide (w.scale % 64 ≠ 0) | _ => false)

/-- Element granule and scale byte of square `j` along the reduction and half `q` of the side. -/
def View.square (w : View) (fm : Format) (j q : Nat) : Nat × Nat :=
  let n := j * w.kStride + q * w.fStride
  (w.elem + n * fm.granules, w.scale + n * (if fm.rowScaled then 32 else if fm.squareScaled then 1 else 0))

/-- Scale bytes of a square. -/
def Format.scaleBytes (fm : Format) : Nat := if fm.rowScaled then 32 else if fm.squareScaled then 1 else 0

/-- One operand block: for each of `side` lines, 32 exact values with their scale applied, whether a scale of 0xFF is met, and poison. -/
structure OperandBlock where
  lines : List (List FVal)
  badScale : List Bool
  poisoned : Bool
  deriving DecidableEq, Repr

/-- The highest granule (plus one) and scale byte (plus one) that a view reads for blocks j < count; a format without scales reads none (R137). -/
def View.reach (w : View) (fm : Format) (side count : Nat) : Nat × Nat :=
  let (g, s) := w.square fm (count - 1) (side / 32 - 1)
  (g + fm.granules, if fm.scaleBytes = 0 then 0 else s + fm.scaleBytes)

/-- Read one block of an operand (R99, R116, R117, 03 R88). -/
def Core.operandBlock (c : Core) (w : View) (fm : Format) (side j : Nat) : OperandBlock :=
  let squares := (List.range (side / 32)).map (fun q =>
    let (g, s) := w.square fm j q
    (leNat (c.spRead (64 * g) (64 * fm.granules)), c.spRead s fm.scaleBytes,
      c.spPoisoned (64 * g) (64 * fm.granules) || c.spPoisoned s fm.scaleBytes))
  let line := fun f =>
    let (plane, scales, _) := squares.getD (f / 32) (0, [], false)
    let r := f % 32
    let scale := (scales.getD (if fm.rowScaled then r else 0) 0).toNat
    let code := fun k => unpackCode fm.bits plane (if w.column then 32 * k + r else 32 * r + k)
    match fm with
    | .mx el _ => ((List.range 32).map (fun k => mxValue el scale (code k)), scale == 255)
    | .scaled f => ((List.range 32).map (fun k => f.decode (code k)), false)
    | .bf16 => ((List.range 32).map (fun k => Fmts.bf16.decode (code k)), false)
    | .fp16 => ((List.range 32).map (fun k => Fmts.fp16.decode (code k)), false)
    | _ => ([], false)
  let ls := (List.range side).map line
  { lines := ls.map (·.1), badScale := ls.map (·.2), poisoned := squares.any (·.2.2) }

/-! ## Block sums (R99 to R103) -/

/-- Exponent of an operand: that of a normal, the minimum normal exponent of a subnormal (R101). -/
def operandExp (f : FFmt) : FVal → Int
  | .fin _ m e => max (floorLog2 m e) f.emin
  | _ => 0

/-- Non-finite operands decide the block sum first (R102): the sum and its cause. -/
def blockSpecial (badScale : Bool) (prods : List (FVal × Nat)) : Option (FVal × Nat) :=
  if badScale then some (.nan, 3)
  else if prods.any (·.2 = 1) then some (.nan, 1)
  else if prods.any (·.1 == .inf true) ∧ prods.any (·.1 == .inf false) then some (.nan, 2)
  else if prods.any (·.1 == .nan) then some (.nan, 0)
  else if prods.any (·.1 == .inf true) then some (.inf true, 0)
  else if prods.any (·.1 == .inf false) then some (.inf false, 0)
  else none

/-- A zero block sum: -0 only if products were formed and every one is -0 (R103). -/
def zeroSum (prods : List (FVal × Nat)) : FVal :=
  .fin (!prods.isEmpty && prods.all (fun p => match p.1 with | .fin n m _ => n && m == 0 | _ => false)) 0 0

/-- The exact sum of finite products, in units of the lowest exponent (R100). -/
def exactSum (prods : List (FVal × Nat)) : FVal :=
  let t := prods.foldl (fun acc p => (FVal.add acc p.1).1) (.fin false 0 0)
  if t.isZero then zeroSum prods else t

/-- floor(p / 2^L) of a signed exact product. -/
def floorAt (neg : Bool) (m : Nat) (e l : Int) : Int × Bool :=
  let (k, rem, _) := splitAt m e l
  if neg then (if rem = 0 then (-(k : Int), false) else (-(k : Int) - 1, true)) else ((k : Int), decide (rem ≠ 0))

/-- The windowed block sum of a BF16 or FP16 pair (R101); a and b are the finite operands. -/
def floatBlockSum (f : FFmt) (ab : List (FVal × FVal)) (prods : List (FVal × Nat)) : FVal :=
  let terms := ab.filter (fun p => !p.1.isZero && !p.2.isZero)
  match terms.map (fun p => operandExp f p.1 + operandExp f p.2) with
  | [] => zeroSum prods
  | x :: xs =>
    let l := xs.foldl max x - 88
    let (w, s) := terms.foldl (fun acc p =>
      match (FVal.mul p.1 p.2).1 with
      | .fin n m e =>
        let (t, cut) := floorAt n m e l
        (acc.1 + t, acc.2 || cut)
      | _ => acc) ((0 : Int), false)
    let t := 2 * w + (if s then 1 else 0)
    if t = 0 then .fin false 0 0 else .fin (decide (t < 0)) t.natAbs (l - 1)

/-- The block sum of one element over the positions that form products, with its cause (R99 to R103, R113). -/
def blockSum (kind : OperandKind) (badPair badScale : Bool) (a b : List FVal) (positions : Nat) : FVal × Nat :=
  if badPair then (.nan, 6)
  else
    let ab := (List.zip a b).take positions
    let prods := ab.map (fun p => FVal.mul p.1 p.2)
    match blockSpecial badScale prods with
    | some r => r
    | none =>
      match kind with
      | .float f => (floatBlockSum f ab prods, 0)
      | _ => (exactSum prods, 0)

/-! ## Accumulation (R107) -/

/-- A value enters an accumulator: new code, marker, flags (R107). `mark2` is the marker a merged partial brings (R112). -/
def accumulate (f : FFmt) (mode : Rounding) (draw : Nat) (acc : Nat) (mark mark2 : Bool) (x : FVal) : Nat × Bool × Ev :=
  let a := f.decode acc
  if a == .nan then (f.nan, false, {})
  else
    let (sum, cause) := FVal.add a x
    if cause ≠ 0 then (f.nan, false, Ev.invalid cause)
    else
      let (code, ev) := f.accumulate mode draw sum
      let isInf := match f.decode code with | .inf _ => true | _ => false
      (code, (ev.ov || ((mark || mark2) && isInf)), ev)

/-- State of one mx.mm while its blocks enter. -/
structure MmState where
  core : Core
  tile : Tile
  evs : List ElemEv
  deriving DecidableEq, Repr

/-- One block enters every element of the tile (R107, R120). `j` counts from the first block of the instruction, `b` is global. -/
def mmBlock (te : TensorEntry) (va vb : View) (fa fb : Format) (kind : OperandKind) (badPair : Bool) (b j : Nat) (st : MmState) : MmState :=
  let t := st.tile
  let oa := st.core.operandBlock va fa t.m j
  let ob := st.core.operandBlock vb fb t.n j
  let poisoned := t.poisoned || oa.poisoned || ob.poisoned
  let positions := if b = t.nb - 1 then t.tail else 32
  let step := fun (acc : Core × List ElemEv) (ij : Nat × Nat) =>
    let (i, jj) := ij
    let idx := t.index te i jj
    let bs := blockSum kind badPair (oa.badScale.getD i false || ob.badScale.getD jj false) (oa.lines.getD i []) (ob.lines.getD jj []) positions
    let draw := if t.rounding = .sr then acc.1.tileDraw t idx i jj b else 0
    let r := accumulate t.fmt t.rounding draw (acc.1.accCode t i jj) (acc.1.mark t i jj) false bs.1
    let evs := match idx with
      | some e => [ElemEv.mk e b (if bs.2 = 0 then r.2.2 else Ev.invalid bs.2)]
      | none => []
    (acc.1.setAcc t i jj r.1 r.2.1, if poisoned then acc.2 else acc.2 ++ evs)
  let (core, evs) := t.cells.foldl step (st.core, st.evs)
  { core := core, tile := { t with poisoned := poisoned }, evs := evs }

/-! ## Tile planes in scratchpad (R112, 03 R74, R75) -/

/-- Byte offset of element (i, j) of a plane of an n-wide tile with `w` bytes an element. -/
def planeOffset (n w i j : Nat) : Nat := ((i / 32 * (n / 32) + j / 32) * 1024 + i % 32 * 32 + j % 32) * w

/-- Bytes of the word plane, the tail plane and the marker plane. -/
def Tile.planes (t : Tile) : Nat × Nat × Nat := (t.m * t.n * 4, if t.accFormat = 1 then t.m * t.n * 2 else 0, t.m * t.n / 8)

/-- The code of element (i, j) in a tile image at byte address `a`. -/
def Core.tileCode (c : Core) (t : Tile) (a i j : Nat) : Nat :=
  let word := leNat (c.spRead (a + planeOffset t.n 4 i j) 4)
  if t.accFormat = 1 then word * 2 ^ 16 + leNat (c.spRead (a + t.planes.1 + planeOffset t.n 2 i j) 2) else word

/-- The marker of element (i, j) in a spilled tile image. -/
def Core.tileMark (c : Core) (t : Tile) (a i j : Nat) : Bool :=
  let k := i * t.n + j
  (sget c.sp (a + t.planes.1 + t.planes.2.1 + k / 8)).getLsbD (k % 8)

/-- The image of an open tile: word plane, tail plane, marker plane (R112). Elements in plane order are squares of 32 x 32. -/
def Core.tileImage (c : Core) (t : Tile) : List Byte :=
  let order := (List.range (t.m / 32)).flatMap (fun qi => (List.range (t.n / 32)).flatMap (fun qj =>
    (List.range 1024).map (fun e => (32 * qi + e / 32, 32 * qj + e % 32))))
  let codes := order.map (fun ij => c.accCode t ij.1 ij.2)
  let wordPlane := codes.flatMap (fun k => leBytes 4 (if t.accFormat = 1 then k / 2 ^ 16 else k))
  let tailPlane := if t.accFormat = 1 then codes.flatMap (fun k => leBytes 2 (k % 2 ^ 16)) else []
  let marks := t.cells.map (fun ij => if c.mark t ij.1 ij.2 then 1 else 0)
  wordPlane ++ tailPlane ++ packCodes 1 marks

/-! ## The instructions -/

/-- Set the accumulators of a tile just opened: zero, or loaded unrounded from scratchpad (R106). -/
def loadTile (c : Core) (t : Tile) (initial : Option Nat) : Core :=
  t.cells.foldl (fun c' ij =>
    c'.setAcc t ij.1 ij.2 (match initial with | none => 0 | some a => c.tileCode t a ij.1 ij.2) false) c

/-- The dequantisation scale and quantisation multiplier of a scale-pair granule (03 R74, R77). -/
def Core.scalePair (c : Core) (a : Nat) : ScalePair := ⟨BitVec.ofNat 32 (leNat (c.spRead a 4)), BitVec.ofNat 32 (leNat (c.spRead (a + 4) 4))⟩

/-- The block of an instruction at which it starts or resumes (R121). -/
def Core.mmFrom (c : Core) : Nat := (c.atBlock.map BlockPos.next).getD 0

/-- The block at which it ends now: its last, or `stop` blocks on (R121). -/
def Core.mmUpto (c : Core) (stop : Option Nat) (count : Nat) : Nat :=
  match stop with
  | none => count
  | some n => min count (c.mmFrom + n)

/-- An mx.mm leaves the array: done, with its flags, or stopped between blocks with the next block recorded (R107, R121). Each block has its active
beats once, and the pipeline its 18. -/
def mmLeave (e : QEntry) (count beats upto : Nat) (st : MmState) : Core :=
  let c := st.core.putTile st.tile
  if upto < count then ({ c with atBlock := some ⟨upto, st.evs⟩ } : Core).addBeats engMatrix ((upto - st.core.mmFrom) * beats)
  else ({ c with atBlock := none, fm := c.fm.record e.idx st.tile.tensor st.evs } : Core).addBeats engMatrix ((count - st.core.mmFrom) * beats + 18)

/-- mx.mm after its tile is known: views, blocks, flags, beats (R98, R107, R116, R120, R121, 05 R137, R138). -/
def mmRun (v : Env) (e : QEntry) (stop : Option Nat) (t : Tile) (isOpen : Bool) (c : Core) : CRes :=
  let w := e.word
  let classC := w.getLsbD 10
  let sk := e.reg (opR3 w)
  let first := fld sk 32 32
  let count := fld sk 0 32
  let va := View.ofReg (e.reg (opR0 w))
  let vb := View.ofReg (e.reg (opR1 w))
  if count = 0 ∨ first + count > t.nb then .fault 0x28
  else if classC ∧ first / 128 ≠ (first + count - 1) / 128 then .fault 0x24
  else match Format.ofCode va.code, Format.ofCode vb.code, operandKind va.code, operandKind vb.code, v.tensor t.tensor with
    | some fa, some fb, some ka, some kb, some te =>
      match pairBeats ka kb with
      | none => .fault 0x25
      | some beats =>
        let ra := va.reach fa t.m count
        let rb := vb.reach fb t.n count
        let pairRead : Bool := match ka with | .scaled _ => true | _ => false
        let initial : Bool := isOpen && fld (e.reg (opR2 w + 1)) 13 2 == 1
        let si := (e.reg (opR4 w)).toNat
        let (p1, p2, _) := t.planes
        if badView va fa t.m ∨ badView vb fb t.n then .fault 0x25
        else if ra.1 > spGranules ∨ rb.1 > spGranules ∨ ra.2 > 64 * spGranules ∨ rb.2 > 64 * spGranules
            ∨ (pairRead ∧ isOpen ∧ (va.scale + 64 > 64 * spGranules ∨ vb.scale + 64 > 64 * spGranules))
            ∨ (initial ∧ 64 * si + p1 + p2 > 64 * spGranules) then .fault 0x0A
        else
          let qa := c.scalePair va.scale
          let qb := c.scalePair vb.scale
          let t := if isOpen ∧ pairRead then
              { t with scaled := true, sA := qa.s, sB := qb.s, pairOk := qa.ok && qb.ok
                       poisoned := c.spPoisoned va.scale 8 || c.spPoisoned vb.scale 8 }
            else t
          let t := if initial ∧ c.spPoisoned (64 * si) (p1 + p2) then { t with poisoned := true } else t
          let c := if isOpen then { loadTile c t (if initial then some (64 * si) else none) with tiles := c.tiles ++ [t] } else c
          let badPair := t.scaled && !t.pairOk
          let upto := c.mmUpto stop count
          let evs := (c.atBlock.map BlockPos.evs).getD []
          let st := (List.range (upto - c.mmFrom)).foldl
            (fun st i => let j := c.mmFrom + i; mmBlock te va vb fa fb ka badPair (first + j) j st) ⟨c, t, evs⟩
          .ok (mmLeave e count beats upto st)
    | _, _, _, _, none => .fault 0x0B
    | _, _, _, _, _ => .fault 0x25

/-- mx.mm (R107, 05 R138). One that a save has stopped resumes in its open tile (R121). -/
def mxMm (v : Env) (e : QEntry) (stop : Option Nat) (c : Core) : CRes :=
  let w := e.word
  let r := opR2 w
  if w.getLsbD 11 && c.atBlock.isNone then
    match openTile v c (w.getLsbD 10) (e.reg r) (e.reg (r + 1)) (e.reg (r + 2)) with
    | .error f => .fault f
    | .ok t => mmRun v e stop t true c
  else
    match c.tileNamed (e.reg (r + 1)) with
    | .error f => .fault f
    | .ok t => mmRun v e stop t false c

/-- mx.merge: a spilled partial as one node (R109, R112, 05 R138). -/
def mxMerge (v : Env) (e : QEntry) (c : Core) : CRes :=
  let w := e.word
  let w1 := e.reg (opR2 w + 1)
  match c.tileNamed w1 with
  | .error f => .fault f
  | .ok t =>
    let a := 64 * (e.reg (opR0 w)).toNat
    let (p1, p2, p3) := t.planes
    if fld w1 18 2 > 1 then .fault 0x23
    else if fld w1 18 2 ≠ t.accFormat then .fault 0x27
    else if a + p1 + p2 + p3 > 64 * spGranules then .fault 0x0A
    else match v.tensor t.tensor with
      | none => .fault 0x0B
      | some te =>
        let t := { t with poisoned := t.poisoned || c.spPoisoned a (p1 + p2 + p3) }
        let ordinal := t.nb + fld w 6 16
        let step := fun (acc : Core × List ElemEv) (ij : Nat × Nat) =>
          let (i, j) := ij
          let idx := t.index te i j
          let x := t.fmt.decode (c.tileCode t a i j)
          let draw := if t.rounding = .sr then acc.1.tileDraw t idx i j ordinal else 0
          let r := accumulate t.fmt t.rounding draw (acc.1.accCode t i j) (acc.1.mark t i j) (c.tileMark t a i j) x
          let evs := match idx with
            | some k => [ElemEv.mk k noBlock r.2.2]
            | none => []
          (acc.1.setAcc t i j r.1 r.2.1, if t.poisoned then acc.2 else acc.2 ++ evs)
        let (c, evs) := t.cells.foldl step (c, [])
        let c := c.putTile t
        .ok ({ c with fm := c.fm.record e.idx t.tensor evs }.addBeats engMatrix (t.m + 10))

/-- mx.spill: the tile unrounded, with its marker plane, then closed (R112, R120). -/
def mxSpill (e : QEntry) (c : Core) : CRes :=
  let w := e.word
  match c.tileNamed (e.reg (opR2 w + 1)) with
  | .error f => .fault f
  | .ok t =>
    let a := 64 * (e.reg (opR0 w)).toNat
    let (p1, p2, p3) := t.planes
    if a + p1 + p2 + p3 > 64 * spGranules then .fault 0x0A
    else
      let c := if e.skips then c else c.spWrite a (c.tileImage t) t.poisoned
      .ok ((c.closeTile t).addBeats engMatrix (t.m + 8))

/-- mx.close: the tile is discarded (05 R138). -/
def mxClose (e : QEntry) (c : Core) : CRes :=
  match c.tileNamed (e.reg (opR2 e.word + 1)) with
  | .error f => .fault f
  | .ok t => .ok ((c.closeTile t).addBeats engMatrix 1)

/-! ## Statistics (R118, R119) -/

/-- The 64 bytes of an entry (R118). -/
def StatEntry.bytes (x : StatEntry) : List Byte :=
  leBytes 4 x.tensor.toNat ++ [if x.valid then 1 else 0, 0, 0, 0] ++ leBytes 4 x.tiles.toNat ++ leBytes 4 x.nonFiniteTiles.toNat
    ++ leBytes 4 x.poisonedTiles.toNat ++ leBytes 4 x.overflowed.toNat ++ leBytes 8 x.firstNonFinite.toNat
    ++ leBytes 8 x.nonFiniteElems.toNat ++ leBytes 8 x.nonZero.toNat ++ leBytes 8 x.zeroed.toNat ++ leBytes 4 x.amax.toNat ++ [0, 0, 0, 0]

def Core.stat (c : Core) (i : Nat) : StatEntry := nget .clear c.stats i

/-- mx.stat: write and then clear an entry (05 R138). -/
def mxStat (e : QEntry) (c : Core) : CRes :=
  let w := e.word
  let entry := fld w 28 4
  let g := (e.reg (opR0 w)).toNat
  let write := w.getLsbD 26
  if write ∧ g ≥ spGranules then .fault 0x0A
  else
    let c := if write then c.spWrite (64 * g) (c.stat entry).bytes false else c
    let c := if w.getLsbD 27 then { c with stats := nset c.stats entry .clear } else c
    .ok (c.addBeats engMatrix (if write then 4 else 2))

/-- What a drain finds of one element: index, source value v, marker, drained code, flags, whether non-finite and whether zero. -/
structure Drained where
  idx : Option Nat
  v : FVal
  mark : Bool
  code : Nat
  ev : Ev
  nonFinite : Bool
  zero : Bool
  deriving DecidableEq, Repr

/-- The drain source of an element (R113). -/
def drainSource (c : Core) (t : Tile) (i j : Nat) : FVal :=
  let x := t.fmt.decode (c.accCode t i j)
  let pair := t.scaled && t.pairOk
  let y := if pair then (FVal.mul (FVal.mul x (f32 t.sA)).1 (f32 t.sB)).1 else x
  if t.saturate && c.mark t i j then
    (match x with
     | .inf n => .fin n t.fmt.maxM (t.fmt.emax - t.fmt.p)
     | .fin n _ _ => .fin n t.fmt.maxM (t.fmt.emax - t.fmt.p)
     | .nan => .nan)
  else y

/-- Drain of an element into a plain or tensor-scaled format (R114). -/
def drainPlain (c : Core) (t : Tile) (te : TensorEntry) (fm : Format) (mode : Rounding) (q : ScalePair) (i j : Nat) : Drained :=
  let idx := t.index te i j
  let x := drainSource c t i j
  match idx with
  | none => ⟨none, x, false, 0, {}, false, true⟩
  | some k =>
    let draw := if mode = .sr then srDraw c.key t.tensor k 1 (t.nb + t.parts - 1) else 0
    let r := encodePlain fm mode t.saturate draw q x
    let back := match fm with | .scaled f => f.decode r.1 | _ => (decodePlain fm q r.1).1
    ⟨idx, x, c.mark t i j, r.1, r.2, !back.isFinite, back.isZero⟩

/-- Drain of one MX group (a row of a square or a square), cells in row-major order (R86, R89, R114). -/
def drainGroup (c : Core) (t : Tile) (te : TensorEntry) (el : Elem) (mode : Rounding) (cells : List (Nat × Nat)) : Nat × List Drained :=
  let live := cells.filter (fun ij => (t.index te ij.1 ij.2).isSome)
  let index := fun (ij : Nat × Nat) => (t.index te ij.1 ij.2).getD 0
  let out := mxEncode el mode
    (fun n => if mode = .sr then srDraw c.key t.tensor (index (live.getD n (0, 0))) 1 (t.nb + t.parts - 1) else 0)
    (live.map (fun ij => drainSource c t ij.1 ij.2))
  let scale := if live.isEmpty then 0 else out.scale
  let item := fun (ij : Nat × Nat) =>
    match live.findIdx? (· == ij) with
    | none => (⟨none, .fin false 0 0, false, 0, {}, false, true⟩ : Drained)
    | some n =>
      let code := out.codes.getD n 0
      let back := mxValue el scale code
      let ev := if out.bad = some n ∨ (out.bad = none ∧ n = 0) then out.ev else {}
      ⟨some (index ij), drainSource c t ij.1 ij.2, c.mark t ij.1 ij.2, code, ev, !back.isFinite, back.isZero⟩
  (scale, cells.map item)

/-- One square of a drain: scale bytes and elements, row-major in the square. -/
def drainSquare (c : Core) (t : Tile) (te : TensorEntry) (fm : Format) (mode : Rounding) (q : ScalePair) (qi qj : Nat) : List Byte × List Drained :=
  let cells := (List.range 1024).map (fun n => (32 * qi + n / 32, 32 * qj + n % 32))
  match fm with
  | .mx el true =>
    let (s, ds) := drainGroup c t te el mode cells
    ([BitVec.ofNat 8 s], ds)
  | .mx el false =>
    let gs := (pieces32 32 cells).map (drainGroup c t te el mode)
    (gs.map (fun g => BitVec.ofNat 8 g.1), gs.flatMap (·.2))
  | fm => ([], cells.map (fun ij => drainPlain c t te fm mode q ij.1 ij.2))
where
  /-- Rows of 32 cells. -/
  pieces32 : Nat → List (Nat × Nat) → List (List (Nat × Nat))
    | 0, _ => []
    | k + 1, l => l.take 32 :: pieces32 k (l.drop 32)

/-- The larger of two magnitudes given as FP32 codes (R118). -/
def amaxOf (ds : List Drained) : W32 :=
  ds.foldl (fun best d =>
    if d.idx.isNone ∨ !d.v.isFinite then best
    else
      let code := BitVec.ofNat 32 (Fmts.fp32.convert .rne true 0 d.v.abs).1
      if FVal.lt (f32 best) (f32 code) then code else best) 0

/-- A tile's contribution to its entry (R118 to R120). -/
def StatEntry.add (x : StatEntry) (t : Tile) (te : TensorEntry) (ds : List Drained) : StatEntry :=
  let x := if x.valid then x else { StatEntry.clear with tensor := t.tensor, valid := true }
  let x := { x with tiles := x.tiles + 1 }
  if t.poisoned then { x with poisonedTiles := x.poisonedTiles + 1 }
  else
    let live := ds.filter (·.idx.isSome)
    let count := fun (p : Drained → Bool) => (live.filter p).length
    let nonFinite := count (·.nonFinite)
    let origin := BitVec.ofNat 64 (t.slice * (te.rows * te.cols) + 32 * t.rowOrigin * te.cols + 32 * t.colOrigin)
    let big := fun (d : Drained) => d.v.isFinite && !d.v.isZero
    { x with
      nonFiniteTiles := x.nonFiniteTiles + (if nonFinite = 0 then 0 else 1)
      overflowed := x.overflowed + BitVec.ofNat 32 (count (fun d => d.mark || d.ev.ov))
      firstNonFinite := if nonFinite ≠ 0 ∧ origin.toNat < x.firstNonFinite.toNat then origin else x.firstNonFinite
      nonFiniteElems := x.nonFiniteElems + BitVec.ofNat 64 nonFinite
      nonZero := x.nonZero + BitVec.ofNat 64 (count big)
      zeroed := x.zeroed + BitVec.ofNat 64 (count (fun d => big d && d.zero))
      amax := if FVal.lt (f32 x.amax) (f32 (amaxOf live)) then amaxOf live else x.amax }

/-- Formats a drain may write (03 R96). -/
def drainFormat (code : Nat) : Option Format :=
  match Format.ofCode code with
  | some .int32 => none
  | some .master48 => none
  | f => f

/-- The squares of a drain written at the places of 05 R137. -/
def drainWrite (t : Tile) (d : View) (fm : Format) (q : ScalePair) (squares : List (Nat × Nat × List Byte × List Drained)) (c : Core) : Core :=
  let c := squares.foldl (fun c sq =>
    let (qi, qj, scales, ds) := sq
    let n := qj * d.kStride + qi * d.fStride
    let c := c.spWrite (64 * (d.elem + n * fm.granules)) (packCodes fm.bits (ds.map (·.code))) t.poisoned
    c.spWrite (d.scale + n * fm.scaleBytes) scales t.poisoned) c
  match fm with
  | .scaled _ => c.spWrite d.scale (leBytes 4 q.s.toNat ++ leBytes 4 q.m.toNat ++ List.replicate 56 0) t.poisoned
  | _ => c

/-- mx.drain (R113 to R115, R119, R120, 05 R137, R138). -/
def mxDrain (v : Env) (e : QEntry) (c : Core) : CRes :=
  let w := e.word
  match c.tileNamed (e.reg (opR2 w + 1)) with
  | .error f => .fault f
  | .ok t =>
    let d := View.ofReg (e.reg (opR0 w))
    let x := c.stat t.statSlot
    match v.tensor t.tensor, drainFormat d.code with
    | none, _ => .fault 0x0B
    | _, none => .fault 0x25
    | some te, some fm =>
      if x.valid ∧ x.tensor ≠ t.tensor then .fault 0x26
      else if badView { d with column := false } fm t.m ∨ d.column then .fault 0x25
      else
        let last := (t.n / 32 - 1) * d.kStride + (t.m / 32 - 1) * d.fStride
        let pairEnd := match fm with | .scaled _ => d.scale + 64 | _ => 0
        if d.elem + last * fm.granules + fm.granules > spGranules
            ∨ d.scale + last * fm.scaleBytes + fm.scaleBytes > 64 * spGranules ∧ fm.scaleBytes ≠ 0
            ∨ pairEnd > 64 * spGranules then .fault 0x0A
        else
          let mode := roundingFor te ((Rounding.ofCode (fld w 20 2)).getD .rne)
          let q := ScalePair.ofReg (e.reg (opR1 w))
          let squares := (List.range (t.m / 32)).flatMap (fun qi => (List.range (t.n / 32)).map (fun qj =>
            (qi, qj, drainSquare c t te fm mode q qi qj)))
          let ds := squares.flatMap (fun sq => sq.2.2.2)
          let evs := ds.filterMap (fun r => r.idx.map (fun k => ElemEv.mk k noBlock r.ev))
          let c' := if e.skips then c else drainWrite t d fm q squares c
          let c' := { c' with stats := nset c'.stats t.statSlot (x.add t te ds) }
          let c' := if t.poisoned then c' else { c' with fm := c'.fm.record e.idx t.tensor evs }
          .ok ((c'.closeTile t).addBeats engMatrix (if fm.squareScaled then t.m + 44 else t.m + 12))

end Sys2Proof.Machine
end

