-- ==== Sys2Proof/Machine/Save.lean ====
section
/-! DEFINITION. Save slots: where they lie, what a save writes and what a restore reads back (13 R366 to R368, R380). -/

namespace Sys2Proof.Machine

/-! ## Ranges of memory as maps -/

/-- Entries of a map in a range, with keys counted from its start. -/
def sslice {w : Nat} (m : SMap w) (a n : Nat) : SMap w := (m.filter (fun e => decide (a ≤ e.1 ∧ e.1 < a + n))).map (fun e => (e.1 - a, e.2))

/-- A range of a map replaced by the entries of another, whose keys count from the range's start. -/
def splice {w : Nat} (m : SMap w) (a n : Nat) (src : SMap w) : SMap w :=
  (src.filter (fun e => decide (e.1 < n))).foldl (fun m e => sset m (a + e.1) e.2) (m.filter (fun e => decide (e.1 < a ∨ a + n ≤ e.1)))

/-- How many bytes of a near-memory range lie below the withdrawn bands (07 R209). -/
def State.writableLen (s : State) (a n : Nat) : Nat :=
  let d := a / 0x3000000000
  min n ((d + 1) * 0x3000000000 - bandSize * s.retired d - a)

/-- Whole granules of near memory are written from maps of bytes and of poison; withdrawn bands discard (07 R206, R209). -/
def State.putRange (s : State) (a n : Nat) (bytes : SMap 8) (poison : SMap 1) : State :=
  let n := s.writableLen a n
  let again := if s.mem.lost.isEmpty then [] else ((List.range (n / 64)).map (fun i => a + 64 * i)).filter s.lostAt
  let clean := bytes.filter (fun e => sget poison (e.1 / 64) == 0)
  { s with mem := { s.mem with
      bytes := splice s.mem.bytes a n clean, poison := splice s.mem.poison (a / 64) (n / 64) poison
      rewritten := again.foldl (fun m x => sset m (x / 64) 1) s.mem.rewritten } }

/-- The poisoned granules of a range, counted from its start. -/
def State.poisonIn (s : State) (a n : Nat) : SMap 1 := ((List.range (n / 64)).filter (fun i => s.poisonAt (a + 64 * i))).map (fun i => (i, 1))

/-- A map of 4-byte words as bytes, and back. -/
def wordsToBytes (m : SMap 32) : SMap 8 := m.foldl (fun b e => ssetAll b (4 * e.1) (leBytes 4 e.2.toNat)) []
def bytesToWords (b : SMap 8) : SMap 32 :=
  (b.map (fun e => e.1 / 4)).dedup.foldl (fun m k => sset m k (BitVec.ofNat 32 (leNat (sgetAll b (4 * k) 4)))) []

/-- A map of single bits as bytes, eight to a byte, the lowest key in bit 0 (row 4: log 74). -/
def bitsToBytes (m : SMap 1) : SMap 8 := m.foldl (fun b e => sset b (e.1 / 8) (sget b (e.1 / 8) ||| BitVec.ofNat 8 (2 ^ (e.1 % 8)))) []
def bytesToBits (b : SMap 8) : SMap 1 :=
  b.foldl (fun m e => (List.range 8).foldl (fun m i => if e.2.getLsbD i then sset m (8 * e.1 + i) 1 else m) m) []

/-! ## Slots (R366, R367) -/

/-- Slot size: 3.5 MiB of a small partition; of a large one what its save area gives each core, to 64 KiB (R366). -/
def Ctx.slotSize (c : Ctx) : Nat :=
  if c.small then 3670016 else c.desc.saveLen / ceilDiv c.desc.cores c.dies.length / 65536 * 65536

/-- Address of the slot of a logical core: on its die, by its die-local number. -/
def Ctx.slotAddr (c : Ctx) (l : Nat) : Nat :=
  let (d, x) := c.locate l
  c.desc.saveAddr + (d - c.die) * 0x3000000000 + x * c.slotSize

/-- The live size that a context's scratchpads have: of the program on its cores, else the largest of its loaded programs (log 74). -/
def Ctx.liveSize (c : Ctx) : Nat :=
  match c.program with
  | none => (c.slots.map (fun p => p.2.liveSize)).foldl max 0
  | some p => p.liveSize

/-- Granules of the scratchpad that are saved: all of a small partition, the live ones of a large one (R367). -/
def Ctx.savedGranules (c : Ctx) : Nat := if c.small then spGranules else ceilDiv (max c.liveSize 458752 - 458752) 64

/-- Rows of a slot: offset and size of rows 1 to 7, and the offset of row 8 (R367). -/
def row1 : Nat × Nat := (0x000000, 0x4000)
def row2 : Nat × Nat := (0x004000, 0x4000)
def row3 : Nat × Nat := (0x008000, 0x4000)
def row4 : Nat × Nat := (0x00C000, 0x1800)
def row5 : Nat × Nat := (0x00D800, 0x1000)
def row6 : Nat × Nat := (0x010000, 0x20000)
def row7 : Nat × Nat := (0x030000, 0x40000)
def row8 : Nat := 0x070000

/-! ## Saving a core -/

/-- Rows 1, 3 and 5, whose layout no rule gives, are written: their bytes are free (log 74); the core keeps what they hold. -/
def State.saveOpaque (s : State) (a : Nat) : State :=
  ([row1, row3, row5].foldl (fun (s : State) r => s.store (a + r.1) (s.freeBytes r.2)) s).spend

/-- The poison of the entries below a number of granules. -/
def below {w : Nat} (m : SMap w) (n : Nat) : SMap w := m.filter (fun e => decide (e.1 < n))

/-- A logical core is written to its slot: vectors, poison bits, accumulators, side memory and scratchpad (R367). -/
def State.saveCore (s : State) (c : Ctx) (l : Nat) (x : Core) : State × Core :=
  if x.inSlot then (s, x)
  else
    let a := c.slotAddr l
    let g := c.savedGranules
    let s := s.saveOpaque a
    let s := s.putRange (a + row2.1) row2.2 (wordsToBytes x.v) []
    let s := s.putRange (a + row4.1) row4.2 (bitsToBytes x.spPoison) []
    let s := s.putRange (a + row6.1) row6.2 (wordsToBytes x.acc) []
    let s := s.putRange (a + row7.1) row7.2 x.side x.sidePoison
    let s := s.putRange (a + row8) (64 * g) x.sp []
    (s, { x with v := [], acc := [], side := [], sidePoison := [], sp := [], spPoison := [], inSlot := true, on := none })

/-! ## Restoring a core (R368, R380) -/

/-- Poison found in rows 2, 3, 6 and 7 goes with what it covers; that of row 3 marks every held packet (log 74). -/
def Core.carryPoison (x : Core) (s : State) (a : Nat) : Core :=
  let vs := (s.poisonIn (a + row2.1) row2.2).foldl (fun m e => sset m (e.1 / 4) 1) x.vPoison
  let sends := if s.loadPoison (a + row3.1) row3.2 then x.sends.map (fun b => { b with poison := b.poison.map (fun _ => true) }) else x.sends
  let bad := (s.poisonIn (a + row6.1) row6.2).map (fun e => e.1 / 256)
  let tiles := x.tiles.map (fun t => if bad.contains t.slot || (t.accFormat = 1 && bad.contains (t.slot + 1)) then { t with poisoned := true } else t)
  { x with vPoison := vs, sends := sends, tiles := tiles, sidePoison := s.poisonIn (a + row7.1) row7.2 }

/-- Keys of the odd slot's words of an E8M39 tile. -/
def Tile.oddWords (t : Tile) : List Nat :=
  if t.accFormat = 1 then (List.range t.m).flatMap (fun i => (List.range t.n).map (fun j => accKey t.slot (t.row0 + i) (t.col0 + j) + 4096)) else []

/-- Bits [31:16] of the odd slot of an E8M39 accumulator are zero after a restore (03 R80). -/
def clearTails (tiles : List Tile) (acc : SMap 32) : SMap 32 := (tiles.flatMap Tile.oddWords).foldl (fun m k => sset m k (sget m k &&& 0xFFFF)) acc

/-- A logical core is read back from its slot; granules that were not saved read zero and unpoisoned. The second part is the first poisoned
granule of rows 1, 4 and 5, which is visible. -/
def State.restoreCore (s : State) (c : Ctx) (l : Nat) (x : Core) : Core × Option Nat :=
  if !x.inSlot then (x, none)
  else
    let a := c.slotAddr l
    let g := c.savedGranules
    let bits := below (bytesToBits (sslice s.mem.bytes (a + row4.1) row4.2)) g
    let y := { (x.carryPoison s a) with
      v := bytesToWords (sslice s.mem.bytes (a + row2.1) row2.2)
      acc := clearTails x.tiles (bytesToWords (sslice s.mem.bytes (a + row6.1) row6.2))
      side := sslice s.mem.bytes (a + row7.1) row7.2
      sp := sslice s.mem.bytes (a + row8) (64 * g)
      spPoison := (s.poisonIn (a + row8) (64 * g)).foldl (fun m e => sset m e.1 1) bits
      inSlot := false, on := s.hostOf c l }
    let seen := ((s.firstPoison (a + row1.1) row1.2).orElse (fun _ => s.firstPoison (a + row4.1) row4.2)).orElse (fun _ => s.firstPoison (a + row5.1) row5.2)
    (y, seen)

/-! ## Contexts -/

/-- A core of a context is saved. -/
def State.saveOne (s : State) (k l : Nat) : State :=
  match s.ctx? k with
  | none => s
  | some c =>
    match c.core? l with
    | none => s
    | some x => let (s, y) := s.saveCore c l x; s.putCtx k (c.putCore l y)

/-- A logical core is saved to its slot and gives up its physical core. -/
def State.park (s : State) (k l : Nat) : State :=
  (s.saveOne k l).updCtx k (fun c => match c.core? l with | none => c | some x => c.putCore l { x with folded := true })

/-- Every core of a context is saved. -/
def State.saveAll (s : State) (k : Nat) : State :=
  match s.ctx? k with
  | none => s
  | some c => c.cores.foldl (fun s x => s.saveOne k x.1) s

/-- A core of a context is restored; poison of control state becomes visible with use 0x07 (14 R386). -/
def Ctx.restoreOne (c : Ctx) (s : State) (l : Nat) : Ctx :=
  match c.core? l with
  | none => c
  | some x =>
    let (y, bad) := s.restoreCore c l x
    let c := c.putCore l y
    match bad with
    | none => c
    | some a => c.raisePoison a 0x07

/-- Something happens to a logical core wherever its state lies: one in its slot is read back for it and saved again (02 R46). -/
def State.atHome (s : State) (k l : Nat) (f : Ctx → Ctx) : State :=
  if ((s.ctx? k).bind (·.core? l)).elim false (·.inSlot) then (s.updCtx k (fun c => f (c.restoreOne s l))).saveOne k l else s.updCtx k f

/-- The cores that satisfy a test are restored. -/
def Ctx.restoreThe (c : Ctx) (s : State) (p : Core → Bool) : Ctx := c.cores.foldl (fun d x => if p x.2 then d.restoreOne s x.1 else d) c

/-- Does state of a core that the context's physical cores hold lie in the save area? -/
def Ctx.stored (c : Ctx) : Bool := c.cores.any (fun x => x.2.inSlot && !x.2.folded)

end Sys2Proof.Machine
end

