-- ==== Sys2Proof/Machine/Frames.lean ====
section
/-! DEFINITION. Frames and packets that leave a Seif port: frame slots, lane swaps, and the windows of flows (08 R214 to R219, R224, R234, R235). -/

namespace Sys2Proof.Machine

/-! ## Frames (R215) -/

/-- Bytes 0 to 1,007 of a frame. -/
def frameBytes (typ seq ack : Nat) (ackValid nak : Bool) (payload : List Byte) : List Byte :=
  [BitVec.ofNat 8 typ, 0] ++ leBytes 2 seq ++ leBytes 2 (ack + 4096 * b2n ackValid + 8192 * b2n nak) ++ zeros 10 ++ (payload ++ zeros 992).take 992

/-- The CRC-64 of a received frame holds. -/
def frameOk (f : Frame) : Bool := crc64 (frameBytes f.typ.toNat f.seq.toNat f.ack.toNat f.ackValid f.nak f.payload) == f.crc.toNat

/-- The frame that a port sends next, with its acknowledgement and NAK; only data frames take sequence numbers. -/
def Port.frame (x : Port) (typ : Nat) (payload : List Byte) : Frame :=
  let seq := if typ = 1 then x.txSeq.toNat else 0
  { typ := BitVec.ofNat 8 typ, seq := BitVec.ofNat 12 seq, ack := x.rxNext, ackValid := true, nak := x.nak, payload := payload,
    crc := BitVec.ofNat 64 (crc64 (frameBytes typ seq x.rxNext.toNat true x.nak payload)) }

def portReg (p : Nat) : Nat := 0x70000 + 4 * p

/-- The spare lane replaces a lane, with a notice (R219, R249). -/
def State.spareIn (s : State) (p lane : Nat) : State :=
  (s.putPort p { portGet s.seif p with spare := true, replaced := lane, swapTx := none, swapRx := none }).raise
    { level := 1, source := 3, reg := some (portReg p), count := lane }

/-- A port after a frame: a data frame takes the next sequence number and enters the replay buffer, which keeps the last 1,024 (R217). -/
def Port.sent (x : Port) (now : W64) (f : Frame) : Port :=
  let x := { x with nak := false }
  if f.typ = 1 then { x with txSeq := x.txSeq + 1, slots := x.slots + 1, buffer := (x.buffer ++ [f]).drop (x.buffer.length + 1 - 1024)
                             ackTime := if x.buffer.isEmpty then now else x.ackTime }
  else x

/-- A frame leaves a port; a lane swap that names a data frame takes effect at it (R219). -/
def State.sendFrame (s : State) (p typ : Nat) (payload : List Byte) : State :=
  let x := portGet s.seif p
  let f := x.frame typ payload
  let s := s.putPort p (x.sent s.st.now f)
  let s := { s with seif := { s.seif with out := s.seif.out ++ [(p, f)] } }
  match x.swapTx with
  | none => s
  | some (lane, seq) => if typ = 1 ∧ f.seq = seq then s.spareIn p lane else s

/-- Packet bytes leave in data frames of 992 payload bytes; the fuel is the number of frames. -/
def State.sendBytes : Nat → State → Nat → List Byte → State
  | 0, s, _, _ => s
  | n + 1, s, p, bytes => if bytes.isEmpty then s else sendBytes n (s.sendFrame p 1 (bytes.take 992)) p (bytes.drop 992)

/-- Idle frames in n frame slots that had no data (R216): all alike but the first, which may carry a NAK. -/
def State.sendIdle (s : State) (p n : Nat) : State :=
  if n = 0 then s
  else
    let s := s.sendFrame p 3 []
    { s with seif := { s.seif with out := s.seif.out ++ List.replicate (n - 1) (p, (portGet s.seif p).frame 3 []) } }

/-- A control frame leaves after 90 frame slots; those that had no data carried idle frames, but on an incompatible port, which carries control frames
only (R216, R221). -/
def State.sendControl (s : State) (p typ : Nat) (payload : List Byte) : State :=
  let x := portGet s.seif p
  let s := (s.sendIdle p (if x.state = 4 then 0 else 90 - x.slots)).sendFrame p typ payload
  s.putPort p { portGet s.seif p with slots := 0 }

/-! ## Packets as they leave (R224) -/

/-- Bytes 0 to 59 of a packet header. -/
def headerBytes (p : SeifPacket) : List Byte :=
  leBytes 8 p.job.toNat ++ leBytes 2 p.srcRank.toNat ++ leBytes 2 p.dstRank.toNat ++ [p.kind, p.len] ++ leBytes 2 p.flow.toNat ++ leBytes 8 p.target.toNat
    ++ leBytes 4 p.tag.toNat ++ leBytes 4 p.segment.toNat ++ leBytes 8 p.poison.toNat ++ leBytes 4 p.reserved.toNat ++ leBytes 16 p.digest.toNat

/-- Bytes completed with zeros to whole granules. -/
def toGranules (l : List Byte) : List Byte := l ++ zeros (64 * ceilDiv l.length 64 - l.length)

/-- A packet as it leaves: header, header CRC, payload. -/
def packetBytes (p : SeifPacket) : List Byte := headerBytes p ++ leBytes 4 (crc32 (headerBytes p)) ++ toGranules p.payload

/-! ## Flows in their windows (R234, R235) -/

/-- Frame slots in a number of System Time units, by version (R214). -/
def frameSlots (version units : Nat) : Nat := units * 125 / (2 * (if version = 4 then 4838 else 9677))

/-- The data frames in a number of slots, `c` slots after a control frame: each 91st slot is a control frame's (R214, R235). -/
def dataFrames (c slots : Nat) : Nat := slots - (c + slots) / 91

/-- Packets that leave in order as long as they fit a room in bytes. -/
def takeFit (room : Nat) : List ReadyPacket → List ReadyPacket
  | [] => []
  | x :: r => let n := 64 + 64 * x.pkt.len.toNat; if n ≤ room then x :: takeFit (room - n) r else []

/-- A port of version 3 carries no traffic of the collective engine (R221). -/
def ReadyPacket.allowed (x : ReadyPacket) (version : Nat) : Bool := version == 4 || decide (x.pkt.kind.toNat ≤ 3)

/-- The ready packets of a flow on a port. -/
def State.readyFor (s : State) (k port flow : Nat) : List ReadyPacket :=
  s.seif.ready.filter (fun x => x.ctx == k && x.port == port && x.pkt.flow.toNat == flow && x.allowed (portGet s.seif port).version)

/-- Is a window open at a time? -/
def OpenWindow.isOpen (w : OpenWindow) (now : W64) : Bool := decide (now.toNat < w.closes.toNat)

/-- Packets leave a port. -/
def State.sendPackets (s : State) (port : Nat) (l : List ReadyPacket) : State :=
  let bytes := l.flatMap (fun y => packetBytes y.pkt)
  ({ s with seif := { s.seif with ready := l.foldl (fun r y => r.erase y) s.seif.ready } } : State).sendBytes (bytes.length / 992 + 1) port bytes

/-- What an open window of a flow can carry leaves, in the order in which it became ready; where in the control cadence the window stands is free
(log 151). -/
def State.pump (s : State) (k port flow : Nat) : State :=
  match s.seif.windows.find? (fun w => w.ctx == k && w.port == port && w.flow == flow && w.isOpen s.st.now) with
  | none => s
  | some w =>
    let x := portGet s.seif port
    if x.state ≠ 3 ∨ (s.readyFor k port flow).isEmpty then s
    else
      let room := min w.left (992 * dataFrames (s.fresh % 91) (frameSlots x.version (w.closes.toNat - s.st.now.toNat)))
      let l := takeFit room (s.readyFor k port flow)
      let s := s.spend.sendPackets port l
      let used := (l.map (fun y => 64 + 64 * y.pkt.len.toNat)).foldl (· + ·) 0
      { s with seif := { s.seif with windows := updWhere s.seif.windows (fun y => y.ctx == k && y.entry == w.entry)
                                                  (fun y => { y with sent := y.sent + l.length, left := y.left - used }) } }

/-- The packets of jobs that have no context here, and so no windows, leave a port while no window is open on it (log 152). -/
def State.pumpLoose (s : State) (port : Nat) : State :=
  let x := portGet s.seif port
  let l := s.seif.ready.filter (fun y => y.ctx == 64 && y.port == port && y.allowed x.version)
  if x.state ≠ 3 ∨ l.isEmpty ∨ s.seif.windows.any (fun w => w.port == port && w.isOpen s.st.now) then s else s.sendPackets port l

/-- Everything that can leave does: after the routes have changed. -/
def State.pumpAll (s : State) : State :=
  (List.range 18).foldl State.pumpLoose (s.seif.windows.foldl (fun s w => s.pump w.ctx w.port w.flow) s)

/-- A packet of a context becomes ready on a port (R235); port 18 holds it until a port reaches its rank. -/
def State.addReady (s : State) (x : ReadyPacket) : State :=
  let flow := x.pkt.flow.toNat
  let here := fun (w : OpenWindow) => w.ctx == x.ctx && w.port == x.port && w.flow == flow && w.isOpen s.st.now
  let s := { s with seif := { s.seif with
    ready := s.seif.ready ++ [x]
    windows := updWhere s.seif.windows here (fun w => { w with first := w.first.orElse (fun _ => some s.st.now.toNat) }) } }
  if x.ctx = 64 then s.pumpLoose x.port else s.pump x.ctx x.port flow

end Sys2Proof.Machine
end

