-- ==== Sys2Proof/Machine/Messages.lean ====
section
/-! DEFINITION. Control messages, routes and peer writes of the module itself (08 R216, R224 to R227). -/

namespace Sys2Proof.Machine

/-! ## Control messages and routes (08 R216, R226) -/

/-- A control message of 32 bytes. -/
def message (bytes : List Byte) : List Byte := (bytes ++ List.replicate 32 0).take 32

/-- A message waits on a port for the port's next control frame; a port of version 3 carries no resend requests, no pacing and no collective aborts
(R221). -/
def State.post (s : State) (p : Nat) (bytes : List Byte) : State :=
  let x := portGet s.seif p
  if x.version = 3 ∧ bytes.headD 0 ∈ [0x04, 0x05, 0x09] then s
  else s.putPort p { x with outbox := x.outbox ++ [message bytes] }

/-- Ports that are up (state 3). -/
def State.upPorts (s : State) : List Nat := (List.range 18).filter (fun p => (portGet s.seif p).state == 3)

/-- The route entry of a rank of a job. -/
def State.route? (s : State) (job : W64) (rank : Nat) : Option Route := s.seif.routes.find? (fun r => r.job == job && r.rank == rank)

/-- The egress port toward a rank of a job. -/
def State.egress (s : State) (job : W64) (rank : Nat) : Option Nat := (s.route? job rank).bind (·.port)

/-- Post a message toward a rank, if there is a port. -/
def State.postTo (s : State) (job : W64) (rank : Nat) (bytes : List Byte) : State :=
  match s.egress job rank with
  | none => s
  | some p => s.post p bytes

/-! ## Peer writes (08 R224, R227) -/

/-- A peer write packet. -/
def writePacket (job : W64) (src dst flow tag addr : Nat) (bytes : List Byte) (poison : List Bool) : SeifPacket :=
  { job := job, srcRank := BitVec.ofNat 16 src, dstRank := BitVec.ofNat 16 dst, kind := 1, len := BitVec.ofNat 8 (bytes.length / 64),
    flow := BitVec.ofNat 16 flow, target := BitVec.ofNat 64 addr, tag := BitVec.ofNat 32 tag, segment := 0xFFFFFFFF,
    poison := BitVec.ofNat 64 (bits4 poison), reserved := 0, digest := 0, crc := 0, payload := bytes }

/-- A packet of a context is ready on the port toward its rank. -/
def State.ready (s : State) (k : Nat) (pkt : SeifPacket) : State :=
  s.addReady ⟨k, (s.egress pkt.job pkt.dstRank.toNat).getD 18, pkt, s.st.now⟩

/-- The service's write of whole granules to a rank of a job, 64 granules a packet; with `track` each has its tag, and its acknowledgement is awaited. -/
def State.peerWriteGo (track : Bool) (k : Nat) (job : W64) (src rank flow : Nat) : Nat → State → Nat → List Byte → List Bool → State
  | 0, s, _, _, _ => s
  | n + 1, s, addr, bytes, poison =>
    if bytes.isEmpty then s
    else
      let tag := s.seif.nextTag
      let peers := if track then s.seif.peers ++ [(PeerXfer.mk tag none k rank true s.st.now)] else s.seif.peers
      let s := ({ s with seif := { s.seif with nextTag := tag + 1, peers := peers } } : State)
      let s := s.ready k (writePacket job src rank flow tag addr (bytes.take 4096) (poison.take 64))
      peerWriteGo track k job src rank flow n s (addr + 4096) (bytes.drop 4096) (poison.drop 64)

/-- A peer write of a service of the module (R227): the state, and the last tag. -/
def State.peerWrite (s : State) (k : Nat) (c : Ctx) (rank flow addr : Nat) (bytes : List Byte) (poison : List Bool) : State × Nat :=
  let b := toGranules bytes
  let s := State.peerWriteGo true k c.desc.job c.desc.rank rank flow (b.length / 4096 + 1) s addr b poison
  (s, s.seif.nextTag - 1)

end Sys2Proof.Machine
end

