-- ==== Sys2Proof/Machine/Suspects.lean ====
section
/-! DEFINITION. The suspect table, transients, and control messages between modules (11 R324 to R329, 08 R216, R226). -/

namespace Sys2Proof.Machine

/-! ## Reports (R326) -/

/-- Times within the last 24 hours. -/
def withinDay (now : Nat) (l : List Nat) : List Nat := l.filter (fun t => decide (now < t + dayUnits))

/-- The index a new entry takes: the lowest free one, else that of the oldest cleared entry. -/
def Faults.slot (f : Faults) : Option Nat :=
  match (List.range 1024).find? (fun i => !nmem f.suspects i) with
  | some i => some i
  | none =>
    let cleared := f.suspects.filter (fun x => x.2.state == 5)
    (cleared.foldl (fun (m : Option (Nat × Suspect)) x =>
      match m with
      | none => some x
      | some y => if x.2.lastTime.toNat < y.2.lastTime.toNat then some x else some y) none).map (·.1)

def State.suspectIdx (s : State) (key : SuspectKey) : Option Nat := (s.faults.suspects.find? (fun x => x.2.key == key)).map (·.1)

def State.setSuspect (s : State) (i : Nat) (x : Suspect) : State := { s with faults := { s.faults with suspects := nset s.faults.suspects i x } }

/-- Level of the event that a new entry raises (R329; DESIGN CHOICE log 31 where R329 names none: a notice). -/
def newEntryLevel (key : SuspectKey) (cause : Nat) : Nat := if key.kind = 1 then 2 else if cause = 5 then 5 else 1

/-- Relay of module-level and port-level reports to rank 0 of the job, at most one message per key in 100 ms (R327). -/
def relayMessage (key : SuspectKey) (cause : Nat) (rep : Report) (reporter count : Nat) : List Byte :=
  [0x06, 0x01, BitVec.ofNat 8 key.kind, BitVec.ofNat 8 cause] ++ leBytes 8 rep.job.toNat ++ leBytes 2 rep.rank ++ [BitVec.ofNat 8 key.die, 0]
    ++ leBytes 2 key.index ++ leBytes 2 reporter ++ leBytes 4 count ++ leBytes 8 rep.serial.toNat

/-- Rank of this module in a job, by its resident context. -/
def State.ownRank (s : State) (job : W64) : Option Nat := (s.ctxs.find? (fun c => c.2.desc.job == job && c.2.status != .absent)).map (fun c => c.2.desc.rank)

/-- Reports of a key that have come for a job since its last message, and what the message will say. -/
def Relay.is (r : Relay) (key : SuspectKey) (job : W64) : Bool := r.key == key && r.rep.job == job

/-- Messages that are due go out: reports have come for their key, and its last message is 100 ms old (R327). -/
def State.sendRelays (s : State) : State :=
  let now := s.st.now.toNat
  let due := fun (r : Relay) => r.count != 0 && (match r.last with | none => true | some t => decide (t + 100 * millisecond ≤ now))
  let go := s.faults.relaySent.filter due
  let s := { s with faults := { s.faults with relaySent := updWhere s.faults.relaySent due (fun r => { r with last := some now, count := 0 }) } }
  go.foldl (fun s r =>
    match s.ownRank r.rep.job with
    | none => s
    | some me => s.postTo r.rep.job 0 (relayMessage r.key r.cause r.rep me r.count)) s

/-- A module-level or port-level report of a module above rank 0 counts toward the next message of its key. -/
def State.relay (s : State) (key : SuspectKey) (cause : Nat) (rep : Report) : State :=
  if key.kind ≤ 2 then
    match s.ownRank rep.job with
    | none => s
    | some 0 => s
    | some _ =>
      let l := if s.faults.relaySent.any (fun r => r.is key rep.job) then s.faults.relaySent else s.faults.relaySent ++ [⟨key, cause, rep, none, 0⟩]
      ({ s with faults := { s.faults with relaySent := updWhere l (fun r => r.is key rep.job) (fun r => { r with cause := cause, rep := rep, count := r.count + 1 }) } } : State).sendRelays
  else s

/-- A report of a key: the first creates its entry and raises one event, later ones only count (R326). -/
def State.reportN (s : State) (key : SuspectKey) (cause n : Nat) (rep : Report) : State :=
  match s.suspectIdx key with
  | some i =>
    match nfind s.faults.suspects i with
    | none => s
    | some x => s.setSuspect i { x with reports := min (2 ^ 32 - 1) (x.reports + n), last := cause, lastTime := s.st.now }
  | none =>
    match s.faults.slot with
    | none =>
      let s := { s with faults := { s.faults with overflow := true } }
      (match s.faults.lastOverflow with
       | some t => if s.st.now.toNat < t + hourUnits then s
           else ({ s with faults := { s.faults with lastOverflow := some s.st.now.toNat } } : State).raise { level := 2, source := 1, reg := some 0x20008 }
       | none => ({ s with faults := { s.faults with lastOverflow := some s.st.now.toNat } } : State).raise { level := 2, source := 1, reg := some 0x20008 })
    | some i =>
      let x : Suspect :=
        { key := key, state := 1, first := cause, last := cause, rank := rep.rank, job := rep.job, serial := rep.serial, transients := [],
          reports := min (2 ^ 32 - 1) n, firstTime := s.st.now, lastTime := s.st.now, step := rep.step, tensor := rep.tensor,
          seq := (s.attn.seq + 1).toNat % 16 }
      (s.setSuspect i x).raise
        { level := newEntryLevel key cause, source := 1, cause := cause, reg := some 0x20008, suspect := some i, ctx := rep.ctx, step := some rep.step,
          count := n }

/-- A report made by this module, relayed where R327 says so. -/
def State.report (s : State) (key : SuspectKey) (cause : Nat) (rep : Report) : State := (s.reportN key cause 1 rep).relay key cause rep

/-- A report of a port, which goes to rank 0 of every job that has a context here (R327; whose: log 162). -/
def State.reportPort (s : State) (p cause : Nat) : State :=
  let key : SuspectKey := ⟨2, 0xFF, p, 0, 0, 0⟩
  let jobs := ((s.ctxs.filter (fun c => c.2.status != .absent)).map (fun c => c.2.desc.job)).dedup
  jobs.foldl (fun s job => s.relay key cause { job := job, rank := (s.ownRank job).getD 0, serial := s.cfg.serial }) (s.reportN key cause 1 { serial := s.cfg.serial })

/-- Keys (R324). -/
def coreKey (die p : Nat) : SuspectKey := ⟨3, die, p, 0, 0, 0⟩
def mirageKey (die : Nat) : SuspectKey := ⟨4, die, 0xFFFF, 0, 0, 0⟩
def nearKey (die pc : Nat) : SuspectKey := ⟨5, die, pc, 0, 0, 0⟩
def farKey (ch : Nat) : SuspectKey := ⟨6, 0xFF, ch, 0, 0, 0⟩
def linkKey (l : Nat × Nat × Nat) : SuspectKey := ⟨7, l.1, l.2.1 * 2 ^ 14 + l.2.2, 0, 0, 0⟩

/-- A module's key: the serial when it is known, otherwise job and rank. -/
def State.moduleKey (s : State) (job : W64) (rank : Nat) : SuspectKey :=
  match s.seif.claims.find? (fun c => c.job == job && c.rank == rank && !c.refused) with
  | some c => ⟨1, 0xFF, 0xFFFF, c.serial, 0, 0⟩
  | none => ⟨1, 0xFF, 0xFFFF, 0, job, rank⟩

/-- A report against the module that holds a rank of a job. -/
def State.suspectRank (s : State) (job : W64) (rank cause : Nat) (ctx : Option Nat) : State :=
  let key := s.moduleKey job rank
  s.report key cause { rank := rank, job := job, serial := key.serial, ctx := ctx }

/-- A change of state of an entry raises one event at the given level (R326, R329). -/
def State.suspectState (s : State) (key : SuspectKey) (state cause level : Nat) (rep : Report) : State :=
  match s.suspectIdx key with
  | none => s
  | some i =>
    match nfind s.faults.suspects i with
    | none => s
    | some x =>
      if x.state = state then s
      else (s.setSuspect i { x with state := state, last := cause, lastTime := s.st.now }).raise
        { level := level, source := 1, cause := cause, reg := some 0x20008, suspect := some i, ctx := rep.ctx, step := some rep.step, count := x.reports }

/-- Transients within the last 24 hours of an entry, after one more is charged. -/
def State.chargeEntry (s : State) (key : SuspectKey) : State × Nat :=
  match s.suspectIdx key with
  | none => (s, 0)
  | some i =>
    match nfind s.faults.suspects i with
    | none => (s, 0)
    | some x =>
      let l := withinDay s.st.now.toNat x.transients ++ [s.st.now.toNat]
      (s.setSuspect i { x with transients := l }, l.length)

/-- A transient charged to the module of a rank (R328): three within 24 hours make it permanent-suspect, which asks for action. -/
def State.chargeRank (s : State) (job : W64) (rank cause : Nat) (ctx : Option Nat) : State :=
  let s := s.suspectRank job rank cause ctx
  let key := s.moduleKey job rank
  let (s, n) := s.chargeEntry key
  if 3 ≤ n then s.suspectState key 3 cause 4 { rank := rank, job := job, serial := key.serial, ctx := ctx } else s

/-! ## Physical cores (11 R315, R317, 01 R16) -/

def State.setPhys (s : State) (die p : Nat) (x : Phys) : State := { s with faults := { s.faults with phys := nset s.faults.phys (136 * die + p) x } }

/-- The position that a physical core holds in the core map. -/
def State.positionOf (s : State) (die p : Nat) : Option Nat := (List.range s.cfg.perDie).find? (fun l => s.posPhys die l == some p)

/-- Give a position to a physical core, or to none (255). -/
def State.setPosition (s : State) (die pos : Nat) (p : Option Nat) : State :=
  { s with faults := { s.faults with map := nset s.faults.map (136 * die + pos) (p.getD 255) } }

/-- Contexts that hold a position. -/
def State.holders (s : State) (die pos : Nat) : List (Nat × Ctx) :=
  s.ctxs.filter (fun c => c.2.status != .absent && c.2.dies.contains die && (s.positions c.2).contains pos)

/-- A write of the health record (16 R425): the older copy takes the next counter value, then the counter advances. -/
def Health.written (h : Health) : Health := { h with counter := h.counter + 1, copies := [h.copies.getD 1 0, h.counter + 1] }

/-- A physical core is retired: the health record keeps it and its suspect entry says so (R317). -/
def State.retireCore (s : State) (die p : Nat) : State :=
  let h := if s.health.retiredCores.contains (die, p) then s.health else
    ({ s.health with retiredCores := s.health.retiredCores ++ [(die, p)] } : Health).written
  let x := s.phys die p
  let s := { s with health := h }
  let s := s.setPhys die p { x with state := .retired }
  match s.suspectIdx (coreKey die p) with
  | none => s
  | some i => match nfind s.faults.suspects i with | none => s | some e => s.setSuspect i { e with state := 4, lastTime := s.st.now }

end Sys2Proof.Machine
end

