-- ==== Sys2Proof/Machine/VectorUnit.lean ====
section
/-! DEFINITION. What each instruction of the vector unit computes on its core (05 R139, R140, R463, 06 R158 to R167, R181). -/

namespace Sys2Proof.Machine

/-- The tensor identifier that captures hold for ops without a key block (06 R160). -/
def noTensor : W32 := 0xFFFFFFFF

/-- The destination written lane by lane from computed results: poison marks all 64 lanes and keeps flags as they are (03 R94, 07 R213). -/
def vectorResult (e : QEntry) (vd : Nat) (poisoned : Bool) (tensor : W32) (elem : Nat → Nat) (beats : Nat) (rs : List FRes) (c : Core) : Core :=
  let c := c.setLanes vd (rs.map (·.1)) poisoned
  let evs := rs.mapIdx (fun i r => ElemEv.mk (elem i) noBlock r.2)
  let c := if poisoned then c else { c with fv := c.fv.record e.idx tensor evs }
  c.addBeats engVector beats

/-- A lane op of one operand. -/
def lane1 (f : W32 → FRes) (beats : Nat) (e : QEntry) (c : Core) : CRes :=
  let w := e.word
  .ok (vectorResult e (opVd w) (c.vPoisoned (opVa w)) noTensor id beats ((c.lanes (opVa w)).map f) c)

/-- A lane op of two operands. -/
def lane2 (f : W32 → W32 → FRes) (beats : Nat) (e : QEntry) (c : Core) : CRes :=
  let w := e.word
  .ok (vectorResult e (opVd w) (c.vPoisoned (opVa w) || c.vPoisoned (opVb w)) noTensor id beats
    (List.zipWith f (c.lanes (opVa w)) (c.lanes (opVb w))) c)

/-- A lane op of three operands. -/
def lane3 (f : W32 → W32 → W32 → FRes) (beats : Nat) (e : QEntry) (c : Core) : CRes :=
  let w := e.word
  .ok (vectorResult e (opVd w) (c.vPoisoned (opVa w) || c.vPoisoned (opVb w) || c.vPoisoned (opVc w)) noTensor id beats
    (List.zipWith (fun g z => g z) (List.zipWith f (c.lanes (opVa w)) (c.lanes (opVb w))) (c.lanes (opVc w))) c)

/-- The rounding field as a mode; the loader refuses the reserved code and, where R139 says so, SR. -/
def opMode (w : W64) : Rounding := (Rounding.ofCode (opRnd w)).getD .rne

/-- A lane op that only moves or computes integers sets no flag. -/
def pureRes (x : W32) : FRes := (x, {})

/-! ## Loads and stores -/

/-- vx.ld: 256 bytes from s(x) (R139). -/
def vxLd (e : QEntry) (c : Core) : CRes :=
  let g := (e.reg (opSx e.word)).toNat
  if g + 4 > spGranules then .fault 0x0A
  else
    let c' := c.setLanes (opVd e.word) (words32 64 (c.spRead (64 * g) 256)) (c.spPoisoned (64 * g) 256)
    .ok (c'.addBeats engVector 4)

/-- vx.st: 256 bytes at s(x) := va, subject to predicated commit (R139, R146). -/
def vxSt (e : QEntry) (c : Core) : CRes :=
  let g := (e.reg (opSx e.word)).toNat
  if g + 4 > spGranules then .fault 0x0A
  else
    let c' := if e.skips then c else c.spWrite (64 * g) (bytes32 (c.lanes (opVa e.word))) (c.vPoisoned (opVa e.word))
    .ok (c'.addBeats engVector 4)

/-- vx.li: every lane of vd := s(x)[31:0]. -/
def vxLi (e : QEntry) (c : Core) : CRes :=
  .ok (vectorResult e (opVd e.word) false noTensor id 1 (List.replicate 64 (pureRes ((e.reg (opSx e.word)).truncate 32))) c)

/-! ## Keyed conversions -/

/-- The key block of a conversion (R139, R179): tensor entry, first element index, mode under R84, ordinal. A code is a fault. -/
def keyBlock (v : Env) (e : QEntry) (conv : Bool) (elems : Nat) : Except Nat (TensorEntry × Nat × Rounding × Nat) :=
  let sx := opSx e.word
  let k := e.reg (sx + 2)
  match v.tensor (k.truncate 32) with
  | none => .error 0x0B
  | some t =>
    let mode := if conv then roundingFor t (opMode e.word) else opMode e.word
    let first := (e.reg (sx + 3)).toNat
    if conv ∧ mode = .sr ∧ (fld k 62 2 ≠ 0 ∨ first + elems > 2 ^ 64) then .error 0x0B
    else .ok (t, first, mode, fld k 32 30)

/-- The draw of a stochastic conversion (R179, domain 0b10); no draw is compared in other modes. -/
def cvtDraw (c : Core) (t : TensorEntry) (mode : Rounding) (elem ordinal : Nat) : Nat :=
  if mode = .sr then srDraw c.key t.id elem 2 ordinal else 0

/-- One conversion of an exact value with its decoding cause (R463). -/
def convertLane (fm : Format) (mode : Rounding) (sat : Bool) (draw : Nat) (q : ScalePair) (x : FVal × Nat) : FRes :=
  let r := encodePlain fm mode sat draw q x.1
  (BitVec.ofNat 32 r.1, if x.2 = 0 then r.2 else Ev.invalid x.2)

/-- Formats of vx.cvt (R463). -/
def cvtFormat (code : Nat) : Option Format :=
  match Format.ofCode code with
  | some .master48 => none
  | some (.mx _ _) => none
  | f => f

/-- vx.cvt (R463). -/
def vxCvt (v : Env) (e : QEntry) (c : Core) : CRes :=
  let w := e.word
  match cvtFormat (opFmt w), cvtFormat (opVc w % 32), keyBlock v e true 64 with
  | some dst, some src, .ok (t, first, mode, ord) =>
    let q := ScalePair.ofReg (e.reg (opSx w + 1))
    let rs := (c.lanes (opVa w)).mapIdx (fun i x =>
      convertLane dst mode (opSat w) (cvtDraw c t mode (first + i) ord) q (decodePlain src q x.toNat))
    .ok (vectorResult e (opVd w) (c.vPoisoned (opVa w)) t.id (first + ·) 1 rs c)
  | _, _, .error f => .fault f
  | _, _, _ => .wait

/-- A Master48 pair's exact value in lane `i` (03 R79, R80). -/
def Core.m48Lane (c : Core) (r i : Nat) : FVal := m48Val (c.lane r i) (c.lane (r + 1) i)

/-- vx.m48cvt (R158). -/
def vxM48cvt (v : Env) (e : QEntry) (c : Core) : CRes :=
  let w := e.word
  match cvtFormat (opFmt w), keyBlock v e true 64 with
  | some dst, .ok (t, first, mode, ord) =>
    let q := ScalePair.ofReg (e.reg (opSx w + 1))
    let rs := (List.range 64).map (fun i =>
      convertLane dst mode (opSat w) (cvtDraw c t mode (first + i) ord) q (c.m48Lane (opVa w) i, 0))
    .ok (vectorResult e (opVd w) (c.vPoisoned (opVa w) || c.vPoisoned (opVa w + 1)) t.id (first + ·) 2 rs c)
  | _, .error f => .fault f
  | _, _ => .wait

/-- A Master48 result written to the pair v(d):v(d + 1) (R158). -/
def m48Result (e : QEntry) (poisoned : Bool) (rs : List ((W32 × W32) × Ev)) (c : Core) : CRes :=
  let vd := opVd e.word
  let c := (c.setLanes vd (rs.map (·.1.1)) poisoned).setLanes (vd + 1) (rs.map (·.1.2)) poisoned
  let evs := rs.mapIdx (fun i r => ElemEv.mk i noBlock r.2)
  let c := if poisoned then c else { c with fv := c.fv.record e.idx noTensor evs }
  .ok (c.addBeats engVector 2)

def vxM48add (e : QEntry) (c : Core) : CRes :=
  let w := e.word
  let p := c.vPoisoned (opVa w) || c.vPoisoned (opVa w + 1) || c.vPoisoned (opVb w)
  m48Result e p ((List.range 64).map (fun i =>
    m48Round (opMode w) (opSat w) (FVal.add (c.m48Lane (opVa w) i) (f32 (c.lane (opVb w) i))))) c

def vxM48fma (e : QEntry) (c : Core) : CRes :=
  let w := e.word
  let p := c.vPoisoned (opVa w) || c.vPoisoned (opVa w + 1) || c.vPoisoned (opVb w) || c.vPoisoned (opVc w)
  m48Result e p ((List.range 64).map (fun i =>
    m48Round (opMode w) (opSat w) (FVal.fma (f32 (c.lane (opVb w) i)) (f32 (c.lane (opVc w) i)) (c.m48Lane (opVa w) i)))) c

/-! ## Squares -/

/-- Register and lane of element `i` (row-major) of a square in v(d) to v(d + 15) (R139). -/
def squareLane (c : Core) (d i : Nat) : W32 := c.lane (d + i / 64) (i % 64)

/-- The MX format of a code, with whether it is square-scaled. -/
def mxFormat (code : Nat) : Option (Elem × Bool) :=
  match Format.ofCode code with
  | some (.mx el sq) => some (el, sq)
  | _ => none

/-- Split a list into pieces of `n`; the fuel is the number of pieces. -/
def pieces {α : Type} (n : Nat) : Nat → List α → List (List α)
  | 0, _ => []
  | k + 1, l => l.take n :: pieces n k (l.drop n)

/-- Encode 1,024 values of a square, row-major, as one group or as 32 (03 R86, R89): scale bytes, codes, events by element. -/
def encodeSquare (el : Elem) (square : Bool) (mode : Rounding) (draw : Nat → Nat) (elem : Nat → Nat) (xs : List FVal) :
    List Byte × List Nat × List ElemEv :=
  let n := if square then 1024 else 32
  let outs := (pieces n (1024 / n) xs).mapIdx (fun g grp => (g, mxEncode el mode (fun i => draw (g * n + i)) grp))
  (outs.map (fun o => BitVec.ofNat 8 o.2.scale), outs.flatMap (fun o => o.2.codes),
    outs.map (fun o => ElemEv.mk (elem (o.1 * n + o.2.bad.getD 0)) noBlock o.2.ev))

/-- vx.cvtmx: sixteen registers as one MX square at s(x) and s(x + 1) (R139, R158). -/
def vxCvtmx (v : Env) (e : QEntry) (c : Core) : CRes :=
  let w := e.word
  let sx := opSx w
  match mxFormat (opFmt w), keyBlock v e true 0 with
  | some (el, square), .ok (t, first, mode, ord) =>
    let rowLen := (e.reg (sx + 4)).toNat
    let elem := fun i => first + i / 32 * rowLen + i % 32
    let g := (e.reg sx).toNat
    let sc := (e.reg (sx + 1)).toNat
    let nsc := if square then 1 else 32
    if mode = .sr ∧ elem 1023 ≥ 2 ^ 64 then .fault 0x0B
    else if g + el.bits * 2 > spGranules ∨ sc + nsc > 64 * spGranules then .fault 0x0A
    else
      let poisoned := (List.range 16).any (fun r => c.vPoisoned (opVd w + r))
      let xs := (List.range 1024).map (fun i => f32 (squareLane c (opVd w) i))
      let (scales, codes, evs) := encodeSquare el square mode (fun i => cvtDraw c t mode (elem i) ord) elem xs
      let c := if e.skips then c
        else (c.spWrite (64 * g) (packCodes el.bits codes) poisoned).spWrite sc scales poisoned
      let c := if poisoned then c else { c with fv := c.fv.record e.idx t.id evs }
      .ok (c.addBeats engVector (if square then 20 else 18))
  | _, .error f => .fault f
  | _, _ => .wait

/-- vx.ldmx: one MX or tensor-scaled square into sixteen registers (R139, R158, 03 R88). -/
def vxLdmx (v : Env) (e : QEntry) (c : Core) : CRes :=
  let w := e.word
  let sx := opSx w
  let g := (e.reg sx).toNat
  let sc := (e.reg (sx + 1)).toNat
  match Format.ofCode (opFmt w), keyBlock v e false 0 with
  | some fm, .ok (t, first, _, _) =>
    match fm with
    | .mx _ _ | .scaled _ =>
      let nsc := if fm.rowScaled then 32 else if fm.squareScaled then 1 else 8
      if g + fm.granules > spGranules ∨ sc + nsc > 64 * spGranules then .fault 0x0A
      else
        let rowLen := (e.reg (sx + 4)).toNat
        let poisoned := c.spPoisoned (64 * g) (64 * fm.granules) || c.spPoisoned sc nsc
        let plane := leNat (c.spRead (64 * g) (64 * fm.granules))
        let scales := c.spRead sc nsc
        let pair : ScalePair := ⟨BitVec.ofNat 32 (leNat (scales.take 4)), BitVec.ofNat 32 (leNat ((scales.drop 4).take 4))⟩
        let value := fun i =>
          let code := unpackCode fm.bits plane i
          match fm with
          | .mx el sq =>
            let s := (scales.getD (if sq then 0 else i / 32) 0).toNat
            if s = 255 then (FVal.nan, 3) else (mxValue el s code, 0)
          | .scaled f => scaledValue f pair code
          | _ => (FVal.nan, 0)
        let rs := (List.range 1024).map (fun i => f32Round (opMode w) (opSat w) (value i))
        let elem := fun i => first + i / 32 * rowLen + i % 32
        let c := (List.range 16).foldl (fun c r =>
          c.setLanes (opVd w + r) (((rs.drop (64 * r)).take 64).map (·.1)) poisoned) c
        let evs := rs.mapIdx (fun i r => ElemEv.mk (elem i) noBlock r.2)
        let c := if poisoned then c else { c with fv := c.fv.record e.idx t.id evs }
        .ok (c.addBeats engVector 16)
    | _ => .wait
  | _, .error f => .fault f
  | none, _ => .wait

/-! ## Reductions and counts -/

/-- A node of the vx.rsum tree: value, lowest lane it covers, events below it (06 R160). -/
structure SumNode where
  val : W32
  low : Nat
  evs : List ElemEv
  deriving DecidableEq, Repr

/-- Two sums into one, rounded once (R158). -/
def SumNode.join (mode : Rounding) (sat : Bool) (a b : SumNode) : SumNode :=
  let r := f32Add mode sat a.val b.val
  ⟨r.1, a.low, a.evs ++ b.evs ++ [⟨a.low, noBlock, r.2⟩]⟩

/-- vx.rsum: the canonical tree over the 64 lanes into lane 0, other lanes +0. -/
def vxRsum (e : QEntry) (c : Core) : CRes :=
  let w := e.word
  let poisoned := c.vPoisoned (opVa w)
  let leaves := (c.lanes (opVa w)).mapIdx (fun i x => SumNode.mk x i [])
  let top := canonicalTree (SumNode.mk 0 0 []) (fun _ a b => SumNode.join (opMode w) (opSat w) a b) leaves
  let c := c.setLanes (opVd w) (top.val :: List.replicate 63 0) poisoned
  let c := if poisoned then c else { c with fv := c.fv.record e.idx noTensor top.evs }
  .ok (c.addBeats engVector 6)

/-- The maximum of a list, NaN if any is NaN, -0 below +0 (R158, R171). -/
def maxOf (l : List W32) : W32 :=
  match l with
  | [] => 0
  | a :: r => r.foldl f32Max (if isNan32 a then 0x7FC00000 else a)

/-- vx.rmax: the maximum of the 64 lanes into lane 0, other lanes +0. -/
def vxRmax (e : QEntry) (c : Core) : CRes :=
  let w := e.word
  .ok ((c.setLanes (opVd w) (maxOf (c.lanes (opVa w)) :: List.replicate 63 0) (c.vPoisoned (opVa w))).addBeats engVector 6)

/-- vx.nfc: the gate count grows by the number of non-finite lanes and saturates; a poisoned register adds nothing (R139). -/
def vxNfc (e : QEntry) (c : Core) : CRes :=
  let w := e.word
  let n := ((c.lanes (opVa w)).filter (fun x => !(f32 x).isFinite)).length
  let c := if c.vPoisoned (opVa w) then c else { c with gateCount := satAdd 32 c.gateCount n }
  .ok (c.addBeats engVector 1)

/-! ## Packed BF16 -/

def packedAdd (mode : Rounding) (sat : Bool) (a b : W32) : FRes :=
  packed (fun x y _ => bf16Round mode sat (FVal.add (bf16 x) (bf16 y))) a b 0
def packedMul (mode : Rounding) (sat : Bool) (a b : W32) : FRes :=
  packed (fun x y _ => bf16Round mode sat (FVal.mul (bf16 x) (bf16 y))) a b 0
def packedFma (mode : Rounding) (sat : Bool) (a b c : W32) : FRes :=
  packed (fun x y z => bf16Round mode sat (FVal.fma (bf16 x) (bf16 y) (bf16 z))) a b c

/-! ## gr.draw -/

/-- gr.draw (05 R140, 06 R179, R181). -/
def grDraw (v : Env) (e : QEntry) (c : Core) : CRes :=
  let w := e.word
  let tid := e.reg (fld w 26 5)
  let elem := (e.reg (fld w 21 5)).toNat
  let use := (e.reg (fld w 16 5)).toNat
  let width := fld w 14 2
  if (v.tensor (tid.truncate 32)).isNone ∨ use ≥ 2 ^ 30 ∨ elem + 63 ≥ 2 ^ 64 then .fault 0x0B
  else
    let outs := (List.range 64).map (fun i => grainAt c.key (tid.truncate 32) (BitVec.ofNat 64 (elem + i)) (useCount 0 use))
    let word := fun (k : Nat) => outs.map (fun (o : BitVec 128) => ((o >>> (32 * k)).truncate 32 : W32))
    match width with
    | 0 => .ok ((c.setLanes (opVd w) ((word 0).map (· &&& 0xFFFF)) false).addBeats engVector 1)
    | 1 => .ok ((c.setLanes (opVd w) (word 0) false).addBeats engVector 1)
    | 2 => .ok (((List.range 4).foldl (fun c k => c.setLanes (opVd w + k) (word k) false) c).addBeats engVector 4)
    | _ => .wait

end Sys2Proof.Machine
end

