-- ==== Sys2Proof/Machine/RowEngine.lean ====
section
/-! DEFINITION. What each instruction of the row engine computes on its core (05 R141, 06 R168 to R177). -/

namespace Sys2Proof.Machine

/-- An event at a column of a row. -/
abbrev ColEv := Nat × Ev

/-- A value with the events that produced it. -/
abbrev Traced := W32 × List ColEv

/-- Attach a column to the events of one step. -/
def atCol (col : Nat) (r : FRes) : Traced := (r.1, [(col, r.2)])

def rAdd (a b : W32) (col : Nat) : Traced := atCol col (f32Add .rne false a b)
def rSub (a b : W32) (col : Nat) : Traced := atCol col (f32Sub .rne false a b)
def rMul (a b : W32) (col : Nat) : Traced := atCol col (f32Mul .rne false a b)
def rFma (a b c : W32) (col : Nat) : Traced := atCol col (f32Fma .rne false a b c)

/-- A statistics record (R170). -/
structure RowRec where
  a : W32
  b : W32
  d1 : W32
  d2 : W32
  n : W32
  flag : Bool
  deriving DecidableEq, Repr

def RowRec.ofBytes (l : List Byte) : RowRec :=
  let w := fun i => (BitVec.ofNat 32 (leNat ((l.drop (4 * i)).take 4)) : W32)
  ⟨w 0, w 1, w 2, w 3, w 4, (l.getD 20 0).getLsbD 0⟩

def RowRec.bytes (r : RowRec) : List Byte :=
  leBytes 4 r.a.toNat ++ leBytes 4 r.b.toNat ++ leBytes 4 r.d1.toNat ++ leBytes 4 r.d2.toNat ++ leBytes 4 r.n.toNat
    ++ [if r.flag then 1 else 0] ++ List.replicate 11 0

/-! ## Sums and maxima (R171) -/

/-- A node of a sum tree: value, lowest column it covers, events. -/
def sumJoin (a b : SumNode) : SumNode := SumNode.join .rne false a b

/-- One chunk of 64 lanes, the missing ones +0. -/
def chunkSum (v : List W32) (col : Nat) : SumNode :=
  canonicalTree ⟨0, col, []⟩ (fun _ a b => sumJoin a b) ((List.range 64).map (fun l => ⟨v.getD l 0, col + l, []⟩))

/-- The chunks of one segment added in order to an accumulator that starts at +0. -/
def segmentSum (v : List W32) (col : Nat) : SumNode :=
  (List.range (ceilDiv v.length 64)).foldl (fun acc q => sumJoin acc (chunkSum ((v.drop (64 * q)).take 64) (col + 64 * q))) ⟨0, col, []⟩

/-- rowsum of R171 over values whose first column is `col`. -/
def rowsum (v : List W32) (col : Nat) : Traced :=
  let parts := (List.range (ceilDiv v.length 4096)).map (fun s => segmentSum ((v.drop (4096 * s)).take 4096) (col + 4096 * s))
  let r := canonicalTree ⟨0, col, []⟩ (fun _ a b => sumJoin a b) parts
  (r.val, r.evs.map (fun e => (e.elem, e.ev)))

/-! ## Segment records and their merge (R172, R173) -/

/-- The record of one segment (R172). -/
def statSegment (mode : Nat) (x : List W32) (coef : W32) (col : Nat) : RowRec × List ColEv :=
  let n := BitVec.ofNat 32 x.length
  if mode = 0 then
    let m := maxOf x
    let es := x.mapIdx (fun i xi =>
      let d := rSub xi m (col + i)
      let z := rMul d.1 coef (col + i)
      let e := atCol (col + i) (exp2Ref z.1)
      (e.1, d.2 ++ z.2 ++ e.2))
    let s := rowsum (es.map (·.1)) col
    (⟨m, s.1, 0, 0, n, false⟩, es.flatMap (·.2) ++ s.2)
  else
    let a := if mode = 1 then rowsum x col else (0, [])
    let sq := x.mapIdx (fun i xi => rMul xi xi (col + i))
    let q := rowsum (sq.map (·.1)) col
    (⟨a.1, q.1, 0, 0, n, false⟩, a.2 ++ sq.flatMap (·.2) ++ q.2)

/-- Merge of record a (earlier) with record b (R173). -/
def mergeRec (mode : Nat) (coef : W32) (a b : RowRec) (col : Nat) : RowRec × List ColEv :=
  let d1 := rAdd a.d1 b.d1 col
  let d2 := rAdd a.d2 b.d2 col
  let flag := a.flag && b.flag
  if mode ≥ 3 then ({ a with d1 := d1.1, d2 := d2.1, flag := flag }, d1.2 ++ d2.2)
  else if mode = 0 then
    let m := maxOf [a.a, b.a]
    let da := rSub a.a m col
    let za := rMul da.1 coef col
    let fa := atCol col (exp2Ref za.1)
    let db := rSub b.a m col
    let zb := rMul db.1 coef col
    let fb := atCol col (exp2Ref zb.1)
    let t := rMul b.b fb.1 col
    let s := rFma a.b fa.1 t.1 col
    (⟨m, s.1, d1.1, d2.1, a.n + b.n, flag⟩, da.2 ++ za.2 ++ fa.2 ++ db.2 ++ zb.2 ++ fb.2 ++ t.2 ++ s.2 ++ d1.2 ++ d2.2)
  else
    let x := rAdd a.a b.a col
    let q := rAdd a.b b.b col
    (⟨x.1, q.1, d1.1, d2.1, a.n + b.n, flag⟩, x.2 ++ q.2 ++ d1.2 ++ d2.2)

/-- A node of the segment tree: record, lowest column, events. -/
structure StatNode where
  r : RowRec
  low : Nat
  evs : List ColEv
  deriving DecidableEq, Repr

/-- The record of a row in modes 0x0 to 0x2 (R172). -/
def statRow (mode : Nat) (x : List W32) (coef : W32) : RowRec × List ColEv :=
  let segs := (List.range (ceilDiv x.length 4096)).map (fun s =>
    let r := statSegment mode ((x.drop (4096 * s)).take 4096) coef (4096 * s)
    StatNode.mk r.1 (4096 * s) r.2)
  let top := canonicalTree (StatNode.mk ⟨0, 0, 0, 0, 0, false⟩ 0 []) (fun _ p q =>
    let r := mergeRec mode coef p.r q.r p.low
    StatNode.mk r.1 p.low (p.evs ++ q.evs ++ r.2)) segs
  (top.r, top.evs)

/-! ## Apply and backward (R174) -/

/-- Quantities derived once per row. -/
structure Derived where
  invN : W32
  r : W32
  mu : W32
  evs : List ColEv
  deriving DecidableEq, Repr

/-- invN, then R or mu, var and r (R174). Mode 0x4 takes the layer-normalisation steps (R172). -/
def derive' (mode : Nat) (k : RowRec) (coef : W32) : Derived :=
  let nv := Fmts.fp32.convert .rne false 0 (.fin false k.n.toNat 0)
  let invN := atCol 0 (rcpRef (BitVec.ofNat 32 nv.1))
  let evs : List ColEv := (0, nv.2) :: invN.2
  if mode = 0 ∨ mode = 3 then
    let r := atCol 0 (rcpRef k.b)
    ⟨invN.1, r.1, 0, evs ++ r.2⟩
  else
    let mu := if mode = 2 then (0, []) else rMul k.a invN.1 0
    let ms := rMul k.b invN.1 0
    let var := if mode = 2 then (ms.1, []) else rFma (f32Neg mu.1) mu.1 ms.1 0
    let var0 := if !isNan32 var.1 && var.1.getLsbD 31 then 0 else var.1
    let t := rAdd var0 coef 0
    let r := atCol 0 (rsqRef t.1)
    ⟨invN.1, r.1, mu.1, evs ++ mu.2 ++ ms.2 ++ var.2 ++ t.2 ++ r.2⟩

/-- The value y or x-hat of one element before the gain (R174). -/
def applyCore (mode : Nat) (k : RowRec) (d : Derived) (coef x : W32) (col : Nat) : Traced :=
  if mode = 0 ∨ mode = 3 then
    let s := rSub x k.a col
    let z := rMul s.1 coef col
    let e := atCol col (exp2Ref z.1)
    let y := rMul e.1 d.r col
    (y.1, s.2 ++ z.2 ++ e.2 ++ y.2)
  else
    let s := rSub x d.mu col
    let xh := rMul s.1 d.r col
    (xh.1, s.2 ++ xh.2)

/-- row.apply of one element. -/
def applyElem (mode : Nat) (k : RowRec) (d : Derived) (coef x : W32) (g : Option W32) (col : Nat) : Traced :=
  let y := applyCore mode k d coef x col
  match mode, g with
  | 0, _ => y
  | _, none => y
  | _, some gi =>
    let z := rMul y.1 gi col
    (z.1, y.2 ++ z.2)

/-- g * dy, or dy if there is no gain. -/
def gainDy (g : Option W32) (dy : W32) (col : Nat) : Traced :=
  match g with
  | none => (dy, [])
  | some gi => rMul gi dy col

/-- The record as row.bwd uses it: with flag [0] clear, d1 and d2 are +0 (R174). -/
def RowRec.checked (k : RowRec) : RowRec := if k.flag then k else { k with d1 := 0, d2 := 0 }

/-- row.bwd of one element; the recomputed forward steps set their flags too. -/
def bwdElem (mode : Nat) (k : RowRec) (d : Derived) (coef x dy : W32) (g : Option W32) (col : Nat) : Traced :=
  let y := applyCore mode k d coef x col
  let fwd := (applyElem mode k d coef x g col).2
  if mode = 0 then
    let t := rSub dy k.d1 col
    let r := rMul y.1 t.1 col
    (r.1, fwd ++ t.2 ++ r.2)
  else
    let gd := gainDy g dy col
    let t := if mode = 1 then rFma y.1 k.d2 k.d1 col else rMul y.1 k.d2 col
    let u := rMul t.1 d.invN col
    let s := rSub gd.1 u.1 col
    let r := rMul s.1 d.r col
    (r.1, fwd ++ gd.2 ++ t.2 ++ u.2 ++ s.2 ++ r.2)

/-- The dot modes of row.stat (R172): record k with d1, d2 and flag [0] replaced. -/
def dotRow (mode : Nat) (k : RowRec) (coef : W32) (x dy : List W32) (g : Option (List W32)) : RowRec × List ColEv :=
  let d := derive' mode k coef
  let ys := x.mapIdx (fun i xi => applyCore mode k d coef xi i)
  let pre := d.evs ++ ys.flatMap (·.2)
  if mode = 3 then
    let yd := (List.zip (ys.map (·.1)) dy).mapIdx (fun i p => rMul p.1 p.2 i)
    let s := rowsum (yd.map (·.1)) 0
    ({ k with d1 := s.1, d2 := 0, flag := true }, pre ++ yd.flatMap (·.2) ++ s.2)
  else
    let gd := dy.mapIdx (fun i q => gainDy (g.map (fun l => l.getD i 0)) q i)
    let s1 := rowsum (gd.map (·.1)) 0
    let gx := (List.zip (gd.map (·.1)) (ys.map (·.1))).mapIdx (fun i p => rMul p.1 p.2 i)
    let s2 := rowsum (gx.map (·.1)) 0
    ({ k with d1 := s1.1, d2 := s2.1, flag := true }, pre ++ gd.flatMap (·.2) ++ s1.2 ++ gx.flatMap (·.2) ++ s2.2)

/-! ## Regions (R168) -/

/-- The operand formats of the row engine. -/
def rowFormat (code : Nat) : Option Format :=
  match Format.ofCode code with
  | some .fp32 => some .fp32
  | some .bf16 => some .bf16
  | some .fp16 => some .fp16
  | _ => none

/-- A region in the blocked layout. -/
structure Region where
  granule : Nat
  fm : Format
  n : Nat
  deriving DecidableEq, Repr

def Region.eb (r : Region) : Nat := r.fm.bits / 8
/-- Byte address of square column `j` of row `row`. -/
def Region.addr (r : Region) (row j : Nat) : Nat :=
  64 * r.granule + (row / 32 * ceilDiv r.n 32 + j) * (1024 * r.eb) + row % 32 * (32 * r.eb)
/-- One past the last byte of the region's stated rows. -/
def Region.last (r : Region) (rows : Nat) : Nat := r.addr (rows - 1) (ceilDiv r.n 32 - 1) + 32 * r.eb

/-- Row `row` of a region as FP32 codes (widening is exact, 03 R85). -/
def Core.rowValues (c : Core) (r : Region) (row : Nat) : List W32 :=
  ((List.range (ceilDiv r.n 32)).flatMap (fun j =>
    let plane := leNat (c.spRead (r.addr row j) (32 * r.eb))
    (List.range 32).map (fun i =>
      BitVec.ofNat 32 (Fmts.fp32.convert .rne false 0 (decodePlain r.fm ⟨0, 0⟩ (unpackCode r.fm.bits plane i)).1).1))).take r.n

/-- Does a poisoned granule hold an element of the row (R176)? -/
def Core.rowPoisoned (c : Core) (r : Region) (row : Nat) : Bool :=
  (List.range (ceilDiv r.n 32)).any (fun j => c.spPoisoned (r.addr row j) (32 * r.eb))

/-- Write one FP32 output row, padding positions +0 (R168). -/
def Core.writeRow (c : Core) (r : Region) (row : Nat) (vals : List W32) (p : Bool) : Core :=
  (List.range (ceilDiv r.n 32)).foldl (fun c j =>
    c.spWrite (r.addr row j) (bytes32 ((List.range 32).map (fun i => (vals.drop (32 * j)).getD i 0))) p) c

/-- Write a record array: pairs that fill a granule are written whole (R168, R176, 07 R193). -/
def writeRecords (sp : SMap 8) (pz : SMap 1) (a : Nat) : List (List Byte × Bool) → SMap 8 × SMap 1
  | [] => (sp, pz)
  | [x] => (ssetAll sp a x.1, poisonAfter pz a 32 x.2)
  | x :: y :: r =>
    if a % 64 = 0 then
      writeRecords (ssetAll sp a (x.1 ++ y.1)) (poisonAfter pz a 64 (x.2 || y.2)) (a + 64) r
    else
      writeRecords (ssetAll sp a x.1) (poisonAfter pz a 32 x.2) (a + 32) (y :: r)

/-- The record at a byte address of a memory, with its granule's poison. -/
def recordAt (m : SMap 8) (pz : SMap 1) (a : Nat) : RowRec × Bool := (RowRec.ofBytes (sgetAll m a 32), sget pz (a / 64) != 0)

/-! ## Operand registers (R168) -/

structure RowOps where
  secondary : Bool
  secFormat : Nat
  secAddr : Nat
  priFormat : Nat
  priAddr : Nat
  gainFormat : Nat
  gain : Bool
  gainAddr : Nat
  out : Nat
  rows : Nat
  n : Nat
  coef : W32
  side : Nat
  mode : Nat
  deriving DecidableEq, Repr

def RowOps.of (e : QEntry) : RowOps :=
  let w := e.word
  let src := e.reg (opR0 w)
  let dst := e.reg (opR1 w)
  let n := e.reg (opR2 w)
  let sd := e.reg (fld w 13 5)
  { secondary := src.getLsbD 42, secFormat := fld src 37 5, secAddr := fld src 21 16, priFormat := fld src 16 5, priAddr := fld src 0 16,
    gainFormat := fld dst 33 5, gain := dst.getLsbD 32, gainAddr := fld dst 16 16, out := fld dst 0 16,
    rows := fld n 32 16, n := fld n 0 32, coef := BitVec.ofNat 32 (fld sd 32 32), side := fld sd 0 18, mode := fld w 18 4 }

/-- Size of the side memory in bytes (06 R175). -/
def sideBytes : Nat := 262144

/-- Is a side range misaligned or beyond the side memory (R168)? -/
def badSide (o : RowOps) : Bool := decide (o.side % 32 ≠ 0 ∨ o.side + 32 * o.rows > sideBytes)

/-- Active beats of the row ops that stream elements, and of row.merge (05 R141). -/
def rowBeats (v : Env) (o : RowOps) : Nat := o.rows * ceilDiv o.n 64 + (if v.steppingB0 then 35 else 40)

/-- Record events with their element index and K block index (R176). -/
def rowEvents (o : RowOps) (stat : Bool) (row : Nat) (evs : List ColEv) : List ElemEv :=
  evs.map (fun ce => ElemEv.mk (row * o.n + ce.1) (if stat then ce.1 / 32 else noBlock) ce.2)

/-- Flags of a row engine instruction. -/
def Core.rowFlags (c : Core) (e : QEntry) (evs : List ElemEv) : Core := { c with fr := c.fr.record e.idx noTensor evs }

/-- row.stat (R172). -/
def rowStat (v : Env) (e : QEntry) (c : Core) : CRes :=
  let o := RowOps.of e
  let dot := decide (3 ≤ o.mode)
  let useGain := o.mode == 4 && o.gain
  let fs := if dot then rowFormat o.secFormat else some .fp32
  let fg := if useGain then rowFormat o.gainFormat else some .fp32
  match rowFormat o.priFormat, fs, fg with
  | some fx, some fdy, some fgn =>
    let x : Region := ⟨o.priAddr, fx, o.n⟩
    let dy : Region := ⟨o.secAddr, fdy, o.n⟩
    let g : Region := ⟨o.gainAddr, fgn, o.n⟩
    let top := 64 * spGranules
    if dot ∧ !o.secondary then .fault 0x25
    else if o.rows = 0 ∨ o.n = 0 ∨ x.last o.rows > top ∨ (dot ∧ (dy.last o.rows > top ∨ badSide o)) ∨ (useGain ∧ g.last 1 > top)
        ∨ 64 * o.out + 32 * o.rows > top then .fault 0x0A
    else
      let one := fun row =>
        let xs := c.rowValues x row
        if dot then
          let (k, pk) := recordAt c.side c.sidePoison (o.side + 32 * row)
          let r := dotRow o.mode k o.coef xs (c.rowValues dy row) (if useGain then some (c.rowValues g 0) else none)
          (r.1, c.rowPoisoned x row || c.rowPoisoned dy row || pk || (useGain && c.rowPoisoned g 0), r.2)
        else
          let r := statRow o.mode xs o.coef
          (r.1, c.rowPoisoned x row, r.2)
      let res := (List.range o.rows).map one
      let (sp, pz) := writeRecords c.sp c.spPoison (64 * o.out) (res.map (fun r => (r.1.bytes, r.2.1)))
      let evs := (res.mapIdx (fun row r => if r.2.1 then [] else rowEvents o true row r.2.2)).flatten
      .ok (({ c with sp := sp, spPoison := pz }.rowFlags e evs).addBeats engRow (rowBeats v o))
  | _, _, _ => .fault 0x25

/-- row.merge (R173). -/
def rowMerge (v : Env) (e : QEntry) (c : Core) : CRes :=
  let o := RowOps.of e
  let top := 64 * spGranules
  if o.rows = 0 ∨ 64 * o.priAddr + 32 * o.rows > top ∨ 64 * o.secAddr + 32 * o.rows > top ∨ 64 * o.out + 32 * o.rows > top then .fault 0x0A
  else
    let res := (List.range o.rows).map (fun row =>
      let a := recordAt c.sp c.spPoison (64 * o.priAddr + 32 * row)
      let b := recordAt c.sp c.spPoison (64 * o.secAddr + 32 * row)
      let r := mergeRec o.mode o.coef a.1 b.1 0
      (r.1, a.2 || b.2, r.2))
    let (sp, pz) := writeRecords c.sp c.spPoison (64 * o.out) (res.map (fun r => (r.1.bytes, r.2.1)))
    let evs := (res.mapIdx (fun row r => if r.2.1 then [] else r.2.2.map (fun ce => ElemEv.mk row noBlock ce.2))).flatten
    .ok (({ c with sp := sp, spPoison := pz }.rowFlags e evs).addBeats engRow (o.rows + (if v.steppingB0 then 35 else 40)))

/-- row.apply and row.bwd (R174): one FP32 row a record. -/
def rowElements (bwd : Bool) (v : Env) (e : QEntry) (c : Core) : CRes :=
  let o := RowOps.of e
  let useGain := o.mode != 0 && o.gain
  let fs := if bwd then rowFormat o.secFormat else some .fp32
  let fg := if useGain then rowFormat o.gainFormat else some .fp32
  match rowFormat o.priFormat, fs, fg with
  | some fx, some fdy, some fgn =>
    let x : Region := ⟨o.priAddr, fx, o.n⟩
    let dy : Region := ⟨o.secAddr, fdy, o.n⟩
    let g : Region := ⟨o.gainAddr, fgn, o.n⟩
    let out : Region := ⟨o.out, .fp32, o.n⟩
    let top := 64 * spGranules
    if bwd ∧ !o.secondary then .fault 0x25
    else if o.rows = 0 ∨ o.n = 0 ∨ x.last o.rows > top ∨ (bwd ∧ dy.last o.rows > top) ∨ (useGain ∧ g.last 1 > top)
        ∨ out.last o.rows > top ∨ badSide o then .fault 0x0A
    else
      let gs : Option (List W32) := if useGain then some (c.rowValues g 0) else none
      let one : Nat → List W32 × Bool × List ColEv := fun row =>
        let (k, pk) := recordAt c.side c.sidePoison (o.side + 32 * row)
        let d := derive' o.mode k o.coef
        let kd := k.checked
        let xs := c.rowValues x row
        let dys := if bwd then c.rowValues dy row else []
        let rs : List Traced := xs.mapIdx (fun i xi =>
          let gi := gs.map (fun (l : List W32) => l.getD i 0)
          if bwd then bwdElem o.mode kd d o.coef xi (dys.getD i 0) gi i else applyElem o.mode k d o.coef xi gi i)
        (rs.map (·.1), pk || c.rowPoisoned x row || (bwd && c.rowPoisoned dy row) || (useGain && c.rowPoisoned g 0),
          d.evs ++ rs.flatMap (·.2))
      let res := (List.range o.rows).map one
      let c' := (res.zipIdx).foldl (fun c' rr => c'.writeRow out rr.2 rr.1.1 rr.1.2.1) c
      let evs := (res.mapIdx (fun row r => if r.2.1 then [] else rowEvents o false row r.2.2)).flatten
      .ok ((c'.rowFlags e evs).addBeats engRow (rowBeats v o))
  | _, _, _ => .fault 0x25

/-- Records of a byte range with the poison of their granules. -/
def recordsAt (m : SMap 8) (pz : SMap 1) (a rows : Nat) : List (List Byte × Bool) :=
  (List.range rows).map (fun i => (sgetAll m (a + 32 * i) 32, sget pz ((a + 32 * i) / 64) != 0))

/-- row.keep (R175). -/
def rowKeep (e : QEntry) (c : Core) : CRes :=
  let o := RowOps.of e
  if o.rows = 0 ∨ badSide o ∨ 64 * o.priAddr + 32 * o.rows > 64 * spGranules then .fault 0x0A
  else
    let (m, pz) := writeRecords c.side c.sidePoison o.side (recordsAt c.sp c.spPoison (64 * o.priAddr) o.rows)
    .ok ({ c with side := m, sidePoison := pz }.addBeats engRow (ceilDiv (32 * o.rows) 256 + 8))

/-- row.fetch (R175). -/
def rowFetch (e : QEntry) (c : Core) : CRes :=
  let o := RowOps.of e
  if o.rows = 0 ∨ badSide o ∨ 64 * o.out + 32 * o.rows > 64 * spGranules then .fault 0x0A
  else
    let (m, pz) := writeRecords c.sp c.spPoison (64 * o.out) (recordsAt c.side c.sidePoison o.side o.rows)
    .ok ({ c with sp := m, spPoison := pz }.addBeats engRow (ceilDiv (32 * o.rows) 256 + 8))

end Sys2Proof.Machine
end

