-- ==== Sys2Proof/Machine/Footprint.lean ====
section
/-! DEFINITION. The scratchpad bytes that an instruction reads, and those it writes, as address and length (07 R193, 05 R144). A write of part of a
granule reads the rest of it. -/

namespace Sys2Proof.Machine

/-- Byte ranges: address and length. -/
abbrev Ranges := List (Nat × Nat)

/-- Does a range touch a granule? -/
def touches (g : Nat) (r : Nat × Nat) : Bool := r.2 != 0 && decide (r.1 < 64 * g + 64 ∧ 64 * g < r.1 + r.2)

def Ranges.has (rs : Ranges) (g : Nat) : Bool := rs.any (touches g)

/-! ## Matrix array -/

/-- Elements and scales of an operand's blocks from `a` to `b`. -/
def View.reads (w : View) (side a b : Nat) : Ranges :=
  match Format.ofCode w.code with
  | none => []
  | some fm => (List.range (b - a)).flatMap (fun i => (List.range (side / 32)).flatMap (fun q =>
      let (g, s) := w.square fm (a + i) q
      [(64 * g, 64 * fm.granules), (s, fm.scaleBytes)]))

/-- Is the format of a view one that has a scale pair? -/
def View.paired (w : View) : Bool := match Format.ofCode w.code with | some (.scaled _) => true | _ => false

/-- mx.mm: both operands, and what the opening reads (04 R106, R113, R116). -/
def mmReads (stop : Option Nat) (e : QEntry) (c : Core) : Ranges :=
  let w := e.word
  let w1 := e.reg (opR2 w + 1)
  let shape := fld w1 11 2
  let a := c.mmFrom
  let b := c.mmUpto stop (fld (e.reg (opR3 w)) 0 32)
  let va := View.ofReg (e.reg (opR0 w))
  let vb := View.ofReg (e.reg (opR1 w))
  let opening := w.getLsbD 11 && c.atBlock.isNone
  let (p1, p2, _) := (Tile.ofDescriptor (e.reg (opR2 w)) w1 (e.reg (opR2 w + 2))).planes
  va.reads (shapeRows shape) a b ++ vb.reads (shapeCols shape) a b
    ++ (if opening && va.paired then [(va.scale, 8)] else []) ++ (if opening && vb.paired then [(vb.scale, 8)] else [])
    ++ (if opening && fld w1 13 2 == 1 then [(64 * (e.reg (opR4 w)).toNat, p1 + p2)] else [])

/-- The image of the tile that a spill or merge names. -/
def imageRange (e : QEntry) (c : Core) : Ranges :=
  match c.tileNamed (e.reg (opR2 e.word + 1)) with
  | .error _ => []
  | .ok t => let (p1, p2, p3) := t.planes; [(64 * (e.reg (opR0 e.word)).toNat, p1 + p2 + p3)]

/-- Places of the squares of a drain: elements, scales, and the scale-pair granule (05 R137, 04 R114). -/
def drainRanges (e : QEntry) (c : Core) : Ranges × Ranges × Ranges :=
  let d := View.ofReg (e.reg (opR0 e.word))
  match c.tileNamed (e.reg (opR2 e.word + 1)), drainFormat d.code with
  | .ok t, some fm =>
    let ns := (List.range (t.m / 32)).flatMap (fun qi => (List.range (t.n / 32)).map (fun qj => qj * d.kStride + qi * d.fStride))
    (ns.map (fun n => (64 * (d.elem + n * fm.granules), 64 * fm.granules)), ns.map (fun n => (d.scale + n * fm.scaleBytes, fm.scaleBytes)),
      if d.paired then [(d.scale, 64)] else [])
  | _, _ => ([], [], [])

/-! ## Vector unit -/

/-- The square of a vx.ldmx or vx.cvtmx: elements and scales. -/
def squareRanges (e : QEntry) : Ranges × Ranges :=
  let sx := opSx e.word
  match Format.ofCode (opFmt e.word) with
  | none => ([], [])
  | some fm => ([(64 * (e.reg sx).toNat, 64 * fm.granules)], [((e.reg (sx + 1)).toNat, if fm.scaleBytes = 0 then 8 else fm.scaleBytes)])

/-! ## Row engine -/

/-- The rows of a region. -/
def Region.ranges (r : Region) (rows : Nat) : Ranges :=
  (List.range rows).flatMap (fun row => (List.range (ceilDiv r.n 32)).map (fun j => (r.addr row j, 32 * r.eb)))

/-- A region of an operand, none for a format that the row engine does not take. -/
def operandRows (code granule n rows : Nat) : Ranges := match rowFormat code with | none => [] | some f => (Region.mk granule f n).ranges rows

/-- Row-engine instructions by op: what they read and write (R168, R172 to R175). -/
def rowRanges (op : Nat) (e : QEntry) : Ranges × Ranges :=
  let o := RowOps.of e
  let pri := operandRows o.priFormat o.priAddr o.n o.rows
  let sec := if o.secondary then operandRows o.secFormat o.secAddr o.n o.rows else []
  let gain := if o.gain then operandRows o.gainFormat o.gainAddr o.n 1 else []
  let records := fun (g : Nat) => [(64 * g, 32 * o.rows)]
  let edge := fun (g : Nat) => if o.rows % 2 = 1 then [(64 * g + 32 * (o.rows - 1), 32)] else []
  let rows := fun (n : Nat) => (Region.mk o.out .fp32 n).ranges o.rows
  match op with
  | 0 => (pri ++ (if 3 ≤ o.mode then sec else []) ++ (if o.mode = 4 then gain else []) ++ edge o.out, records o.out)
  | 1 => (records o.priAddr ++ records o.secAddr ++ edge o.out, records o.out)
  | 2 => (pri ++ (if o.mode = 0 then [] else gain), rows o.n)
  | 3 => (pri ++ sec ++ (if o.mode = 0 then [] else gain), rows o.n)
  | 4 => (records o.priAddr, [])
  | 5 => (edge o.out, records o.out)
  | _ => ([], [])

/-! ## All engines -/

/-- The granules that a send reads (R189). -/
def sendReads (e : QEntry) : Ranges := let o := SendOps.of e; [(64 * o.granule, 64 * o.len)]

/-- What an instruction of an engine queue reads of the scratchpad. -/
def instrReads (stop : Option Nat) (e : QEntry) (c : Core) : Ranges :=
  match opClass e.word, opCode e.word with
  | 1, 0 => mmReads stop e c
  | 1, 1 => imageRange e c
  | 1, 3 => (drainRanges e c).2.1
  | 2, 0 => [(64 * (e.reg (opSx e.word)).toNat, 256)]
  | 2, 0x0A => (squareRanges e).2
  | 2, 0x0B => let (a, b) := squareRanges e; a ++ b
  | 3, op => (rowRanges op e).1
  | 4, 0 => [(64 * (e.reg (fld e.word 28 5)).toNat, 64)]
  | 5, _ => sendReads e
  | _, _ => []

/-- What an instruction of an engine queue writes in the scratchpad; a skipped one writes nothing (05 R146). -/
def instrWrites (e : QEntry) (c : Core) : Ranges :=
  if e.skips then []
  else match opClass e.word, opCode e.word with
    | 1, 2 => imageRange e c
    | 1, 3 => let (a, b, p) := drainRanges e c; a ++ b ++ p
    | 1, 4 => if e.word.getLsbD 26 then [(64 * (e.reg (opR0 e.word)).toNat, 64)] else []
    | 2, 1 => [(64 * (e.reg (opSx e.word)).toNat, 256)]
    | 2, 0x0A => let (a, b) := squareRanges e; a ++ b
    | 3, op => (rowRanges op e).2
    | _, _ => []

/-! ## Outputs that a twin pair compares (11 R320) -/

/-- Ranges by ascending address. -/
def insertRange (r : Nat × Nat) : Ranges → Ranges
  | [] => [r]
  | x :: rs => if r.1 ≤ x.1 then r :: x :: rs else x :: insertRange r rs

/-- The twin digest of an output: the CRC-64 of its bytes in ascending address, then one byte with the poison bit of each granule. -/
def Core.twinDigest (c : Core) (rs : Ranges) : W64 :=
  let rs := rs.foldr insertRange []
  let planes := (rs.flatMap (fun r => granulesOf r.1 r.2)).dedup.map (fun g => BitVec.ofNat 8 (sget c.spPoison g).toNat)
  BitVec.ofNat 64 (crc64 (rs.flatMap (fun r => c.spRead r.1 r.2) ++ planes))

/-- The output of a queued instruction that the pair compares: drained and spilled tiles, vx.st, vx.cvtmx and row-engine outputs, and packets. -/
def comparedWrites (e : QEntry) (c : Core) : Ranges :=
  match opClass e.word, opCode e.word with
  | 1, 2 => instrWrites e c
  | 1, 3 => instrWrites e c
  | 2, 1 => instrWrites e c
  | 2, 0x0A => instrWrites e c
  | 3, _ => instrWrites e c
  | 5, _ => if e.skips then [] else sendReads e
  | _, _ => []

/-- The twin digest of a gate vote: of one byte (log 149). -/
def voteDigest (vote : Bool) : W64 := BitVec.ofNat 64 (crc64 [if vote then 1 else 0])

/-! ## Writers -/

/-- Does a queued instruction of the core write a granule of a range? -/
def Core.writesInto (c : Core) (g n : Nat) : Bool :=
  c.queues.any (fun q => q.2.any (fun e => (instrWrites e c).any (fun r => r.2 != 0 && decide (r.1 < 64 * (g + n) ∧ 64 * g < r.1 + r.2))))

end Sys2Proof.Machine
end

