-- ==== Sys2Proof/Machine/Engine.lean ====
section
/-! DEFINITION. Engine and sequencer steps of a core, with what its scratchpad's code finds (05 R123 to R125, 04 R121, 07 R185, R193). -/

namespace Sys2Proof.Machine

/-! ## Scratchpad errors (07 R193) -/

/-- Errors of an operand that lie in granules of given ranges. -/
def errorsOn (errs : List (Nat × Flips)) (rs : Ranges) : List (Nat × Flips) := errs.filter (fun x => rs.has x.1)

/-- A granule is read with an error: one that is not correctable sets its poison bit; where the code misses the error its bytes are free (log 144). -/
def Core.strikeOne (c : Core) (free : Nat) (x : Nat × Flips) : Core :=
  match secded 8 x.2 with
  | .uncorrectable => { c with spPoison := sset c.spPoison x.1 1 }
  | .missed => { c with sp := ssetAll c.sp (64 * x.1) ((Found.missed.deliver free x.1 []).1) }
  | _ => c

/-- Granules are read with their errors. -/
def Core.strike (c : Core) (free : Nat) (hit : List (Nat × Flips)) : Core := hit.foldl (fun c x => c.strikeOne free x) c

/-- Corrected errors are counted on the core's die; an error that is not correctable makes its physical core a suspect (11 R325). -/
def State.foundErrors (s : State) (k l : Nat) (c : Ctx) (hit : List (Nat × Flips)) : State :=
  match hit, s.coreAt c l with
  | [], _ => s
  | _, none => s
  | _, some (die, p) =>
    let n := (hit.filter (fun x => secded 8 x.2 == .corrected)).length
    let s := ({ s with mem := { s.mem with spCe := updAt s.mem.spCe die (fun x => satAdd 32 x n) } } : State).spend
    if hit.any (fun x => secded 8 x.2 == .uncorrectable) then
      s.report (coreKey die p) 0x0B { rank := c.desc.rank, job := c.desc.job, ctx := some k }
    else s

/-! ## Engine steps (05 R123 to R125) -/

/-- Does the head of the matrix array's queue stand between two blocks (04 R121)? -/
def Core.midBlock (x : Core) (eng : Nat) : Bool := eng == engMatrix && x.atBlock.isSome

/-- The head of an engine's queue executes, if it is the instruction of the row (class and op), has not executed yet, and its token wait is satisfied.
Its wait is taken in the same step; its completion and signal are a step of their own. An mx.mm that stops between blocks has not executed yet, and
waits for no token when it resumes. -/
def Core.engineStep (x : Core) (eng cls op : Nat) (f : QEntry → Core → CRes) : Option (Nat × CRes) :=
  match x.queue eng with
  | [] => none
  | e :: rest =>
    if opClass e.word = cls ∧ opCode e.word = op ∧ e.executed = false ∧ (x.midBlock eng || x.tokenReady e.word) = true ∧ x.seq.stopped = false
        ∧ x.folded = false then
      some (e.idx, match f e (if x.midBlock eng then x else x.takeToken e.word) with
        | .ok y => .ok (y.setQueue eng ({ e with executed := !y.midBlock eng } :: rest))
        | r => r)
    else none

/-- The errors of the operand in granules that the head of an engine's queue reads. -/
def Core.hits (x : Core) (eng : Nat) (stop : Option Nat) : List (Nat × Flips) → List (Nat × Flips)
  | [] => []
  | errs => match x.queue eng with
    | [] => []
    | e :: _ => errorsOn errs (instrReads stop e x)

/-- An instruction of a twin context that has just executed keeps the digest of its output until the shadow's has matched (11 R320). -/
def Core.noteTwin (z : Core) (eng : Nat) (before : Core) : Core :=
  match z.queue eng with
  | [] => z
  | e :: rest => match comparedWrites e before with
    | [] => z
    | rs => if e.executed then z.setQueue eng ({ e with twin := some (z.twinDigest rs) } :: rest) else z

def CRes.noteTwin (r : CRes) (twin : Bool) (eng : Nat) (before : Core) : CRes :=
  match r, twin with
  | .ok z, true => .ok (z.noteTwin eng before)
  | r, _ => r

/-- Is the output of the last instruction that executed held, for the shadow's digest has not matched? -/
def Core.awaits (x : Core) (eng : Nat) : Option W64 := match x.queue eng with | [] => none | e :: _ => if e.executed then e.twin else none

/-- A step of an engine of a core, in no calm (07 R185): what most rows of chapters 04 to 07 do. `use` is the poison use of 14 R386; `errs` is what the
scratchpad's code meets, by granule; `after` is what the instruction does outside its core, from the state, the core before and the context after. -/
def engineRowWith (eng cls op use : Nat) (stop : Option Nat) (errs : List (Nat × Flips)) (f : State → Ctx → Env → QEntry → Core → CRes)
    (after : State → Nat → Nat → Core → Ctx → State) (k l : Nat) (s : State) : Out :=
  withCore k l s (fun c x =>
    if c.live && !s.net.calm then
      let hit := x.hits eng stop errs
      let y := x.strike s.freeCount hit
      match y.engineStep eng cls op (f s c (s.env c l x)) with
      | none => s
      | some (idx, r) =>
        let c' := c.absorb s.st.now l eng idx use (r.noteTwin c.desc.twin eng y)
        match r with
        | .ok _ => if c.stopping then s else after (s.foundErrors k l c hit) k l y c'
        | .poison _ => (s.foundErrors k l c hit).putCtx k c'
        | _ => s.putCtx k c'
    else s)

/-- An engine step that does nothing outside its core. -/
def engineRow (eng cls op use : Nat) (errs : List (Nat × Flips)) (f : State → Ctx → Env → QEntry → Core → CRes) (k l : Nat) (s : State) : Out :=
  engineRowWith eng cls op use none errs f (fun s k _ _ c => s.putCtx k c) k l s

/-! ## Sequencer steps -/

/-- The sequencer's next instruction word. -/
def Env.wordAt (v : Env) (x : Core) : Option W64 := v.image[x.seq.pos]?

/-- A sequencer-class instruction of the row runs at the sequencer's position, if its token wait is satisfied: its wait is taken, its effect and
its signal follow in the same step, with one sequencer active beat (05 R123, R136). -/
def Core.seqStep (x : Core) (v : Env) (cls op : Nat) (f : W64 → Core → CRes) : Option CRes :=
  match v.wordAt x with
  | none => none
  | some w =>
    if opClass w = cls ∧ opCode w = op ∧ x.tokenReady w = true ∧ x.seq.stopped = false ∧ x.seq.ended = false ∧ x.folded = false then
      some (match f w ((x.takeToken w).addBeats 0 1) with
        | .ok y => (match y.signal w with | none => .fault 0x01 | some z => .ok z)
        | r => r)
    else none

/-- The context after a sequencer-class row, in no calm (07 R185). -/
def seqRowWith (cls op : Nat) (f : State → Ctx → Env → W64 → Core → CRes) (after : State → Nat → Nat → Core → Ctx → State) (k l : Nat) (s : State) : Out :=
  withCore k l s (fun c x =>
    if c.live && !s.net.calm then
      let v := s.env c l x
      match x.seqStep v cls op (f s c v) with
      | none => s
      | some r =>
        let c' := c.absorb s.st.now l 0 x.seq.pos 0x03 r
        match r with
        | .ok _ => if c.stopping then s else after s k l x c'
        | _ => s.putCtx k c'
    else s)

def seqRow (cls op : Nat) (f : State → Ctx → Env → W64 → Core → CRes) (k l : Nat) (s : State) : Out :=
  seqRowWith cls op f (fun s k _ _ c => s.putCtx k c) k l s

end Sys2Proof.Machine
end

