-- ==== Sys2Proof/Machine/TensorMem.lean ====
section
/-! DEFINITION. Tensors in device memory: the blocked layout, the canonical byte stream, digests (03 R74 to R76, 02 R58). -/

namespace Sys2Proof.Machine

/-! ## The blocked layout (R74, R75) -/

def TensorEntry.across (t : TensorEntry) : Nat := ceilDiv t.cols 32
def TensorEntry.down (t : TensorEntry) : Nat := ceilDiv t.rows 32
/-- Squares of a tensor. -/
def TensorEntry.squares (t : TensorEntry) : Nat := t.slices * (t.down * t.across)
/-- Elements of the element plane, padding included (09 R258). -/
def TensorEntry.flat (t : TensorEntry) : Nat := 1024 * t.squares

/-- Bytes of the scale plane of one square. -/
def Format.squareScale (f : Format) : Nat := if f.rowScaled then 32 else if f.squareScaled then 1 else 0

/-- Bytes of the element plane. -/
def TensorEntry.elemBytes (t : TensorEntry) (f : Format) : Nat := t.squares * f.granules * 64

/-- Bytes that a tensor takes in memory, up to a granule boundary. -/
def TensorEntry.bytesIn (t : TensorEntry) (f : Format) : Nat :=
  t.elemBytes f + (match f with
    | .master48 => t.squares * 2048
    | .scaled _ => 64
    | _ => 64 * ceilDiv (t.squares * f.squareScale) 64)

/-- Square, row and column in the square of an element. -/
def TensorEntry.place (t : TensorEntry) (slice row col : Nat) : Nat × Nat × Nat :=
  (slice * (t.down * t.across) + row / 32 * t.across + col / 32, row % 32, col % 32)

/-- The code of an element of a tensor at a device address; Master48 gives its 48 bits. -/
def State.elemCode (s : State) (a : Nat) (t : TensorEntry) (f : Format) (slice row col : Nat) : Nat :=
  let (q, r, c) := t.place slice row col
  let line := leNat (s.load (a + q * f.granules * 64 + r * (4 * f.bits)) (4 * f.bits))
  match f with
  | .master48 => unpackCode 32 line c * 65536 + s.loadNat (a + t.elemBytes f + q * 2048 + r * 64 + 2 * c) 2
  | _ => unpackCode f.bits line c

/-- Logical elements in ascending index: slice, row, column. -/
def TensorEntry.elements (t : TensorEntry) : List (Nat × Nat × Nat) :=
  (List.range t.slices).flatMap (fun s => (List.range t.rows).flatMap (fun r => (List.range t.cols).map (fun c => (s, r, c))))

/-- Codes packed continuously, the last byte (or FP6 group) completed with zeros (R76). -/
def packStream (bits : Nat) (codes : List Nat) : List Byte :=
  let group := if bits = 6 then 4 else if bits = 4 then 2 else 1
  packCodes bits (codes ++ List.replicate (group * ceilDiv codes.length group - codes.length) 0)

/-- Scales of an MX tensor in the order of R76. -/
def State.scaleStream (s : State) (a : Nat) (t : TensorEntry) (f : Format) : List Byte :=
  let base := a + t.elemBytes f
  if f.squareScaled then s.load base t.squares
  else (List.range t.slices).flatMap (fun i => (List.range t.rows).flatMap (fun r => (List.range t.across).flatMap (fun b =>
    let (q, x, _) := t.place i r (32 * b)
    s.load (base + 32 * q + x) 1)))

/-- The canonical byte stream of a tensor at a device address (R76). -/
def State.tensorStream (s : State) (a : Nat) (t : TensorEntry) : List Byte :=
  match Format.ofCode t.format with
  | none => []
  | some f =>
    let codes := t.elements.map (fun e => s.elemCode a t f e.1 e.2.1 e.2.2)
    match f with
    | .master48 => packStream 32 (codes.map (· / 65536)) ++ packStream 16 (codes.map (· % 65536))
    | .scaled _ => s.load (a + t.elemBytes f) 8 ++ packStream 8 codes
    | .mx _ _ => packStream f.bits codes ++ s.scaleStream a t f
    | _ => packStream f.bits codes

/-! ## Digests (02 R58) -/

/-- Pieces of 1 MiB. -/
def megaPieces (l : List Byte) : List (List Byte) := pieces 1048576 (l.length / 1048576 + 1) l |>.filter (fun x => !x.isEmpty)

/-- The tensor digest of a stream. -/
def tensorDigest (id : W32) (stream : List Byte) : List Byte :=
  sha3 (ascii "VXTENSOR" ++ leBytes 4 id.toNat ++ leBytes 8 stream.length ++ (megaPieces stream).flatMap sha3)

def insertItem (x : Nat × List Byte) : List (Nat × List Byte) → List (Nat × List Byte)
  | [] => [x]
  | y :: r => if x.1 ≤ y.1 then x :: y :: r else y :: insertItem x r

/-- The set digest of items by identifier. -/
def setDigest (items : List (Nat × List Byte)) : List Byte :=
  sha3 (ascii "VXSETDIG" ++ leBytes 4 items.length ++ (items.foldr insertItem []).flatMap (fun x => leBytes 4 x.1 ++ x.2))

/-- The program set digest of the loaded containers. -/
def Ctx.programDigest (c : Ctx) : List Byte := setDigest ((c.slots.filter (fun p => decide (p.1 < 16))).map (fun p => (p.1, p.2.digest)))

/-- The job seed of a job. -/
def jobSeed (job : W64) : List Byte := (List.range 32).map (Config.jobSeed job)

/-- The seed set digest over rollout seeds in ascending index. -/
def seedDigest (job : W64) (seeds : List W64) : List Byte :=
  sha3 (ascii "VXSEEDS1" ++ jobSeed job ++ leBytes 4 seeds.length ++ seeds.flatMap (fun x => leBytes 8 x.toNat))

/-- A grain key (06 R178): `VXGRKEY1` with a step counter, or `VXGRKEY2` with a rollout seed. -/
def grainKey (tag : String) (job : W64) (value : W64) : BitVec 128 :=
  BitVec.ofNat 128 (leNat ((sha3 (ascii tag ++ jobSeed job ++ leBytes 8 value.toNat)).take 16))

/-! ## Rings (02 R64) -/

/-- Has the consumer of a ring left space for an entry? -/
def State.ringSpace (s : State) (r : DataRing) : Bool := decide (r.producer.toNat < s.loadNat (r.addr + 16) 8 + r.count)

/-- Bytes from an offset replaced. -/
def patchBytes (l : List Byte) (off : Nat) (x : List Byte) : List Byte := l.take off ++ x ++ l.drop (off + x.length)

/-- Write an entry at the producer index, then the index. A cairn record takes its time now; a signed one, which carries its signature behind its
128 bytes, takes the signature slot of its index (R60, 16 R430). -/
def State.ringPut (s : State) (c : Ctx) (ring : Nat) (r : DataRing) (entry : List Byte) : State × DataRing :=
  let j := r.producer.toNat
  let entry := if ring = 0 then patchBytes entry 48 (leBytes 8 s.st.now.toNat) else entry
  let slot := 2432 * (j % (c.desc.sigLen / 2432))
  let signed := decide (r.size < entry.length)
  let entry' := if signed then patchBytes (entry.take r.size) 56 (leBytes 8 slot) else entry
  let s := if signed then s.store (c.desc.sigAddr + slot) (entry.drop r.size ++ zeros 12) else s
  let s := s.store (r.addr + 64 + r.size * (j % r.count)) ((entry' ++ zeros r.size).take r.size)
  let s := s.store (r.addr + 8) (leBytes 8 (j + 1))
  (s, { r with producer := r.producer + 1, consumer := BitVec.ofNat 64 (s.loadNat (r.addr + 16) 8) })

/-- A producer writes an entry of a context's ring, or waits for space with a notice. -/
def State.produce (s : State) (k ring : Nat) (entry : List Byte) : State :=
  match s.ctx? k with
  | none => s
  | some c =>
    match nfind c.rings ring with
    | none => s
    | some r =>
      if r.waiting.isEmpty && s.ringSpace r then
        let (s, r) := s.ringPut c ring r entry
        s.updCtx k (fun c => { c with rings := nset c.rings ring r })
      else
        (s.putCtx k { c with rings := nset c.rings ring { r with waiting := r.waiting ++ [entry] } }).raise
          { level := 1, source := 6, ctx := some k, count := ring }

/-- Entries that wait are written while there is space; the fuel is their number. -/
def State.flushRing : Nat → State → Ctx → Nat → DataRing → State × DataRing
  | 0, s, _, _, r => (s, r)
  | n + 1, s, c, ring, r =>
    match r.waiting with
    | [] => (s, r)
    | e :: rest =>
      if s.ringSpace r then
        let (s, r) := s.ringPut c ring r e
        flushRing n s c ring { r with waiting := rest }
      else (s, r)

end Sys2Proof.Machine
end

