-- ==== Sys2Proof/Machine/StepOps.lean ====
section
/-! DEFINITION. The step driver: the rank tree, step control records, gate and prepare reports, decisions, commit and abort (09 R253 to R282). -/

namespace Sys2Proof.Machine

/-! ## The rank tree (R273) and records -/

def lowBit (r : Nat) : Nat := 2 ^ ((List.range 16).find? (fun i => r.testBit i)).getD 16
/-- The parent of a rank above 0: its lowest set bit cleared. -/
def parentRank (r : Nat) : Nat := r - lowBit r
/-- The children of a rank in a job of m modules. -/
def childRanks (m r : Nat) : List Nat := ((List.range 15).filter (fun i => decide (2 ^ i < lowBit r))).map (fun i => r + 2 ^ i) |>.filter (· < m)
/-- The buddy of a rank (R259). -/
def buddyOf (m r : Nat) : Nat := (r + 1) % m

def statBytes (x : StepStat) : List Byte :=
  leBytes 4 x.tensor.toNat ++ leBytes 4 x.amax.toNat ++ leBytes 8 x.nonZero.toNat ++ leBytes 8 x.zeroed.toNat ++ leBytes 4 x.overflowed.toNat
    ++ leBytes 4 x.nonFinite.toNat

/-- A step control record as it travels (R273). -/
def recBytes (r : StepRec) : List Byte :=
  ascii "VXSTEPCR" ++ leBytes 8 r.job.toNat ++ leBytes 8 r.stepCounter.toNat ++ leBytes 2 r.source.toNat ++ [r.kind, r.attempt]
    ++ leBytes 2 r.pendingVersion.toNat ++ zeros 2 ++ leBytes 4 r.ranks.toNat ++ leBytes 4 r.flags.toNat ++ leBytes 8 r.commitTime.toNat
    ++ leBytes 4 r.stats.length ++ zeros 12 ++ r.stats.flatMap statBytes

/-- Statistics combine by addition and maximum (R274). -/
def statAdd (a b : StepStat) : StepStat :=
  { a with amax := if a.amax.toNat < b.amax.toNat then b.amax else a.amax, nonZero := a.nonZero + b.nonZero, zeroed := a.zeroed + b.zeroed,
           overflowed := satAdd 32 a.overflowed b.overflowed.toNat, nonFinite := satAdd 32 a.nonFinite b.nonFinite.toNat }

/-- Combine lists of statistics by tensor. -/
def addStats (a b : List StepStat) : List StepStat :=
  if a.isEmpty then b else a.map (fun x => match b.find? (fun y => y.tensor == x.tensor) with | none => x | some y => statAdd x y)

def Gathered.empty : Gathered := ⟨[], true, true, false, false, true, 0, [], false, false⟩

def recFlag (r : StepRec) (i : Nat) : Bool := r.flags.getLsbD i

/-- A child's report is taken in, once. -/
def Gathered.take (g : Gathered) (r : StepRec) : Gathered :=
  if g.children.contains r.source.toNat then g
  else { g with children := g.children ++ [r.source.toNat], finite := g.finite && recFlag r 0, prepared := g.prepared && recFlag r 1,
                result := g.result && recFlag r 2, mismatch := g.mismatch || recFlag r 3, poison := g.poison || recFlag r 4,
                ranks := g.ranks + r.ranks.toNat, stats := addStats g.stats r.stats }

/-- Every child has reported. -/
def Gathered.full (g : Gathered) (m r : Nat) : Bool := (childRanks m r).all (fun c => g.children.contains c)

/-! ## The step of a context -/

def State.step? (s : State) (k cmd : Nat) : Option (Ctx × StepRun) :=
  match s.ctx? k with
  | none => none
  | some c => (c.steps.find? (fun x => x.cmd == cmd)).map (fun st => (c, st))

def State.setStep (s : State) (k : Nat) (st : StepRun) : State :=
  s.updCtx k (fun c => { c with steps := updWhere c.steps (fun x => x.cmd == st.cmd) (fun _ => st) })

/-- Act on a step of a context, if it is still there. -/
def State.onStep (s : State) (k cmd : Nat) (f : Ctx → StepRun → State) : State :=
  match s.step? k cmd with
  | none => s
  | some (c, st) => f c st

/-- The record that a module sends for a step. -/
def stepRecord (c : Ctx) (st : StepRun) (kind ranks flags : Nat) (time : W64) (stats : List StepStat) : StepRec :=
  { tagOk := true, job := c.desc.job, stepCounter := BitVec.ofNat 64 st.counter, source := BitVec.ofNat 16 c.desc.rank, kind := BitVec.ofNat 8 kind,
    attempt := BitVec.ofNat 8 st.attempt, pendingVersion := BitVec.ofNat 16 st.pending, ranks := BitVec.ofNat 32 ranks, flags := BitVec.ofNat 32 flags,
    commitTime := time, stats := stats, reserved := 0 }

/-- A record travels as a peer write of the step flow into the destination's step control area, taken to lie where this module's lies (log 39). -/
def State.sendRec (s : State) (k : Nat) (c : Ctx) (dest : Nat) (r : StepRec) : State × Nat :=
  match c.learn with
  | none => (s, s.seif.nextTag)
  | some l => s.peerWrite k c dest l.stepFlow l.controlArea (recBytes r) []

def State.sendRecs (s : State) (k : Nat) (c : Ctx) (dests : List Nat) (r : StepRec) : State := dests.foldl (fun s d => (s.sendRec k c d r).1) s

/-- Does a record pass its header checks: tag, reserved fields and bits, job, ranks covered, and one entry for each tracked entry in the kinds that carry
them (R273)? -/
def Ctx.headerOk (c : Ctx) (r : StepRec) : Bool :=
  let entries := if r.kind = 1 ∨ r.kind = 2 then (c.learn.map (fun l => l.tracked.length)).getD 0 else 0
  r.tagOk && r.reserved == 0 && r.job == c.desc.job && decide (1 ≤ r.ranks.toNat ∧ r.ranks.toNat ≤ 32768 ∧ r.flags.toNat < 64 ∧ r.source.toNat < 32768)
    && r.stats.length == entries

/-- The step of a record that passes its checks and names a step in progress and its attempt (R273). -/
def Ctx.recordStep (c : Ctx) (r : StepRec) : Option StepRun :=
  if c.headerOk r then c.steps.find? (fun st => st.counter == r.stepCounter.toNat && st.attempt == r.attempt.toNat) else none

/-! ## Completion of a STEP (R282) and of programs -/

/-- What keeps a context placed: a RUN or a STEP, and in a rollout context its generation rounds (log 66). -/
def State.working (s : State) (k : Nat) : Bool :=
  s.host.cmds.any (fun c => (c.opcode == 0x06 || c.opcode == 0x07) && c.fieldAt 8 1 == k)
    || (match s.ctx? k with | none => false | some c => !c.rounds.isEmpty)

/-- A context whose last RUN or STEP has completed becomes Idle (13 R364). -/
def State.settle (s : State) (k : Nat) : State :=
  if s.working k then s
  else s.updCtx k (fun c => if c.status == .closing || c.status == .absent then c else { c with status := .idle })

/-- Bytes 16 to 31 of a STEP reply. -/
def StepRun.tail (st : StepRun) : List Byte :=
  let committed := st.outcome == some .committed
  leBytes 2 st.consumed ++ leBytes 2 (if committed then st.pending else st.consumed) ++ [BitVec.ofNat 8 st.attempt, BitVec.ofNat 8 st.reason] ++ zeros 2
    ++ leBytes 8 st.count

/-- A STEP completes: it leaves the context, its program ends and its reply is queued. -/
def State.finishStep (s : State) (k : Nat) (st : StepRun) (code : Nat) (tail : List Byte) : State :=
  let s := s.updCtx k (fun c => { c with
    steps := c.steps.filter (fun x => x.cmd != st.cmd)
    run := match c.run with | none => none | some r => if r.cmd == some st.cmd then none else some r
    lastDone := if code ≤ 1 then some st.counter else c.lastDone })
  (s.complete st.cmd code 0 tail).settle k

/-! ## Statistics and tracked entries (R268 to R271, R274) -/

/-- The statistics that the module's learner cores wrote for a tensor: entries of 64 bytes, 1 KiB per core. -/
def State.statOf (s : State) (area cores : Nat) (tensor : W32) : StepStat :=
  let recs := ((List.range cores).flatMap (fun l => (List.range 16).map (fun i => area + 1024 * l + 64 * i))).filter (fun a =>
    s.loadNat a 4 == tensor.toNat && s.loadNat (a + 4) 1 % 2 == 1)
  recs.foldl (fun x a => statAdd x ⟨tensor, BitVec.ofNat 32 (s.loadNat (a + 56) 4), BitVec.ofNat 64 (s.loadNat (a + 40) 8),
    BitVec.ofNat 64 (s.loadNat (a + 48) 8), BitVec.ofNat 32 (s.loadNat (a + 20) 4), BitVec.ofNat 32 (s.loadNat (a + 12) 4)⟩) ⟨tensor, 0, 0, 0, 0, 0⟩

/-- The module's own statistics entries, in tracked order. -/
def State.ownStats (s : State) (c : Ctx) : List StepStat :=
  match c.learn with
  | none => []
  | some l => l.tracked.map (fun e => s.statOf l.statsArea c.desc.cores e.tensor)

/-- 2^x as an FP32 code, for x from -126 to 126. -/
def pow2 (x : Int) : W32 := BitVec.ofNat 32 ((x + 127).toNat * 2 ^ 23)

/-- range_update (R269). -/
def rangeUpdate (e : TrackedEntry) (amax : W32) : TrackedEntry :=
  let h := e.params
  let hist := (amax :: e.hist.take (h - 1)) ++ e.hist.drop h
  let fill := min (e.fill + 1) h
  let a := (hist.take fill).foldl (fun m x => if m.toNat < x.toNat then x else m) 0
  let emax := match Format.ofCode e.format with | some (.scaled f) => f.emax | _ => 0
  let x : Int := match f32 a with
    | .fin _ m ex => if m = 0 then 0 else max (-126) (min 126 (floorLog2 m ex - emax + e.margin))
    | _ => 0
  { e with hist := hist, fill := fill, s := pow2 x, m := pow2 (-x) }

/-- ladder_update (R270): `fill` is the rung, `margin` the descent steps, the low bits of `params` the bounds. -/
def ladderUpdate (e : TrackedEntry) (x : StepStat) : TrackedEntry :=
  let lowest := e.params % 4
  let highest := e.params / 4 % 4
  let nz := x.nonZero.toNat
  let zr := x.zeroed.toNat
  if 0 < x.nonFinite.toNat ∨ 0 < x.overflowed.toNat ∨ nz < zr * 64 then { e with fill := min (e.fill + 1) highest, quiet := 0 }
  else if zr * 1024 ≤ nz then
    (if e.margin ≤ e.quiet + 1 then { e with fill := max (e.fill - 1) lowest, quiet := 0 } else { e with quiet := e.quiet + 1 })
  else { e with quiet := 0 }

/-- The update of a tracked entry from the combined statistics. -/
def TrackedEntry.update (e : TrackedEntry) (stats : List StepStat) : TrackedEntry :=
  match stats.find? (fun x => x.tensor == e.tensor) with
  | none => e
  | some x => if e.kind = 1 then rangeUpdate e x.amax else ladderUpdate e x

/-- A tracked entry in memory (R268). -/
def TrackedEntry.bytes (e : TrackedEntry) : List Byte :=
  leBytes 4 e.tensor.toNat ++ [BitVec.ofNat 8 e.kind, BitVec.ofNat 8 e.params, BitVec.ofNat 8 e.margin, BitVec.ofNat 8 e.fill, BitVec.ofNat 8 e.quiet,
    BitVec.ofNat 8 e.format] ++ zeros 6 ++ leBytes 4 e.s.toNat ++ leBytes 4 e.m.toNat ++ zeros 8 ++ e.hist.flatMap (fun x => leBytes 4 x.toNat)

/-- Offsets in the optimiser table (R261). -/
def Learner.groupsAt (l : Learner) : Nat := 128 + 64 * ceilDiv (4 * l.params.length) 64
def Learner.trackedAt (l : Learner) : Nat := l.groupsAt + 64 * l.groups.length

/-- The 64 bytes of a group entry (R261). -/
def GroupEntry.bytes (g : GroupEntry) : List Byte :=
  leBytes 4 g.first ++ leBytes 4 g.count ++ leBytes 4 g.lr.toNat ++ leBytes 4 g.b1.toNat ++ leBytes 4 g.b2.toNat ++ leBytes 4 g.eps.toNat
    ++ leBytes 4 g.lambda.toNat ++ leBytes 4 g.rho.toNat ++ leBytes 4 g.p1.toNat ++ leBytes 4 g.p2.toNat ++ [BitVec.ofNat 8 g.flags] ++ zeros 23

/-- The step driver updates the live tracked entries, in its state and in the table. -/
def State.trackUpdate (s : State) (k : Nat) (stats : List StepStat) : State :=
  match s.ctx? k with
  | none => s
  | some c =>
    match c.learn with
    | none => s
    | some l =>
      let l := { l with tracked := l.tracked.map (fun e => e.update stats) }
      (s.putCtx k { c with learn := some l }).store (c.desc.optimiser + l.trackedAt) (l.tracked.flatMap TrackedEntry.bytes)

/-! ## Versions, buffers and areas (R253 to R259) -/

/-- The number after a version. -/
def nextVersion (v : Nat) : Nat := if v = 0xFFFF then 1 else v + 1

/-- A reusable area: it does not hold the current version's state, and no checkpoint writes what it holds. -/
def freeArea (areas : List MasterArea) (current : Nat) (ck : Option Checkpoint) : Option Nat :=
  areas.findIdx? (fun a => a.version != current && (match ck with | none => true | some x => x.version != a.version || a.version == 0))

/-- Can a pending version be allocated (R257)? -/
def Ctx.canAllocate (c : Ctx) (l : Learner) : Bool :=
  l.buffers.any (fun b => b.state == .free) && l.buffers.all (fun b => b.state != .pending) && (freeArea l.own c.currentVersion c.ckptNow).isSome
    && (c.desc.modules == 1 || (freeArea l.buddy c.currentVersion c.ckptNow).isSome)

/-- The first free buffer becomes pending. -/
def Learner.pend (l : Learner) (v : Nat) : Learner :=
  match l.buffers.findIdx? (fun b => b.state == .free) with
  | none => l
  | some i => { l with buffers := updAt l.buffers i (fun b => { b with state := .pending, version := v, digest := none }) }

/-- A pending version is skipped or discarded: its buffer is free and its number released. -/
def Learner.discard (l : Learner) : Learner :=
  { l with buffers := l.buffers.map (fun b => if b.state == .pending then { b with state := .free, version := 0 } else b) }

def State.discardPending (s : State) (k : Nat) : State := s.updCtx k (fun c => { c with learn := c.learn.map Learner.discard })

/-- The pending version becomes current, the current one held, or free if nothing fences it (R254, R278). -/
def Learner.makeCurrent (l : Learner) (tracked : List (List Byte)) : Learner :=
  { l with buffers := l.buffers.map (fun b =>
      match b.state with
      | .pending => { b with state := .current, tracked := tracked }
      | .current => if b.holders.isEmpty then { b with state := .free, version := 0 } else { b with state := .held }
      | _ => b) }

/-- The buffer that holds a version. -/
def Learner.bufferOf (l : Learner) (version : Nat) : Option VersionBuf := l.buffers.find? (fun b => b.version == version && b.state != .free)

/-- Tensors of the parameter list, from a learner container (R258, R261). -/
def Learner.tensorsOf (l : Learner) (p : Option Program) : List TensorEntry :=
  l.params.filterMap (fun id => (p.map Program.tensors).bind (fun ts => ts.find? (fun t => t.id == id)))

def tensorSize (t : TensorEntry) : Nat := match Format.ofCode t.format with | none => 0 | some f => t.bytesIn f

/-- Bytes of a working copy (log 43). -/
def workSize (ts : List TensorEntry) : Nat := (ts.map tensorSize).foldl (· + ·) 0

def StepRun.learnerSlot (st : StepRun) (c : Ctx) : Option Program := nfind c.slots (st.slots.getD 2 0xFF)

/-! ## Group scalars (R262, R263) -/

def nonNeg32 (x : W32) : Bool := decide (x.toNat < 0x7F800000)
def finite32 (x : W32) : Bool := decide (x.toNat % 2 ^ 31 < 0x7F800000)

/-- lr, λ and ρ of a group as they stand in the table. -/
def State.rereadGroup (s : State) (a : Nat) (g : GroupEntry) : GroupEntry :=
  { g with lr := BitVec.ofNat 32 (s.loadNat (a + 8) 4), lambda := BitVec.ofNat 32 (s.loadNat (a + 24) 4), rho := BitVec.ofNat 32 (s.loadNat (a + 28) 4) }

def GroupEntry.ok (g : GroupEntry) : Bool := nonNeg32 g.lr && nonNeg32 g.lambda && (g.flags % 2 == 0 || finite32 g.rho)

/-- group_scalars (R263). -/
def groupScalars (g : GroupEntry) : GroupScalars :=
  let q1 := stepMul g.p1 g.b1
  let q2 := stepMul g.p2 g.b2
  { q1 := q1, q2 := q2, omb1 := stepAdd one32 (f32Neg g.b1), omb2 := stepAdd one32 (f32Neg g.b2), k1 := (rcpRef (stepAdd one32 (f32Neg q1))).1,
    k2 := (rsqRef (stepAdd one32 (f32Neg q2))).1, nlr := f32Neg g.lr, nlrwd := f32Neg (stepMul g.lr g.lambda) }

/-! ## Failures before commit (R280) -/

/-- Is a step before its phase 4? -/
def StepRun.early (st : StepRun) : Bool := st.phase == .accepted || st.phase == .scoring || st.phase == .advantage || st.phase == .learner

/-- The next attempt of a step starts from the retained inputs: votes, statistics and shard copies (R281). -/
def StepRun.next (st : StepRun) : StepRun :=
  { st with attempt := st.attempt + 1, phase := .learner, progDone := true, results := [], waited := [], collFinite := true, collFlags := 0, shardCopied := false
            copyTag := none, gate := .empty, prep := .empty, heard := false, decision := none, allocated := false, pending := 0, scalars := [], rates := []
            ownDigest := none, mirrorDigest := none, buddyDigest := none, logTag := none, logAck := none, logged := false, sentAt := none, commitTime := none
            inDoubt := false, poisoned := false, shards := [] }

/-- The program of a step stops. -/
def State.stopStep (s : State) (k : Nat) (st : StepRun) : State :=
  s.updCtx k (fun c => { c with run := match c.run with | none => none | some r => if r.cmd == some st.cmd then none else some r })

/-- An attempt ends: with a next attempt from the retained inputs, or with JOB_FATAL_FAULT. A module that is not yet in phase 4 only takes the number of
the next attempt. -/
def adoptAbort (s : State) (k : Nat) (st : StepRun) (again : Bool) : State :=
  let s := s.raise { level := 2, source := 6, ctx := some k, step := some (BitVec.ofNat 64 st.counter), count := st.attempt }
  if again ∧ st.attempt < 2 then
    if st.early then s.setStep k { st with attempt := st.attempt + 1 }
    else
      let s := s.discardPending k
      (({ s with colls := s.colls.filter (fun x => x.ctx != k) } : State).stopStep k st).setStep k st.next
  else (s.discardPending k).finishStep k st 0x31 (zeros 16)

/-- Rank 0 tells the tree of an abort; any other module reports a failure to rank 0. -/
def tellFailure (s : State) (k : Nat) (c : Ctx) (st : StepRun) (again poison : Bool) : State :=
  if c.desc.rank = 0 then s.sendRecs k c (childRanks c.desc.modules 0) (stepRecord c st 5 1 (if again then 32 else 0) 0 [])
  else (s.sendRec k c 0 (stepRecord c st 6 1 ((if again then 32 else 0) + (if poison then 16 else 0)) 0 [])).1

/-- Rank 0 answers a failure with an abort record down the tree. -/
def abortAll (s : State) (k : Nat) (c : Ctx) (st : StepRun) (again : Bool) : State :=
  let again := again && decide (st.attempt < 2)
  adoptAbort (tellFailure s k c st again false) k st again

/-- Is a step between the start of phase 4 and the final decision? -/
def StepRun.open' (st : StepRun) : Bool :=
  (st.phase == .exchange || st.phase == .gate || st.phase == .optimise || st.phase == .prepared) && st.logAck.isNone && st.outcome.isNone

/-- A module detects a failure of a step (R280): rank 0 aborts, any other rank reports it. -/
def failStep (s : State) (k : Nat) (c : Ctx) (st : StepRun) (again poison : Bool) : State :=
  if !st.open' then s else if c.desc.rank = 0 then abortAll s k c st again else tellFailure s k c st again poison

/-- A participant is lost: the step is not re-executed (R280). A rank above 0 reports it, and ends its own part at once unless it has prepared, when the
decision may be final already. -/
def loseStep (s : State) (k : Nat) (c : Ctx) (st : StepRun) : State :=
  if !st.open' then s
  else if c.desc.rank = 0 then abortAll s k c st false
  else if st.phase == .prepared then tellFailure s k c st false false
  else adoptAbort (tellFailure s k c st false false) k st false

/-- A step completes at once with a code of its own; the job learns that it fails (R262, 00 R9). -/
def giveUp (s : State) (k : Nat) (c : Ctx) (st : StepRun) (code : Nat) : State :=
  let s := (tellFailure s k c st false false).raise { level := 2, source := 6, ctx := some k, step := some (BitVec.ofNat 64 st.counter), count := st.attempt }
  (s.discardPending k).finishStep k st code (zeros 16)

/-! ## Outcomes (R275, R278, R62) -/

/-- Rollout seeds of the rollouts that a context runs, by round and index (10 R293, 02 R58). -/
def Ctx.seeds (c : Ctx) : List W64 := c.rounds.flatMap (fun r => r.rollouts.map (fun _ => r.seed))

/-- The checkpoint that a regeneration record names (R63): the latest started of the version consumed, else of an earlier one; 0 where there is none
(log 158). -/
def Ctx.namedCheckpoint (c : Ctx) (st : StepRun) : Nat :=
  match c.ckptLog.reverse.find? (fun x => some x.1 == st.source && x.2 == st.consumed) with
  | some x => x.1
  | none => ((c.ckptLog.reverse.find? (fun x => match st.source with | none => false | some n => decide (x.1 < n))).map (·.1)).getD 0

/-- The weight-version digest of a buffer: the set digest of the tensors of the working copy (02 R58). -/
def State.versionDigest (s : State) (b : Nat) : List TensorEntry → List (Nat × List Byte)
  | [] => []
  | t :: ts => (t.id.toNat, tensorDigest t.id (s.tensorStream b t)) :: versionDigest s (b + tensorSize t) ts

/-- The tensors of a context's working copy: of any loaded container that has them. -/
def Ctx.weightTensors (c : Ctx) (l : Learner) : List TensorEntry :=
  l.params.filterMap (fun id => (c.slots.findSome? (fun p => p.2.tensors.find? (fun t => t.id == id))))

/-- The digest of the version that results from a step (R62). -/
def Ctx.resultDigest (c : Ctx) (st : StepRun) : Option (List Byte) :=
  if st.outcome = some .committed then st.digest else (c.learn.bind (fun l => l.bufferOf st.consumed)).bind (·.digest)

/-- lr, λ and ρ of a group as the step driver has read them. -/
def GroupEntry.rates (g : GroupEntry) : List Byte := leBytes 4 g.lr.toNat ++ leBytes 4 g.lambda.toNat ++ leBytes 4 g.rho.toNat

/-- The host input set digest of a step: its reward entries, and lr, λ and ρ of every group (R62, 09 R262; the items: log 45). -/
def StepRun.hostDigest (st : StepRun) : List Byte := setDigest [(0, sha3 st.rewards), (1, sha3 st.rates)]

/-- The class of a step: class C if every invocation of its learner container is (R62; log 159). -/
def StepRun.classOf (st : StepRun) (c : Ctx) : Nat :=
  match st.learnerSlot c with
  | none => 0
  | some p => b2n (p.invocations.all (fun i => i.classReq == 1))

/-- A regeneration record (R62). -/
def regenRecord (c : Ctx) (st : StepRun) : List Byte :=
  let committed := st.outcome == some .committed
  leBytes 8 st.counter ++ leBytes 2 st.consumed ++ leBytes 2 (if committed then st.pending else st.consumed)
    ++ [BitVec.ofNat 8 (st.classOf c), if committed then 0 else 1] ++ leBytes 2 c.desc.cores ++ leBytes 2 c.desc.modules ++ zeros 6
    ++ leBytes 8 (c.namedCheckpoint st) ++ c.programDigest ++ st.seedDigest ++ st.hostDigest ++ st.mapDigest
    ++ (c.resultDigest st).getD (zeros 32)

/-- Does the context write regeneration records (R57)? -/
def Ctx.regenerates (c : Ctx) : Bool := c.desc.audit / 2 % 2 == 1

/-- Is there space for a regeneration record (R64)? -/
def Ctx.recordRoom (c : Ctx) (s : State) : Bool :=
  match nfind c.rings 1 with
  | none => true
  | some r => r.waiting.isEmpty && s.ringSpace r

/-- A step whose outcome stands completes, once its cores have ended and, in regeneration mode, its record is written. -/
def tryFinish (s : State) (k cmd : Nat) : State :=
  s.onStep k cmd (fun c st =>
    match st.outcome with
    | none => s
    | some .failed => s
    | some o =>
      if !st.progDone then s
      else if c.regenerates && (c.resultDigest st).isNone then s
      else if c.regenerates && !c.recordRoom s then
        (if st.ringNoted then s
         else (s.setStep k { st with ringNoted := true }).raise { level := 1, source := 6, ctx := some k, count := 1 })
      else
        let s := if c.regenerates then s.produce k 1 (regenRecord c st) else s
        s.finishStep k st (if o == .committed then 0x00 else 0x01) st.tail)

/-- A skip takes effect (R275), once: tracked entries are updated, gt.wait is released with skip. -/
def adoptSkip (s : State) (k : Nat) (st : StepRun) (stats : List StepStat) (result : Bool) : State :=
  if st.outcome.isSome then s
  else
    let s := (s.discardPending k).trackUpdate k stats
    let count := (((s.ctx? k).bind Ctx.learn).map (fun l => l.stepCount.toNat)).getD 0
    let s := s.setStep k { st with decision := some (st.decision == some true && result), combined := stats, sentAt := none, pending := 0, count := count
                                   phase := .outcome, outcome := some (if result then .skippedResult else .skippedVote), reason := if result then 2 else 1 }
    let s := if result then s.raise { level := 2, source := 6, ctx := some k, step := some (BitVec.ofNat 64 st.counter) } else s
    tryFinish s k st.cmd

/-- "apply" reaches the cores once a buffer and areas are there (R257). -/
def tryAllocate (s : State) (k cmd : Nat) : State :=
  s.onStep k cmd (fun c st =>
    match c.learn with
    | none => s
    | some l =>
      if st.heard && !st.allocated && st.outcome.isNone && c.canAllocate l then
        let v := nextVersion c.currentVersion
        (s.putCtx k { c with learn := some (l.pend v) }).setStep k { st with allocated := true, pending := v, decision := some true }
      else s)

/-- "apply" arrives: lr, λ and ρ of every group are read, once for the attempt; a value out of range completes the STEP with OUT_OF_RANGE (R262). -/
def adoptApply (s : State) (k : Nat) (c : Ctx) (st : StepRun) (stats : List StepStat) : State :=
  match c.learn with
  | none => s
  | some l =>
    let groups := l.groups.mapIdx (fun i g => s.rereadGroup (c.desc.optimiser + l.groupsAt + 64 * i) g)
    if !groups.all GroupEntry.ok then giveUp s k c st outOfRange
    else
      let s := s.putCtx k { c with learn := some { l with groups := groups } }
      let st := { st with heard := true, combined := stats, phase := .optimise, sentAt := none, scalars := groups.map groupScalars, rates := groups.flatMap GroupEntry.rates }
      tryAllocate (s.setStep k st) k st.cmd

/-- A gate decision takes effect on this module. -/
def adoptDecision (s : State) (k : Nat) (c : Ctx) (st : StepRun) (apply : Bool) (stats : List StepStat) : State :=
  if !apply then adoptSkip s k st stats (st.decision == some true)
  else if st.heard then s
  else adoptApply s k c st stats

/-- The decision goes down the tree and takes effect here. -/
def passDecision (s : State) (k : Nat) (c : Ctx) (st : StepRun) (apply : Bool) (stats : List StepStat) : State :=
  let s := s.sendRecs k c (childRanks c.desc.modules c.desc.rank) (stepRecord c st 2 c.desc.modules (b2n apply) 0 stats)
  adoptDecision s k c st apply stats

/-- Has the module its own contribution to the gate report (R272)? -/
def Ctx.gateOwn (c : Ctx) (st : StepRun) (colls : List Coll) (k : Nat) : Bool :=
  (c.cores.all (fun x => nmem st.votes x.1)) && colls.all (fun x => x.ctx != k) && st.shardCopied

/-- The gate report goes up, or the root decides, once everything is there (R273, R275). -/
def tryGate (s : State) (k cmd : Nat) : State :=
  s.onStep k cmd (fun c st =>
    let m := c.desc.modules
    if st.phase == .gate && !st.gate.sent && c.gateOwn st s.colls k then
      let own := st.ownStats.getD (s.ownStats c)
      let st := if st.gate.own then st else
        { st with ownStats := some own, gate := { st.gate with own := true, stats := addStats st.gate.stats own }, sentAt := if c.desc.rank = 0 then some s.st.now.toNat else none }
      let finite := st.votes.all (·.2) && st.collFinite && st.gate.finite
      let ranks := st.gate.ranks + 1
      if st.gate.full m c.desc.rank then
        let st := { st with gate := { st.gate with sent := true }, sentAt := some s.st.now.toNat }
        let s := s.setStep k st
        if c.desc.rank = 0 then passDecision s k c st (finite && ranks == m) st.gate.stats
        else (s.sendRec k c (parentRank c.desc.rank) (stepRecord c st 1 ranks (b2n finite) 0 st.gate.stats)).1
      else s.setStep k st
    else s)

/-! ## Holds on versions (09 R254, R255) -/

/-- Change the holders of a version; a held version whose fence falls to zero becomes free. -/
def Learner.hold (l : Learner) (version : Nat) (f : List Holder → List Holder) : Learner :=
  { l with buffers := l.buffers.map (fun b =>
      if b.version = version ∧ (b.state = .current ∨ b.state = .held) then
        let h := f b.holders
        if h.isEmpty && b.state == .held then { b with state := .free, version := 0, holders := [] } else { b with holders := h }
      else b) }

def State.addHold (s : State) (k version : Nat) (h : Holder) : State :=
  s.updCtx k (fun c => { c with learn := c.learn.map (fun l => l.hold version (fun hs => hs ++ [h])) })

def State.dropHold (s : State) (k version : Nat) (h : Holder) : State :=
  s.updCtx k (fun c => { c with learn := c.learn.map (fun l => l.hold version (fun hs => hs.erase h)) })

/-! ## What a commit triggers (10 R302, R303, R305) -/

/-- A version is to be published: one count on its fence, however many targets (01 R29, R255). -/
def State.holdToPublish (s : State) (k version : Nat) : State :=
  s.updCtx k (fun c => { c with learn := c.learn.map (fun l => l.hold version (fun hs => if hs.contains .publication then hs else hs ++ [.publication])) })

/-- Does a target wait for a version, or is it on its way to one? -/
def Ctx.publishing (c : Ctx) (version : Nat) : Bool := c.pubs.any (fun p => p.flight == version || p.waiting == version)

/-- Versions that no target waits for any more lose the count of their publication. -/
def State.endHolds (s : State) (k : Nat) : State :=
  s.updCtx k (fun c => { c with learn := c.learn.map (fun l =>
    (l.buffers.filter (fun b => b.holders.contains .publication && !c.publishing b.version)).foldl (fun l b => l.hold b.version (fun hs => hs.erase .publication)) l) })

/-- The new version waits for every target of the publication list; a version that waited is never sent and is released (R303). -/
def State.publishAll (s : State) (k version : Nat) : State :=
  match s.ctx? k with
  | none => s
  | some c =>
    if c.pubs.isEmpty then s
    else ((s.putCtx k { c with pubs := c.pubs.map (fun p => { p with waiting := version }) }).holdToPublish k version).endHolds k

/-- Does a commit trigger a checkpoint (R305)? -/
def Ctx.ckptTriggered (c : Ctx) (stepCount : Nat) : Bool := c.regenerates || (c.desc.cadence != 0 && stepCount % c.desc.cadence == 0)

/-! ## Prepare and commit (R276 to R278) -/

/-- The area that receives the pending state of a side. -/
def Ctx.pendingArea (c : Ctx) (areas : List MasterArea) : Nat :=
  match freeArea areas c.currentVersion c.ckptNow with
  | none => 0
  | some i => (areas.map (·.addr)).getD i 0

/-- Flat length (R258). -/
def flatLength (ts : List TensorEntry) : Nat := (ts.map TensorEntry.flat).foldl (· + ·) 0

/-- Elements of the shard of rank r (R258, 08 R239). -/
def shardLength (n m r : Nat) : Nat := 512 * ((r + 1) * (n / 512) / m - r * (n / 512) / m)

/-- Bytes per element of the planes of an algorithm, in the order of R259. -/
def planeWidths (algorithm : Nat) : List Nat := if algorithm = 1 then [4, 2, 4, 4] else [4, 2, 4]

/-- Address and length of each plane of an area (log 44). -/
def planesOf (widths : List Nat) (n a : Nat) : List (Nat × Nat) :=
  match widths with
  | [] => []
  | w :: r => (a, w * n) :: planesOf r n (a + w * n)

/-- The shard of a side, its own or its mirror's, and the planes of its pending area. -/
def Ctx.pendingPlanes (c : Ctx) (l : Learner) (st : StepRun) (mirror : Bool) : Nat × List (Nat × Nat) :=
  let m := c.desc.modules
  let r := if mirror then (c.desc.rank + m - 1) % m else c.desc.rank
  (r, planesOf (planeWidths l.algorithm) (shardLength (flatLength (l.tensorsOf (st.learnerSlot c))) m r) (c.pendingArea (if mirror then l.buddy else l.own)))

/-- The pending version buffer. -/
def Learner.pendingBuf (l : Learner) : Nat := ((l.buffers.find? (fun b => b.state == .pending)).map (·.addr)).getD 0

/-- The first poisoned granule of a pending version: in its buffer or its areas (R279). -/
def State.pendingPoison (s : State) (c : Ctx) (l : Learner) (st : StepRun) : Option Nat :=
  let sides := if c.desc.modules = 1 then [false] else [false, true]
  (((l.pendingBuf, workSize (l.tensorsOf (st.learnerSlot c))) :: sides.flatMap (fun m => (c.pendingPlanes l st m).2)).findSome? (fun p => s.firstPoison p.1 p.2))

/-- The step driver's own part of a commit: versions, areas, tracked entries, products and count (R263, R271, R275, R278). -/
def commitState (s : State) (k : Nat) (c : Ctx) (l : Learner) (st : StepRun) : State :=
  let tracked := l.tracked.map (fun e => e.update st.combined)
  let current := c.currentVersion
  let stamp := fun (areas : List MasterArea) =>
    match freeArea areas current c.ckptNow with
    | none => areas
    | some i => updAt areas i (fun a => { a with version := st.pending })
  let groups := (l.groups.zip st.scalars).map (fun x => { x.1 with p1 := x.2.q1, p2 := x.2.q2 })
  let copy := tracked.map TrackedEntry.bytes
  let buf := l.pendingBuf
  let l' := { (l.makeCurrent copy) with
    tracked := tracked, groups := groups, stepCount := l.stepCount + 1, own := stamp l.own, buddy := if c.desc.modules = 1 then l.buddy else stamp l.buddy
    lastStep := some st.counter, lastTime := st.commitTime.getD s.st.now
    hashing := l.hashing ++ [(st.pending, setDigest (s.versionDigest buf (c.weightTensors l)))]
    committed := groups.flatMap GroupEntry.bytes ++ copy.flatten }
  let s := s.putCtx k { c with learn := some l', ckptDue := c.ckptDue || c.ckptTriggered l'.stepCount.toNat }
  let a := c.desc.optimiser
  let s := (s.publishAll k st.pending).store (a + 32) (leBytes 8 l'.stepCount.toNat)
  let s := (groups.mapIdx (fun i g => (i, g))).foldl (fun s x => s.store (a + l.groupsAt + 64 * x.1 + 32) (leBytes 4 x.2.p1.toNat ++ leBytes 4 x.2.p2.toNat)) s
  let s := s.store (a + l.trackedAt) (tracked.flatMap TrackedEntry.bytes)
  let s := s.store (buf + workSize (l.tensorsOf (st.learnerSlot c))) (copy.flatMap id)
  s.setStep k { st with phase := .digest, outcome := some .committed, sentAt := none, inDoubt := false, progDone := true, count := l'.stepCount.toNat }

/-- Commit takes effect (R278), unless poison in the pending version becomes visible (R279). -/
def commitNow (s : State) (k cmd : Nat) : State :=
  s.onStep k cmd (fun c st =>
    match c.learn with
    | none => s
    | some l =>
      if st.outcome.isSome then s
      else
        match s.pendingPoison c l st with
        | some a => s.putCtx k (c.raisePoison a 0x06)
        | none =>
          let s := commitState s k c l st
          if c.regenerates then s else tryFinish s k cmd)

/-- The commit record is here: at its time, or at once with a notice if it came late. -/
def adoptCommit (s : State) (k : Nat) (st : StepRun) (time : W64) : State :=
  let s := s.setStep k { st with commitTime := some time, phase := .decided, sentAt := none, inDoubt := false }
  if time.toNat < s.st.now.toNat then (commitNow s k st.cmd).raise { level := 1, source := 6, ctx := some k, step := some (BitVec.ofNat 64 st.counter) }
  else s

/-- The root decides after every prepare report (R277). -/
def decideCommit (s : State) (k : Nat) (c : Ctx) (st : StepRun) : State :=
  let g := st.prep
  let m := c.desc.modules
  if g.prepared && g.result && !g.mismatch && !g.poison && g.ranks == m then
    match c.learn with
    | none => s
    | some l =>
      let r := stepRecord c st 7 m 1 0 []
      if m = 1 then (s.store l.controlArea (recBytes r)).setStep k { st with logAck := some s.st.now }
      else
        let (s, tag) := s.sendRec k c (1 % m) r
        s.setStep k { st with logTag := some tag }
  else if !g.result then passDecision s k c st false st.combined
  else abortAll s k c st (!g.poison)

/-- A module's part of the prepare report is known (R276): programs ended, results there, all-gathers complete, digests known or stopped by poison. -/
def Ctx.prepOwn (c : Ctx) (st : StepRun) (colls : List Coll) (k : Nat) : Bool :=
  st.progDone && c.cores.all (fun x => nmem st.results x.1) && colls.all (fun x => x.ctx != k)
    && (st.poisoned || (st.ownDigest.isSome && (c.desc.modules == 1 || (st.mirrorDigest.isSome && st.buddyDigest.isSome))))

/-- The module's own part enters its prepare report: prepared if every result is finite, the digests agree and no poison was found. -/
def StepRun.withOwn (st : StepRun) (m : Nat) (sentAt : Option Nat) : StepRun :=
  let mism := m != 1 && !st.poisoned && st.ownDigest != st.buddyDigest
  let finite := st.results.all (·.2)
  { st with sentAt := sentAt
            prep := { st.prep with own := true, prepared := st.prep.prepared && finite && !mism && !st.poisoned, result := st.prep.result && finite
                                   mismatch := st.prep.mismatch || mism, poison := st.prep.poison || st.poisoned, ranks := st.prep.ranks + 1 } }

/-- Under the hold-commit policy a pending mirage verdict withholds the prepare report (11 R318). -/
def State.verdictPending (s : State) (k : Nat) (c : Ctx) : Bool := c.holdsCommit && s.faults.samples.any (fun x => x.ctx == k && x.state == 2)

def tryPrepare (s : State) (k cmd : Nat) : State :=
  s.onStep k cmd (fun c st =>
    let m := c.desc.modules
    if st.phase == .optimise && st.allocated && !st.prep.sent && c.prepOwn st s.colls k && !s.verdictPending k c then
      let st := if st.prep.own then st else st.withOwn m (if c.desc.rank = 0 then some s.st.now.toNat else none)
      if st.prep.full m c.desc.rank then
        let st := { st with prep := { st.prep with sent := true }, phase := .prepared, sentAt := some s.st.now.toNat }
        let s := s.setStep k st
        if c.desc.rank = 0 then decideCommit s k c st
        else
          let flags := b2n st.prep.prepared * 2 + b2n st.prep.result * 4 + b2n st.prep.mismatch * 8 + b2n st.prep.poison * 16
          (s.sendRec k c (parentRank c.desc.rank) (stepRecord c st 3 st.prep.ranks flags 0 [])).1
      else s.setStep k st
    else s)

/-! ## The end of a program (R132, 09 R272) -/

/-- Every logical core of the context has reached its seq.end: a RUN completes, or a program of a STEP or a round has ended. -/
def programEnd (s : State) (k : Nat) : State :=
  match s.ctx? k with
  | none => s
  | some c =>
    match c.run with
    | none => s
    | some r =>
      if c.cores.all (fun x => x.2.seq.ended) then
        let s := s.putCtx k { c with run := none, plan := none }
        match r.cmd with
        | none => s
        | some id =>
          if c.steps.any (fun x => x.cmd == id) then
            let s := s.onStep k id (fun _ st => s.setStep k { st with progDone := true })
            tryFinish (tryPrepare s k id) k id
          else (s.complete id 0x00 0 (leBytes 4 r.overruns ++ leBytes 4 r.lates)).settle k
      else s

end Sys2Proof.Machine
end

