-- ==== Sys2Proof/Machine/Seq.lean ====
section
/-! DEFINITION. Sequencer, check and gate rows (05 R128 to R136, R144, R145). -/

namespace Sys2Proof.Machine

/-! ## Late launches (R128) -/

/-- Has a once-a-second notice not been given within the last second? -/
def noticeDue (last : Option Nat) (now : Nat) : Bool :=
  match last with
  | none => true
  | some t => decide (t + second ≤ now)

/-- A late launch or late window of a context is counted, with at most one notice a second (R128, 08 R236). -/
def State.noteLate (s : State) (k : Nat) (c : Ctx) : State :=
  let c := { c with late := c.late + 1, run := c.run.map (fun r => { r with lates := r.lates + 1 }) }
  if noticeDue c.lastLate s.st.now.toNat then
    (s.putCtx k { c with lastLate := some s.st.now.toNat }).raise { level := 1, source := 5, ctx := some k, count := c.late }
  else s.putCtx k c

/-- The System Time that a core observes: within 1 ns of the unit's and never ahead of it (R128). -/
def State.observed (s : State) : Nat := s.st.now.toNat - min 16 (Config.observedLag s.freeCount)

/-- Wait limit of the running program in System Time units (R127, R151). -/
def Ctx.waitLimit (c : Ctx) : Nat :=
  match c.program with
  | none => 0
  | some p => (if p.waitLimit = 0 then 100000 else p.waitLimit) * microsecond

/-- Does a lateness exceed the launch margin of the context? The margin is in ns. -/
def Ctx.lateBy (c : Ctx) (lateness : Nat) : Bool := decide (16 * c.desc.margin < lateness)

/-- A seq.wait.st proceeds: to the next instruction, with its signal; a late launch is counted. -/
def proceedWait (s : State) (k l : Nat) (c : Ctx) (x : Core) (w : W64) (target : Nat) : State :=
  let now := s.observed
  let s := s.spend
  let y := { x.advance with seq := { x.advance.seq with waitTarget := none } }
  match y.signal w with
  | none => s.putCtx k (c.absorb s.st.now l 0 x.seq.pos 0x03 (.fault 0x01))
  | some z =>
    if c.stopping then s
    else
      let c := c.putCore l z
      if target < now ∧ c.lateBy (now - target) then s.noteLate k c else s.putCtx k c

/-- seq.wait.st reaches the sequencer: out of range, at once, or it holds (R128). -/
def waitStStart (s : State) (k l : Nat) (c : Ctx) (x : Core) : State :=
  match (s.env c l x).wordAt x with
  | none => s
  | some w =>
    if opClass w = 0 ∧ opCode w = 4 ∧ x.tokenReady w = true ∧ x.seq.stopped = false ∧ x.seq.ended = false ∧ x.folded = false
        ∧ x.seq.waitTarget = none then
      let y := (x.takeToken w).addBeats 0 1
      let target := (y.sreg (opR0 w)).toNat
      if s.observed + c.waitLimit < target then s.spend.putCtx k (c.absorb s.st.now l 0 x.seq.pos 0x03 (.fault 0x07))
      else if target ≤ s.observed then proceedWait s k l c y w target
      else if c.stopping then s
      else s.spend.putCtx k (c.putCore l { y with seq := { y.seq with waitTarget := some (y.sreg (opR0 w)) } })
    else s

/-- SEQ_WAIT_ST (R128). -/
def execSeqWaitSt (k l : Nat) (s : State) : Out :=
  withCore k l s (fun c x => if c.live && !s.net.calm then waitStStart s k l c x else s)

/-- ST_TARGET_REACHED (R128). -/
def execStTargetReached (k l : Nat) (s : State) : Out :=
  withCore k l s (fun c x =>
    match x.seq.waitTarget, (s.env c l x).wordAt x with
    | some t, some w =>
      if c.live && !x.folded && !x.seq.stopped && decide (t.toNat ≤ s.observed) then proceedWait s k l c x w t.toNat else s
    | _, _ => s)

/-! ## Boundaries (R131) -/

/-- The work tile that ends is counted if it overran 65,536 active beats (R131). -/
def Ctx.noteTile (c : Ctx) (x : Core) : Ctx :=
  if 65536 < (x.addBeats 0 1).tileLength then
    { c with overruns := c.overruns + 1, run := c.run.map (fun r => { r with overruns := r.overruns + 1 }) }
  else c

/-! ## The other sequencer rows (R136) -/

/-- SEQ_NOP (R136). -/
def execSeqNop (k l : Nat) (s : State) : Out := seqRow 0 0x00 (fun _ _ _ _ x => .ok x.advance) k l s
/-- SEQ_LOOP (R129). -/
def execSeqLoop (k l : Nat) (s : State) : Out := seqRow 0 0x01 (fun _ _ v w x => seqLoop v w x) k l s
/-- SEQ_ENDL (R129). -/
def execSeqEndl (k l : Nat) (s : State) : Out := seqRow 0 0x02 (fun _ _ _ _ x => seqEndl x) k l s
/-- SEQ_BRLC (R130). -/
def execSeqBrlc (k l : Nat) (s : State) : Out := seqRow 0 0x03 (fun _ _ _ w x => seqBrlc w x) k l s
/-- SEQ_FENCE (R136). -/
def execSeqFence (k l : Nat) (s : State) : Out := seqRow 0 0x06 (fun _ _ _ w x => seqFence w x) k l s
/-- SEQ_LI (R136). -/
def execSeqLi (k l : Nat) (s : State) : Out := seqRow 0 0x08 (fun _ _ _ w x => seqLi w x) k l s
/-- SEQ_LIH (R136). -/
def execSeqLih (k l : Nat) (s : State) : Out := seqRow 0 0x09 (fun _ _ _ w x => seqLih w x) k l s
/-- SEQ_ADDI (R136). -/
def execSeqAddi (k l : Nat) (s : State) : Out := seqRow 0 0x0A (fun _ _ _ w x => seqAddi w x) k l s
/-- SEQ_ADD (R136). -/
def execSeqAdd (k l : Nat) (s : State) : Out := seqRow 0 0x0B (fun _ _ _ w x => seqAlu (· + ·) w x) k l s
/-- SEQ_SUB (R136). -/
def execSeqSub (k l : Nat) (s : State) : Out := seqRow 0 0x0C (fun _ _ _ w x => seqAlu (· - ·) w x) k l s
/-- SEQ_MUL: the low 64 bits (R136). -/
def execSeqMul (k l : Nat) (s : State) : Out := seqRow 0 0x0D (fun _ _ _ w x => seqAlu (· * ·) w x) k l s
/-- SEQ_AND (R136). -/
def execSeqAnd (k l : Nat) (s : State) : Out := seqRow 0 0x0E (fun _ _ _ w x => seqAlu (· &&& ·) w x) k l s
/-- SEQ_OR (R136). -/
def execSeqOr (k l : Nat) (s : State) : Out := seqRow 0 0x0F (fun _ _ _ w x => seqAlu (· ||| ·) w x) k l s
/-- SEQ_XOR (R136). -/
def execSeqXor (k l : Nat) (s : State) : Out := seqRow 0 0x10 (fun _ _ _ w x => seqAlu (· ^^^ ·) w x) k l s
/-- SEQ_SHL (R136). -/
def execSeqShl (k l : Nat) (s : State) : Out := seqRow 0 0x11 (fun _ _ _ w x => seqShift (· <<< ·) w x) k l s
/-- SEQ_SHR (R136). -/
def execSeqShr (k l : Nat) (s : State) : Out := seqRow 0 0x12 (fun _ _ _ w x => seqShift (· >>> ·) w x) k l s
/-- SEQ_RDLC (R136). -/
def execSeqRdlc (k l : Nat) (s : State) : Out := seqRow 0 0x13 (fun _ _ _ w x => seqRdlc w x) k l s
/-- SEQ_RDID (R136). -/
def execSeqRdid (k l : Nat) (s : State) : Out := seqRow 0 0x14 (fun _ _ v w x => seqRdid v w x) k l s

/-! ## Check and gate rows (R144, R145) -/

/-- CK_RDF (R144). -/
def execCkRdf (k l : Nat) (s : State) : Out := seqRow 7 0x00 (fun _ _ _ w x => ckRdf w x) k l s
/-- CK_CLRF (R144). -/
def execCkClrf (k l : Nat) (s : State) : Out := seqRow 7 0x01 (fun _ _ _ w x => ckClrf w x) k l s
/-- CK_CAP (R144, 03 R91). -/
def execCkCap (k l : Nat) (s : State) : Out := seqRow 7 0x02 (fun _ _ _ w x => ckCap w x) k l s
/-- CK_POISON (R144, 07 R213). -/
def execCkPoison (k l : Nat) (s : State) : Out := seqRow 7 0x03 (fun _ _ _ w x => ckPoison x.writesInto w x) k l s

/-- The vote of a core goes to the step driver for its STEP (R145, 09 R272): after a gt.wait of the attempt it is a result vote,
otherwise a gate vote, of which only the core's first counts. -/
def sendVote (s : State) (k l : Nat) (x : Core) (c : Ctx) : State :=
  let v := ((s.env c l x).wordAt x).elim true (fun w => x.vote w)
  let s := s.putCtx k c
  match c.stepOf with
  | none => s
  | some st =>
    if st.waited.contains l then s.setStep k { st with results := nset st.results l v }
    else if nmem st.votes l then s
    else tryGate (s.setStep k { st with votes := nset st.votes l v }) k st.cmd

/-- GT_VOTE (R145); in twin mode the vote is held unless the shadow's digest of it is the same (11 R320). -/
def execGtVote (k l : Nat) (shadow : W64) (s : State) : Out :=
  seqRowWith 8 0x00 (fun _ c _ w x => if c.desc.twin && voteDigest (x.vote w) != shadow then .wait else gtVote x) sendVote k l s

/-- The decision that the step driver has returned for the context's STEP (R145, 09 R275). -/
def Ctx.gateDecision (c : Ctx) : Option Gate :=
  match c.stepOf with
  | none => none
  | some r => r.decision.map (fun b => if b then Gate.apply else Gate.skip)

/-- The core has passed a gt.wait of the attempt. -/
def noteWait (s : State) (k l : Nat) (_ : Core) (c : Ctx) : State :=
  let s := s.putCtx k c
  match c.stepOf with
  | none => s
  | some st => s.setStep k { st with waited := if st.waited.contains l then st.waited else st.waited ++ [l] }

/-- GT_WAIT (R145). -/
def execGtWait (k l : Nat) (s : State) : Out := seqRowWith 8 0x01 (fun _ c _ _ x => gtWait c.gateDecision x) noteWait k l s
/-- GT_CLR (R145). -/
def execGtClr (k l : Nat) (s : State) : Out := seqRow 8 0x02 (fun _ _ _ _ x => gtClr x) k l s

end Sys2Proof.Machine
end

