-- ==== Sys2Proof/Machine/WadiNet.lean ====
section
/-! DEFINITION. Wadi-queue and ripple-port rows, dispatch, completion, watches and wait limits (05 R123 to R128, R142, R143, 07 R189, R198). -/

namespace Sys2Proof.Machine

/-- A command on one of the 16 wadi queues. -/
def withQueue (q : Nat) (o : Out) : Out := if 16 ≤ q then .fault .noEngine else o

/-- WQ_POST (05 R142, 07 R198, R200, R201). -/
def execWqPost (k l q : Nat) (errs : List (Nat × Flips)) (s : State) : Out :=
  withQueue q (engineRow (engWadi q) 4 0x00 0x02 errs (fun s c _ e x => wqPost q (s.remoteOk k c) (s.entriesOf k) e x) k l s)

/-- WQ_WATCH (05 R142, R143). -/
def execWqWatch (k l q : Nat) (s : State) : Out := withQueue q (engineRow (engWadi q) 4 0x01 0x02 [] (fun _ _ _ e x => wqWatch q e x) k l s)

/-- NET_SEND (05 R142, 07 R189). -/
def execNetSend (k l : Nat) (errs : List (Nat × Flips)) (s : State) : Out :=
  engineRow engRipple 5 0x00 0x03 errs (fun _ _ v e x => netSend false v e x) k l s

/-- NET_MCAST (05 R142, 07 R189, R190). -/
def execNetMcast (k l : Nat) (errs : List (Nat × Flips)) (s : State) : Out :=
  engineRow engRipple 5 0x01 0x03 errs (fun _ _ v e x => netSend true v e x) k l s

/-! ## Dispatch and completion -/

/-- SEQUENCER_DISPATCH (05 R123, R146): one sequencer active beat, in no calm (07 R185). -/
def execSequencerDispatch (k l : Nat) (s : State) : Out :=
  withCore k l s (fun c x =>
    match (s.env c l x).wordAt x with
    | none => s
    | some w =>
      if c.live && !s.net.calm && !x.seq.stopped && !x.seq.ended && !x.folded then
        s.putCtx k (c.absorb s.st.now l 0 x.seq.pos 0x03 (dispatch w (x.addBeats 0 1)))
      else s)

/-- Is an engine code one of R122? -/
def engineCode (e : Nat) : Bool := decide ((1 ≤ e ∧ e ≤ 4) ∨ (16 ≤ e ∧ e < 32))

/-- The head of a queue that has executed completes: it leaves the queue and its signal is added; a wq.watch signals nothing (R125, R143). -/
def completeHead (engine : Nat) (x : Core) : Option (Nat × CRes) :=
  match x.queue engine with
  | [] => none
  | e :: rest =>
    if e.executed then
      let y := x.setQueue engine rest
      some (e.idx, if opClass e.word = 4 ∧ opCode e.word = 1 then .ok y
        else match y.signal e.word with
          | none => .fault 0x01
          | some z => .ok z)
    else none

/-- INSTRUCTION_COMPLETION (05 R124, R125); in twin mode an output is compared first: `shadow` is the shadow's digest of it, and one that differs holds it
(11 R320). -/
def execInstructionCompletion (k l engine : Nat) (shadow : W64) (s : State) : Out :=
  if engineCode engine then
    withCore k l s (fun c x =>
      if c.live && !x.seq.stopped && !x.folded then
        match completeHead engine x with
        | none => s
        | some (idx, r) => if (x.awaits engine).any (· != shadow) then s else s.putCtx k (c.absorb s.st.now l engine idx 0x03 r)
      else s)
  else .fault .noEngine

/-- A watch that has been reached fires once and leaves the queue (05 R143). -/
def fireWatch (q i : Nat) (x : Core) : Option (Nat × CRes) :=
  let wq := x.wq q
  match wq.watches[i]? with
  | none => none
  | some w =>
    if watchReached wq.c w.value then
      let y := x.setWq q { wq with watches := wq.watches.eraseIdx i }
      some (w.idx, if w.count = 0 then .ok y else
        match y.addToken w.token w.count with
        | none => .fault 0x01
        | some z => .ok z)
    else none

/-- WATCH_FIRE (05 R143, R125). -/
def execWatchFire (k l q i : Nat) (s : State) : Out :=
  withQueue q (withCore k l s (fun c x =>
    if c.status == .running && !x.folded then
      match fireWatch q i x with
      | none => s
      | some (idx, r) => s.putCtx k (c.absorb s.st.now l (engWadi q) idx 0x02 r)
    else s))

/-! ## Wait limits (05 R127) -/

/-- What the sequencer waits for, as a fault code. -/
def seqWaitFault (c : Ctx) (v : Env) (x : Core) : Option Nat :=
  match v.wordAt x with
  | none => none
  | some w =>
    if x.seq.ended then none
    else match engineOf w with
      | some code => if queueDepth code ≤ (x.queue code).length then some 0x06 else none
      | none =>
        if !x.tokenReady w ∧ x.seq.waitTarget = none then some 0x02
        else if opClass w = 8 ∧ opCode w = 1 ∧ c.gateDecision = none then some 0x05
        else none

/-- What the head of an engine's queue waits for, as its index and a fault code. -/
def headWaitFault (engine : Nat) (x : Core) : Option (Nat × Nat) :=
  match x.queue engine with
  | [] => none
  | e :: _ =>
    if e.executed then none
    else if !x.midBlock engine && !x.tokenReady e.word then some (e.idx, 0x02)
    else if opClass e.word = 5 ∧ 4 ≤ x.sends.length then some (e.idx, 0x04)
    else if opClass e.word = 4 ∧ opCode e.word = 1 ∧ 8 ≤ (x.wq (engine - 16)).watches.length then some (e.idx, 0x06)
    else if opClass e.word = 4 ∧ opCode e.word = 0 ∧ 120 ≤ x.outstanding then some (e.idx, 0x06)
    else none

/-- The waits of a core now: engine, fault and instruction. -/
def waitsNow (c : Ctx) (v : Env) (x : Core) : List (Nat × Nat × Nat) :=
  ((seqWaitFault c v x).map (fun f => (0, f, x.seq.pos))).toList ++ allEngines.filterMap (fun e => (headWaitFault e x).map (fun h => (e, h.2, h.1)))

/-- Does a wait go on: the same engine, fault and instruction, with no active beat of the engine since? -/
def Wait.same (w : Wait) (x : Core) (n : Nat × Nat × Nat) : Bool :=
  w.engine == n.1 && w.fault == n.2.1 && w.idx == n.2.2 && w.stamp == sget x.beats n.1

/-- One unit of System Time passes for a core's waits and pending watches. -/
def Core.waitOne (x : Core) (now : List (Nat × Nat × Nat)) : Core :=
  { x with
    waits := now.map (fun n => ⟨n.1, n.2.1, n.2.2, sget x.beats n.1, ((x.waits.find? (fun w => w.same x n)).map Wait.lasted).elim 0 (· + 1)⟩)
    wadi := x.wadi.map (fun q => (q.1, { q.2 with watches := q.2.watches.map (fun w => { w with lasted := w.lasted + 1 }) })) }

/-- Waits are measured while a core is resident: not while its context is saved, nor while another logical core has its host (R127). -/
def Ctx.waitTick (c : Ctx) (env : Nat → Core → Env) : Ctx :=
  if c.status == .running then
    { c with cores := c.cores.map (fun y => (y.1, if y.2.folded || y.2.inSlot || y.2.seq.stopped then y.2 else y.2.waitOne (waitsNow c (env y.1 y.2) y.2))) }
  else c

/-- Has the wait of an engine lasted longer than a limit? Its instruction and fault. -/
def Core.overWait (x : Core) (limit : Nat) (now : Option (Nat × Nat)) (engine : Nat) : Option (Nat × Nat) :=
  match now with
  | none => none
  | some (idx, f) => if x.waits.any (fun w => w.same x (engine, f, idx) && decide (limit < w.lasted)) then some (idx, f) else none

/-- A pending watch that has not been reached within a limit. -/
def pendingWatch (engine limit : Nat) (x : Core) : Option (Nat × Nat) :=
  let wq := x.wq (engine - 16)
  (wq.watches.find? (fun w => !watchReached wq.c w.value && decide (limit < w.lasted))).map (fun w => (w.idx, 0x03))

/-- WAIT_LIMIT_EXPIRY (05 R127): the wait of a head, of the sequencer (engine 0) or of a pending watch has lasted longer than the limit. -/
def execWaitLimitExpiry (k l engine : Nat) (watch : Bool) (s : State) : Out :=
  if engine = 0 ∨ engineCode engine then
    withCore k l s (fun c x =>
      if c.live && !x.seq.stopped && !x.folded then
        let found := if watch then (if 16 ≤ engine then pendingWatch engine c.waitLimit x else none)
          else x.overWait c.waitLimit (if engine = 0 then (seqWaitFault c (s.env c l x) x).map (fun f => (x.seq.pos, f)) else headWaitFault engine x) engine
        match found with
        | none => s
        | some (idx, f) => s.putCtx k (c.absorb s.st.now l engine idx 0x03 (.fault f))
      else s)
  else .fault .noEngine

end Sys2Proof.Machine
end

