-- ==== Sys2Proof/Machine/Teardown.lean ====
section
/-! DEFINITION. Captures, the death of a context and its teardown (05 R147, R148, 13 R378, R379, 14 R383 to R388). -/

namespace Sys2Proof.Machine

/-! ## Captures (14 R385 to R388) -/

/-- Engines in the order of a core record: codes 0 to 4, then the wadi queues. -/
def recordEngines : List Nat := [0, 1, 2, 3, 4] ++ (List.range 16).map (16 + ·)

/-- The state of an engine as a capture shows it (14 R388). -/
def engineState (c : Ctx) (v : Env) (x : Core) (e : Nat) : Nat :=
  if c.status == .saved || x.folded then 0x0A
  else if x.seq.stopped then 0x09
  else if e = 0 then
    (if x.seq.ended then 0x00
     else if x.seq.waitTarget.isSome then 0x07
     else match v.wordAt x with
       | none => 0x00
       | some w =>
         match engineOf w with
         | some code => if queueDepth code ≤ (x.queue code).length then 0x05 else 0x01
         | none =>
           if !x.tokenReady w then 0x02
           else if opClass w = 8 ∧ opCode w = 1 ∧ c.gateDecision = none then 0x06
           else if opClass w = 0 ∧ (opCode w = 5 ∨ opCode w = 6 ∨ opCode w = 7) then 0x08 else 0x01)
  else match x.queue e with
    | [] => if 16 ≤ e ∧ !(x.wq (e - 16)).watches.isEmpty then 0x03 else 0x00
    | h :: _ =>
      if h.executed then 0x01
      else match headWaitFault e x with
        | some (_, 0x02) => 0x02
        | some (_, 0x04) => 0x04
        | some _ => 0x05
        | none => 0x01

/-- A core record of 256 bytes (14 R387). -/
def coreRecord (s : State) (c : Ctx) (l : Nat) (x : Core) : List Byte :=
  let (die, phys) := (s.coreAt c l).getD (0, 0)
  let v := s.env c l x
  leBytes 2 l ++ [BitVec.ofNat 8 phys, BitVec.ofNat 8 die] ++ leBytes 2 x.seq.pos ++ zeros 2 ++ leBytes 8 x.tileIndex.toNat
    ++ (List.range 32).flatMap (fun i => leBytes 4 (x.token i)) ++ (List.range 16).flatMap (fun q => leBytes 4 (x.wq q).c.toNat)
    ++ recordEngines.map (fun e => BitVec.ofNat 8 (engineState c v x e)) ++ recordEngines.map (fun e => BitVec.ofNat 8 (x.queue e).length)
    ++ zeros 6

/-- A fault record of 16 bytes (14 R387). -/
def FaultRec.bytes (f : FaultRec) : List Byte :=
  [BitVec.ofNat 8 f.code, BitVec.ofNat 8 f.engine] ++ leBytes 2 f.instr ++ leBytes 2 f.core ++ zeros 2 ++ leBytes 8 f.time.toNat

/-- Order of fault records: logical core, then engine code (05 R148). -/
def FaultRec.le (a b : FaultRec) : Bool := decide (a.core < b.core ∨ (a.core = b.core ∧ a.engine ≤ b.engine))

def insertFault (f : FaultRec) : List FaultRec → List FaultRec
  | [] => [f]
  | g :: r => if f.le g then f :: g :: r else g :: insertFault f r

def sortFaults (l : List FaultRec) : List FaultRec := l.foldr insertFault []

/-- The collective that a context has active. -/
def State.activeColl (s : State) (k : Nat) : Option Coll := s.colls.find? (fun x => x.ctx == k)

/-- Chunks of a collective (08 R239). -/
def CollDesc.chunks (d : CollDesc) : Nat := ceilDiv d.n 512

def captureArea : Nat := 0x10DFFF000000
def captureSlot : Nat := 262144

/-- The bytes of a capture (14 R386). -/
def captureBytes (s : State) (k : Nat) (c : Ctx) (cause tag opcode resetKind : Nat) : List Byte :=
  let records := sortFaults c.faults
  let n := min 64 records.length
  let size := 1280 + 256 * c.cores.length
  let coll := s.activeColl k
  let step := (c.run.map (fun r => r.step.toNat)).getD 0xFFFFFFFFFFFFFFFF
  ascii "VXCAPTUR" ++ leBytes 2 s.nextCapture.toNat ++ [BitVec.ofNat 8 cause, BitVec.ofNat 8 k] ++ leBytes 2 c.epoch.toNat ++ leBytes 2 tag
    ++ [BitVec.ofNat 8 opcode, BitVec.ofNat 8 resetKind] ++ leBytes 2 n ++ leBytes 4 c.cores.length ++ leBytes 8 s.st.now.toNat
    ++ leBytes 6 s.net.ripple.toNat ++ zeros 2 ++ leBytes 8 step
    ++ leBytes 8 (if cause = 3 then (c.poison.map (·.1)).getD 0 else 0) ++ [BitVec.ofNat 8 (if cause = 3 then (c.poison.map (·.2)).getD 0 else 0)] ++ zeros 3
    ++ leBytes 4 (match coll with | none => 0xFFFFFFFF | some x => x.desc.id.toNat)
    ++ leBytes 4 (match coll with | none => 0 | some x => x.desc.chunks - x.done.length) ++ leBytes 4 size ++ zeros 184
    ++ (records.take 64).flatMap FaultRec.bytes ++ zeros (16 * (64 - n))
    ++ c.cores.flatMap (fun x => coreRecord s c x.1 x.2)

/-- A capture is taken (14 R385): its slot of the capture area is written, the oldest capture there is overwritten. -/
def State.capture (s : State) (k : Nat) (cause tag opcode resetKind : Nat) : State :=
  match s.ctx? k with
  | none => s
  | some c =>
    let bytes := captureBytes s k c cause tag opcode resetKind
    let slot := s.nextCapture.toNat % 64
    let s := s.store (captureArea + captureSlot * slot) bytes
    { s with captures := nset s.captures slot ⟨s.nextCapture, bytes, false⟩, nextCapture := s.nextCapture + 1 }

/-! ## Closing (13 R378 steps 1 and 2) -/

/-- A collective abort message: byte 1 says whether the step may be executed again (08 R246; its fields after the type: DESIGN CHOICE log 32). -/
def abortMessage (job : W64) (cid : W32) (dest : Nat) (again : Bool) : List Byte := [0x09, if again then 1 else 0] ++ leBytes 2 dest ++ leBytes 8 job.toNat ++ leBytes 4 cid.toNat

/-- Every other rank of a job is told. -/
def State.tellJob (s : State) (c : Ctx) (bytes : Nat → List Byte) : State :=
  ((List.range c.desc.modules).filter (· != c.desc.rank)).foldl (fun s r => s.postTo c.desc.job r (bytes r)) s

/-- The collectives of a context end, and every participant is told, and whether the inputs for another attempt are still there (08 R246). -/
def State.abortColls (s : State) (k : Nat) (c : Ctx) (again : Bool) : State :=
  let mine := s.colls.filter (fun x => x.ctx == k)
  let s := { s with colls := s.colls.filter (fun x => x.ctx != k) }
  mine.foldl (fun s x => s.tellJob c (fun r => abortMessage c.desc.job x.desc.id r again)) s

/-- A core of a closing context: stopped, its queued descriptors cancelled, its unlaunched sends dropped (R378 step 2). -/
def Core.cancel (x : Core) : Core :=
  { x with
    seq := { x.seq with stopped := true }
    sends := []
    wadi := x.wadi.map (fun q => (q.1, { q.2 with watches := [], descs := q.2.descs.filter (fun d => d.inFlight != 0) |>.map (fun d => { d with spans := [] }) })) }

/-- Samples of a context that ends: those of open tiles go, those taken stay. -/
def State.endSamples (s : State) (k : Nat) : State :=
  let kept := s.faults.samples.filter (fun x => !(x.ctx == k && x.state == 0))
  let kept := updWhere kept (fun x => x.ctx == k) (fun x => { x with alive := false })
  { s with faults := { s.faults with samples := kept } }

/-- A context enters Closing: collectives aborted, claims withdrawn, windows and unsent packets gone, every core stopped. Samples of tiles that
were open end uncounted; those taken stay (11 R331). -/
def State.beginClose (s : State) (k : Nat) : State :=
  match s.ctx? k with
  | none => s
  | some c =>
    if c.status == .closing then s
    else
      let s := (s.abortColls k c false).endSamples k
      let s := s.putCtx k { c with status := .closing, closedAt := s.st.now, run := none, steps := [], rounds := [], preempt := false,
                                   cores := c.cores.map (fun x => (x.1, x.2.cancel)) }
      { s with seif := { s.seif with
          claims := s.seif.claims.filter (fun x => !(x.own && x.job == c.desc.job && x.rank == c.desc.rank))
          ready := s.seif.ready.filter (fun x => x.ctx != k)
          windows := s.seif.windows.filter (fun x => x.ctx != k)
          pacing := s.seif.pacing.filter (fun x => x.ctx != k) } }

/-- Identifiers of the commands of a context that have been fetched and not replied to. -/
def State.cmdsOf (s : State) (k : Nat) : List HostCmd :=
  s.host.cmds.filter (fun c => c.opcode ∈ [0x02, 0x03, 0x05, 0x06, 0x07, 0x08, 0x09, 0x0A, 0x0B] ∧ c.fieldAt 8 1 = k)

/-- Complete a list of commands with one code. -/
def State.completeAll (s : State) (ids : List Nat) (code : Nat) : State := ids.foldl (fun s id => s.complete id code 0 []) s

/-! ## Death by a fault or by poison (05 R147, 11 R332) -/

/-- Bytes 16 to 23 of a job-fatal reply (05 R147). -/
def fatalTail (c : Ctx) : List Byte :=
  match sortFaults c.faults with
  | [] => zeros 8
  | f :: _ => [BitVec.ofNat 8 f.code, BitVec.ofNat 8 f.engine] ++ leBytes 2 f.instr ++ leBytes 2 f.core ++ leBytes 2 (min 65535 c.faults.length)

/-- The command that the context's program serves. -/
def State.runCmd (s : State) (c : Ctx) : Option HostCmd := (c.run.bind (·.cmd)).bind s.cmd?

/-- The job learns that this context's open steps fail without re-execution (09 R280). -/
def tellFailures (s : State) (k : Nat) (c : Ctx) (poison : Bool) : State :=
  (c.steps.filter StepRun.open').foldl (fun s st => tellFailure s k c st false poison) s

/-- A context dies with a completion code: capture, job-fatal event, its RUN or STEPs complete with the code and its other commands with BUSY_CLOSING,
teardown begins (R379). -/
def State.die (s : State) (k : Nat) (c : Ctx) (code cause : Nat) (tail : List Byte) : State :=
  let cmd := s.runCmd c
  let s := s.capture k cause ((cmd.map (fun x => x.tag.toNat)).getD 0) ((cmd.map HostCmd.opcode).getD 0) 0
  let s := s.raise { level := 5, source := 5, ctx := some k, tag := cmd.map HostCmd.tag, code := BitVec.ofNat 8 code,
                     reg := some (0x60000 + 4 * k), step := c.run.map RunPhase.step, count := c.faults.length }
  let runs := (s.cmdsOf k).filter (fun x => x.started && (x.opcode == 0x06 || x.opcode == 0x07))
  let s := runs.foldl (fun s x => s.complete x.id code 0 tail) s
  let s := s.completeAll ((s.cmdsOf k).map (·.id)) 0x20
  (tellFailures s k c (cause == 3)).beginClose k

/-- The stop of a faulted context is complete: poison wins over the fault (R147). -/
def stopContext (s : State) (k : Nat) (c : Ctx) : State :=
  if c.stopping && c.status != .closing then
    if c.poison.isSome then s.die k c 0x30 3 (fatalTail c) else s.die k c 0x31 2 (fatalTail c)
  else s

/-- CONTEXT_FAULT_STOP (05 R147, 11 R332). -/
def execContextFaultStop (k : Nat) (s : State) : Out := withCtx k s (stopContext s k)

/-! ## Quiescence (13 R378 steps 3 and 4) -/

/-- Has every unit that worked for a closing context finished: no request or packet of its epoch in flight, no collective? -/
def State.quiet (s : State) (k : Nat) : Bool :=
  s.net.requests.all (fun r => r.ctx != k) && s.net.packets.all (fun p => p.ctx != k) && s.colls.all (fun x => x.ctx != k)
    && s.mesa.signQueue.all (fun q => q.1 != k) && s.rst.inProgress.all (fun r => r.ctx != some k)

/-- The number becomes Absent: translation entries, grants, fences, save area and cores are released. -/
def State.release (s : State) (k : Nat) : State :=
  { s with xlate := s.xlate.filter (fun e => e.2.ctx != k), ctxs := ndel s.ctxs k
           seif := { s.seif with peers := s.seif.peers.filter (fun p => p.ctx != k) } }

/-- TEARDOWN_QUIESCENCE (13 R378): the last step of a closure; a DESTROY_CONTEXT in progress completes with OK. -/
def execTeardownQuiescence (k : Nat) (s : State) : Out :=
  withCtx k s (fun c =>
    if c.status == .closing && s.quiet k then
      let s := s.release k
      (match c.closeCmd with
       | none => s
       | some id => s.complete id 0x00 0 [])
    else s)

end Sys2Proof.Machine
end

