-- ==== Sys2Proof/Machine/Network.lean ====
section
/-! DEFINITION. Ripples, and packets on the ripple plane (01 R22 to R24, 07 R183 to R192). -/

namespace Sys2Proof.Machine

/-! ## Launches of sends (07 R184, R189, R190) -/

/-- The hops of a slot after a hop, by number; 0 stands for the source. -/
def hopsAfter (hops : List PlanHop) (after : Nat) : List Nat := (List.range hops.length).filter (fun i => (hops[i]?).any (fun h => h.after == after))

/-- The ripple of a frame in which a slot launches: that of its earliest first hop. -/
def launchRipple (hops : List PlanHop) : Option Nat :=
  ((hopsAfter hops 0).filterMap (fun i => (hops[i]?).map (·.ripple))).min?

/-- Hops of a list whose ripple has come. -/
def dueHops (hops : List PlanHop) (base ripple : Nat) (left : List Nat) : List Nat :=
  left.filter (fun i => (hops[i]?).any (fun h => decide (base + h.ripple ≤ ripple)))

/-- A send buffer begins its launch if the slot's ripple of the frame has come and no packet of the slot has taken the frame. -/
def bindSend (plan : Plan) (start ripple : Nat) (a : List SendBuf × List (Nat × Nat)) (b : SendBuf) : List SendBuf × List (Nat × Nat) :=
  let hops := plan.slots.getD b.slot []
  let frameNo := (ripple - start) / plan.frame
  if b.launch.isNone && launchRipple hops == some ((ripple - start) % plan.frame) && !a.2.contains (b.slot, frameNo) then
    (a.1 ++ [{ b with launch := some ⟨start + frameNo * plan.frame, hops, hopsAfter hops 0⟩ }], a.2 ++ [(b.slot, frameNo)])
  else (a.1 ++ [b], a.2)

/-- A packet of a send buffer on a first hop. -/
def SendBuf.packet (b : SendBuf) (k : Nat) (c : Ctx) (l id : Nat) (n : Launch) (hop : Nat) : Packet :=
  { id := id, ctx := k, epoch := c.epoch, src := l, dest := b.dest, granule := b.granule, slot := b.slot, token := b.token, signal := b.signal,
    bytes := b.bytes, poison := b.poison, base := n.base, hops := n.hops, hop := hop, moving := true, left := [], lost := false }

/-- The first hops of a send buffer that are due: their packets, and the buffer while it has hops left. -/
def emitSend (ripple k : Nat) (c : Ctx) (l : Nat) (a : List Packet × List SendBuf × Nat) (b : SendBuf) : List Packet × List SendBuf × Nat :=
  match b.launch with
  | none => (a.1, a.2.1 ++ [b], a.2.2)
  | some n =>
    let due := dueHops n.hops n.base ripple n.left
    let rest := n.left.filter (fun i => !due.contains i)
    (a.1 ++ due.mapIdx (fun i h => b.packet k c l (a.2.2 + i) n h), if rest.isEmpty then a.2.1 else a.2.1 ++ [{ b with launch := some { n with left := rest } }],
      a.2.2 + due.length)

/-- A context's sends begin while it runs and its frame has begun: at most one packet of a slot in a frame, in the order of the send buffers; one whose
twin digest has not matched is held (11 R320). -/
def Ctx.bindSends (c : Ctx) (ripple : Nat) : Ctx :=
  match c.plan with
  | none => c
  | some plan =>
    if c.live && c.program.isSome && decide (c.frameStart ≤ ripple) then
      c.cores.foldl (fun c y =>
        if y.2.folded then c
        else
          let held := if (y.2.awaits engRipple).isSome then 1 else 0
          let (sends, taken) := (y.2.sends.take (y.2.sends.length - held)).foldl (bindSend plan c.frameStart ripple) ([], c.taken)
          { c.putCore y.1 { y.2 with sends := sends ++ y.2.sends.drop (y.2.sends.length - held) } with taken := taken.filter (fun t => (ripple - c.frameStart) / plan.frame ≤ t.2 + 1) }) c
    else c

/-- Launch the first hops of a context that are due in this ripple. -/
def launchCtx (s : State) (k : Nat) : State :=
  match s.ctx? k with
  | none => s
  | some c =>
    let ripple := s.net.ripple.toNat
    let c := c.bindSends ripple
    c.cores.foldl (fun s y =>
      let (pk, sends, next) := y.2.sends.foldl (emitSend ripple k c y.1) ([], [], s.net.nextId)
      let s := { s with net := { s.net with packets := s.net.packets ++ pk, nextId := next } }
      s.updCtx k (fun c => c.putCore y.1 { y.2 with sends := sends })) (s.putCtx k c)

/-- Packets in forwarding buffers travel on: one copy for each outgoing hop that is due (R183, R190). -/
def forwardOne (ripple : Nat) (a : List Packet × Nat) (p : Packet) : List Packet × Nat :=
  if p.moving then (a.1 ++ [p], a.2)
  else
    let due := dueHops p.hops p.base ripple p.left
    let rest := p.left.filter (fun i => !due.contains i)
    (a.1 ++ (if rest.isEmpty then [] else [{ p with left := rest }]) ++ due.mapIdx (fun i h => { p with id := a.2 + i, hop := h, moving := true, left := [] }),
      a.2 + due.length)

def State.forward (s : State) : State :=
  let (pk, next) := s.net.packets.foldl (forwardOne s.net.ripple.toNat) ([], s.net.nextId)
  { s with net := { s.net with packets := pk, nextId := next } }

/-! ## Launches on the memory plane (01 R22, R23, 07 R182, R183, R199) -/

/-- May a request make its next hop in this ripple: no other packet of the ripple takes the link that way, and the buffer at its far end is free? -/
def Net.mayHop (n : Net) (r : Request) (h : Nat × Nat) : Bool :=
  !r.moving && !n.badLinks.contains (linkOf true h)
    && n.requests.all (fun x => x.id == r.id || !(x.moving && x.route.head? == some h) && (x.moving || x.route.isEmpty || x.last != some h || r.route.length == 1))

/-- The owner of a link launches a request's next hop (R184, R199). -/
def launchRequest (n : Net) (id : Nat) : Net :=
  match n.requests.find? (fun r => r.id == id) with
  | none => n
  | some r => match r.route with
    | [] => n
    | h :: _ => if n.mayHop r h then { n with requests := updWhere n.requests (fun x => x.id == id) (fun x => { x with moving := true }) } else n

/-! ## Ripple boundaries (01 R22, 07 R184, R185) -/

/-- Is period q a calm at ratio k / 64 (R185)? -/
def isCalm (k q : Nat) : Bool := decide (q * k / 64 < (q + 1) * k / 64)

/-- Is a hop in flight on either plane? -/
def Net.inFlight (n : Net) : Bool := n.packets.any (·.moving) || n.requests.any (·.moving)

/-- A weight of SET_SHARES counts from the next ripple boundary (13 R380). -/
def Ctx.adoptWeight (c : Ctx) : Ctx := { c with desc := { c.desc with weight := c.weight } }

/-- RIPPLE_BOUNDARY (01 R22, 07 R184, R185): the ripple waits for hops in flight; the next period is a calm or the next ripple.
A boundary that a calm follows leaves the ripple number and launches nothing (log 34). `owners` are the memory-plane packets whose links are theirs in
the new ripple, in order (log 147). New share weights count (13 R380). -/
def execRippleBoundary (owners : List Nat) (s : State) : Out :=
  .next (
    if s.net.inFlight then s
    else
      let q := (s.net.calmPhase + 1) % 64
      if isCalm s.power.applied q then
        { s with net := { s.net with calmPhase := q, calm := true }, power := { s.power with calmCount := s.power.calmCount + 1 } }
      else
        let s := { s with net := { s.net with calmPhase := q, calm := false, ripple := s.net.ripple + 1 } }
        let s : State := { s with ctxs := s.ctxs.map (fun (x : Nat × Ctx) => (x.1, x.2.adoptWeight)) }
        let s := (s.ctxs.map (·.1)).foldl launchCtx s.forward
        { s with net := owners.foldl launchRequest s.net })

/-! ## Packets that arrive (07 R192) -/

def State.dropCount (s : State) (die : Nat) : State := { s with mem := { s.mem with netDrop := updAt s.mem.netDrop die (fun n => satAdd 32 n 1) } }

/-- Add to the corrected-error count of a link (R192). -/
def Net.correct (n : Net) (l : Nat × Nat × Nat) (k : Nat) : Net :=
  if k = 0 then n
  else
    let old := ((n.linkCe.find? (fun x => x.1 == l)).map (·.2)).getD 0
    { n with linkCe := n.linkCe.filter (fun x => x.1 != l) ++ [(l, old + k)] }

/-- Words of `n` in which one bit is corrected. -/
def correctedWords (n : Nat) (f : Flips) : Nat := ((errorsIn (wordOfBit n) n f).filter (· == 1)).length

/-- Words that a receiver corrects in a packet of a number of payload granules. -/
def packetCorrected (e : PacketError) (granules : Nat) : Nat :=
  correctedWords 4 e.header + ((e.payload.filter (fun x => decide (x.1 < granules))).map (fun x => correctedWords 8 x.2)).foldl (· + ·) 0

/-- The payload as its code delivers it: a granule with an error that is not correctable is poisoned (R192), one with a missed error is free (log 144). -/
def packetPayload (e : PacketError) (free : Nat) (bytes : List Byte) (poison : List Bool) : List Byte × List Bool :=
  let gs := poison.mapIdx (fun i p =>
    let g := (bytes.drop (64 * i)).take 64
    match e.payload.find? (fun x => x.1 == i) with
    | none => (g, p)
    | some x => let (b, q) := (secded 8 x.2).deliver free i g; (b, p || q))
  (gs.flatMap (·.1), gs.map (·.2))

/-- The resident context whose number and epoch a header carries (R192, 13 R378). -/
def State.carrier (s : State) (h : Header) : Option Ctx :=
  match s.ctx? h.ctx with
  | none => none
  | some c => if c.epoch = h.epoch ∧ c.status ≠ .closing ∧ c.status ≠ .absent then some c else none

/-- The core that sent a packet becomes a suspect. -/
def State.suspectSender (s : State) (k l : Nat) : State :=
  match (s.ctx? k).bind (fun c => (s.coreAt c l).map (fun h => (c, h))) with
  | none => s
  | some (c, d, p) => s.report (coreKey d p) 0x0A { ctx := some k, job := c.desc.job, rank := c.desc.rank }

/-- Add a signal from a packet to a token; past the end raises TOKEN_OVERFLOW with engine 0x04 and index 0xFFFF (05 R125). -/
def Ctx.arriveSignal (c : Ctx) (now : W64) (l token : Nat) (x : Core) : Ctx :=
  match x.addToken token 1 with
  | some y => c.putCore l y
  | none => (c.putCore l x).raiseFault now l 0x04 0x01 0xFFFF

/-- A packet is written at one of its destinations, with poison by granule, and then signals. -/
def deliverTo (now : W64) (granule : Nat) (bytes : List Byte) (poison : List Bool) (signal : Option Nat) (c : Ctx) (l : Nat) : Ctx :=
  match c.core? l with
  | none => c
  | some x =>
    let y := x.spWriteGranules granule bytes poison
    match signal with
    | some t => c.arriveSignal now l t y
    | none => c.putCore l y

/-- The hop that a packet makes. -/
def Packet.planHop (p : Packet) : PlanHop := (p.hops[p.hop]?).getD ⟨noLink, 0, 0, 0, []⟩

/-- The header of a ripple send (R191); the destination of a multicast is its group (log 147). -/
def Packet.header (p : Packet) : Header :=
  { epoch := p.epoch, ctx := p.ctx, kind := 0, core := p.src, queue := 0, dest := p.dest, granule := p.granule, tag := p.slot, token := p.token,
    signal := p.signal, poison := p.poison, remote := 0 }

/-- What is written where the header of a slot's packet is lost: every granule of the slot's window as poisoned, and the planned signal (R192; the signal:
log 35). -/
def lostTo (now : W64) (p : Packet) (c : Ctx) (l : Nat) : Ctx :=
  match c.program.bind (fun g => g.slotMap.slots[p.slot]?) with
  | none => c
  | some e => deliverTo now e.base (List.replicate (64 * e.length) 0) (List.replicate e.length true) (if p.signal then some p.token else none) c l

/-- A packet leaves its link: it waits in the forwarding buffer for the hops after this one, or is gone. -/
def State.landPacket (s : State) (p : Packet) : State :=
  let rest := hopsAfter p.hops (p.hop + 1)
  let others := s.net.packets.filter (fun x => x.id != p.id)
  { s with net := { s.net with packets := if rest.isEmpty then others else others ++ [{ p with moving := false, left := rest }] } }

/-- A packet is discarded and counted on the die of its receiver. -/
def State.discardPacket (s : State) (p : Packet) : State :=
  ({ s with net := { s.net with packets := s.net.packets.filter (fun x => x.id != p.id) } } : State).dropCount (nodeDie p.planHop.node)

/-- A packet whose header is lost: its members' windows are poisoned, and it travels on as lost (log 145). -/
def State.landLost (s : State) (p : Packet) : State :=
  let members : List Nat := match s.ctx? p.ctx with
    | none => []
    | some c => if c.epoch = p.epoch ∧ c.status ≠ .closing then p.planHop.members else []
  (members.foldl (fun s l => s.atHome p.ctx l (fun c => lostTo s.st.now p c l)) s).landPacket { p with lost := true }

/-- The checks of R192 on a ripple packet at the end of a hop. -/
def arriveRipple (s : State) (p : Packet) (err : PacketError) : State :=
  let h := p.planHop
  let granules := p.poison.length
  let s := { s with net := s.net.correct h.link (packetCorrected err granules) }
  if p.lost then s.landLost p
  else match receivedHeader (p.header.bytes granules) err.header err.read with
    | none =>
      let s := (s.dropCount (nodeDie h.node)).landLost p
      (match s.ctx? p.ctx with
       | none => s.report (linkKey h.link) 0x0A {}
       | some c => s.report (linkKey h.link) 0x0A { ctx := some p.ctx, job := c.desc.job, rank := c.desc.rank })
    | some b =>
      match (Header.read b).bind (fun r => (s.carrier r).map (fun c => (r, c))) with
      | none => s.discardPacket p
      | some (r, _) =>
        if badPacket b then (s.discardPacket p).suspectSender p.ctx p.src
        else
          let (bytes, poison) := packetPayload err s.freeCount p.bytes (p.poison.zipWith (· || ·) (r.poison ++ List.replicate granules false))
          let s := if err.payload.isEmpty then s else s.spend
          let s := h.members.foldl (fun s l =>
            s.atHome r.ctx l (fun c => deliverTo s.st.now r.granule bytes poison (if r.signal then some r.token else none) c l)) s
          s.landPacket { p with bytes := bytes, poison := poison }

end Sys2Proof.Machine
end

