-- ==== Sys2Proof/Machine/Transfers.lean ====
section
/-! DEFINITION. Wadi transfers: their requests on the memory plane, from issue to completion (07 R191, R192, R198 to R203, 08 R226, 12 R464). -/

namespace Sys2Proof.Machine

/-! ## Requests and their transfers -/

/-- Change one descriptor of a queue of a core. -/
def Core.updDesc (x : Core) (q id : Nat) (f : Desc → Desc) : Core :=
  let w := x.wq q
  x.setWq q { w with descs := updWhere w.descs (fun d => d.id == id) f }

/-- A request leaves the networks, with what a Seif port holds of it. -/
def State.dropRequest (s : State) (id : Nat) : State :=
  { s with net := { s.net with requests := s.net.requests.filter (fun x => x.id != id) },
           seif := { s.seif with peers := s.seif.peers.filter (fun x => x.request != some id) } }

/-- The context, core and descriptor of a request's transfer, while its context carries on. -/
def State.transferOf (s : State) (r : Request) : Option (Ctx × Core × Desc) :=
  match s.ctx? r.ctx with
  | none => none
  | some c =>
    if c.epoch ≠ r.epoch then none
    else (c.core? r.core).bind (fun x => ((x.wq r.q).descs.find? (fun d => d.id == r.desc)).map (fun d => (c, x, d)))

/-- A request of a transfer ends. -/
def State.endRequest (s : State) (r : Request) : State :=
  let s := s.dropRequest r.id
  match s.transferOf r with
  | none => s
  | some (c, x, _) => s.putCtx r.ctx (c.putCore r.core (x.updDesc r.q r.desc (fun d => { d with inFlight := d.inFlight - 1 })))

/-- Replace a request. -/
def State.putRequest (s : State) (r : Request) : State := { s with net := { s.net with requests := updWhere s.net.requests (fun x => x.id == r.id) (fun _ => r) } }

/-- The die of the core that a request's data is for. -/
def State.requestDie (s : State) (r : Request) : Nat := (((s.ctx? r.ctx).bind (fun c => s.coreAt c r.core)).map (·.1)).getD ((s.ctx? r.ctx).elim 0 (·.die))

/-- Whole granules at offsets from a granule of the scratchpad. -/
def Core.writeOffsets (x : Core) (g : Nat) : List Nat → List Byte → List Bool → Core
  | o :: os, b, p :: ps => (x.spWrite (64 * (g + o)) (b.take 64) p).writeOffsets g os (b.drop 64) ps
  | _, _, _ => x

/-- Whole granules at offsets from an address of near or far memory. -/
def State.storeOffsets (s : State) (a : Nat) : List Nat → List Byte → List Bool → State
  | o :: os, b, p :: ps => (s.storePart (a + 64 * o) (b.take 64) p).storeOffsets a os (b.drop 64) ps
  | _, _, _ => s

/-- The data of a read is written in the scratchpad and the request ends. A skipped post moves no data (R200); data of a closing or later context is
discarded and counted (R192, 13 R378). -/
def State.finishRead (s : State) (r : Request) : State :=
  let die := s.requestDie r
  let skipped := (s.transferOf r).any (fun t => t.2.2.skipped)
  let s := s.endRequest r
  match s.ctx? r.ctx with
  | none => s.dropCount die
  | some c =>
    if c.epoch ≠ r.epoch ∨ c.status = .closing then s.dropCount die
    else match c.core? r.core with
      | none => s
      | some x => if skipped then s else s.putCtx r.ctx (c.putCore r.core (x.writeOffsets r.granule r.offsets r.bytes r.poison))

/-! ## Endpoints (R199, R203, R213, 08 R226, R227) -/

/-- Poison for every granule of a request, with zero data. -/
def Request.allPoison (r : Request) : Request := { r with bytes := zeros (64 * r.offsets.length), poison := r.offsets.map (fun _ => true) }

/-- A peer-window request as a Seif packet of the entry's flow (08 R226): a write with its data, or a read request, which carries no count (log 38). -/
def peerPacket (c : Ctx) (r : Request) (rank flow remote tag : Nat) : SeifPacket :=
  let p := writePacket c.desc.job c.desc.rank rank flow tag remote r.bytes r.poison
  if r.write then p else { p with kind := 2, len := 0, poison := 0, payload := [] }

/-- A write reaches the host window: it leaves on the bus, but for the first poisoned granule and what follows it, which makes the poison visible. -/
def hostWrite (s : State) (r : Request) (bus : Nat) : State :=
  let s := s.endRequest r
  match r.poison.findIdx? (· == true) with
  | none => s.busWrite bus r.bytes
  | some n =>
    let a := r.addr + 64 * r.offsets.getD n 0
    (s.updCtx r.ctx (fun c => if c.epoch = r.epoch then c.raisePoison a 0x01 else c)).busWrite bus (r.bytes.take (64 * n))

/-- A request toward a rank reaches the hub: it becomes a Seif packet. -/
def peerRequest (s : State) (r : Request) (c : Ctx) (rank flow remote : Nat) : State :=
  let tag := s.seif.nextTag
  let port := (s.egress c.desc.job rank).getD 18
  let s := s.putRequest { r with tag := tag }
  let s := { s with seif := { s.seif with nextTag := tag + 1, peers := s.seif.peers ++ [(PeerXfer.mk tag (some r.id) r.ctx rank r.write s.st.now)] } }
  s.addReady ⟨r.ctx, port, peerPacket c r rank flow remote tag, s.st.now⟩

/-- The endpoint of a request: a memory controller of a die, or the hub. -/
def State.endpoint (s : State) (r : Request) : MemEnd :=
  match r.target with
  | .near _ => let (d, p, _) := s.placeOf (r.addr + 64 * r.offsets.getD 0 0); .controller d (controllerOf d p)
  | _ => .hub

/-- The hops of a request to its endpoint and back, on the routes of now. -/
def State.memRoutes (s : State) (r : Request) : Option (List Hop × List Hop) :=
  (s.ctx? r.ctx).bind (fun c => (s.coreAt c r.core).bind (fun h => (s.mesh true c).memRoute (136 * h.1 + h.2) (s.endpoint r)))

/-- An endpoint answers a read: the data travels back to the core. -/
def State.answerRead (s : State) (r : Request) (bytes : List Byte) (poison : List Bool) : State :=
  let back := ((s.memRoutes r).map (·.2)).getD []
  s.putRequest { r with bytes := bytes, poison := poison, served := true, route := back, last := none }

/-- An endpoint answers a read with poison (R203). -/
def State.answerPoison (s : State) (r : Request) : State := s.answerRead r r.allPoison.bytes r.allPoison.poison

/-- Has a rank departed from a job (08 R247)? -/
def State.hasDeparted (s : State) (job : W64) (rank : Nat) : Bool := (s.route? job rank).any (·.departed)

/-- A write to a rank that has departed completes with a warning that names the rank; a read of it arrives poisoned (08 R227, R203). -/
def State.endPeer (s : State) (r : Request) (rank : Nat) : State :=
  if r.write then (s.endRequest r).raise { level := 2, source := 3, ctx := some r.ctx, count := rank } else s.answerPoison r

/-- A request stands at the hub. Reads of the host window and far-memory requests wait there to be served. -/
def State.atHub (s : State) (r : Request) : State :=
  match r.target, s.ctx? r.ctx with
  | .host _ bus, _ => if r.write then hostWrite s r bus else s
  | .peer _ rank flow remote, some c => if s.hasDeparted c.desc.job rank then s.endPeer r rank else peerRequest s r c rank flow remote
  | _, _ => s

/-! ## Lost transfers (R203) -/

/-- A number that names a suspect key: unit kind, die, index. -/
def SuspectKey.number (x : SuspectKey) : Nat := x.kind * 2 ^ 32 + x.die * 2 ^ 16 + x.index

/-- A write whose granules are all poisoned reaches its destination. -/
def State.poisonWrite (s : State) (r : Request) : State :=
  match r.target with
  | .near _ | .far => (s.storeOffsets r.addr r.offsets r.allPoison.bytes r.allPoison.poison).endRequest r
  | .host _ bus => hostWrite s r.allPoison bus
  | .peer _ rank flow remote => (s.ctx? r.ctx).elim (s.endRequest r) (fun c => peerRequest s r.allPoison c rank flow remote)
  | .nowhere => s.endRequest r

/-- Every granule of a request that is not yet written is written as poisoned. -/
def State.poisonRequest (s : State) (r : Request) : State := if r.write then s.poisonWrite r else s.finishRead r.allPoison

/-! ## Issue (R199, R203) -/

/-- Where a span of a descriptor goes; a window entry that changed since acceptance serves it no more (12 R464). -/
def State.targetOf (s : State) (k : Nat) (d : Desc) (a : Nat) : Target :=
  match regionOf a with
  | .near die => .near die
  | .far => .far
  | .window =>
    (match s.entryAt k a with
     | none => .nowhere
     | some (i, e) =>
       if d.entryVersions.contains (i, e.version) then
         (if e.typ = 2 then .peer i e.rank e.flow (e.remote + (a - e.window)) else .host i (e.bus + (a - e.window)))
       else .nowhere)
  | _ => .nowhere

/-- Add an offset to the part of a controller. -/
def addPart : List ((Nat × Nat) × List Nat) → Nat × Nat → Nat → List ((Nat × Nat) × List Nat)
  | [], key, o => [(key, [o])]
  | x :: r, key, o => if x.1 = key then (key, x.2 ++ [o]) :: r else x :: addPart r key o

/-- The parts of a request by the controllers that hold them: granule offsets (R199, R205). Only near memory has several. -/
def State.partsOf (s : State) (t : Target) (a len : Nat) : List (List Nat) :=
  match t with
  | .near _ => ((List.range len).foldl (fun acc o => let (d, p, _) := s.placeOf (a + 64 * o); addPart acc (d, controllerOf d p) o) []).map (·.2)
  | _ => [List.range len]

/-- The part of a span that goes to one endpoint, as a request. -/
def requestOf (s : State) (k l q : Nat) (c : Ctx) (x : Core) (d : Desc) (sp : Span) (t : Target) (id : Nat) (offsets : List Nat) : Request :=
  { id := id, ctx := k, epoch := c.epoch, core := l, q := q, desc := d.id, write := d.write, addr := sp.remote, granule := sp.granule, offsets := offsets,
    target := t, bytes := if d.write then offsets.flatMap (fun o => x.spRead (64 * (sp.granule + o)) 64) else [],
    poison := if d.write then offsets.map (fun o => sget x.spPoison (sp.granule + o) != 0) else [],
    served := false, route := [], moving := false, last := none, issued := s.st.now.toNat, tag := 0 }

/-- The requests of a span, numbered from the next one. -/
def spanRequests (s : State) (k l q : Nat) (c : Ctx) (x : Core) (d : Desc) (sp : Span) : List Request :=
  let t := s.targetOf k d sp.remote
  (s.partsOf t sp.remote sp.len).mapIdx (fun i o => requestOf s k l q c x d sp t (s.net.nextId + i) o)

/-- A span leaves its descriptor as requests: how many are in flight, and the networks hold them. -/
def State.enterSpan (s : State) (k l q : Nat) (c : Ctx) (x : Core) (d : Desc) (rs : List Request) : State :=
  let s := s.putCtx k (c.putCore l (x.updDesc q d.id (fun y => { y with spans := y.spans.drop 1, inFlight := y.inFlight + rs.length })))
  { s with net := { s.net with requests := s.net.requests ++ rs, nextId := s.net.nextId + rs.length } }

/-- The requests of the spans that a transfer has not issued yet enter, to be poisoned; the fuel is their number. -/
def State.enterRest : Nat → State → Request → State
  | 0, s, _ => s
  | n + 1, s, r =>
    match s.transferOf r with
    | none => s
    | some (c, x, d) => match d.spans with
      | [] => s
      | sp :: _ => enterRest n (s.enterSpan r.ctx r.core r.q c x d (spanRequests s r.ctx r.core r.q c x d sp)) r

/-- A transfer whose packet is lost or unanswered: every destination granule not yet written is written poisoned, and a warning names the link or channel
(R203). A peer write that has become a Seif packet is left to its acknowledgement. -/
def State.loseTransfer (s : State) (r : Request) (name : SuspectKey) : State :=
  let n := ((s.transferOf r).map (fun t => t.2.2.spans.length)).getD 0
  let s := s.enterRest n r
  let sent := fun (x : Request) => x.write && s.seif.peers.any (fun y => y.request == some x.id)
  let mine := s.net.requests.filter (fun x => x.ctx == r.ctx && x.epoch == r.epoch && x.core == r.core && x.q == r.q && x.desc == r.desc && !sent x)
  (mine.foldl State.poisonRequest s).raise { level := 2, source := 4, ctx := some r.ctx, suspect := s.suspectIdx name, count := name.number }

/-- A request starts on its way: at once served where no entry covers it any more, lost where no route leads to its endpoint. -/
def State.startRequest (s : State) (r : Request) : State :=
  if r.target = .nowhere then (if r.write then s.endRequest r else s.putRequest { r.allPoison with served := true })
  else match s.memRoutes r with
    | some (there, _) => s.putRequest { r with route := there }
    | none => s.loseTransfer r ⟨7, 0xFF, 0xFFFF, 0, 0, 0⟩

/-- Issue the requests of a descriptor's next span (R199, R213); a skipped post reads its source and moves nothing (R200). -/
def issueSpan (s : State) (k l q : Nat) (c : Ctx) (x : Core) (d : Desc) (sp : Span) : State :=
  if d.skipped && d.write then s.putCtx k (c.putCore l (x.updDesc q d.id (fun y => { y with spans := y.spans.drop 1 })))
  else
    let rs := spanRequests s k l q c x d sp
    (rs.map (·.id)).foldl (fun s i => match s.net.requests.find? (fun r => r.id == i) with | none => s | some r => s.startRequest r)
      (s.enterSpan k l q c x d rs)

/-! ## Packets that arrive (R191, R192) -/

/-- The header of a memory-plane packet: a request, or the data that answers it. The tag is the descriptor's number, the length of a read request is 0
(log 147). -/
def Request.header (r : Request) : Header :=
  { epoch := r.epoch, ctx := r.ctx, kind := if r.served then 2 else 1, core := r.core, queue := r.q, dest := r.core, granule := r.granule,
    tag := r.desc % 65536, token := 0, signal := false, poison := r.poison, remote := r.addr }

/-- A packet that has made its last hop. -/
def State.landed (s : State) (r : Request) : State :=
  if !r.route.isEmpty || r.served then s
  else match r.target with
    | .near _ | .far => s
    | _ => s.atHub r

/-- The checks of R192 on a memory-plane packet at the end of a hop. -/
def arriveMemory (s : State) (r : Request) (h : Hop) (err : PacketError) : State :=
  let link := linkOf true h
  let granules := r.poison.length
  let s := { s with net := s.net.correct link (packetCorrected err granules) }
  match receivedHeader (r.header.bytes granules) err.header err.read with
  | none => ((s.dropCount (nodeDie h.2)).report (linkKey link) 0x0A {}).loseTransfer r (linkKey link)
  | some b =>
    match (Header.read b).bind (fun x => (s.carrier x).map (fun _ => x)) with
    | none => (s.dropRequest r.id).dropCount (nodeDie h.2)
    | some x =>
      if badPacket b then ((s.dropCount (nodeDie h.2)).suspectSender r.ctx r.core).loseTransfer r (linkKey link)
      else
        let (bytes, poison) := packetPayload err s.freeCount r.bytes r.poison
        let s := if err.payload.isEmpty then s else s.spend
        let r := { r with addr := x.remote, granule := x.granule, bytes := bytes, poison := poison, route := r.route.drop 1, moving := false, last := some h }
        (s.putRequest r).landed r

/-- ON_DIE_PACKET_ARRIVAL (07 R192): a packet comes to the end of a hop. -/
def execOnDiePacketArrival (memoryPlane : Bool) (i : Nat) (err : PacketError) (s : State) : Out :=
  .next (
    if memoryPlane then
      (match s.net.requests.find? (fun r => r.id == i && r.moving) with
       | none => s
       | some r => match r.route with | [] => s | h :: _ => arriveMemory s r h err)
    else match s.net.packets.find? (fun p => p.id == i && p.moving) with
      | none => s
      | some p => arriveRipple s p err)

/-! ## Queue rows (R198 to R200) -/

/-- The core of a queue row reads scratchpad granules with errors: what is found is counted, and the core is as its code leaves it (R193). -/
def State.readStruck (s : State) (k l : Nat) (c : Ctx) (x : Core) (errs : List (Nat × Flips)) (rs : Ranges) : State × Ctx × Core :=
  let hit := errorsOn errs rs
  let y := x.strike s.freeCount hit
  (s.foundErrors k l c hit, c.putCore l y, y)

/-- The list granules that the next descriptor to start reads. -/
def startReads (q : Nat) (x : Core) : Ranges :=
  match (x.wq q).descs.find? (fun d => d.phase == .accepted) with
  | none => []
  | some d => if d.listCount = 0 then [] else [(64 * d.listAddr, 32 * d.listCount)]

/-- WADI_DESCRIPTOR_START (07 R198, R199). -/
def execWadiDescriptorStart (k l q : Nat) (errs : List (Nat × Flips)) (s : State) : Out :=
  withQueue q (withCore k l s (fun c x =>
    if c.live && !x.seq.stopped && !x.folded then
      match startDesc q (s.remoteOk k c) (s.entriesOf k) x with
      | .wait => s
      | _ =>
        let idx := ((x.wq q).descs.find? (fun d => d.phase == .accepted)).elim 0 (·.idx)
        let (s, c, x) := s.readStruck k l c x errs (startReads q x)
        s.putCtx k (c.absorb s.st.now l (engWadi q) idx 0x02 (startDesc q (s.remoteOk k c) (s.entriesOf k) x))
    else s))

/-- Is a write of a span held in twin mode: the shadow's digest of it is not the same (11 R320)? -/
def Core.holdsWrite (x : Core) (d : Desc) (sp : Span) (shadow : W64) : Bool := d.write && !d.skipped && x.twinDigest [(64 * sp.granule, 64 * sp.len)] != shadow

/-- WADI_REQUEST_ISSUE (07 R199): the first started descriptor of the queue with something left. -/
def execWadiRequestIssue (k l q : Nat) (errs : List (Nat × Flips)) (shadow : W64) (s : State) : Out :=
  withQueue q (withCore k l s (fun c x =>
    match (x.wq q).descs.find? (fun d => d.phase == .started && !d.spans.isEmpty) with
    | none => s
    | some d =>
      match d.spans with
      | [] => s
      | sp :: _ =>
        if c.live && !c.stopping && !x.folded then
          if c.desc.twin && (x.strike s.freeCount (errorsOn errs [(64 * sp.granule, 64 * sp.len)])).holdsWrite d sp shadow then s
          else
          let (s, c, x) := s.readStruck k l c x errs (if d.write then [(64 * sp.granule, 64 * sp.len)] else [])
          issueSpan s k l q c x d sp
        else s))

/-- WADI_DESCRIPTOR_COMPLETION (07 R199, R200). -/
def execWadiDescriptorCompletion (k l q : Nat) (s : State) : Out :=
  withQueue q (withCore k l s (fun c x =>
    if c.status == .closing then s
    else match completeDesc q x with
      | .ok y => s.putCtx k (c.putCore l y)
      | _ => s))

end Sys2Proof.Machine
end

