-- ==== Sys2Proof/Machine/Memory.lean ====
section
/-! DEFINITION. Memory controllers: requests, errors, scrubs, repairs, retirements, stack temperatures (07 R199, R203 to R212, 15 R414). -/

namespace Sys2Proof.Machine

/-! ## Counters and error history (07 R206, R208, R212) -/

/-- Count a corrected error of near memory of a die, or of far memory. -/
def Mem.countCe (m : Mem) (die : Option Nat) : Mem :=
  match die with
  | some d => { m with ceNear := updAt m.ceNear d (fun n => satAdd 32 n 1) }
  | none => { m with ceFar := satAdd 32 m.ceFar 1 }

/-- Count an uncorrectable error. -/
def Mem.countUe (m : Mem) (die : Option Nat) : Mem :=
  match die with
  | some d => { m with ueNear := updAt m.ueNear d (fun n => satAdd 32 n 1) }
  | none => { m with ueFar := satAdd 32 m.ueFar 1 }

/-- Change the error history of a row. -/
def Mem.updRow (m : Mem) (d pc row : Nat) (f : RowErr → RowErr) : Mem :=
  let hit := fun (r : RowErr) => r.die == d && r.pc == pc && r.row == row
  if m.rows.any hit then { m with rows := updWhere m.rows hit f } else { m with rows := m.rows ++ [f ⟨d, pc, row, [], false⟩] }

/-- The row of a near-memory address: die, pseudo-channel, row of 1 KiB (log 36). -/
def State.rowAt (s : State) (a : Nat) : Nat × Nat × Nat := let (d, pc, loc) := s.placeOf a; (d, pc, loc / 4)

/-- Does a row need repair (R208): an uncorrectable error, or corrected errors in 4 accesses or scrubs within 24 hours? -/
def RowErr.needsRepair (r : RowErr) (now : Nat) : Bool := r.bad || decide (4 ≤ (withinDay now r.corrected).length)

/-! ## Retirement (07 R209) -/

/-- A degraded code is in force. -/
def State.degrade (s : State) (code : Nat) : State :=
  { s with rst := { s.rst with degraded := if s.rst.degraded.contains code then s.rst.degraded else s.rst.degraded ++ [code] } }

/-- A degraded code is in force no more. -/
def State.undegrade (s : State) (code : Nat) : State := { s with rst := { s.rst with degraded := s.rst.degraded.filter (· != code) } }

/-- Is a granule newly lost by the last retirement of a die? -/
def newlyLost (rs : List Nat) (die g : Nat) : Bool :=
  let (d, n) := lineOf (64 * g)
  decide (64 * g < nearTop) && d == die && lostBy rs [(die, rs.getD (rs.length - 1) 128)] die n (rs.length - 1)

/-- The entry of a near-memory pseudo-channel becomes retired. -/
def State.retireEntry (s : State) (key : SuspectKey) : State :=
  match s.suspectIdx key with
  | none => s
  | some i => match nfind s.faults.suspects i with | none => s | some e => s.setSuspect i { e with state := 4, lastTime := s.st.now }

/-- A retirement trigger on a pseudo-channel: up to four per die withdraw a band; a fifth retires nothing and asks for action. -/
def State.retirePc (s : State) (die pc : Nat) : State :=
  if (s.retiredOf die).contains pc then s
  else if 4 ≤ (s.retiredOf die).length then s.raise { level := 4, source := 4, reg := some (0x80000 + 4 * die), count := pc }
  else
    let s := { s with health := ({ s.health with retiredPcs := s.health.retiredPcs ++ [(die, pc)] } : Health).written }
    let rs := s.retiredOf die
    let s := { s with mem := { s.mem with
      lost := s.mem.lost ++ [(die, pc)], moving := updAt s.mem.moving die (fun _ => true)
      rewritten := s.mem.rewritten.filter (fun e => !newlyLost rs die e.1) } }
    ((s.retireEntry (nearKey die pc)).degrade (200 + die)).raise { level := 3, source := 4, reg := some (0x80000 + 4 * die), count := pc }

/-! ## Errors of a granule (07 R203, R206, R210) -/

/-- The die of a near-memory address, none for far memory. -/
def dieOf (a : Nat) : Option Nat := if a < nearTop then some (a / 0x3000000000) else none

/-- The key of the pseudo-channel or far-memory channel that holds an address. -/
def State.memKey (s : State) (a : Nat) : SuspectKey :=
  if a < nearTop then (let (d, pc, _) := s.placeOf a; nearKey d pc) else farKey (farPlace a).1

/-- An uncorrectable error in a granule: it is counted and reported, the granule is rewritten with the poison pattern; a near-memory row
needs repair, and the eighth within 24 hours retires the pseudo-channel. -/
def State.uncorrectable (s : State) (a : Nat) : State :=
  let key := s.memKey a
  let now := s.st.now.toNat
  let s := { s with mem := s.mem.countUe (dieOf a) }
  let s := (s.storePart (a / 64 * 64) (zeros 64) true).report key 0x0B {}
  match dieOf a with
  | none => s
  | some _ =>
    let (d, pc, row) := s.rowAt a
    let s := { s with mem := s.mem.updRow d pc row (fun r => { r with bad := true }) }
    let times := s.mem.ueTimes.filter (fun t => decide (now < t.2.2 + dayUnits)) ++ [(d, pc, now)]
    let s := { s with mem := { s.mem with ueTimes := times } }
    if 8 ≤ (times.filter (fun t => t.1 == d && t.2.1 == pc)).length then s.retirePc d pc else s

/-- What the code of the memory that holds an address finds: RS(72,64) in near memory, SEC-DED in far memory (R206, R210). -/
def granuleCode (a : Nat) (f : Flips) : Found := if a < nearTop then rs72 f else secded 8 f

/-- One granule is read: its bytes, poison, and the row that gave a corrected error. A poisoned granule, stored as zero data with the check pattern that
is reserved for it, gives poison and no error (R206); a missed error delivers what it delivers (log 144). -/
def State.readGranule (s : State) (a : Nat) (f : Flips) : State × List Byte × Bool × Option (Nat × Nat × Nat) :=
  if s.poisonAt a then (s, s.load a 64, true, none)
  else
    let found := granuleCode a f
    let (bytes, bad) := found.deliver s.freeCount a (s.load a 64)
    match found with
    | .clean => (s, bytes, bad, none)
    | .corrected => ({ s with mem := s.mem.countCe (dieOf a) }, bytes, bad, if a < nearTop then some (s.rowAt a) else none)
    | .uncorrectable => (s.uncorrectable a, zeros 64, bad, none)
    | .missed => (s.spend, bytes, bad, none)

/-- Granules of an access are read in order: bytes, poison by granule, and rows that gave corrected errors. -/
def State.readGranules (s : State) : List (Nat × Flips) → State × List Byte × List Bool × List (Nat × Nat × Nat)
  | [] => (s, [], [], [])
  | x :: xs =>
    let (s, b, p, r) := s.readGranule x.1 x.2
    let (s, bs, ps, rs) := s.readGranules xs
    (s, b ++ bs, p :: ps, r.toList ++ rs)

/-- Each row of an access that gave a corrected error is noted once. -/
def State.noteRows (s : State) (rows : List (Nat × Nat × Nat)) : State :=
  rows.dedup.foldl (fun s r => { s with mem := s.mem.updRow r.1 r.2.1 r.2.2 (fun x =>
    { x with corrected := withinDay s.st.now.toNat x.corrected ++ [s.st.now.toNat] }) }) s

/-- A read access of whole granules at addresses, with the changed bits of each: its bytes, poison, and the errors found. -/
def State.readAccess (s : State) (addrs : List Nat) (errs : List Flips) : State × List Byte × List Bool :=
  let (s, bytes, ps, rows) := s.readGranules (addrs.zip (errs ++ addrs.map (fun _ => [])))
  (s.noteRows rows, bytes, ps)

/-! ## Commands -/

/-- Does a reset hold the memory of a request (14 R390)? -/
def State.memHeld (s : State) (r : Request) : Bool :=
  match r.target with
  | .near d => s.rst.inProgress.any (fun x => x.kind == 3 && x.die == d)
  | .far => s.rst.inProgress.any (fun x => x.kind == 5 && x.num == (farPlace r.addr).1)
  | _ => false

/-- Does a reset hold a request of a context? Its wait-limit time does not run then (14 R390; for which of its waits: log 147). -/
def State.holdsFor (s : State) (k : Nat) : Bool := s.net.requests.any (fun r => r.ctx == k && s.memHeld r)

/-- Does a request wait: while its die's data moves (R209), or while a reset holds its memory? -/
def State.memWaits (s : State) (r : Request) : Bool :=
  match r.target with
  | .near d => s.mem.moving.getD d false || s.memHeld r
  | .far => s.memHeld r
  | _ => true

/-- A controller serves a request: a read is answered, with poison by granule; a write is stored and ends (R203, R206, R210). -/
def serve (s : State) (r : Request) (errs : List Flips) : State :=
  if r.write then (s.storeOffsets r.addr r.offsets r.bytes r.poison).endRequest r
  else
    let (s, bytes, ps) := s.readAccess (r.offsets.map (fun o => r.addr + 64 * o)) errs
    s.answerRead r bytes ps

/-- Does a request stand at its endpoint, to be served? -/
def Request.here (r : Request) : Bool := r.route.isEmpty && !r.moving && !r.served

/-- MEMORY_REQUEST (07 R207): `errs` is the changed bits that the controller meets, granule by granule. -/
def execMemoryRequest (i : Nat) (errs : List Flips) (s : State) : Out :=
  .next (match s.net.requests.find? (fun r => r.id == i) with
    | none => s
    | some r => if !r.here || s.memWaits r then s else serve s r errs)

/-- WADI_DATA_ARRIVAL (07 R199): the data of an answered read that has come back to its core is written in the scratchpad. -/
def execWadiDataArrival (i : Nat) (s : State) : Out :=
  .next (match s.net.requests.find? (fun r => r.id == i) with
    | none => s
    | some r => if r.served && r.route.isEmpty && !r.moving && !r.write then s.finishRead r else s)

/-- The key of the memory channel that a request is for (R203). -/
def State.channelOf (s : State) (r : Request) : SuspectKey := s.memKey (r.addr + 64 * r.offsets.getD 0 0)

/-- WADI_RESPONSE_TIMEOUT (07 R203): a memory controller has answered nothing within 100 ms of the issue. -/
def execWadiResponseTimeout (i : Nat) (s : State) : Out :=
  .next (match s.net.requests.find? (fun r => r.id == i) with
    | none => s
    | some r =>
      let memory := match r.target with | .near _ => true | .far => true | _ => false
      if memory && !s.rst.inProgress.any (fun x => x.kind == 3 || x.kind == 5) && !r.served && decide (r.issued + 100 * millisecond ≤ s.st.now.toNat) then
        s.loseTransfer r (s.channelOf r)
      else s)

/-- HOST_READ_COMPLETION (07 R203): a host-window read is answered with data, or its granules arrive poisoned. -/
def execHostReadCompletion (i : Nat) (status : HostStatus) (data : List Byte) (s : State) : Out :=
  .next (match s.net.requests.find? (fun r => r.id == i) with
    | none => s
    | some r =>
      match r.target with
      | .host _ _ =>
        if r.write || !r.here then s
        else match status with
          | .success => s.answerRead r ((data ++ zeros (64 * r.offsets.length)).take (64 * r.offsets.length)) (r.offsets.map (fun _ => false))
          | _ => s.answerPoison r
      | _ => s)

/-- MEMORY_REFRESH (07 R207): a bank is refreshed; this changes when data arrives and never what arrives. -/
def execMemoryRefresh (far : Bool) (unit bank : Nat) (s : State) : Out :=
  withUnit unit (if far then 16 else 512) { s with mem := { s.mem with refresh := some (far, unit, bank) } }

/-- PATROL_SCRUB (07 R206): one granule is read as a read does. -/
def execPatrolScrub (addr : Nat) (err : Flips) (s : State) : Out :=
  .next (match regionOf addr with
    | .near d => if s.mem.moving.getD d false then s else (s.readAccess [addr / 64 * 64] [err]).1
    | .far => (s.readAccess [addr / 64 * 64] [err]).1
    | _ => s)

/-- ROW_REPAIR (07 R208, R209): a row that needs repair is repaired, with a notice, and its data moves meanwhile (R211); without a repair resource its
pseudo-channel is retired. -/
def execRowRepair (die pc row : Nat) (s : State) : Out :=
  withUnit die 4 (
    match s.mem.rows.find? (fun r => r.die == die && r.pc == pc && r.row == row) with
    | none => s
    | some r =>
      if r.needsRepair s.st.now.toNat && !s.mem.moving.getD die false then
        let left := Config.repairLeft s.freeCount
        let s := s.spend
        let s := { s with mem := { s.mem with rows := s.mem.rows.filter (fun x => !(x.die == die && x.pc == pc && x.row == row)) } }
        if left then
          ({ s with mem := { s.mem with softRepairs := s.mem.softRepairs ++ [(die, pc, row)], moving := updAt s.mem.moving die (fun _ => true) } } : State).raise
            { level := 1, source := 4, reg := some (0x80020 + 4 * die), count := row }
        else s.retirePc die pc
      else s)

/-- DATA_MOVE_COMPLETE (07 R208, R209): the row or the lines have been moved; accesses to the die go on. -/
def execDataMoveComplete (die : Nat) (s : State) : Out :=
  withUnit die 4 { s with mem := { s.mem with moving := updAt s.mem.moving die (fun _ => false) } }

/-- STACK_TEMPERATURE_READ (15 R414): above 85 °C the stack refreshes at twice the rate; crossing 95 °C raises a warning (log 37). -/
def execStackTemperatureRead (stack : Nat) (celsius : Int) (s : State) : Out :=
  withUnit stack 16 (
    let old := s.power.stackTemps.getD stack 0
    let s := { s with power := { s.power with
      stackTemps := updAt s.power.stackTemps stack (fun _ => celsius.toNat)
      stackDoubled := updAt s.power.stackDoubled stack (fun _ => decide (85 < celsius)) } }
    if 95 < celsius ∧ old ≤ 95 then s.raise { level := 2, source := 2, reg := some 0x30010, count := stack } else s)

end Sys2Proof.Machine
end

