-- ==== Sys2Proof/Machine/Departures.lean ====
section
/-! DEFINITION. Claims, routes, departures, link windows, and the System Time tree that ports carry (08 R222, R223, R226, R231, R234, R246, R247, R249). -/

namespace Sys2Proof.Machine

/-! ## Link window tables (R234) -/

/-- A link window: port, expected, flow, offset and length in units of 256 ns. -/
structure LinkEntry where
  port : Nat
  expected : Bool
  flow : Nat
  offset : Nat
  length : Nat
  deriving DecidableEq, Repr

def State.linkEntry (s : State) (base i : Nat) : LinkEntry :=
  let a := base + 32 + 16 * i
  ⟨s.loadNat a 1, s.loadNat (a + 1) 1 % 2 == 1, s.loadNat (a + 2) 2, s.loadNat (a + 4) 4, s.loadNat (a + 8) 4⟩

def State.linkEntries (s : State) (base : Nat) : List LinkEntry :=
  if base = 0 then [] else (List.range (s.loadNat (base + 20) 4)).map (s.linkEntry base)

/-- Contexts that are resident. -/
def State.resident (s : State) : List (Nat × Ctx) := s.ctxs.filter (fun c => c.2.status != .absent && c.2.status != .closing)

/-- Does a resident context have windows on a port? -/
def State.windowsOn (s : State) (p : Nat) : Bool := s.resident.any (fun c => (s.linkEntries c.2.desc.windows).any (fun e => e.port == p))

/-! ## Collectives and ranks that end (R246, R247) -/

/-- A collective phase of a context ends at once; a STEP that runs it fails, and is re-executed or not. -/
def State.endColl (s : State) (k : Nat) (again : Bool) : State :=
  let s := { s with colls := s.colls.filter (fun x => x.ctx != k) }
  match s.ctx? k with
  | none => s
  | some c => (c.steps.filter StepRun.open').foldl (fun s st => s.onStep k st.cmd (fun c st => if again then failStep s k c st true false else loseStep s k c st)) s

/-- This module detects the failure of a context's collectives: every participant is told. -/
def State.failColl (s : State) (k : Nat) (again : Bool) : State :=
  match s.ctx? k with
  | none => s
  | some c => (s.abortColls k c again).endColl k again

/-- The transfers of the module toward a rank end: writes complete with a warning, reads arrive poisoned (R227, 07 R203). -/
def State.endPeers (s : State) (job : W64) (rank : Nat) : State :=
  let gone := s.seif.peers.filter (fun p => p.rank == rank && (match s.ctx? p.ctx with | none => false | some c => c.desc.job == job))
  let s := { s with seif := { s.seif with peers := s.seif.peers.filter (fun p => !gone.contains p) } }
  gone.foldl (fun s p =>
    let s := match p.request.bind (fun i => s.net.requests.find? (fun r => r.id == i)) with
      | none => s
      | some r => if r.write then s.endRequest r else s.answerPoison r
    if p.write then s.raise { level := 2, source := 3, ctx := some p.ctx, count := rank } else s) s

/-- A rank departs from a job (R247): once. -/
def State.rankDeparts (s : State) (job : W64) (rank : Nat) : State :=
  match s.route? job rank with
  | some r =>
    if r.departed then s
    else
      let s := { s with seif := { s.seif with routes := updWhere s.seif.routes (fun x => x.job == job && x.rank == rank) (fun x => { x with departed := true, port := none }) } }
      let mine := s.resident.filter (fun c => c.2.desc.job == job && c.2.desc.rank != rank && decide (rank < c.2.desc.modules))
      let s := mine.foldl (fun s c =>
        match s.ctx? c.1 with
        | none => s
        | some x => (x.steps.filter StepRun.open').foldl (fun s st => s.onStep c.1 st.cmd (fun y st => loseStep s c.1 y st)) (s.abortColls c.1 x false)) s
      s.endPeers job rank
  | none => s

/-! ## Routes (R226, R247) -/

/-- The port of a rank: the lowest up port over which a claim that is not refused is seen. -/
def State.portFor (s : State) (job : W64) (rank : Nat) : Option Nat :=
  s.upPorts.find? (fun p => s.seif.claims.any (fun c => c.job == job && c.rank == rank && !c.refused && c.ports.contains p))

/-- The oasis firmware recomputes the route tables; packets that wait follow their rank's port, and leave in the windows that are open there. -/
def State.recomputeRoutes (s : State) : State :=
  let keys := ((s.seif.routes.map (fun r => (r.job, r.rank))) ++ ((s.seif.claims.filter (fun c => !c.own)).map (fun c => (c.job, c.rank)))).dedup
  let routes := keys.map (fun x =>
    let new := s.portFor x.1 x.2
    match s.route? x.1 x.2 with
    | none => (Route.mk x.1 x.2 new s.st.now false)
    | some r => if r.departed then r else { r with port := new, since := if r.port.isSome && new.isNone then s.st.now else r.since })
  let s := { s with seif := { s.seif with routes := routes } }
  ({ s with seif := { s.seif with ready := s.seif.ready.map (fun x => { x with port := (s.egress x.pkt.job x.pkt.dstRank.toNat).getD 18 }) } } : State).pumpAll

/-! ## Claims (R223) -/

/-- A claim is seen, over a port or, without one, as this module's own: a second serial for one job and rank is refused, with action required. -/
def State.seeClaim (s : State) (job : W64) (rank modules : Nat) (serial : W64) (port : Option Nat) : State :=
  match s.seif.claims.find? (fun c => c.job == job && c.rank == rank && c.serial == serial) with
  | some c =>
    if c.own then s
    else { s with seif := { s.seif with claims := updWhere s.seif.claims (fun x => x == c) (fun x =>
             { x with ports := x.ports.filter (fun p => port != some p) ++ port.toList, modules := modules }) } }
  | none =>
    let conflict := s.seif.claims.any (fun c => c.job == job && c.rank == rank && !c.refused)
    let s := { s with seif := { s.seif with claims := s.seif.claims ++ [(Claim.mk job rank modules serial port.isNone port.toList s.st.now conflict)] } }
    if conflict then s.raise { level := 4, source := 3, count := rank } else s

/-- Claims of a serial over a port that its record no longer carries are withdrawn: their ranks depart. -/
def State.withdrawClaims (s : State) (p : Nat) (d : Discovery) : State :=
  let gone := s.seif.claims.filter (fun c => c.serial == d.serial && c.ports.contains p &&
    !d.claims.any (fun x => x.1 == c.job && x.2.1.toNat == c.rank))
  let s := { s with seif := { s.seif with claims := s.seif.claims.filter (fun c => !gone.contains c) } }
  gone.foldl (fun s c => if c.refused then s else s.rankDeparts c.job c.rank) s

/-! ## The time tree (R231, R232) -/

/-- A candidate: class, priority, serial, hops. -/
abbrev Candidate := Nat × Nat × W64 × Nat

/-- Is a better than b: lowest class, then priority, then serial? -/
def Candidate.better (a b : Candidate) : Bool :=
  decide (a.1 < b.1 ∨ (a.1 = b.1 ∧ (a.2.1 < b.2.1 ∨ (a.2.1 = b.2.1 ∧ a.2.2.1.toNat < b.2.2.1.toNat))))

/-- This module as a candidate: its class, and its priority, 128 where the record is silent. -/
def State.ownCandidate (s : State) : Candidate := (if s.st.capable then 0 else 1, s.cfg.priority.getD 128, s.cfg.serial, 0)

/-- The announcements of the last millisecond (R232). -/
def State.announced (s : State) : List (Nat × Candidate) :=
  (s.upPorts.filter (fun p => decide (s.st.now.toNat < (portGet s.seif p).heardAt + millisecond))).filterMap (fun p => ((portGet s.seif p).heard).map (fun h => (p, h)))

/-- Choose the grandmaster and the parent port (R231); a new grandmaster that ends a holdover is a failover, with a notice (R232, R249). -/
def State.elect (s : State) : State :=
  let own := s.ownCandidate
  let best := s.announced.foldl (fun b x => if Candidate.better x.2 b then x.2 else b) own
  let failover := s.st.mode == 3 && s.st.gm != best.2.2.1
  let heard := if s.st.gm == best.2.2.1 then s.st.gmHeard else s.st.now.toNat
  let s' : State :=
    if best.2.2.1 = own.2.2.1 then
      { s with st := { s.st with gm := own.2.2.1, gmClass := own.1, gmPriority := own.2.1, hops := 0, parent := none, thetas := [], offset := 0,
                                 mode := if s.upPorts.isEmpty then 0 else 4, holdover := none, holdoverWarned := false, gmHeard := heard } }
    else
      let same := s.announced.filter (fun x => x.2.2.2.1 == best.2.2.1)
      let hops := same.foldl (fun m x => min m x.2.2.2.2) 255
      let parent := (same.find? (fun x => x.2.2.2.2 == hops)).map (·.1)
      let keep := s.st.gm == best.2.2.1 && (s.st.mode == 1 || s.st.mode == 2)
      { s with st := { s.st with gm := best.2.2.1, gmClass := best.1, gmPriority := best.2.1, hops := min 255 (hops + 1), parent := parent,
                                 thetas := if s.st.parent == parent then s.st.thetas else [], mode := if keep then s.st.mode else 1,
                                 holdover := none, holdoverWarned := false, gmHeard := heard } }
  if failover then s'.raise { level := 1, source := 3, reg := some 0x4000C } else s'

/-- The next port that announces the same grandmaster becomes the parent, without holdover; without one there is no parent (R232). -/
def State.reparent (s : State) : State :=
  let same := s.announced.filter (fun x => x.2.2.2.1 == s.st.gm)
  let hops := same.foldl (fun m x => min m x.2.2.2.2) 255
  { s with st := { s.st with parent := (same.find? (fun x => x.2.2.2.2 == hops)).map (·.1), thetas := [],
                             hops := if same.isEmpty then s.st.hops else min 255 (hops + 1) } }

/-! ## Partners and ports that go down (R222, R249) -/

/-- Does the partner of a port hold a rank of a resident context's job? -/
def State.holdsRank (s : State) (serial : W64) : Bool :=
  s.resident.any (fun c => s.seif.claims.any (fun x => x.serial == serial && x.job == c.2.desc.job && !x.own))

/-- No claim is seen over a port any more. -/
def State.unsee (s : State) (p : Nat) : State :=
  { s with seif := { s.seif with claims := s.seif.claims.map (fun (c : Claim) => { c with ports := c.ports.filter (· != p) }) } }

/-- The partner of a port departs: claims are known still, but no longer over this port. -/
def State.partnerDeparts (s : State) (p : Nat) : State :=
  let x := portGet s.seif p
  match x.partner with
  | none => s
  | some d =>
    let level := if s.holdsRank d.serial then 2 else 1
    let s := s.putPort p { x with partner := none, version := 0, changed := s.st.now, heard := none }
    let s := (s.unsee p).recomputeRoutes
    let s := if s.st.parent = some p then s.reparent else s
    s.raise { level := level, source := 3, reg := some (portReg p), count := d.serial.toNat }

/-- A port leaves service or trains anew: its partner departs, its lane state and replay buffer are cleared (14 R389), its counters stay. -/
def State.portDown (s : State) (p state : Nat) : State :=
  let s := s.partnerDeparts p
  let x := portGet s.seif p
  let s := s.putPort p { Port.down with state := state, retried := x.retried, attempts := x.attempts, changed := s.st.now, fecCorr := x.fecCorr,
                                        fecUncorr := x.fecUncorr, replays := x.replays, drop := x.drop, fast := x.fast }
  s.recomputeRoutes

/-- A port is out of service (R218, R249); a RESET_DOMAIN of it is complete with that (14 R384: it is not escalated). -/
def State.portOut (s : State) (p : Nat) : State :=
  let level := if s.windowsOn p then 4 else 3
  let waiting := (s.rst.inProgress.filter (fun r => r.kind == 4 && r.num == p)).flatMap (·.cmds)
  let s := (s.portDown p 5).reportPort p 0x0C
  let s := waiting.foldl (fun s id => s.complete id 0x00 0 []) s
  { s with rst := { s.rst with inProgress := s.rst.inProgress.filter (fun r => !(r.kind == 4 && r.num == p)) } }.raise
    { level := level, source := 3, reg := some (portReg p) }

/-- A Seif port reset begins (14 R389): the port trains anew. -/
def State.portReset (s : State) (p cause : Nat) (cmd : Option Nat) : State :=
  let s := s.portDown p 1
  let s := s.putPort p { portGet s.seif p with fast := true, attempts := 0 }
  let rec' : ResetRec := ⟨4, 0, p, cause, false, cmd.toList, none, s.st.now.toNat, 1⟩
  if s.rst.inProgress.any (fun r => r.kind == 4 && r.num == p) then
    { s with rst := { s.rst with inProgress := updWhere s.rst.inProgress (fun r => r.kind == 4 && r.num == p) (fun r => { r with cmds := r.cmds ++ cmd.toList }) } }
  else if s.rst.inProgress.any (fun r => r.kind == 7 || r.kind == 8) then s
  else { s with rst := { s.rst with inProgress := s.rst.inProgress ++ [rec'], state := 3 } }

/-- A port retrains after the retry limit (R217, R249). -/
def State.retrain (s : State) (p : Nat) : State := (s.portReset p 0 none).raise { level := 2, source := 3, reg := some (portReg p) }

end Sys2Proof.Machine
end

