-- ==== Sys2Proof/Machine/Ports.lean ====
section
/-! DEFINITION. Seif ports: frames, acknowledgement and resend, training, lanes, discovery (08 R214 to R223). -/

namespace Sys2Proof.Machine

/-! ## Acknowledgement (R217) -/

/-- Frames of the replay buffer from a sequence number on. -/
def Port.unacked (x : Port) (ack : BitVec 12) : List Frame := x.buffer.filter (fun f => decide (2048 ≤ (ack - f.seq - 1).toNat))

/-- The acknowledgement fields of a received frame: frames before it leave the buffer; a NAK resends from the named frame, and the eighth resend
of one frame retrains the port. -/
def State.takeAck (s : State) (p : Nat) (f : Frame) : State :=
  if !f.ackValid then s
  else
    let x := portGet s.seif p
    let rest := x.unacked f.ack
    let x := { x with buffer := rest, acked := f.ack, ackTime := if rest.length < x.buffer.length then s.st.now else x.ackTime }
    if f.nak ∧ rest ≠ [] then
      let n := if x.resentSeq = f.ack then x.resent + 1 else 1
      let s := s.putPort p { x with resent := n, resentSeq := f.ack, replays := satAdd 32 x.replays rest.length }
      if 8 ≤ n then s.retrain p else { s with seif := { s.seif with out := s.seif.out ++ rest.map (fun g => (p, g)) } }
    else s.putPort p x

/-- What every received frame does: codewords are counted; a valid frame of its type is noted and its acknowledgement taken. -/
def State.receive (s : State) (p typ : Nat) (fec : Option Nat) (f : Frame) (act : State → State) : State :=
  let x := portGet s.seif p
  if x.state = 0 ∨ x.state = 1 ∨ x.state = 5 then s
  else match fec with
    | none => s.putPort p { x with fecUncorr := satAdd 32 x.fecUncorr 1, nak := x.nak || typ == 1 }
    | some n =>
      let x := { x with fecCorr := satAdd 32 x.fecCorr n }
      if f.typ.toNat = typ ∧ frameOk f = true then act ((s.putPort p { x with lastRx := s.st.now }).takeAck p f)
      else s.putPort p { x with nak := x.nak || typ == 1 }

/-- DATA_FRAME_RECEIVE (R217): accepted in sequence, or discarded with a NAK in the next frame. -/
def execDataFrameReceive (p : Nat) (fec : Option Nat) (frame : Frame) (s : State) : Out :=
  withPort p s (fun x0 =>
    if x0.state ≠ 3 then s
    else s.receive p 1 fec frame (fun s =>
      let x := portGet s.seif p
      if x.state ≠ 3 then s
      else if frame.seq = x.rxNext then
        let s := s.putPort p { x with rxNext := x.rxNext + 1, nak := false, stream := x.stream ++ frame.payload, times := x.times ++ [(frame.payload.length, s.st.now.toNat)] }
        (match x.swapRx with
         | none => s
         | some (lane, seq) => if frame.seq = seq then s.spareIn p lane else s)
      else s.putPort p { x with nak := true }))

/-- The messages of a control frame: 31 of 32 bytes. -/
def messagesOf (payload : List Byte) : List (List Byte) :=
  ((List.range 31).map (fun i => ((payload ++ zeros 992).drop (32 * i)).take 32)).filter (fun m => decide (1 ≤ (m.headD 0).toNat ∧ (m.headD 0).toNat ≤ 9))

/-- CONTROL_FRAME_RECEIVE (R216): its messages wait in the port; the arrival time goes with them. -/
def execControlFrameReceive (p : Nat) (fec : Option Nat) (frame : Frame) (s : State) : Out :=
  withPort p s (fun _ => s.receive p 2 fec frame (fun s =>
    let x := portGet s.seif p
    s.putPort p { x with inbox := x.inbox ++ (messagesOf frame.payload).map (· ++ leBytes 8 s.st.now.toNat) }))

/-- IDLE_FRAME_RECEIVE (R216): only the acknowledgement acts. -/
def execIdleFrameReceive (p : Nat) (fec : Option Nat) (frame : Frame) (s : State) : Out :=
  withPort p s (fun _ => s.receive p 3 fec frame id)

/-- ACK_TIMEOUT (R217): the acknowledgement has not advanced for 100 µs while frames are outstanding. -/
def execAckTimeout (p : Nat) (s : State) : Out :=
  withPort p s (fun x =>
    if !x.buffer.isEmpty && decide (x.ackTime.toNat + 100 * microsecond ≤ s.st.now.toNat) then s.retrain p else s)

/-! ## Training (R218, R219) -/

/-- PORT_TRAINING (R218): training first attempts 224 Gb/s. -/
def execPortTraining (p : Nat) (s : State) : Out :=
  withPort p s (fun x => if x.state ≤ 1 then s.putPort p { x with state := 1, fast := true, changed := s.st.now } else s)

/-- TRAINING_RATE_FALLBACK (R218): no FEC lock at 224 Gb/s within 200 ms. -/
def execTrainingRateFallback (p : Nat) (s : State) : Out :=
  withPort p s (fun x => if x.state = 1 ∧ x.fast = true then s.putPort p { x with fast := false } else s)

/-- Number of a bad lane of nine, and how many there are. -/
def badLanes (bad : BitVec 9) : List Nat := (List.range 9).filter (fun i => bad.getLsbD i)

/-- LANE_QUALIFICATION (R218): one bad lane is spared, two fail the attempt, and the third failed attempt takes the port out of service. -/
def execLaneQualification (p : Nat) (bad : BitVec 9) (s : State) : Out :=
  withPort p s (fun x =>
    if x.state ≠ 1 then s
    else match badLanes bad with
      | [] => s.putPort p { x with state := 2, spare := false, replaced := 0, attempts := 0, changed := s.st.now }
      | [l] => s.putPort p { x with state := 2, spare := decide (l < 8), replaced := l, attempts := 0, changed := s.st.now }
      | _ => if 3 ≤ x.attempts + 1 then s.portOut p else s.putPort p { x with attempts := x.attempts + 1, fast := true })

/-- LANE_ERROR_THRESHOLD (R219): the spare takes the lane's place at the next data frame, which a lane swap message names; the port retrains if the spare
is in use, on its way, or bad. A lane that is no active one is not in use. -/
def execLaneErrorThreshold (p lane : Nat) (s : State) : Out :=
  withPort p s (fun x =>
    if 9 ≤ lane ∨ x.state ≠ 3 ∨ (lane = 8 ∧ x.spare = false) then s
    else
      let s := s.reportPort p 0x0C
      if x.spare || x.swapTx.isSome || x.swapRx.isSome || x.replaced == 8 then s.portReset p 0 none
      else (s.post p ([0x03, BitVec.ofNat 8 lane] ++ leBytes 2 x.txSeq.toNat)).updPort p (fun y => { y with swapTx := some (lane, x.txSeq) }))

/-- The first message of a type in a port's inbox. -/
def Port.message? (x : Port) (typ : Nat) : Option (Nat × List Byte) :=
  match x.inbox.findIdx? (fun m => (m.headD 0).toNat == typ) with
  | none => none
  | some i => (x.inbox[i]?).map (fun m => (i, m))

/-- A command that takes the port's first message of a type. -/
def withMessage (p typ : Nat) (s : State) (f : State → List Byte → State) : Out :=
  withPort p s (fun x =>
    match x.message? typ with
    | none => s
    | some (i, m) => f (s.putPort p { x with inbox := x.inbox.eraseIdx i }) m)

def msgNat (m : List Byte) (off n : Nat) : Nat := leNat ((m.drop off).take n)

/-- LANE_SWAP (R219): this end switches at the named frame, at once if that has been received. -/
def execLaneSwap (p : Nat) (s : State) : Out :=
  withMessage p 3 s (fun s m =>
    let x := portGet s.seif p
    let lane := msgNat m 1 1
    let seq := BitVec.ofNat 12 (msgNat m 2 2)
    if x.spare || x.swapTx.isSome || decide (8 ≤ lane) then s
    else if (x.rxNext - seq - 1).toNat < 2048 then s.spareIn p lane
    else s.putPort p { x with swapRx := some (lane, seq) })

/-! ## Discovery (R220 to R223) -/

/-- SHA3-256 of the identity public key (16 R420): 1,312 bytes. -/
def identityDigest : List Byte := sha3 ((List.range 1312).map Config.identityKey)

/-- The module's own discovery record for a port. -/
def State.ownRecord (s : State) (p : Nat) : Discovery :=
  { tagOk := true, serial := s.cfg.serial, identity := identityDigest, port := BitVec.ofNat 8 p, versions := 3,
    selected := BitVec.ofNat 8 (portGet s.seif p).version, capabilities := BitVec.ofNat 32 (3 + 4 * b2n s.st.capable), gm := s.st.gm,
    gmClass := BitVec.ofNat 8 s.st.gmClass, gmPriority := BitVec.ofNat 8 s.st.gmPriority, hops := BitVec.ofNat 8 s.st.hops,
    claims := ((s.seif.claims.filter Claim.own).take 64).map (fun c => (c.job, BitVec.ofNat 16 c.rank, BitVec.ofNat 16 c.modules)) }

/-- The payload of a discovery frame (R220). -/
def discoveryBytes (d : Discovery) : List Byte :=
  (if d.tagOk then ascii "VXSEIFDS" else zeros 8) ++ leBytes 8 d.serial.toNat ++ (d.identity ++ zeros 32).take 32
    ++ [d.port, d.versions, d.selected, 0] ++ leBytes 4 d.capabilities.toNat ++ leBytes 8 d.gm.toNat ++ [d.gmClass, d.gmPriority, d.hops, 0]
    ++ leBytes 2 d.claims.length ++ zeros 10 ++ d.claims.flatMap (fun c => leBytes 8 c.1.toNat ++ leBytes 2 c.2.1.toNat ++ leBytes 2 c.2.2.toNat)

/-- Read a discovery record from a payload. -/
def parseDiscovery (b : List Byte) : Discovery :=
  { tagOk := b.take 8 == ascii "VXSEIFDS", serial := BitVec.ofNat 64 (msgNat b 8 8), identity := (b.drop 16).take 32, port := BitVec.ofNat 8 (msgNat b 48 1),
    versions := BitVec.ofNat 8 (msgNat b 49 1), selected := BitVec.ofNat 8 (msgNat b 50 1), capabilities := BitVec.ofNat 32 (msgNat b 52 4),
    gm := BitVec.ofNat 64 (msgNat b 56 8), gmClass := BitVec.ofNat 8 (msgNat b 64 1), gmPriority := BitVec.ofNat 8 (msgNat b 65 1),
    hops := BitVec.ofNat 8 (msgNat b 66 1),
    claims := (List.range (min 64 (msgNat b 68 2))).map (fun i =>
      (BitVec.ofNat 64 (msgNat b (80 + 12 * i) 8), BitVec.ofNat 16 (msgNat b (88 + 12 * i) 2), BitVec.ofNat 16 (msgNat b (90 + 12 * i) 2))) }

/-- A valid record: its tag, a port of a module, at most 64 claims. -/
def recordOk (b : List Byte) : Bool := (parseDiscovery b).tagOk && decide ((parseDiscovery b).port.toNat < 18 ∧ msgNat b 68 2 ≤ 64)

/-- The version that both records and the trained rate allow (R221); 0 for none. Version 3 may come of either rate (R221), and the port then runs at
112 Gb/s, the only rate of version 3 (R214; log 150). -/
def commonVersion (fast : Bool) (versions : Byte) : Nat :=
  if fast && versions.getLsbD 1 then 4 else if versions.getLsbD 0 then 3 else 0

/-- What the fabric map keeps of a partner (R222). -/
def fabricPart (d : Discovery) : W64 × Byte × Byte × W32 × List (W64 × BitVec 16 × BitVec 16) := (d.serial, d.versions, d.selected, d.capabilities, d.claims)

/-- A record arrives: a partner joins or departs, the version and the claims are settled (R221 to R223). -/
def State.discover (s : State) (p : Nat) (d : Discovery) : State :=
  let old := (portGet s.seif p).partner
  let s := match old with | none => s | some o => if o.serial = d.serial then s else s.partnerDeparts p
  let x := portGet s.seif p
  if !x.fast ∧ d.versions.getLsbD 1 ∧ !x.retried then s.putPort p { Port.down with
    state := 1, fast := true, retried := true, changed := s.st.now, fecCorr := x.fecCorr, fecUncorr := x.fecUncorr, replays := x.replays, drop := x.drop }
  else
    let v := commonVersion x.fast d.versions
    let joined := x.partner.isNone
    let s := s.putPort p { x with partner := some d, version := v, state := if v = 0 then 4 else 3, fast := x.fast && v != 3,
                                  changed := if x.partner.map fabricPart == some (fabricPart d) && x.version == v then x.changed else s.st.now }
    let s := s.withdrawClaims p d
    let s := d.claims.foldl (fun s c => s.seeClaim c.1 c.2.1.toNat c.2.2.toNat d.serial (some p)) s
    let s := s.recomputeRoutes
    let s := if joined then s.raise { level := 1, source := 3, reg := some (portReg p), count := d.serial.toNat } else s
    if v = 0 ∧ x.state ≠ 4 then s.raise { level := 1, source := 3, reg := some (portReg p) } else s

/-- DISCOVERY_FRAME_RECEIVE (R222). -/
def execDiscoveryFrameReceive (p : Nat) (fec : Option Nat) (frame : Frame) (s : State) : Out :=
  withPort p s (fun _ => s.receive p 4 fec frame (fun s =>
    if (portGet s.seif p).state = 1 then s else if recordOk frame.payload then s.discover p (parseDiscovery frame.payload) else s))

/-- Does a port send control frames: trained, in discovery, up or incompatible? -/
def Port.talks (x : Port) : Bool := x.state == 2 || x.state == 3 || x.state == 4

/-- DISCOVERY_FRAME_SEND (R220). -/
def execDiscoveryFrameSend (p : Nat) (s : State) : Out :=
  withPort p s (fun x => if x.talks then s.sendControl p 4 (discoveryBytes (s.ownRecord p)) else s)

/-- The timestamp message (R229). -/
def timestampMessage (x : Port) (now : W64) : List Byte := [0x01] ++ zeros 7 ++ leBytes 8 now.toNat ++ leBytes 8 x.echoTx.toNat ++ leBytes 8 x.arrival.toNat

/-- The grandmaster announcement (R231; its layout: log 46). -/
def announcement (t : SysTime) : List Byte :=
  message ([0x02, BitVec.ofNat 8 t.gmClass, BitVec.ofNat 8 t.gmPriority, BitVec.ofNat 8 t.hops] ++ zeros 4 ++ leBytes 8 t.gm.toNat)

/-- CONTROL_FRAME_SEND (R216, R229, R231, 11 R327): relays that are due, timestamp, announcement, and waiting messages up to 31. -/
def execControlFrameSend (p : Nat) (s : State) : Out :=
  withPort p s (fun x =>
    if x.talks then
      let s := (if s.st.gm = 0 ∨ s.st.mode = 3 then s.elect else s).sendRelays
      let x := portGet s.seif p
      let payload := timestampMessage x s.st.now ++ announcement s.st ++ (x.outbox.take 29).flatMap id
      (s.putPort p { x with outbox := x.outbox.drop 29 }).sendControl p 2 payload
    else s)

/-- PARTNER_SILENCE_TIMEOUT (R222): no valid frame for 100 µs; the port waits for discovery again. -/
def execPartnerSilenceTimeout (p : Nat) (s : State) : Out :=
  withPort p s (fun x =>
    if x.partner.isSome && decide (x.lastRx.toNat + 100 * microsecond ≤ s.st.now.toNat) then
      let s := s.partnerDeparts p
      s.putPort p { portGet s.seif p with state := 2 }
    else s)

/-- DEPARTURE_NOTICE (R222, R247): the partner departs, and with it the ranks of the jobs here that its claims hold. -/
def execDepartureNotice (p : Nat) (s : State) : Out :=
  withMessage p 7 s (fun s _ =>
    match (portGet s.seif p).partner with
    | none => s
    | some d =>
      let held := s.seif.claims.filter (fun c => c.serial == d.serial && c.ports.contains p && !c.refused)
      let s := s.partnerDeparts p
      let s := s.putPort p { portGet s.seif p with state := 2 }
      held.foldl (fun s c => s.rankDeparts c.job c.rank) s)

/-- Since when a rank of a job has had no egress port: since the route lost it, or since the job's context here claimed its own rank (R247). -/
def State.absentSince (s : State) (job : W64) (rank : Nat) : Option Nat :=
  match s.route? job rank with
  | some r => if r.port.isNone && !r.departed then some r.since.toNat else none
  | none => (s.seif.claims.find? (fun c => c.own && c.job == job && decide (rank < c.modules) && c.rank != rank)).map (fun c => c.time.toNat)

/-- ROUTE_ABSENCE_TIMEOUT (R247): no egress port for longer than 1.5 s. -/
def execRouteAbsenceTimeout (job : W64) (rank : Nat) (s : State) : Out :=
  .next (match s.absentSince job rank with
    | none => s
    | some t =>
      if t + 3 * second / 2 < s.st.now.toNat then
        let s := if (s.route? job rank).isSome then s else { s with seif := { s.seif with routes := s.seif.routes ++ [(Route.mk job rank none (BitVec.ofNat 64 t) false)] } }
        s.rankDeparts job rank
      else s)

/-- A report that a relay message carries. -/
def relayKey (m : List Byte) : SuspectKey :=
  let kind := msgNat m 2 1
  let serial := BitVec.ofNat 64 (msgNat m 24 8)
  if kind = 1 then (if serial = 0 then ⟨1, 0xFF, 0xFFFF, 0, BitVec.ofNat 64 (msgNat m 4 8), msgNat m 12 2⟩ else ⟨1, 0xFF, 0xFFFF, serial, 0, 0⟩)
  else ⟨kind, msgNat m 14 1, msgNat m 16 2, serial, 0, 0⟩

/-- MANAGEMENT_RELAY (11 R327, R247): forwarded toward rank 0 of the job, or taken in there; a relayed departure makes the rank depart. -/
def execManagementRelay (p : Nat) (s : State) : Out :=
  withMessage p 6 s (fun s m =>
    let job := BitVec.ofNat 64 (msgNat m 4 8)
    let rank := msgNat m 12 2 % 32768
    let sub := msgNat m 1 1
    let s := if sub = 2 ∧ msgNat m 3 1 = 2 then s.rankDeparts job rank
      else if sub = 2 ∧ msgNat m 3 1 = 1 then (s.seeClaim job rank 0 (BitVec.ofNat 64 (msgNat m 24 8)) (some p)).recomputeRoutes else s
    if s.ownRank job = some 0 then
      (if sub = 1 then s.reportN (relayKey m) (msgNat m 3 1) (msgNat m 20 4) { rank := rank, job := job, serial := BitVec.ofNat 64 (msgNat m 24 8) } else s)
    else s.postTo job 0 (m.take 32))

end Sys2Proof.Machine
end

