-- ==== Sys2Proof/Machine/SeifPackets.lean ====
section
/-! DEFINITION. Seif packets, peer windows, wait histograms and link windows (08 R224 to R227, R234 to R237). -/

namespace Sys2Proof.Machine

/-! ## Headers (R224) -/

/-- Read a packet: header and payload granules. -/
def parsePacket (b : List Byte) : SeifPacket :=
  let n := msgNat b 13 1
  { job := BitVec.ofNat 64 (msgNat b 0 8), srcRank := BitVec.ofNat 16 (msgNat b 8 2), dstRank := BitVec.ofNat 16 (msgNat b 10 2),
    kind := BitVec.ofNat 8 (msgNat b 12 1), len := BitVec.ofNat 8 n, flow := BitVec.ofNat 16 (msgNat b 14 2), target := BitVec.ofNat 64 (msgNat b 16 8),
    tag := BitVec.ofNat 32 (msgNat b 24 4), segment := BitVec.ofNat 32 (msgNat b 28 4), poison := BitVec.ofNat 64 (msgNat b 32 8),
    reserved := BitVec.ofNat 32 (msgNat b 40 4), digest := BitVec.ofNat 128 (msgNat b 44 16), crc := BitVec.ofNat 32 (msgNat b 60 4),
    payload := (b.drop 64).take (64 * min 64 n) }

/-- Payload granules of a packet on the wire; a header whose length is above 64 has none that can be told apart (log 48). -/
def wireLen (b : List Byte) : Nat := let n := msgNat b 13 1; 64 + if n ≤ 64 then 64 * n else 0

/-- Poison of payload granules. -/
def poisonList (p : SeifPacket) : List Bool := (List.range p.len.toNat).map (fun i => p.poison.getLsbD i)

/-- Reserved kind, non-zero reserved field, or length above 64 (R225 order 2). -/
def badHeader (p : SeifPacket) : Bool :=
  p.kind == 0 || decide (6 ≤ p.kind.toNat) || p.reserved != 0 || p.srcRank.getLsbD 15 || p.dstRank.getLsbD 15 || decide (64 < p.len.toNat)
    || (decide (p.kind.toNat ≤ 3) && (p.digest != 0 || decide (2 ^ 48 ≤ p.target.toNat)))

def State.dropSeif (s : State) (p : Nat) : State := let x := portGet s.seif p; s.putPort p { x with drop := satAdd 32 x.drop 1 }

/-- The resident context of a job. -/
def State.jobCtx (s : State) (job : W64) : Option (Nat × Ctx) := s.resident.find? (fun c => c.2.desc.job == job)

/-! ## Wait histograms (R237) -/

/-- The record of a peer: the first with its rank, or the first unused one of 4,096; packets of further peers share the last, of rank 0x7FFF. -/
def State.histRecord (s : State) (base rank : Nat) : Nat × Nat :=
  match (List.range 4096).find? (fun i => s.loadNat (base + 80 * i + 8) 8 == 0 || s.loadNat (base + 80 * i) 2 == rank) with
  | some i => (base + 80 * i, rank)
  | none => (base + 80 * 4096, 0x7FFF)

/-- The bucket of a lateness in sixteenths of a nanosecond (R237). -/
def lateBucket (late : Int) : Nat := if late < 1024 then 0 else min 15 (Nat.log2 late.toNat - 9)

/-- A packet from a peer is counted by its lateness: the arrival of its last frame, less the opening of the sender's window, less the port's delay. What
this module is not told is when the window opened: a free value (log 49). -/
def State.histogram (s : State) (c : Ctx) (p rank arrived : Nat) : State :=
  if c.desc.hist = 0 then s
  else
    let (a, r) := s.histRecord c.desc.hist rank
    let b := a + 16 + 4 * lateBucket ((arrived : Int) - (s.fresh % (arrived + 1) : Nat) - (portGet s.seif p).delay)
    let s := s.spend
    let s := s.store a (leBytes 2 r ++ zeros 6 ++ leBytes 8 (s.loadNat (a + 8) 8 + 1))
    s.store b (leBytes 4 (min (2 ^ 32 - 1) (s.loadNat b 4 + 1)))

/-! ## Delivery (R225 to R227) -/

/-- A write acknowledgement names the transfer tag (R227; layout: log 47). -/
def ackMessage (job : W64) (dest tag : Nat) : List Byte := [0x08, 0] ++ leBytes 2 dest ++ leBytes 8 job.toNat ++ leBytes 4 tag

/-- An owner that finds its shard digest and its buddy's to differ charges both ranks (09 R280, 11 R328). -/
def chargeMismatch (s : State) (k : Nat) (c : Ctx) (st : StepRun) : State :=
  if c.desc.modules != 1 && st.ownDigest.isSome && st.buddyDigest.isSome && st.ownDigest != st.buddyDigest then
    (s.chargeRank c.desc.job c.desc.rank 0x08 (some k)).chargeRank c.desc.job (buddyOf c.desc.modules c.desc.rank) 0x08 (some k)
  else s

/-- What a peer write into a learner's step control area tells its step driver: a decision log record, or the buddy's digest (log 42). -/
def State.controlWrite (s : State) (k : Nat) (a : Nat) (bytes : List Byte) : State :=
  match s.ctx? k with
  | none => s
  | some c =>
    match c.learn with
    | none => s
    | some l =>
      if a = l.controlArea + 262080 then
        (c.steps.filter (fun st => st.counter == msgNat bytes 32 8 && st.attempt == msgNat bytes 40 1)).foldl (fun s st => s.onStep k st.cmd (fun c st =>
          let st := { st with buddyDigest := some (bytes.take 32) }
          tryPrepare ((chargeMismatch s k c st).setStep k st) k st.cmd)) s
      else if a = l.controlArea ∧ bytes.take 8 = ascii "VXSTEPCR" ∧ msgNat bytes 26 1 = 7 ∧ msgNat bytes 8 8 = c.desc.job.toNat then
        s.putCtx k { c with learn := some { l with decisionLog := l.decisionLog ++ [(msgNat bytes 16 8, msgNat bytes 27 1)] } }
      else s

/-- A contribution or result waits in its collective (R225 order 6). -/
def deliverColl (s : State) (p k : Nat) (x : SeifPacket) : State :=
  let cid := x.target.toNat % 2 ^ 32
  let chunk := x.target.toNat / 2 ^ 32
  let hit := fun (y : Coll) => y.ctx == k && y.desc.id.toNat == cid
  match s.colls.find? hit with
  | none => (s.dropSeif p).suspectRank x.job x.srcRank.toNat 0x0A (some k)
  | some y =>
    if y.desc.chunks ≤ chunk then (s.dropSeif p).suspectRank x.job x.srcRank.toNat 0x0A (some k)
    else { s with colls := updWhere s.colls hit (fun y => { y with inbox := y.inbox ++ [x] }) }

/-- Does a write supply a contribution as data: the image of a contribution packet, written into the collective region of a context with stand-in ranks
(02 R65, log 156)? -/
def suppliesColl (c : Ctx) (x : SeifPacket) : Bool :=
  c.desc.standIns != 0 && inRange c.desc.collAddr (c.desc.collAddr + c.desc.collLen - 1) x.target.toNat && c.desc.collLen != 0
    && (msgNat x.payload 12 1 == 4 || msgNat x.payload 12 1 == 5)

/-- A peer write is stored and acknowledged; outside memory mapped for peer access it is discarded. -/
def deliverWrite (s : State) (p k : Nat) (c : Ctx) (x : SeifPacket) : State :=
  let a := x.target.toNat
  let n := 64 * x.len.toNat
  if suppliesColl c x then
    (deliverColl s p k (parsePacket x.payload)).postTo x.job x.srcRank.toNat (ackMessage x.job x.srcRank.toNat x.tag.toNat)
  else if a % 64 = 0 ∧ c.granted 2 a n = true ∧ (regionOf a = .far ∨ a < nearTop) then
    let s := s.storeGranules a x.payload (poisonList x)
    let s := s.postTo x.job x.srcRank.toNat (ackMessage x.job x.srcRank.toNat x.tag.toNat)
    s.controlWrite k a x.payload
  else (s.dropSeif p).suspectRank x.job x.srcRank.toNat 0x0A (some k)

/-- A peer read is answered on the flow of its request; how many granules it asks for is not in its header (log 38). -/
def deliverRead (s : State) (k : Nat) (c : Ctx) (x : SeifPacket) : State :=
  let a := x.target.toNat
  let n := s.fresh % 64 + 1
  let s := s.spend
  let answer := fun (s : State) (bytes : List Byte) (poison : List Bool) =>
    let y := writePacket x.job c.desc.rank x.srcRank.toNat x.flow.toNat x.tag.toNat a bytes poison
    s.ready k { y with kind := 3 }
  if a % 64 = 0 ∧ c.granted 2 a (64 * n) = true ∧ (regionOf a = .far ∨ a < nearTop) then
    answer s (s.load a (64 * n)) ((List.range n).map (fun i => s.poisonAt (a + 64 * i)))
  else (answer s (zeros (64 * n)) (List.replicate n true)).suspectRank x.job x.srcRank.toNat 0x0A (some k)

/-- Data of a peer read: it goes on to the core of the transfer with its tag; granules that did not come are poisoned. -/
def deliverData (s : State) (x : SeifPacket) : State :=
  match s.seif.peers.find? (fun t => t.tag == x.tag.toNat && !t.write) with
  | none => s
  | some t =>
    let s := { s with seif := { s.seif with peers := s.seif.peers.filter (fun y => y.tag != t.tag) } }
    match t.request.bind (fun i => s.net.requests.find? (fun r => r.id == i)) with
    | none => s
    | some r =>
      let n := r.offsets.length
      s.answerRead r ((x.payload ++ zeros (64 * n)).take (64 * n)) ((poisonList x ++ List.replicate n true).take n)

/-- A packet for this module's rank. -/
def deliverPacket (s : State) (p k arrived : Nat) (c : Ctx) (x : SeifPacket) : State :=
  let s := s.histogram c p x.srcRank.toNat arrived
  match x.kind.toNat with
  | 1 => deliverWrite s p k c x
  | 2 => deliverRead s k c x
  | 3 => deliverData s x
  | _ => deliverColl s p k x

/-- A claim of a rank by the partner of the port has been refused (R223). -/
def State.refusedFrom (s : State) (p : Nat) (x : SeifPacket) : Bool :=
  match (portGet s.seif p).partner with
  | none => false
  | some d => s.seif.claims.any (fun c => c.refused && c.job == x.job && c.rank == x.srcRank.toNat && c.serial == d.serial)

/-- The checks of R225 on an arriving packet, in order. -/
def packetChecks (s : State) (p arrived : Nat) (b : List Byte) : State :=
  let x := parsePacket b
  if crc32 (b.take 60) ≠ x.crc.toNat then (s.dropSeif p).reportPort p 0x0A
  else if badHeader x then (s.dropSeif p).suspectRank x.job x.srcRank.toNat 0x0A none
  else if s.refusedFrom p x then s.dropSeif p
  else
    match s.jobCtx x.job with
    | some (k, c) =>
      if x.dstRank.toNat = c.desc.rank then deliverPacket s p k arrived c x
      else match s.route? x.job x.dstRank.toNat with
        | some _ => s.ready k x
        | none => (s.dropSeif p).raise { level := 1, source := 3, ctx := some k, reg := some (0x70380 + 4 * p) }
    | none =>
      if s.seif.routes.any (fun r => r.job == x.job) then
        (match s.route? x.job x.dstRank.toNat with
         | some r => s.addReady ⟨64, r.port.getD 18, x, s.st.now⟩
         | none => (s.dropSeif p).raise { level := 1, source := 3, reg := some (0x70380 + 4 * p) })
      else s.dropSeif p

/-- The first n bytes of the accepted payload are taken: what is left of its frames, and when the last of the bytes arrived. -/
def takeTimes : List (Nat × Nat) → Nat → Nat → List (Nat × Nat) × Nat
  | [], _, last => ([], last)
  | f :: r, n, last => if n = 0 then (f :: r, last) else if n < f.1 then ((f.1 - n, f.2) :: r, f.2) else takeTimes r (n - f.1) f.2

/-- SEIF_PACKET_ARRIVAL (R225): the next whole packet of the port's accepted payload. -/
def execSeifPacketArrival (p : Nat) (s : State) : Out :=
  withPort p s (fun x =>
    let n := wireLen x.stream
    if 64 ≤ x.stream.length ∧ n ≤ x.stream.length then
      let (times, arrived) := takeTimes x.times n 0
      packetChecks (s.putPort p { x with stream := x.stream.drop n, times := times }) p arrived (x.stream.take n)
    else s)

/-! ## Acknowledgements of peer writes (R227) -/

/-- A tag is acknowledged: its transfer completes, and the step driver hears of its own writes. -/
def State.acknowledged (s : State) (tag : Nat) : State :=
  match s.seif.peers.find? (fun t => t.tag == tag && t.write) with
  | none => s
  | some t =>
    let s := { s with seif := { s.seif with peers := s.seif.peers.filter (fun y => y.tag != tag) } }
    match t.request with
    | some i => (match s.net.requests.find? (fun r => r.id == i) with | none => s | some r => s.endRequest r)
    | none =>
      match s.ctx? t.ctx with
      | none => s
      | some c => c.steps.foldl (fun s st => s.onStep t.ctx st.cmd (fun _ st =>
          if st.copyTag = some tag then tryGate (s.setStep t.ctx { st with shardCopied := true }) t.ctx st.cmd
          else if st.logTag = some tag then s.setStep t.ctx { st with logAck := some s.st.now } else s)) s

/-- A message that names a rank of a job: is it for this module? If not, it goes on toward the rank. -/
def forMe (s : State) (m : List Byte) (f : State → State) : State :=
  let job := BitVec.ofNat 64 (msgNat m 4 8)
  let dest := msgNat m 2 2
  if s.ownRank job = some dest then f s else s.postTo job dest (m.take 32)

/-- WRITE_ACKNOWLEDGEMENT (R227). -/
def execWriteAcknowledgement (p : Nat) (s : State) : Out :=
  withMessage p 8 s (fun s m => forMe s m (fun s => s.acknowledged (msgNat m 12 4)))

/-- PEER_WRITE_TIMEOUT (R227): no acknowledgement within 100 ms; the transfer completes with a warning that names the rank. -/
def execPeerWriteTimeout (tag : Nat) (s : State) : Out :=
  .next (match s.seif.peers.find? (fun t => t.tag == tag && t.write) with
    | none => s
    | some t =>
      if t.issued.toNat + 100 * millisecond ≤ s.st.now.toNat then
        let s := { s with seif := { s.seif with peers := s.seif.peers.filter (fun y => y.tag != tag) } }
        let s := match t.request.bind (fun i => s.net.requests.find? (fun r => r.id == i)) with
          | none => s
          | some r => s.endRequest r
        s.raise { level := 2, source := 3, ctx := some t.ctx, count := t.rank }
      else s)

/-! ## Link windows (R234 to R236) -/

/-- The header of a link window table: frame start and period in units of 4,096. -/
def State.windowFrame (s : State) (base : Nat) : Nat × Nat := (s.loadNat (base + 8) 8, s.loadNat (base + 16) 4)

/-- Opening and closing of the window of an entry that is open now, if one is. -/
def State.windowNow (s : State) (base : Nat) (e : LinkEntry) : Option (Nat × Nat) :=
  let (start, period) := s.windowFrame base
  let now := s.st.now.toNat
  if start ≤ now ∧ 0 < period then
    let k := (now - start) / (4096 * period)
    let opens := start + 4096 * (k * period + e.offset)
    let closes := opens + 4096 * e.length
    if opens ≤ now ∧ now < closes then some (opens, closes) else none
  else none

/-- LINK_WINDOW_OPEN (R235, R236): entry i of the context's table; the flow's ready packets leave. -/
def execLinkWindowOpen (k i : Nat) (s : State) : Out :=
  withCtx k s (fun c =>
    let base := c.desc.windows
    if base = 0 ∨ s.loadNat (base + 20) 4 ≤ i ∨ c.status = .closing ∨ s.seif.windows.any (fun w => w.ctx == k && w.entry == i) then s
    else
      let e := s.linkEntry base i
      match s.windowNow base e with
      | none => s
      | some (opens, closes) =>
        let w : OpenWindow :=
          { ctx := k, entry := i, port := e.port, flow := e.flow, opened := BitVec.ofNat 64 opens, closes := BitVec.ofNat 64 closes, expected := e.expected, sent := 0,
            left := 992 * frameSlots (portGet s.seif e.port).version (closes - s.st.now.toNat), first := none, empty := (s.readyFor k e.port e.flow).isEmpty }
        ({ s with seif := { s.seif with windows := s.seif.windows ++ [w] } } : State).pump k e.port e.flow)

/-- LINK_WINDOW_CLOSE (R235, R236): what has not left waits for the flow's next window; an expected window may be late. -/
def execLinkWindowClose (k i : Nat) (s : State) : Out :=
  withCtx k s (fun c =>
    match s.seif.windows.find? (fun w => w.ctx == k && w.entry == i) with
    | none => s
    | some w =>
      if w.isOpen s.st.now then s
      else
        let s := { s with seif := { s.seif with windows := s.seif.windows.filter (fun x => !(x.ctx == k && x.entry == i)) } }
        let late := (w.empty && w.first.any (fun t => c.lateBy (t - w.opened.toNat))) || w.sent == 0
        (if w.expected && late then s.noteLate k c else s).pumpLoose w.port)

end Sys2Proof.Machine
end

