-- ==== Sys2Proof/Machine/Time.lean ====
section
/-! DEFINITION. System Time: timestamps, grandmaster, holdover, time references (08 R228 to R233). -/

namespace Sys2Proof.Machine

def meanOf (l : List Int) : Int := if l.isEmpty then 0 else l.foldl (· + ·) 0 / l.length

/-- One nanosecond in units of System Time. -/
def oneNs : Int := 16

/-- The rate follows an offset, by at most 100 ppm toward zero (the amount: log 50). -/
def SysTime.follow (t : SysTime) (offset : Int) (free : Nat) : SysTime :=
  let amount : Int := ((free % 101 : Nat) : Int)
  { t with offset := offset, ratePpm := if offset < 0 then -amount else if 0 < offset then amount else 0 }

/-- The parent's offset enters the mean of the last 64, which steers the rate. Initial lock, and nothing after it, steps, once, if no context is resident,
and never backward (log 51); "locked" stands while the mean is within 1 ns (R228, R229). -/
def State.steer (s : State) (theta : Int) : State :=
  let t := s.st
  let l := (t.thetas ++ [theta]).drop (t.thetas.length + 1 - 64)
  let mean := meanOf l
  if t.locked = false ∧ s.resident.isEmpty ∧ 0 ≤ mean then
    { s with st := { t with now := t.now + BitVec.ofInt 64 mean, thetas := [], offset := 0, ratePpm := 0, mode := 2, locked := true } }
  else
    let near := decide (-oneNs ≤ mean ∧ mean ≤ oneNs)
    ({ s with st := { t.follow mean s.fresh with thetas := l, mode := if near then 2 else 1, locked := t.locked || near } } : State).spend

/-- TIMESTAMP (R229): offset and delay from the four times of the exchange; bytes 32 to 39 are the arrival time. -/
def execTimestamp (p : Nat) (s : State) : Out :=
  withMessage p 1 s (fun s m =>
    let t1 : Int := msgNat m 16 8
    let t2 : Int := msgNat m 24 8
    let t3 : Int := msgNat m 8 8
    let t4 : Int := msgNat m 32 8
    let theta := ((t2 - t1) - (t4 - t3)) / 2
    let delta := ((t2 - t1) + (t4 - t3)) / 2
    let x := portGet s.seif p
    let echoed := msgNat m 16 8 != 0
    let s := s.putPort p { x with echoTx := BitVec.ofNat 64 (msgNat m 8 8), arrival := BitVec.ofNat 64 (msgNat m 32 8),
                                  delay := if echoed then delta else x.delay }
    if echoed ∧ s.st.parent = some p then s.steer theta else s)

/-- GRANDMASTER_ANNOUNCEMENT (R231); bytes 32 to 39 are the arrival time. -/
def execGrandmasterAnnouncement (p : Nat) (s : State) : Out :=
  withMessage p 2 s (fun s m =>
    let x := portGet s.seif p
    let serial := BitVec.ofNat 64 (msgNat m 8 8)
    let s := (s.putPort p { x with heard := some (msgNat m 1 1, msgNat m 2 1, serial, msgNat m 3 1), heardAt := msgNat m 32 8 }).elect
    if serial = s.st.gm then { s with st := { s.st with gmHeard := max s.st.gmHeard (msgNat m 32 8) } } else s)

/-- HOLDOVER_ENTRY (R232): no port has announced the grandmaster for 1 ms; the module runs on its last rate, with a notice. -/
def execHoldoverEntry (s : State) : Out :=
  .next (
    if s.st.gm ≠ 0 ∧ s.st.gm ≠ s.cfg.serial ∧ s.st.mode ≠ 3 ∧ s.st.gmHeard + millisecond ≤ s.st.now.toNat then
      ({ s with st := { s.st with mode := 3, parent := none, holdover := some s.st.now.toNat, holdoverWarned := false } } : State).raise
        { level := 1, source := 3, reg := some 0x4000C }
    else s)

/-- HOLDOVER_LIMIT (R232): holdover has lasted longer than 10 ms. -/
def execHoldoverLimit (s : State) : Out :=
  .next (match s.st.holdover with
    | none => s
    | some t =>
      if s.st.mode = 3 ∧ t + 10 * millisecond < s.st.now.toNat ∧ s.st.holdoverWarned = false then
        ({ s with st := { s.st with holdoverWarned := true } } : State).raise { level := 2, source := 3, reg := some 0x4000C }
      else s)

/-- A time reference changes: capability [2] follows both, a loss warns, and candidacy is weighed anew (R233, R249). -/
def State.setRefs (s : State) (pps ten : Bool) : State :=
  let lost := (s.st.ppsValid && !pps) || (s.st.tenValid && !ten)
  let s := { s with st := { s.st with ppsValid := pps, tenValid := ten, capable := pps && ten } }
  let s := if lost then s.raise { level := 2, source := 3, reg := some 0x4000C } else s
  if s.st.gm = 0 then s else s.elect

/-- Distance from the nearest whole second of a count. -/
def secondError (now : Nat) : Nat := min (now % second) (second - now % second)

/-- An edge is rejected and counted; the third in a row loses the reference. -/
def State.rejectPps (s : State) : State :=
  let t := s.st
  let s := { s with st := { t with ppsReject := satAdd 32 t.ppsReject 1, ppsBad := t.ppsBad + 1, ppsGood := 0, ppsLast := some t.now.toNat } }
  if 3 ≤ t.ppsBad + 1 ∧ t.ppsValid = true then s.setRefs false t.tenValid else s

/-- How far a count is past the nearest whole second. -/
def secondOffset (now : Nat) : Int := if 2 * (now % second) ≤ second then (now % second : Nat) else ((now % second : Nat) : Int) - second

/-- Is an edge in its expected place: a whole second, or, while the count slews to a new phase, whole seconds after the edge before, within what the rate may
change (log 153)? -/
def SysTime.inPlace (t : SysTime) : Bool :=
  if t.slewing then (match t.ppsLast with | none => true | some l => decide (secondError (t.now.toNat - l) ≤ 101 * microsecond))
  else decide (secondError t.now.toNat ≤ microsecond)

/-- The grandmaster takes its phase from an edge: it aligns its count with one step before its first lock with no context resident, and slews otherwise
(R228, R233). -/
def State.alignPps (s : State) : State :=
  let t := s.st
  if t.capable = false ∨ t.gm ≠ s.cfg.serial then s
  else if t.locked = false ∧ s.resident.isEmpty then
    { s with st := { t with now := t.now + BitVec.ofNat 64 ((second - t.now.toNat % second) % second), ppsLast := none, offset := 0, ratePpm := 0, locked := true, slewing := false } }
  else
    ({ s with st := { t.follow (-(secondOffset t.now.toNat)) s.fresh with locked := true, slewing := decide (microsecond < secondError t.now.toNat) } } : State).spend

/-- TREF_PPS_EDGE (R233, 18 R453): `highNs` is the high time; below the 20 ns deglitch width nothing is seen. -/
def execTrefPpsEdge (highNs : Nat) (s : State) : Out :=
  .next (
    let t := s.st
    if highNs < 20 || s.resetting 7 || s.resetting 8 then s
    else if highNs < 100 ∨ 500000000 < highNs then s.rejectPps
    else if t.ppsValid then
      (if !t.inPlace then s.rejectPps
       else ({ s with st := { t with ppsBad := 0, ppsLast := some t.now.toNat } } : State).alignPps)
    else
      let consistent := match t.ppsLast with | none => false | some l => decide (secondError (t.now.toNat - l) ≤ microsecond ∧ l < t.now.toNat)
      let good := if consistent then t.ppsGood + 1 else 1
      let s := { s with st := { t with ppsGood := good, ppsBad := 0, ppsLast := some t.now.toNat } }
      if 8 ≤ good then ({ s with st := { s.st with slewing := true } } : State).setRefs true t.tenValid |>.alignPps else s)

/-- TREF_10M_DEVIATION (R233): more than 10 ppm over 1 ms. -/
def execTref10mDeviation (s : State) : Out := .next (if s.st.tenValid then s.setRefs s.st.ppsValid false else s)

/-- TREF_10M_AMPLITUDE_LOSS (18 R453). -/
def execTref10mAmplitudeLoss (s : State) : Out :=
  .next (
    let s := { s with pins := { s.pins with tenMAmplitude := false } }
    if s.st.tenValid then s.setRefs s.st.ppsValid false else s)

/-- TREF_10M_RECOVERY (R233): amplitude and period are good again. -/
def execTref10mRecovery (s : State) : Out :=
  .next (({ s with pins := { s.pins with tenMAmplitude := true } } : State).setRefs s.st.ppsValid true)

end Sys2Proof.Machine
end

