-- ==== Sys2Proof/Machine/Collective.lean ====
section
/-! DEFINITION. The collective engine and matched pacing (08 R238 to R248). -/

namespace Sys2Proof.Machine

/-! ## Descriptors and chunks (R238, R239) -/

/-- Read a collective descriptor. -/
def parseColl (b : List Byte) : CollDesc :=
  { id := BitVec.ofNat 32 (msgNat b 0 4), op := msgNat b 4 1, cls := msgNat b 5 1, format := msgNat b 6 1, acc := msgNat b 7 1, root := msgNat b 8 2,
    flow := msgNat b 10 2, flows := msgNat b 12 2, n := msgNat b 16 8, input := msgNat b 24 8, output := msgNat b 32 8, segments := msgNat b 40 4,
    localSegments := msgNat b 44 4, segmentList := msgNat b 48 8, reserved := msgNat b 14 2 + msgNat b 56 8 }

/-- Formats that a reduction may take (R238). -/
def reduceFormat (code : Nat) : Bool :=
  match Format.ofCode code with
  | some .fp32 => true
  | some .bf16 => true
  | some .fp16 => true
  | some (.scaled _) => true
  | some (.mx _ square) => !square
  | _ => false

def CollDesc.reduces (d : CollDesc) : Bool := d.op == 1 || d.op == 3 || d.op == 5

/-- What is wrong with a descriptor: its completion code (R238, 00 R9, 12 R344; which code each field takes: log 155). -/
def CollDesc.bad (d : CollDesc) : Option Nat :=
  if d.reserved ≠ 0 ∨ 32768 ≤ d.root ∨ 32 ≤ d.format ∨ 2 ≤ d.cls ∨ d.op = 0 ∨ 6 ≤ d.op ∨ (Format.ofCode d.format).isNone then some badField
  else if d.reduces ∧ (reduceFormat d.format = false ∨ 2 ≤ d.acc) then some badField
  else if !(d.reduces && d.cls == 1) ∧ d.segments ≠ 0 then some badField
  else if d.n = 0 ∨ d.flows = 0 ∨ (d.reduces ∧ d.cls = 1 ∧ d.segments = 0) then some outOfRange
  else none

def CollDesc.accFmt (d : CollDesc) : FFmt := if d.acc = 1 then Fmts.m48 else Fmts.fp32

/-- Elements of a chunk. -/
def CollDesc.chunkLen (d : CollDesc) (j : Nat) : Nat := min 512 (d.n - 512 * j)

/-- The rank whose shard holds a chunk, of m modules (R239). -/
def CollDesc.ownerOf (d : CollDesc) (m j : Nat) : Nat := ((List.range m).find? (fun r => decide (r * d.chunks / m ≤ j ∧ j < (r + 1) * d.chunks / m))).getD 0

/-- First chunk of a shard. -/
def CollDesc.shardFirst (d : CollDesc) (m r : Nat) : Nat := r * d.chunks / m
def CollDesc.shardChunks (d : CollDesc) (m r : Nat) : List Nat :=
  (List.range ((r + 1) * d.chunks / m - d.shardFirst m r)).map (d.shardFirst m r + ·)

/-- Segment indices that this module contributes. -/
def State.localSegs (s : State) (d : CollDesc) : List Nat := (List.range d.localSegments).map (fun i => s.loadNat (d.segmentList + 4 * i) 4)

/-! ## Payloads: dense elements, scales after them (log 52), taken from rank-1 tensors in the blocked layout (03 R74) -/

/-- The tensor of n elements that an input or an output is (R238). -/
def vectorOf (n : Nat) : TensorEntry := ⟨0, 0, 0, 1, [n]⟩

/-- Bytes of one tensor of N elements. -/
def partialSize (f : Format) (n : Nat) : Nat := (vectorOf n).bytesIn f

/-- A stretch of a tensor that a chunk takes: address, bytes, and zero bytes of padding that follow them in the tensor. -/
structure Part where
  addr : Nat
  len : Nat
  pad : Nat
  deriving DecidableEq, Repr

/-- The parts of a chunk of a tensor of `total` elements at `base`: row 0 of each of its squares, then tails, scales or the scale pair (03 R74). -/
def chunkParts (f : Format) (base total j n : Nat) : List Part :=
  let squares := List.range (ceilDiv n 32)
  let rows := fun (at' size bits : Nat) => squares.map (fun i =>
    let len := ceilDiv (min 32 (n - 32 * i) * bits) 8
    Part.mk (at' + (16 * j + i) * size) len (size - len))
  let behind := base + (vectorOf total).elemBytes f
  rows base (64 * f.granules) f.bits ++ (match f with
    | .master48 => rows behind 2048 16
    | .scaled _ => [⟨behind, 8, 56⟩]
    | .mx _ false => squares.map (fun i => ⟨behind + 32 * (16 * j + i), 1, 31⟩)
    | .mx _ true => [⟨behind + 16 * j, ceilDiv n 32, 0⟩]
    | _ => [])

def State.readParts (s : State) (ps : List Part) : List Byte := ps.flatMap (fun p => s.load p.addr p.len)
/-- Padding is written as zeros (03 R74). -/
def State.writeParts (s : State) : List Part → List Byte → State
  | [], _ => s
  | p :: ps, b => (s.store p.addr (b.take p.len ++ zeros p.pad)).writeParts ps (b.drop p.len)

/-- The first poisoned granule of the parts. -/
def State.partsPoison (s : State) (ps : List Part) : Option Nat := ps.findSome? (fun p => s.firstPoison p.addr p.len)

/-- Exact values of the elements of a chunk payload (R240, 03 R88). -/
def chunkValues (f : Format) (n : Nat) (b : List Byte) : List FVal :=
  let data := leNat (b.take (ceilDiv (n * f.bits) 8))
  let rest := b.drop (ceilDiv (n * f.bits) 8)
  (List.range n).map (fun i =>
    let code := unpackCode f.bits data i
    match f with
    | .mx e _ => mxValue e (msgNat rest (i / 32) 1) code
    | .master48 => Fmts.m48.decode (code * 65536 + msgNat rest (2 * i) 2)
    | .scaled g => (scaledValue g ⟨BitVec.ofNat 32 (msgNat rest 0 4), BitVec.ofNat 32 (msgNat rest 4 4)⟩ code).1
    | g => (decodePlain g ⟨0, 0⟩ code).1)

/-- A node: the exact sum of two children, rounded once in RNE into the accumulator format under R107. -/
def sumNode (f : FFmt) (a b : FVal × Ev) : FVal × Ev :=
  let (v, cause) := FVal.add a.1 b.1
  if cause ≠ 0 then (.nan, (a.2.or b.2).or (Ev.invalid cause))
  else
    let (code, ev) := f.accumulate .rne 0 v
    (f.decode code, (a.2.or b.2).or ev)

/-- The root of an element over its leaves, as a code of the accumulator format (R240). -/
def rootOf (f : FFmt) (leaves : List FVal) : Nat × Ev :=
  let (v, ev) := canonicalTree (.fin false 0 0, Ev.none) (fun _ => sumNode f) (leaves.map (fun x => (x, Ev.none)))
  let (code, ev') := f.accumulate .rne 0 v
  (code, ev.or ev')

/-- The bytes of accumulator codes: FP32, or the words and then the tails of Master48. -/
def accBytes (acc : Nat) (codes : List Nat) : List Byte :=
  if acc = 1 then codes.flatMap (fun c => leBytes 4 (c / 65536)) ++ codes.flatMap (fun c => leBytes 2 (c % 65536)) else codes.flatMap (leBytes 4)

/-- The format of a reduction's output: FP32, or the two planes of Master48 (R238). -/
def CollDesc.outFormat (d : CollDesc) : Format := if d.acc = 1 then .master48 else .fp32

/-! ## Sandline digests (R243, R244) -/

/-- Hash key and mask of a collective. -/
def collKeys (job step : W64) (id : W32) : BitVec 128 × BitVec 128 :=
  let d := sha3 (ascii "VXSANDK1" ++ leBytes 16 (grainKey "VXGRKEY1" job step).toNat ++ leBytes 4 id.toNat ++ zeros 4)
  (BitVec.ofNat 128 (leNat (d.take 16)), BitVec.ofNat 128 (leNat (d.drop 16)))

/-- The digest of a contribution: job, source, segment, and the payload as sent. -/
def Coll.digest (x : Coll) (job : W64) (chunk src seg : Nat) (payload : List Byte) : BitVec 128 :=
  let b0 := leBytes 8 job.toNat ++ leBytes 4 x.desc.id.toNat ++ leBytes 4 chunk
  let b1 := leBytes 2 src ++ zeros 2 ++ leBytes 4 seg ++ leBytes 4 payload.length ++ zeros 4
  sandline x.h x.k (blocks16 (payload.length / 16 + 3) (b0 ++ b1 ++ payload))

/-- The job identifier that digests use (R65). -/
def Ctx.digestJob (c : Ctx) : W64 := if c.desc.standIns = 0 then c.desc.job else c.desc.replayed

/-! ## Sending -/

def noSegment : Nat := 0xFFFFFFFF

/-- One contribution or result to a rank, on the collective's flow for it (log 53). -/
def State.contribute (s : State) (k : Nat) (c : Ctx) (x : Coll) (kind chunk src seg dest : Nat) (bytes : List Byte) : State :=
  let payload := toGranules bytes
  let tag := s.seif.nextTag
  let p := writePacket c.desc.job src dest (x.desc.flow + dest % x.desc.flows) tag (x.desc.id.toNat + 2 ^ 32 * chunk) payload []
  let p := { p with kind := BitVec.ofNat 8 kind, segment := BitVec.ofNat 32 seg, digest := x.digest c.digestJob chunk src seg payload }
  ({ s with seif := { s.seif with nextTag := tag + 1 } } : State).ready k p

/-- The leaves of a chunk that this module has: leaf number, source rank, segment, and where its partial or vector lies. The source rank of a segment is
the module's rank; of a context with stand-in ranks the first of them (log 154). -/
def State.localLeaves (s : State) (c : Ctx) (d : CollDesc) (f : Format) (j : Nat) : List (Nat × Nat × Nat × List Part) :=
  let parts := fun (i : Nat) => chunkParts f (d.input + i * partialSize f d.n) d.n j (d.chunkLen j)
  if d.cls = 1 then (s.localSegs d).mapIdx (fun i g => (g, (s.localRanks c).headD c.desc.rank, g, parts i))
  else (s.localRanks c).mapIdx (fun i r => (r, r, noSegment, parts i))

/-- Where a reduction of a chunk is formed: at its shard's owner, or at the root. -/
def CollDesc.sinkOf (d : CollDesc) (m j : Nat) : Nat := if d.op = 5 then d.root else d.ownerOf m j

/-- Chunks that a module must have before its part of a collective is complete. -/
def CollDesc.needs (d : CollDesc) (m : Nat) (ranks : List Nat) : List Nat :=
  let all := List.range d.chunks
  match d.op with
  | 1 => all.filter (fun j => ranks.contains (d.ownerOf m j))
  | 5 => if ranks.contains d.root then all else []
  | _ => all

/-- Elements of a shard. -/
def CollDesc.shardLen (d : CollDesc) (m r : Nat) : Nat := ((d.shardChunks m r).map d.chunkLen).foldl (· + ·) 0

/-- Where the shard of a local rank lies from an address: shards alone, one behind the other in the order of the ranks (log 53). -/
def CollDesc.shardAt (d : CollDesc) (f : Format) (m base : Nat) (ranks : List Nat) (r : Nat) : Nat :=
  base + ((ranks.takeWhile (· != r)).map (fun x => partialSize f (d.shardLen m x))).foldl (· + ·) 0

/-- The parts of the output that a chunk of a reduction takes: a reduce-scatter writes the shard alone (log 53). -/
def CollDesc.outParts (d : CollDesc) (m : Nat) (ranks : List Nat) (j : Nat) : List Part :=
  let n := d.chunkLen j
  if d.op = 1 then
    let r := d.ownerOf m j
    chunkParts d.outFormat (d.shardAt d.outFormat m d.output ranks r) (d.shardLen m r) (j - d.shardFirst m r) n
  else chunkParts d.outFormat d.output d.n j n

/-- The parts of a module's own chunk that an all-gather or a broadcast moves. -/
def CollDesc.movedParts (d : CollDesc) (f : Format) (m : Nat) (ranks : List Nat) (j : Nat) : List Part :=
  if d.op = 4 then chunkParts f d.input d.n j (d.chunkLen j)
  else
    let r := d.ownerOf m j
    chunkParts f (d.shardAt f m d.input ranks r) (d.shardLen m r) (j - d.shardFirst m r) (d.chunkLen j)

/-- The rank that has a chunk before an all-gather or a broadcast moves it. -/
def CollDesc.holderOf (d : CollDesc) (m j : Nat) : Nat := if d.op = 4 then d.root else d.ownerOf m j

/-- The collective of a context, replaced. -/
def State.setColl (s : State) (x : Coll) : State :=
  { s with colls := updWhere s.colls (fun y => y.ctx == x.ctx && y.desc.id == x.desc.id) (fun _ => x) }

/-- A chunk's result is in the output: it is done, with its flags and non-finite elements counted (R242). -/
def Coll.finishChunk (x : Coll) (j : Nat) (vals : List FVal) (ev : Ev) : Coll :=
  let flag := b2n ev.ov + 2 * b2n ev.un + 4 * b2n ev.ix + 8 * b2n (ev.cause != 0)
  { x with done := x.done ++ [j], leaves := x.leaves.filter (fun y => y.chunk != j), flags := Nat.lor x.flags flag
           nonFinite := x.nonFinite + (vals.filter (fun v => !v.isFinite)).length }

/-- A chunk's reduced values are written in the output. -/
def putResult (s : State) (c : Ctx) (x : Coll) (j : Nat) (bytes : List Byte) (ev : Ev) : State :=
  let d := x.desc
  let vals := chunkValues d.outFormat (d.chunkLen j) bytes
  (s.writeParts (d.outParts c.desc.modules (s.localRanks c) j) bytes).setColl (x.finishChunk j vals ev)

/-- Moved bytes of an all-gather or a broadcast enter the output unchanged (R240). -/
def putMoved (s : State) (x : Coll) (f : Format) (j : Nat) (bytes : List Byte) : State :=
  let d := x.desc
  (s.writeParts (chunkParts f d.output d.n j (d.chunkLen j)) bytes).setColl (x.finishChunk j (chunkValues f (d.chunkLen j) bytes) Ev.none)

def State.coll? (s : State) (k : Nat) (id : W32) : Option Coll := s.colls.find? (fun x => x.ctx == k && x.desc.id == id)

/-- Where a leaf of a chunk is: in the module's own input, or in the collective region; none while it is not here. -/
def leafParts (s : State) (c : Ctx) (x : Coll) (f : Format) (j g : Nat) : Option (List Part) :=
  match (s.localLeaves c x.desc f j).find? (fun l => l.1 == g) with
  | some l => some l.2.2.2
  | none => (x.leaves.find? (fun y => y.chunk == j && y.leaf == g)).map (fun y => [⟨y.addr, y.len, 0⟩])

/-- Every leaf of a chunk is here: the root is formed, and an all-reduce sends it on. A poisoned leaf makes its poison visible (R245, 07 R213). -/
def tryChunk (s : State) (k : Nat) (c : Ctx) (id : W32) (j : Nat) : State :=
  match s.coll? k id with
  | none => s
  | some x =>
    let d := x.desc
    let m := c.desc.modules
    match Format.ofCode d.format with
    | none => s
    | some f =>
      let leaves := (List.range (if d.cls = 1 then d.segments else m)).map (leafParts s c x f j)
      if x.done.contains j ∨ leaves.any (·.isNone) ∨ !(s.localRanks c).contains (d.sinkOf m j) then s
      else
        match leaves.findSome? (fun l => s.partsPoison (l.getD [])) with
        | some a => s.putCtx k (c.raisePoison a 0x05)
        | none =>
          let n := d.chunkLen j
          let vals := leaves.map (fun l => chunkValues f n (s.readParts (l.getD [])))
          let roots := (List.range n).map (fun i => rootOf d.accFmt (vals.map (fun v => v.getD i .nan)))
          let bytes := accBytes d.acc (roots.map (·.1))
          let s := putResult s c x j bytes (Ev.all (roots.map (·.2)))
          if d.op = 3 then
            ((List.range m).filter (fun r => !(s.localRanks c).contains r)).foldl (fun s r => s.contribute k c x 5 j (d.sinkOf m j) noSegment r bytes) s
          else s

/-- Bytes of the collective region that one pending leaf takes: the longest leaf payload (R239). -/
def leafRoom : Nat := 2048

/-- The lowest place of the collective region of a context that no pending leaf takes (R241). -/
def State.leafPlace (s : State) (k : Nat) (c : Ctx) : Option Nat :=
  let used := (s.colls.filter (fun x => x.ctx == k)).flatMap (fun x => x.leaves.map Leaf.addr)
  ((List.range (c.desc.collLen / leafRoom)).map (fun i => c.desc.collAddr + leafRoom * i)).find? (fun a => !used.contains a)

/-- A leaf that came from another rank is held in the collective region until its chunk can be formed (R241). -/
def addLeaf (s : State) (k : Nat) (c : Ctx) (x : Coll) (j g : Nat) (bytes : List Byte) : State :=
  if x.leaves.any (fun y => y.chunk == j && y.leaf == g) then s
  else
    match s.leafPlace k c with
    | none => s
    | some a =>
      let s := (s.store a bytes).setColl { x with leaves := x.leaves ++ [(Leaf.mk j g a bytes.length)] }
      tryChunk s k c x.desc.id j

/-- What this module contributes of chunk j: kept here where the chunk is formed here, sent otherwise. -/
def contributeChunk (s : State) (k : Nat) (c : Ctx) (id : W32) (j : Nat) : State :=
  match s.coll? k id with
  | none => s
  | some x =>
    let d := x.desc
    let m := c.desc.modules
    let ranks := s.localRanks c
    match Format.ofCode d.format with
    | none => s
    | some f =>
      if d.reduces then
        let sink := d.sinkOf m j
        if ranks.contains sink then tryChunk s k c id j
        else (s.localLeaves c d f j).foldl (fun s l => s.contribute k c x 4 j l.2.1 l.2.2.1 sink (s.readParts l.2.2.2)) s
      else if ranks.contains (d.holderOf m j) then
        let bytes := s.readParts (d.movedParts f m ranks j)
        let s := putMoved s x f j bytes
        ((List.range m).filter (fun r => !ranks.contains r)).foldl (fun s r => s.contribute k c x 4 j (d.holderOf m j) noSegment r bytes) s
      else s

/-- What a module sends or combines of a chunk. -/
def State.inputParts (s : State) (c : Ctx) (d : CollDesc) (f : Format) (j : Nat) : List Part :=
  if d.reduces then (s.localLeaves c d f j).flatMap (fun l => l.2.2.2)
  else if (s.localRanks c).contains (d.holderOf c.desc.modules j) then d.movedParts f c.desc.modules (s.localRanks c) j else []

/-- The first poisoned granule of a module's inputs: sending it makes the poison visible (R245, 07 R213). -/
def State.inputPoison (s : State) (c : Ctx) (d : CollDesc) (f : Format) : Option Nat :=
  (List.range d.chunks).findSome? (fun j => s.partsPoison (s.inputParts c d f j))

/-- A descriptor is refused: the steps in the phases of its collectives fail and complete with its code (00 R9, log 155). -/
def refuseColl (s : State) (k code : Nat) (c : Ctx) : State :=
  (c.steps.filter StepRun.open').foldl (fun s st => s.onStep k st.cmd (fun c st => giveUp s k c st code)) s

/-- The step counter that keys a collective: the program's, or that of the oldest step in progress. -/
def Ctx.stepNow (c : Ctx) : W64 :=
  match c.run with
  | some r => r.step
  | none => (c.steps.head?.map (fun st => BitVec.ofNat 64 st.counter)).getD 0

/-- COLLECTIVE_START (R238, R239, R243): the step driver hands a descriptor. -/
def execCollectiveStart (k : Nat) (desc : List Byte) (s : State) : Out :=
  withCtx k s (fun c =>
    let d := parseColl desc
    match Format.ofCode d.format with
    | none => refuseColl s k badField c
    | some f =>
      if c.status != .running || c.stopping || (s.coll? k d.id).isSome then s
      else
        match d.bad, s.inputPoison c d f with
        | some code, _ => refuseColl s k code c
        | none, some a => s.putCtx k (c.raisePoison a 0x05)
        | none, none =>
          let (h, key) := collKeys c.digestJob c.stepNow d.id
          let x : Coll := { ctx := k, step := c.stepNow, started := s.st.now, desc := d, h := h, k := key, leaves := [], done := [],
                            mismatches := [], inbox := [], flags := 0, nonFinite := 0 }
          let s := { s with colls := s.colls ++ [x] }
          (List.range d.chunks).foldl (fun s j => contributeChunk s k c d.id j) s)

/-! ## Arrivals (R245) -/

/-- A resend request names collective, chunk, segment and source rank (layout: log 47). -/
def resendMessage (job : W64) (dest : Nat) (cid : W32) (chunk seg asker : Nat) : List Byte :=
  [0x04, 0] ++ leBytes 2 dest ++ leBytes 8 job.toNat ++ leBytes 4 cid.toNat ++ leBytes 4 chunk ++ leBytes 4 seg ++ leBytes 2 asker

/-- A contribution whose digest does not hold: a resend is asked for; the third mismatch ends the collective and charges the source (R245, R246, 11 R328). -/
def mismatch (s : State) (k : Nat) (c : Ctx) (x : Coll) (p : SeifPacket) (chunk : Nat) : State :=
  let src := p.srcRank.toNat
  let seg := p.segment.toNat
  let hit := fun (y : Nat × Nat × Nat × Nat) => y.1 == chunk && y.2.1 == src && y.2.2.1 == seg
  let n := ((x.mismatches.find? hit).map (·.2.2.2)).getD 0 + 1
  let s := s.setColl { x with mismatches := x.mismatches.filter (fun y => !hit y) ++ [(chunk, src, seg, n)] }
  if 3 ≤ n then (s.failColl k true).chargeRank c.desc.job src 0x07 (some k)
  else s.postTo c.desc.job src (resendMessage c.desc.job src x.desc.id chunk seg c.desc.rank)

/-- A contribution is checked, and combined or refused. -/
def takeContribution (s : State) (k : Nat) (c : Ctx) (x : Coll) (p : SeifPacket) : State :=
  let chunk := p.target.toNat / 2 ^ 32
  if x.digest c.digestJob chunk p.srcRank.toNat p.segment.toNat p.payload ≠ p.digest then mismatch s k c x p chunk
  else match Format.ofCode x.desc.format with
    | none => s
    | some f =>
      if x.done.contains chunk then s
      else if p.kind = 5 then putResult s c x chunk p.payload Ev.none
      else if x.desc.reduces then addLeaf s k c x chunk (if x.desc.cls = 1 then p.segment.toNat else p.srcRank.toNat) p.payload
      else putMoved s x f chunk p.payload

/-- Can a contribution be taken now? One that must be held needs a place in the collective region (R241); until there is one it waits. -/
def State.placeable (s : State) (k : Nat) (c : Ctx) (x : Coll) (p : SeifPacket) : Bool :=
  !x.desc.reduces || p.kind == 5 || x.done.contains (p.target.toNat / 2 ^ 32) || (s.leafPlace k c).isSome

/-- CONTRIBUTION_ARRIVAL (R245): the first packet that waits in a collective of the context and can be taken. -/
def execContributionArrival (k : Nat) (s : State) : Out :=
  withCtx k s (fun c =>
    match (s.colls.filter (fun x => x.ctx == k)).findSome? (fun x => (x.inbox.find? (s.placeable k c x)).map (fun p => (x, p))) with
    | none => s
    | some (x, p) =>
      let x := { x with inbox := x.inbox.erase p }
      takeContribution (s.setColl x) k c x p)

/-- The parts of what a rank sent of a chunk, with its kind: a contribution, or, if the rank that asks does not form the chunk, an all-reduce's result. -/
def sentParts (s : State) (c : Ctx) (x : Coll) (f : Format) (chunk src seg asker : Nat) : Option (Nat × List Part) :=
  let d := x.desc
  let m := c.desc.modules
  if d.reduces then
    if asker = d.sinkOf m chunk then ((s.localLeaves c d f chunk).find? (fun l => l.2.2.1 == seg && l.2.1 == src)).map (fun l => (4, l.2.2.2))
    else if d.op = 3 ∧ x.done.contains chunk then some (5, d.outParts m (s.localRanks c) chunk)
    else none
  else some (4, chunkParts f d.output d.n chunk (d.chunkLen chunk))

/-- RESEND_REQUEST (R245): the contribution, or the result, is sent again. -/
def execResendRequest (p : Nat) (s : State) : Out :=
  withMessage p 4 s (fun s m => forMe s m (fun s =>
    let job := BitVec.ofNat 64 (msgNat m 4 8)
    match s.jobCtx job with
    | none => s
    | some (k, c) =>
      match s.coll? k (BitVec.ofNat 32 (msgNat m 12 4)) with
      | none => s
      | some x =>
        match Format.ofCode x.desc.format with
        | none => s
        | some f =>
          let chunk := msgNat m 16 4
          let seg := msgNat m 20 4
          let src := msgNat m 2 2
          let asker := msgNat m 24 2
          match sentParts s c x f chunk src seg asker with
          | none => s
          | some (kind, ps) =>
            match s.partsPoison ps with
            | some a => s.putCtx k (c.raisePoison a 0x05)
            | none => s.contribute k c x kind chunk src seg asker (s.readParts ps)))

/-! ## Completion and failure (R242, R246) -/

/-- COLLECTIVE_COMPLETION (R242): flags and the non-finite count go to the step driver. -/
def execCollectiveCompletion (k cid : Nat) (s : State) : Out :=
  withCtx k s (fun c =>
    match s.coll? k (BitVec.ofNat 32 cid) with
    | none => s
    | some x =>
      if (x.desc.needs c.desc.modules (s.localRanks c)).all (fun j => x.done.contains j) then
        let s := { s with colls := s.colls.filter (fun y => !(y.ctx == k && y.desc.id == x.desc.id)) }
        (c.steps.filter StepRun.open').foldl (fun s st => s.onStep k st.cmd (fun _ st =>
          let m := c.desc.modules
          let shard := (s.localRanks c).map (fun r => (x.desc.shardAt x.desc.outFormat m x.desc.output (s.localRanks c) r, partialSize x.desc.outFormat (x.desc.shardLen m r)))
          let st := { st with collFlags := Nat.lor st.collFlags x.flags, shards := if x.desc.op = 1 then st.shards ++ shard else st.shards }
          let finite := st.collFinite && x.nonFinite == 0
          let s := s.setStep k (if st.phase == .exchange || st.phase == .gate then { st with collFinite := finite } else st)
          tryPrepare (tryGate s k st.cmd) k st.cmd)) s
      else s)

/-- COLLECTIVE_DEADLINE_EXPIRY (R246; 2 s by default): the phase fails (log 54). -/
def execCollectiveDeadlineExpiry (k cid : Nat) (s : State) : Out :=
  withCtx k s (fun _ =>
    match s.coll? k (BitVec.ofNat 32 cid) with
    | none => s
    | some x => if x.started.toNat + 2 * second ≤ s.st.now.toNat then s.failColl k true else s)

/-- COLLECTIVE_ABORT (R246): the phase ends at once; the message says whether the step may be executed again (log 32). -/
def execCollectiveAbort (p : Nat) (s : State) : Out :=
  withMessage p 9 s (fun s m => forMe s m (fun s =>
    let job := BitVec.ofNat 64 (msgNat m 4 8)
    match s.jobCtx job with
    | none => s
    | some (k, _) =>
      match s.coll? k (BitVec.ofNat 32 (msgNat m 12 4)) with
      | none => s
      | some _ => s.endColl k (msgNat m 1 1 == 1)))

/-! ## Matched pacing (R248) -/

def pacingPeriod (now : W64) : Nat := now.toNat / millisecond

/-- A pacing message. -/
def pacingMessage (down : Bool) (job : W64) (period ratio covered : Nat) : List Byte :=
  [0x05, if down then 1 else 0, 0, 0] ++ leBytes 8 job.toNat ++ leBytes 8 period ++ [BitVec.ofNat 8 ratio, 0] ++ leBytes 2 (min 0xFFFF covered) ++ zeros 8

/-- The ratio that a child counts with in a period and the ranks it covers: its report, or its last one before. -/
def Pacing.ratioOf (p : Pacing) (child period : Nat) : Nat × Nat :=
  ((p.reports.filter (fun r => r.1 == child && decide (r.2.1 ≤ period))).getLast?.map (·.2.2)).getD (0, 0)

/-- Periods since a child last reported. -/
def Pacing.silence (p : Pacing) (child period : Nat) : Nat :=
  period - (((p.reports.filter (fun r => r.1 == child)).getLast?.map (·.2.1)).getD p.first)

def State.setPacing (s : State) (p : Pacing) : State :=
  { s with seif := { s.seif with pacing := updWhere s.seif.pacing (fun y => y.ctx == p.ctx) (fun _ => p) } }

/-- The children that count: those that reported within ten periods. -/
def Pacing.kids (p : Pacing) (c : Ctx) (period : Nat) : List Nat := (childRanks c.desc.modules c.desc.rank).filter (fun r => decide (p.silence r period < 10))

/-- The maximum of the module's subtree for a period goes up, or down from rank 0. -/
def State.passPacing (s : State) (c : Ctx) (p : Pacing) (period : Nat) : State :=
  let said := (p.kids c period).map (fun r => p.ratioOf r period)
  let covered := (said.map (·.2)).foldl (· + ·) 1
  let own := ((p.own.find? (fun x => x.1 == period)).map (·.2)).getD 0
  let ratio := (said.map (·.1)).foldl max own
  let p := { p with sent := (p.sent.drop (p.sent.length - 15)) ++ [period] }
  if c.desc.rank = 0 then
    let s := s.setPacing { p with maxima := (p.maxima.drop (p.maxima.length - 15)) ++ [(period, ratio)] }
    (childRanks c.desc.modules 0).foldl (fun s r => s.postTo c.desc.job r (pacingMessage true c.desc.job period ratio covered)) s
  else (s.setPacing p).postTo c.desc.job (parentRank c.desc.rank) (pacingMessage false c.desc.job period ratio covered)

/-- Every child that counts has reported for a period. -/
def Pacing.complete (p : Pacing) (c : Ctx) (period : Nat) : Bool :=
  (p.kids c period).all (fun r => p.reports.any (fun x => x.1 == r && x.2.1 == period))

def State.pacing? (s : State) (k : Nat) : Option Pacing := s.seif.pacing.find? (fun p => p.ctx == k)

/-- Ten periods without a report: the subtree is left out, with a warning that names the rank. -/
def warnPacing (s : State) (k : Nat) (c : Ctx) (period : Nat) : State :=
  (childRanks c.desc.modules c.desc.rank).foldl (fun s r =>
    match s.pacing? k with
    | none => s
    | some p =>
      if 10 ≤ p.silence r period then
        (if p.warned.contains r then s else (s.setPacing { p with warned := p.warned ++ [r] }).raise { level := 2, source := 3, ctx := some k, count := r })
      else s.setPacing { p with warned := p.warned.filter (· != r) }) s

/-- One context's pacing at the start of period n: its own ratio of the period before is reported; reports two periods old that are not complete are
sent as they stand. -/
def pacingCtx (s : State) (k : Nat) (c : Ctx) (n ratio : Nat) : State :=
  let p := (s.pacing? k).getD ⟨k, n, [], [], [], [], []⟩
  let p := { p with own := (p.own.drop (p.own.length - 15)) ++ [(n, ratio)] }
  let s := if (s.pacing? k).isSome then s.setPacing p else { s with seif := { s.seif with pacing := s.seif.pacing ++ [p] } }
  let s := warnPacing s k c n
  let late := if 2 ≤ n ∧ p.own.any (fun x => x.1 == n - 2) ∧ !p.sent.contains (n - 2) then
      (match s.pacing? k with | none => s | some p => s.passPacing c p (n - 2)) else s
  match late.pacing? k with
  | none => late
  | some p => if p.complete c n then late.passPacing c p n else late

/-- Contexts with matched pacing. -/
def State.paced (s : State) : List (Nat × Ctx) := s.resident.filter (fun c => c.2.desc.paced)

/-- The job maximum that applies in period n: the latest of the reports of period n − 2 or before. -/
def State.jobMax (s : State) (n : Nat) : Nat :=
  (s.seif.pacing.map (fun p => ((p.maxima.foldl (fun b x => if x.1 + 2 ≤ n ∧ b.1 ≤ x.1 + 2 then (x.1 + 2, x.2) else b) (0, 0))).2)).foldl max 0

/-- The job maximum takes effect: at the start of its period, or when it comes if that is later. -/
def State.applyMax (s : State) : State := { s with power := { s.power with kJob := s.jobMax (pacingPeriod s.st.now) } }

/-- PACING_PERIOD_BOUNDARY (R248): the largest local ratio applied in the period that ends is reported, and the job maximum applies. -/
def execPacingPeriodBoundary (s : State) : Out :=
  .next (
    let n := pacingPeriod s.st.now
    let ratio := s.power.periodMax
    let s := s.paced.foldl (fun s c => match s.ctx? c.1 with | none => s | some x => pacingCtx s c.1 x n ratio) s
    { s with power := { s.power with periodMax := 0 } }.applyMax)

/-- PACING (R248): a ratio comes up from a child, or the job maximum comes down. Which child sent it is told by its port (log 56). -/
def execPacing (p : Nat) (s : State) : Out :=
  withMessage p 5 s (fun s m =>
    let job := BitVec.ofNat 64 (msgNat m 4 8)
    let period := msgNat m 12 8
    let ratio := msgNat m 20 1
    match s.jobCtx job with
    | none => s
    | some (k, c) =>
      match s.pacing? k with
      | none => s
      | some q =>
        if msgNat m 1 1 = 0 then
          let kids := (childRanks c.desc.modules c.desc.rank).filter (fun r => s.egress job r == some p && !q.reports.any (fun x => x.1 == r && x.2.1 == period))
          (match kids with
           | [] => s
           | r :: _ =>
             let q := { q with reports := (q.reports.drop (q.reports.length - 255)) ++ [(r, period, ratio, msgNat m 22 2)] }
             let s := s.setPacing q
             if q.complete c period ∧ !q.sent.contains period then s.passPacing c q period else s)
        else
          let q := { q with maxima := (q.maxima.drop (q.maxima.length - 15)) ++ [(period, ratio)] }
          ((childRanks c.desc.modules c.desc.rank).foldl (fun s r => s.postTo job r (m.take 32)) (s.setPacing q)).applyMax)

end Sys2Proof.Machine
end

