-- ==== Sys2Proof/Machine/Programs.lean ====
section
/-! DEFINITION. How a program starts on the cores of a context (05 R156, 07 R188, 09 R256, R271, 02 R46). -/

namespace Sys2Proof.Machine

/-! ## Patches (09 R271) -/

/-- R135 code of a ladder rung (R270). -/
def rungCode (rung : Nat) (square : Bool) : Nat :=
  match rung, square with
  | 0, false => 0x0C
  | 1, false => 0x0A
  | 2, false => 0x09
  | 0, true => 0x14
  | 1, true => 0x12
  | 2, true => 0x11
  | _, _ => 0x01

/-- One patch of a core's start state: `base` is the consumed buffer, `tracked` the copy of that version. -/
def PatchEntry.apply (p : PatchEntry) (base : Nat) (tracked : List (List Byte)) (image : Nat) (x : Core) : Core :=
  if p.image ≠ 0xFFFF ∧ p.image ≠ image then x
  else
    let e := tracked.getD p.tracked []
    match p.kind with
    | 1 => x.spWrite p.addr (leBytes 8 (leNat (x.spRead p.addr 8) + base)) false
    | 2 => x.setS p.reg (x.sreg p.reg + BitVec.ofNat 64 base)
    | 3 =>
      let code := rungCode (msgNat e 7 1) (msgNat e 5 1 / 16 % 2 == 1)
      x.setS p.reg (BitVec.ofNat 64 ((x.sreg p.reg).toNat / 32 * 32 + code))
    | 4 => x.setS p.reg (BitVec.ofNat 64 (msgNat e 20 4 + 2 ^ 32 * msgNat e 16 4))
    | _ => x

/-- The patches of a context for a version. -/
def Ctx.patch (c : Ctx) (version image : Nat) (x : Core) : Core :=
  match c.learn with
  | none => x
  | some l =>
    match l.bufferOf version with
    | none => x
    | some b => l.patches.foldl (fun x p => p.apply b.addr b.tracked image x) x

/-! ## The start state (05 R156) -/

/-- A core at the start of a program: what R156 lists; flags, captures, statistics, the gate count, the tile index, registers other than the
scalars and the rest of the scratchpad persist. -/
def Core.startRun (x : Core) (p : Program) (image : Nat) (key : BitVec 128) : Core :=
  let y := { x with
    seq := Sequencer.start, t := [], s := ssetAll [] 0 (p.scalars.getD image []), g := .undecided, key := key, queues := []
    wadi := x.wadi.map (fun q => (q.1, { WadiQueue.empty with nextId := q.2.nextId })), sends := [], tileBeats := [], image := image }
  (p.preloads.getD image []).foldl (fun y r => y.spWrite (64 * r.granule) r.bytes false) y

/-- Of the logical cores that share a host, only the lowest is restored at first (02 R46). -/
def State.turn (s : State) (c : Ctx) (l : Nat) : Bool :=
  !c.folded || c.cores.all (fun y => decide (l ≤ y.1) || s.hostOf c y.1 != s.hostOf c l)

/-- Ripple in which a program's first frame starts: the next, a multiple of 64 where a link is shared (07 R188). -/
def frameFrom (ripple : Nat) (shared : Bool) : Nat := if shared then 64 * ceilDiv (ripple + 1) 64 else ripple + 1

/-- The start state of a context's program is written on its cores: what their slots hold comes back first, for R156 keeps the rest of it. -/
def startNow (s : State) (k : Nat) (key : BitVec 128) (version : Nat) : State :=
  match s.ctx? k with
  | none => s
  | some c =>
    match c.program with
    | none => s
    | some p =>
      let c := c.restoreThe s (fun _ => true)
      let plan := s.planOf c p.slotMap
      let cores := c.cores.map (fun y =>
        let image := p.coreMap.getD y.1 0
        (y.1, { (c.patch version image (y.2.startRun p image key)) with folded := false, on := s.hostOf c y.1 }))
      let s := s.putCtx k { c with cores := cores, plan := plan, taken := [], deferred := none, drained := []
                                   frameStart := frameFrom s.net.ripple.toNat ((plan.map Plan.shared).getD false) }
      (c.cores.filter (fun y => !s.turn c y.1)).foldl (fun s y => s.park k y.1) s

/-- A program of a context starts: at once where the context is on its cores, else when the schedule has placed it (13 R364). -/
def startProgram (s : State) (k : Nat) (run : RunPhase) (key : BitVec 128) (version : Nat) : State :=
  match s.ctx? k with
  | none => s
  | some c =>
    match nfind c.slots run.slot with
    | none => s
    | some _ =>
      let s := s.putCtx k { c with run := some run, deferred := some (key, version) }
      if c.status == .running && !c.stored then startNow s k key version else s

/-- The phase of a program that serves a command. -/
def RunPhase.of (cmd slot : Nat) (step : W64) : RunPhase := ⟨some cmd, slot, step, 0, 0, none, 0⟩

/-- A program of a STEP starts, with the key of its step counter (06 R178). Before phase 3 its patches take the current version (09 R271, log 160). -/
def startStepProgram (s : State) (k : Nat) (c : Ctx) (st : StepRun) (i : Nat) : State :=
  startProgram s k (RunPhase.of st.cmd (st.slots.getD i 0xFF) (BitVec.ofNat 64 st.counter)) (grainKey "VXGRKEY1" c.digestJob (BitVec.ofNat 64 st.counter))
    (if st.consumed = 0 then c.currentVersion else st.consumed)

/-- Every logical core has reached its seq.end: the program runs again for the next stand-in rank, or is over (02 R65, log 154). -/
def programOver (s : State) (k : Nat) : State :=
  match s.ctx? k with
  | none => s
  | some c =>
    match c.run with
    | none => s
    | some r =>
      if c.cores.all (fun x => x.2.seq.ended) ∧ r.turn + 1 < (s.localRanks c).length then
        startProgram s k { r with turn := r.turn + 1 } ((c.cores.head?.map (·.2.key)).getD 0) c.versionSeen
      else programEnd s k

/-! ## Fences (09 R257) -/

/-- After a hold is released, a decision that waits for a buffer or an area may go on (R257). -/
def State.afterRelease (s : State) (k : Nat) : State :=
  match s.ctx? k with
  | none => s
  | some c => c.steps.foldl (fun s st => tryAllocate s k st.cmd) s

end Sys2Proof.Machine
end

