-- ==== Sys2Proof/Machine/Loader.lean ====
section
/-! DEFINITION. Program containers: what a container says, the checks of LOAD_PROGRAM, and the loaded program (05 R133 to R156, 07 R186, R187). -/

namespace Sys2Proof.Machine

/-! ## Instruction words (R133 to R146) -/

/-- The operand fields, as lowest bit and width, that an op uses; none where class or op is reserved. -/
def usedFields (cls op : Nat) : Option (List (Nat × Nat)) :=
  match cls with
  | 0 => if op ≤ 0x14 then some (seqFields op) else none
  | 1 => if op ≤ 5 then some (matrixFields op) else none
  | 2 => if op ≤ 0x23 then some (vectorFields op) else none
  | 3 => if op ≤ 5 then some [(32, 5), (27, 5), (22, 5), (18, 4), (13, 5)] else none
  | 4 => if op ≤ 1 then some [(33, 4), (28, 5)] else none
  | 5 => if op ≤ 1 then some [(32, 5), (27, 5), (0, 16)] else none
  | 6 => if op = 0 then some [(31, 6), (26, 5), (21, 5), (16, 5), (14, 2)] else none
  | 7 =>
    match op with
    | 0 => some [(32, 5), (30, 2)]
    | 1 => some [(30, 2)]
    | 2 => some [(32, 5), (30, 2)]
    | 3 => some [(32, 5), (25, 5)]
    | _ => none
  | 8 => if op = 0 then some [(21, 16), (20, 1)] else if op ≤ 2 then some [] else none
  | _ => none
where
  /-- Fields of R136. -/
  seqFields (op : Nat) : List (Nat × Nat) :=
    match op with
    | 0x01 => [(36, 1), (31, 5), (0, 24)]
    | 0x03 => [(35, 2), (32, 3), (18, 14), (0, 18)]
    | 0x04 => [(32, 5)]
    | 0x06 => [(17, 20)]
    | 0x08 => [(32, 5), (0, 32)]
    | 0x09 => [(32, 5), (0, 32)]
    | 0x0A => [(32, 5), (27, 5), (0, 22)]
    | 0x11 => [(32, 5), (27, 5), (0, 6)]
    | 0x12 => [(32, 5), (27, 5), (0, 6)]
    | 0x13 => [(32, 5), (30, 2)]
    | 0x14 => [(32, 5), (28, 4)]
    | _ => if 0x0B ≤ op ∧ op ≤ 0x10 then [(32, 5), (27, 5), (22, 5)] else []
  /-- Fields of R138. -/
  matrixFields (op : Nat) : List (Nat × Nat) :=
    match op with
    | 0 => [(32, 5), (27, 5), (22, 5), (17, 5), (12, 5), (11, 1), (10, 1)]
    | 1 => [(32, 5), (22, 5), (6, 16)]
    | 2 => [(32, 5), (22, 5)]
    | 3 => [(32, 5), (27, 5), (22, 5), (20, 2)]
    | 4 => [(32, 5), (28, 4), (27, 1), (26, 1)]
    | _ => [(22, 5)]
  /-- Fields of R139, with what R159 and R463 reserve. -/
  vectorFields (op : Nat) : List (Nat × Nat) :=
    let vd := (31, 6); let va := (25, 6); let vb := (19, 6); let vc := (13, 6); let fm := (8, 5); let rn := (6, 2); let sa := (5, 1); let sx := (0, 5)
    match op with
    | 0x00 => [vd, sx]
    | 0x01 => [va, sx]
    | 0x02 => [vd, va, vb, rn, sa]
    | 0x03 => [vd, va, vb, rn, sa]
    | 0x04 => [vd, va, vb, rn, sa]
    | 0x05 => [vd, va, vb, vc, rn, sa]
    | 0x06 => [vd, va, vb]
    | 0x07 => [vd, va, vb]
    | 0x08 => [vd, va, vb, vc]
    | 0x09 => [vd, va, (13, 5), fm, rn, sa, sx]
    | 0x0A => [vd, fm, rn, sx]
    | 0x0B => [vd, fm, rn, sa, sx]
    | 0x10 => [vd, va, rn, sa]
    | 0x11 => [vd, va, vb, rn, sa]
    | 0x12 => [vd, va, vb, rn, sa]
    | 0x13 => [vd, va, vb, vc, rn, sa]
    | 0x1D => [vd, va, rn, sa]
    | 0x1E => [vd, va]
    | 0x1F => [va]
    | 0x20 => [vd, va, vb, rn, sa]
    | 0x21 => [vd, va, vb, vc, rn, sa]
    | 0x22 => [vd, va, fm, rn, sa, sx]
    | 0x23 => [vd, sx]
    | _ => if op ≤ 0x0F then [vd, va] else [vd, va, vb]

/-- Is an operand bit outside every field of an op set? -/
def reservedBits (fields : List (Nat × Nat)) (w : W64) : Bool :=
  (List.range 37).any (fun i => w.getLsbD i && !fields.any (fun f => decide (f.1 ≤ i ∧ i < f.1 + f.2)))

/-- Is a format code reserved (R135)? -/
def reservedFormat (c : Nat) : Bool := c == 0x05 || c == 0x0E || c == 0x0F || decide (0x16 ≤ c)

def mxCode (c : Nat) : Bool := decide ((0x08 ≤ c ∧ c ≤ 0x0D) ∨ (0x10 ≤ c ∧ c ≤ 0x15))
def laneCode (c : Nat) : Bool := decide (c ≤ 3) || c == 6 || c == 7

/-- Reserved codes inside the fields of an op: rounding, branch condition, item, engine, width, format; the field that seq.loop does not select. -/
def reservedCode (cls op : Nat) (w : W64) : Bool :=
  match cls with
  | 0 => (op == 0x03 && decide (6 ≤ fld w 32 3)) || (op == 0x14 && decide (8 ≤ fld w 28 4))
      || (op == 0x01 && (if w.getLsbD 36 then fld w 0 24 != 0 else fld w 31 5 != 0))
  | 1 => op == 3 && fld w 20 2 == 3
  | 2 => fld w 6 2 == 3 || ((op == 0x0A || op == 0x0B || op == 0x22) && reservedFormat (fld w 8 5))
  | 6 => fld w 14 2 == 3
  | 7 => decide (op ≤ 2) && fld w 30 2 == 3
  | _ => false

/-- May an op carry P = 1 (R146)? -/
def mayPredicate (cls op : Nat) : Bool :=
  (cls == 4 && op == 0) || (cls == 2 && (op == 0x01 || op == 0x0A)) || (cls == 1 && (op == 2 || op == 3))

/-- Does a register, group, pair or scalar block of an op lie outside its file or misaligned (R106, R139, R140)? -/
def badRegisters (cls op : Nat) (w : W64) : Bool :=
  match cls with
  | 1 => op != 4 && decide (29 < fld w 22 5)
  | 2 =>
    match op with
    | 0x09 => decide (31 < fld w 0 5 + 3)
    | 0x0A => fld w 31 6 % 16 != 0 || decide (31 < fld w 0 5 + 4)
    | 0x0B => fld w 31 6 % 16 != 0 || decide (31 < fld w 0 5 + 4)
    | 0x20 => fld w 31 6 % 2 != 0 || fld w 25 6 % 2 != 0
    | 0x21 => fld w 31 6 % 2 != 0 || fld w 25 6 % 2 != 0
    | 0x22 => fld w 25 6 % 2 != 0 || decide (31 < fld w 0 5 + 3)
    | _ => false
  | 6 => fld w 14 2 == 2 && fld w 31 6 % 4 != 0
  | _ => false

/-- SR on an op that does not convert, or a row-engine mode that is not valid for its op (R139, R169). -/
def badMode (cls op : Nat) (w : W64) : Bool :=
  (cls == 2 && op != 0x09 && op != 0x0A && op != 0x22 && fld w 6 2 == 2)
    || (cls == 3 && decide ((match op with | 0 => 5 | 1 => 5 | 2 => 3 | 3 => 3 | _ => 1) ≤ fld w 18 4))

/-- A format field in a role that R96 does not allow (R463). -/
def badRole (cls op : Nat) (w : W64) : Bool :=
  cls == 2 && (match op with
    | 0x09 => !laneCode (fld w 8 5) || !laneCode (fld w 13 5)
    | 0x0A => !mxCode (fld w 8 5)
    | 0x0B => !(mxCode (fld w 8 5) || fld w 8 5 == 6 || fld w 8 5 == 7)
    | 0x22 => decide (3 < fld w 8 5)
    | _ => false)

/-- The engine whose consumption the token plan is checked against: the sequencer for its own classes. -/
def consumer (w : W64) : Nat := (engineOf w).getD 0

/-- Reasons for which one instruction fails by itself, against the token plan of its image. -/
def wordReasons (plan : List Nat) (w : W64) : List Nat :=
  let cls := opClass w
  let op := opCode w
  match usedFields cls op with
  | none => [0x10]
  | some fs =>
    (if reservedBits fs w || reservedCode cls op w then [0x04] else [])
      ++ (if opP w && !mayPredicate cls op then [0x13] else [])
      ++ (if badRegisters cls op w then [0x14] else [])
      ++ (if (opCw w == 0 && opTw w != 0) || (opCs w == 0 && opTs w != 0) || (opCw w != 0 && plan.getD (opTw w) 0xFF != consumer w) then [0x15] else [])
      ++ (if badMode cls op w then [0x16] else [])
      ++ (if badRole cls op w then [0x20] else [])

/-- Loop, branch and end failures of an image from an index on, with the open loops innermost first (R129, R130, R132, R136). -/
def flowFails : List W64 → Nat → List Nat → List (Nat × Nat)
  | [], _, stack => stack.map (fun i => (0x11, i))
  | w :: r, i, stack =>
    (if r.isEmpty && !(opClass w == 0 && opCode w == 0x07) then [(0x11, i)] else []) ++
    (if opClass w = 0 then
      match opCode w with
      | 0x01 => (if 4 ≤ stack.length then [(0x11, i)] else []) ++ flowFails r (i + 1) (i :: stack)
      | 0x02 => (if stack.isEmpty then [(0x11, i)] else []) ++ flowFails r (i + 1) stack.tail
      | 0x03 =>
        let n := fld w 18 14
        (if stack.length ≤ fld w 35 2 ∨ n = 0 ∨ skipBody r 0 (i + 1) < i + 2 + n then [(0x12, i)] else []) ++ flowFails r (i + 1) stack
      | 0x07 => (if r.isEmpty && stack.isEmpty then [] else [(0x11, i)]) ++ flowFails r (i + 1) stack
      | 0x13 => (if stack.length ≤ fld w 30 2 then [(0x12, i)] else []) ++ flowFails r (i + 1) stack
      | _ => flowFails r (i + 1) stack
    else flowFails r (i + 1) stack)

/-! ## Sections (R151 to R154) -/

/-- A failure: reason, byte offset in the container, section type and entry index. -/
structure LoadFail where
  reason : Nat
  off : Nat
  sec : Nat
  idx : Nat
  deriving DecidableEq, Repr

/-- A failure in the header names no section. -/
def headFail (reason off : Nat) : LoadFail := ⟨reason, off, 0xFFFFFFFF, 0xFFFFFFFF⟩

/-- A section of the directory: its place there, type, count, offset and bytes. -/
structure Section where
  pos : Nat
  typ : Nat
  count : Nat
  off : Nat
  len : Nat
  bytes : List Byte
  deriving DecidableEq, Repr

def sectionsOf (b : List Byte) : List Section :=
  (List.range (min (msgNat b 12 4) (b.length / 16))).map (fun i =>
    let e := 64 + 16 * i
    ⟨i, msgNat b e 4, msgNat b (e + 4) 4, msgNat b (e + 8) 4, msgNat b (e + 12) 4, (b.drop (msgNat b (e + 8) 4)).take (msgNat b (e + 12) 4)⟩)

/-- The directory entry of a section as the place of a failure. -/
def Section.fail (x : Section) (reason : Nat) : LoadFail := ⟨reason, 64 + 16 * x.pos, x.typ, x.pos⟩

/-- An entry of a section as the place of a failure. -/
def Section.entryFail (x : Section) (reason off idx : Nat) : LoadFail := ⟨reason, x.off + off, x.typ, idx⟩

def fails (bad : Bool) (f : LoadFail) : List LoadFail := if bad then [f] else []

/-- Are the header and the directory in bounds, and does every section hold its entries (log 78)? -/
def boundsFails (b : List Byte) (ss : List Section) : List LoadFail :=
  let dir := 64 + 16 * msgNat b 12 4
  fails (decide (b.length < 64) || b.take 8 != ascii "VXPROGRM") (headFail 1 0) ++ fails (msgNat b 10 2 != 64) (headFail 1 10)
    ++ fails (decide (b.length < dir)) (headFail 1 12)
    ++ ss.flatMap (fun x =>
      let size := match x.typ with | 1 => 8 | 2 => 2 | 3 => 32 | 6 => 32 | 8 => 256 | _ => 0
      fails (decide (x.off < dir) || decide (b.length < x.off + x.len)
        || (size != 0 && x.len != size * x.count) || (x.typ == 4 && decide (x.len < 24 * x.count))) (x.fail 1))

/-- Sections of a type, in directory order. -/
def ofType (ss : List Section) (t : Nat) : List Section := ss.filter (fun x => x.typ == t)

/-- Words of an image section. -/
def Section.words (x : Section) : List W64 := (List.range x.count).map (fun i => BitVec.ofNat 64 (msgNat x.bytes (8 * i) 8))

/-- The header's own fields (R151), against the context's geometry and slot size. -/
def headerFails (b : List Byte) (c : Ctx) : List LoadFail :=
  fails (msgNat b 8 2 == 3) (headFail 2 8) ++ fails (msgNat b 8 2 != 3 && msgNat b 8 2 != 4) (headFail 3 8)
    ++ fails (msgNat b 22 2 != 0) (headFail 4 22) ++ fails (msgNat b 36 4 / 2 != 0) (headFail 4 36) ++ fails (msgNat b 40 24 != 0) (headFail 4 40)
    ++ fails (!(decide (1 ≤ msgNat b 12 4) && decide (msgNat b 12 4 ≤ 4096))) (headFail 5 12)
    ++ fails (!(decide (1 ≤ msgNat b 18 2) && decide (msgNat b 18 2 ≤ 32768))) (headFail 5 18)
    ++ fails (!(decide (1 ≤ msgNat b 20 2) && decide (msgNat b 20 2 ≤ 512))) (headFail 5 20)
    ++ fails (msgNat b 24 4 == 0) (headFail 5 24) ++ fails (decide (60000000 < msgNat b 28 4)) (headFail 5 28)
    ++ fails (decide (3670016 < msgNat b 32 4)) (headFail 5 32)
    ++ fails (msgNat b 16 2 != c.desc.cores) (headFail 6 16) ++ fails (msgNat b 18 2 != c.desc.modules) (headFail 6 18)
    ++ fails (decide (c.slotSize < max (msgNat b 32 4) 458752)) (headFail 7 32)

/-- Counts of sections: images as the header says, the others once, the token plan and the scalar preload one entry per image (R152). -/
def countFails (b : List Byte) (c : Ctx) (ss : List Section) : List LoadFail :=
  let n := msgNat b 20 2
  fails ((ofType ss 1).length != n) (headFail 5 20)
    ++ (ofType ss 1).flatMap (fun x => fails (!(decide (1 ≤ x.count) && decide (x.count ≤ 16384))) (x.fail 5))
    ++ [2, 3, 4, 5, 6, 8].flatMap (fun t => ((ofType ss t).drop 1).map (fun x => x.fail 5))
    ++ (ofType ss 2).flatMap (fun x => fails (x.count != c.desc.cores) (x.fail 5))
    ++ [6, 8].flatMap (fun t => (ofType ss t).flatMap (fun x => fails (x.count != n) (x.fail 5)))
    ++ fails ((ofType ss 6).isEmpty || (ofType ss 8).isEmpty) (headFail 5 20)
    ++ (match ofType ss 7 with | [] => [] | x :: r => fails (r.length + 1 != n) (x.fail 5))
    ++ ss.flatMap (fun x => fails (x.typ == 0 || decide (8 < x.typ)) (x.fail 4))

/-! ## Tables of the container -/

def tensorAt (x : Section) (i : Nat) : TensorEntry :=
  let e := x.bytes.drop (32 * i)
  let rank := msgNat e 6 1
  ⟨BitVec.ofNat 32 (msgNat e 0 4), msgNat e 4 1 % 32, msgNat e 5 1, rank, (List.range (min rank 6)).map (fun t => msgNat e (8 + 4 * t) 4)⟩

def Section.tensors (x : Section) : List TensorEntry := (List.range x.count).map (tensorAt x)

/-- The tensor table (R153). -/
def tensorFails (ss : List Section) : List LoadFail :=
  (ofType ss 3).flatMap (fun x =>
    let ts := x.tensors
    (List.range x.count).flatMap (fun i =>
      let e := x.bytes.drop (32 * i)
      let rank := msgNat e 6 1
      let dims := (List.range 6).map (fun t => msgNat e (8 + 4 * t) 4)
      let flags := msgNat e 5 1
      fails (msgNat e 0 4 == 0xFFFFFFFF || reservedFormat (msgNat e 4 1) || decide (16 ≤ flags) || msgNat e 7 1 != 0) (x.entryFail 4 (32 * i) i)
        ++ fails (decide (rank = 0 ∨ 6 < rank) || (dims.take rank).contains 0 || (dims.drop rank).any (· != 0) || (flags / 8 % 2 == 1 && flags / 4 % 2 == 0)
            || (ts.take i).any (fun t => t.id.toNat == msgNat e 0 4)) (x.entryFail 5 (32 * i) i)))

def invocationAt (x : Section) (i : Nat) : Invocation :=
  let e := x.bytes.drop (24 * i)
  let list := x.bytes.drop (msgNat e 12 4)
  let ids := fun (a n : Nat) => (List.range n).map (fun j => BitVec.ofNat 32 (msgNat list (4 * (a + j)) 4))
  let ins := msgNat e 6 1
  ⟨BitVec.ofNat 32 (msgNat e 0 4), msgNat e 4 1, msgNat e 5 1, ids 0 ins, ids ins (msgNat e 7 1), msgNat e 8 4, msgNat e 16 2, msgNat e 18 2, msgNat e 20 2⟩

def Section.invocations (x : Section) : List Invocation := (List.range x.count).map (invocationAt x)

/-- Is an instruction an mx.mm whose class C bit differs from a class? -/
def wrongClass (cls : Nat) (w : W64) : Bool := opClass w == 1 && opCode w == 0 && (w.getLsbD 10 != (cls == 1))

/-- The invocation table (R154, 02 R39, R42). -/
def invocationFails (ss : List Section) : List LoadFail :=
  let images := ofType ss 1
  let known := (ofType ss 3).flatMap (fun x => x.tensors.map (fun t => t.id))
  (ofType ss 4).flatMap (fun x => (List.range x.count).flatMap (fun i =>
    let e := x.bytes.drop (24 * i)
    let v := invocationAt x i
    let im := images[v.image]?
    let inside := match im with | none => false | some y => decide (v.first ≤ v.last ∧ v.last < y.count)
    fails (decide (1 < v.classReq) || decide (4 ≤ v.classes) || msgNat e 22 2 != 0) (x.entryFail 4 (24 * i) i)
      ++ fails (!inside || decide (x.len < msgNat e 12 4 + 4 * (v.inputs.length + v.outputs.length)) || (v.inputs ++ v.outputs).any (fun t => !known.contains t))
          (x.entryFail 5 (24 * i) i)
      ++ fails (v.classes / 2 ^ v.classReq % 2 == 0) (x.entryFail 0x23 (24 * i) i)
      ++ fails (v.classReq == 1 && v.split % 128 != 0) (x.entryFail 0x24 (24 * i) i)
      ++ (match im with
          | none => []
          | some y => ((y.words.zipIdx.filter (fun w => decide (v.first ≤ w.2 ∧ w.2 ≤ v.last) && wrongClass v.classReq w.1)).map
              (fun w => y.entryFail 0x25 (8 * w.2) w.2)))))

/-! ## The slot map (07 R186) -/

/-- Group entries from an offset: their members and the bytes of each entry; the fuel is their number. -/
def groupsFrom (b : List Byte) : Nat → Nat → List (Nat × List Nat × Nat)
  | 0, _ => []
  | n + 1, o =>
    let m := msgNat b o 2
    let size := 4 * ceilDiv (4 + 2 * m) 4
    (o, (List.range m).map (fun i => msgNat b (o + 4 + 2 * i) 2), size) :: groupsFrom b n (o + size)

def slotAt (b : List Byte) (i : Nat) : SlotEntry :=
  let e := b.drop (16 + 16 * i)
  let d := msgNat e 2 2
  ⟨msgNat e 0 2, d / 32768 == 1, d % 1024, msgNat e 4 2, msgNat e 6 1, msgNat e 8 2, msgNat e 10 2⟩

def slotMapOf (b : List Byte) : SlotMap :=
  let n := min (msgNat b 4 4) 65536
  ⟨msgNat b 0 4, (List.range n).map (slotAt b), (groupsFrom b (min (msgNat b 8 4) 1024) (16 + 16 * n)).map (fun g => g.2.1)⟩

/-- Is a list of members strictly ascending? -/
def ascending : List Nat → Bool
  | a :: b :: r => decide (a < b) && ascending (b :: r)
  | _ => true

/-- The slot map (R186): reserved fields, then ranges. -/
def slotMapFails (cores : Nat) (ss : List Section) : List LoadFail :=
  (ofType ss 5).flatMap (fun x =>
    let b := x.bytes
    let n := msgNat b 4 4
    let groups := msgNat b 8 4
    let gs := groupsFrom b (min groups 1024) (16 + 16 * min n 65536)
    let finish := gs.foldl (fun _ g => g.1 + g.2.2) (16 + 16 * n)
    let broken := decide (x.len < 16) || !(decide (1 ≤ msgNat b 0 4) && decide (msgNat b 0 4 ≤ 4096)) || decide (65536 < n) || decide (1024 < groups)
      || decide (x.len < 16 + 16 * n)
    fails (msgNat b 12 4 != 0) (x.entryFail 4 12 0) ++ fails broken (x.entryFail 0x30 0 0)
      ++ (if broken then [] else
        (List.range n).flatMap (fun i =>
          let e := b.drop (16 + 16 * i)
          let y := slotAt b i
          fails (msgNat e 2 2 / 1024 % 32 != 0 || msgNat e 7 1 != 0 || msgNat e 12 4 != 0) (x.entryFail 4 (16 + 16 * i) i)
            ++ fails (decide (cores ≤ y.source) || decide ((if y.group then groups else cores) ≤ y.dest) || decide (msgNat b 0 4 ≤ y.position)
                || !(decide (1 ≤ y.allowance) && decide (y.allowance ≤ 64)) || y.length == 0 || decide (spGranules < y.base + y.length))
                (x.entryFail 0x30 (16 + 16 * i) i))
          ++ (gs.zipIdx.flatMap (fun g =>
            let (o, ms, size) := g.1
            fails (msgNat b (o + 2) 2 != 0 || msgNat b (o + 4 + 2 * ms.length) (size - 4 - 2 * ms.length) != 0) (x.entryFail 4 o (n + g.2))
              ++ fails (!(decide (2 ≤ ms.length) && decide (ms.length ≤ 512)) || !ascending ms || ms.any (fun l => decide (cores ≤ l)) || decide (x.len < o + size))
                  (x.entryFail 0x30 o (n + g.2))))
          ++ fails (decide (finish < x.len)) (x.entryFail 0x30 finish 0)))

/-! ## Preloads -/

/-- Records of a scratchpad preload, packed with no gaps: offset, granule, data; the fuel is their number. -/
def recordsFrom (b : List Byte) : Nat → Nat → List (Nat × Nat × Nat)
  | 0, _ => []
  | n + 1, o => (o, msgNat b o 4, msgNat b (o + 4) 4) :: recordsFrom b n (o + 8 + msgNat b (o + 4) 4)

/-- A section of count 0 preloads nothing. -/
def preloadsOf (x : Section) : List Preload :=
  (recordsFrom x.bytes (min x.count (x.len / 8)) 0).map (fun r => ⟨r.2.1, (x.bytes.drop (r.1 + 8)).take r.2.2⟩)

def preloadFails (ss : List Section) : List LoadFail :=
  (ofType ss 7).flatMap (fun x =>
    let rs := recordsFrom x.bytes (min x.count (x.len / 8)) 0
    fails (decide (x.len / 8 < x.count) || rs.any (fun r => decide (x.len < r.1 + 8 + r.2.2))) (x.fail 1)
      ++ rs.zipIdx.flatMap (fun r => fails (decide (64 * spGranules < 64 * r.1.2.1 + r.1.2.2)) (x.entryFail 0x32 r.1.1 r.2)))

/-! ## Images, plans and maps -/

/-- Entry i of the token plan. -/
def planAt (x : Section) (i : Nat) : List Nat := (List.range 32).map (fun t => msgNat x.bytes (32 * i + t) 1)

def plansOf (ss : List Section) (n : Nat) : List (List Nat) :=
  match ofType ss 6 with
  | [] => List.replicate n (List.replicate 32 0xFF)
  | x :: _ => (List.range n).map (planAt x)

/-- Token plan entries that name no engine of R122. -/
def planFails (ss : List Section) : List LoadFail :=
  (ofType ss 6).flatMap (fun x => (List.range x.count).flatMap (fun i =>
    fails ((planAt x i).any (fun e => !(e == 0xFF || decide (e ≤ 4) || decide (16 ≤ e ∧ e < 32)))) (x.entryFail 4 (32 * i) i)))

def coreMapOf (ss : List Section) (cores : Nat) : List Nat :=
  match ofType ss 2 with
  | [] => List.replicate cores 0
  | x :: _ => (List.range cores).map (fun l => msgNat x.bytes (2 * l) 2)

def coreMapFails (ss : List Section) : List LoadFail :=
  let n := (ofType ss 1).length
  (ofType ss 2).flatMap (fun x => (List.range x.count).flatMap (fun l => fails (decide (n ≤ msgNat x.bytes (2 * l) 2)) (x.entryFail 0x31 (2 * l) l)))

/-- Every image's instructions, one by one and as a flow. -/
def imageFails (ss : List Section) : List LoadFail :=
  let images := ofType ss 1
  let plans := plansOf ss images.length
  images.zipIdx.flatMap (fun x =>
    let ws := x.1.words
    ws.zipIdx.flatMap (fun w => (wordReasons (plans.getD x.2 []) w.1).map (fun r => x.1.entryFail r (8 * w.2) w.2))
      ++ (flowFails ws 0 []).map (fun f => x.1.entryFail f.1 (8 * f.2) f.2))

/-! ## LOAD_PROGRAM's checks (R155) -/

def failBefore (a b : LoadFail) : Bool := decide (a.reason < b.reason ∨ (a.reason = b.reason ∧ a.off < b.off))

/-- The first failure: the lowest reason, then the lowest offset. -/
def firstFail (l : List LoadFail) : Option LoadFail :=
  l.foldl (fun m x => match m with | none => some x | some y => if failBefore x y then some x else some y) none

/-- The program of a container. -/
def programOf (b : List Byte) (cores : Nat) : Program :=
  let ss := sectionsOf b
  let images := ofType ss 1
  { cores := msgNat b 16 2, modules := msgNat b 18 2, bound := msgNat b 24 4, waitLimit := msgNat b 28 4, liveSize := msgNat b 32 4
    usesGate := msgNat b 36 4 % 2 == 1, images := images.map Section.words, coreMap := coreMapOf ss cores
    tensors := (ofType ss 3).flatMap Section.tensors, invocations := (ofType ss 4).flatMap Section.invocations
    slotMap := (match ofType ss 5 with | [] => ⟨1, [], []⟩ | x :: _ => slotMapOf x.bytes), tokenPlan := plansOf ss images.length
    preloads := (ofType ss 7).map preloadsOf
    scalars := (ofType ss 8).flatMap (fun x => (List.range x.count).map (fun i => (List.range 32).map (fun j => BitVec.ofNat 64 (msgNat x.bytes (256 * i + 8 * j) 8))))
    digest := sha3 b }

/-- Slots that no route can carry (07 R187). -/
def State.routeFails (s : State) (c : Ctx) (ss : List Section) (sm : SlotMap) : List LoadFail :=
  match s.planOf c sm with
  | some _ => []
  | none =>
    let one := (List.range sm.slots.length).find? (fun i => (s.planOf c { sm with slots := (sm.slots.drop i).take 1 }).isNone)
    (ofType ss 5).map (fun x => x.entryFail 0x33 (16 + 16 * one.getD 0) (one.getD 0))

/-- Every failure of a container. Sections whose bounds fail are not looked into. -/
def State.loadFails (s : State) (c : Ctx) (b : List Byte) : List LoadFail :=
  let ss := sectionsOf b
  let first := boundsFails b ss ++ preloadFails ss
  if first.any (fun f => f.reason == 1) then first
  else
    let rest := headerFails b c ++ countFails b c ss ++ tensorFails ss ++ invocationFails ss ++ slotMapFails c.desc.cores ss ++ first ++ planFails ss
      ++ coreMapFails ss ++ imageFails ss
    if rest.isEmpty then s.routeFails c ss (programOf b c.desc.cores).slotMap else rest

/-- The completion code of a reason. -/
def loadCode (reason : Nat) : Nat :=
  match reason with
  | 0x02 => 0x13
  | 0x03 => 0x13
  | 0x05 => 0x12
  | 0x32 => 0x12
  | 0x07 => 0x21
  | 0x33 => 0x21
  | _ => 0x11

/-! ## The slot (12 R347, R361) -/

/-- A number that no slot of a context has, above those a host can name. -/
def Ctx.spareSlot (c : Ctx) : Nat := c.slots.foldl (fun m x => max m (x.1 + 1)) 256

/-- A program enters a slot. What has started from the slot's old program keeps it, under a number of its own (R347). -/
def Ctx.putProgram (c : Ctx) (slot : Nat) (p : Program) : Ctx :=
  let n := c.spareSlot
  let used := (match c.run with | none => false | some r => r.slot == slot) || c.steps.any (fun st => st.slots.contains slot)
  match nfind c.slots slot, used with
  | some old, true =>
    { c with
      slots := nset (nset c.slots n old) slot p
      run := c.run.map (fun r => { r with slot := if r.slot = slot then n else r.slot })
      steps := c.steps.map (fun st => { st with slots := st.slots.map (fun x => if x = slot then n else x) }) }
  | _, _ => { c with slots := nset c.slots slot p }

end Sys2Proof.Machine
end

