-- ==== Sys2Proof/Machine/Hosts.lean ====
section
/-! DEFINITION. Spares, take-overs, fold and unfold, and what a tile boundary does about them (02 R44 to R47, 07 R188, 11 R315, R323, 17 R439). -/

namespace Sys2Proof.Machine

/-! ## Logical cores on their hosts (02 R45, R46) -/

/-- The largest number of logical cores of a context on one physical core. -/
def State.foldFactor (s : State) (c : Ctx) : Nat :=
  (c.cores.map (fun x => (c.cores.filter (fun y => s.hostOf c y.1 == s.hostOf c x.1)).length)).foldl max 0

/-- Has every logical core a host? -/
def State.hosted (s : State) (c : Ctx) : Bool := c.cores.all (fun x => (s.hostOf c x.1).isSome)

/-- Of the logical cores that share a host: one that runs and is not done goes on, else the lowest that is not done. -/
def State.runsNow (s : State) (c : Ctx) (l : Nat) : Bool :=
  let g := c.cores.filter (fun y => s.hostOf c y.1 == s.hostOf c l)
  let pick := (g.find? (fun y => !y.2.folded && !y.2.seq.ended)).orElse (fun _ => (g.find? (fun y => !y.2.seq.ended)).orElse (fun _ => g.head?))
  pick.map (·.1) == some l

/-- The route plan of a context's running program takes effect from its next frame (07 R187, R188). -/
def State.replan (s : State) (c : Ctx) : Ctx :=
  match c.program with
  | none => c
  | some p =>
    let plan := s.planNow c p.slotMap
    { c with plan := plan, taken := [], frameStart := frameFrom s.net.ripple.toNat ((plan.map Plan.shared).getD false) }

/-- Has the running program no route plan on the present core map (07 R187)? -/
def State.unroutable (s : State) (c : Ctx) : Bool :=
  match c.program with
  | none => false
  | some p => (s.planOf c p.slotMap).isNone

/-! ## Logical cores that move (02 R44, R46, 05 R131) -/

/-- A logical core comes onto the physical core that the map gives it: from its slot, or whole from the core it is on (R44). -/
def State.bring (s : State) (k l : Nat) : State :=
  s.updCtx k (fun c =>
    match c.core? l with
    | none => c
    | some x => (c.putCore l { x with folded := false, on := s.hostOf c l }).restoreOne s l)

/-- Does a logical core of the context that has not ended run on a physical core? -/
def Ctx.busyOn (c : Ctx) (h : Nat × Nat) : Bool := c.cores.any (fun y => y.2.on == some h && !y.2.seq.ended)

/-- The logical cores that wait in their slots for a physical core, ascending. -/
def State.waitingFor (s : State) (c : Ctx) (h : Nat × Nat) : List Nat :=
  (c.cores.filter (fun y => y.2.folded && !y.2.seq.ended && s.hostOf c y.1 == some h)).map (·.1)

/-- The logical core that takes its turn after `l` on the same host: the next in ascending order that has not ended (02 R46). -/
def nextHosted (peers : List Nat) (l : Nat) : Option Nat :=
  match peers.find? (fun p => decide (l < p)) with
  | some p => some p
  | none => peers.head?

/-- A free physical core takes the next logical core that waits for it; one that has ended there is saved first. -/
def State.nextOn (s : State) (k : Nat) (h : Nat × Nat) (l : Nat) : State :=
  match s.ctx? k with
  | none => s
  | some c =>
    if c.busyOn h then s
    else match nextHosted (s.waitingFor c h) l with
      | none => s
      | some n => ((c.cores.filter (fun y => y.2.on == some h)).foldl (fun s y => s.park k y.1) s).bring k n

/-- At its tile boundary a logical core moves to the physical core that the map gives it, if that one is free, or gives way to one that waits for its
host (R46, R131). -/
def State.settleAt (s : State) (k l : Nat) : State :=
  match s.ctx? k with
  | none => s
  | some c =>
    match c.core? l, s.coreAt c l, s.hostOf c l with
    | some x, some here, some there =>
      if (s.waitingFor c here).isEmpty && (here == there || x.seq.ended) then s
      else
        let s := if here != there && !x.seq.ended && !c.busyOn there then s.bring k l else s.park k l
        (s.nextOn k here l).updCtx k s.replan
    | _, _, _ => s

/-- After a change of the core map, a logical core that is not at work moves at once; of those that wait in slots for one host, one is next. -/
def State.moveIdle (s : State) (k l : Nat) : State :=
  match s.ctx? k with
  | none => s
  | some c =>
    match c.core? l with
    | none => s
    | some x =>
      if c.status == .running && c.run.isSome && !x.seq.ended then s
      else if x.on.isNone then (if c.run.isSome then s.putCtx k (c.putCore l { x with folded := !s.runsNow c l }) else s)
      else if x.on == s.hostOf c l then s
      else if c.cores.any (fun y => y.2.on == s.hostOf c l) then s.park k l
      else s.bring k l

/-- The failed bridge links of a context's dies become suspects (07 R187; the cause: log 148). -/
def State.bridgesFail (s : State) (c : Ctx) : State :=
  (s.net.badLinks.filter (fun l => l.2.1 == 2 && c.dies.contains l.1)).foldl (fun s l => s.report (linkKey l) 0x0A { job := c.desc.job, rank := c.desc.rank }) s

/-- A context after a change of the core map: its cores move to their new hosts, each at its tile boundary; more than 16 on one host, no host, or no
route, and it dies (02 R46, 05 R131, 07 R187). -/
def State.rehost (s : State) (k : Nat) : State :=
  match s.ctx? k with
  | none => s
  | some c =>
    if c.status == .closing || c.status == .absent then s
    else
      let n := s.foldFactor c
      if 16 < n || !s.hosted c then s.die k c 0x31 2 (fatalTail c)
      else if s.unroutable c then (s.bridgesFail c).die k c 0x31 2 (fatalTail c)
      else
        let s := c.cores.foldl (fun s y => s.moveIdle k y.1) (s.putCtx k { c with folded := decide (1 < n) })
        let s := if c.status == .running then c.cores.foldl (fun s y => match s.hostOf c y.1 with | none => s | some h => s.nextOn k h 0) s else s
        s.updCtx k s.replan

def State.rehostAll (s : State) (die pos : Nat) : State := (s.holders die pos).foldl (fun s x => s.rehost x.1) s

/-! ## Spares (02 R44, 07 R188) -/

/-- Can the running programs of a position's holders be planned on the present core map (R188)? -/
def State.plans (s : State) (die pos : Nat) : Bool :=
  (s.holders die pos).all (fun x => match x.2.program with | none => true | some p => (s.planOf x.2 p.slotMap).isSome)

/-- The lowest-numbered free spare of the die that can stand in at a position. -/
def State.spareFor (s : State) (die pos : Nat) : Option Nat := (s.freeSpares die).find? (fun p => (s.setPosition die pos (some p)).plans die pos)

/-- Positions of a die that no physical core holds. -/
def State.lostPositions (s : State) (die : Nat) : List Nat := (List.range s.cfg.perDie).filter (fun p => (s.posPhys die p).isNone)

/-- The fold factor of a context on a die: ceil(G_d ÷ P_d) (02 R45, R47). -/
def State.factorOn (s : State) (c : Ctx) (die : Nat) : Nat :=
  ceilDiv (c.cores.filter (fun y => (c.locate y.1).1 == die)).length (s.assigned c die).length

/-- A spare takes over a position, with a warning if it was the last one; if none can, the position is lost, and where a context holds it fold
begins, with a degraded event that gives the new fold factor (02 R44, R47, 11 R329). -/
def State.takeOver (s : State) (die pos : Nat) : State :=
  match s.spareFor die pos with
  | some p =>
    let s := s.setPosition die pos (some p)
    if (s.freeSpares die).isEmpty then s.raise { level := 2, source := 1, reg := some 0x20008 } else s
  | none =>
    let s := s.setPosition die pos none
    if (s.holders die pos).isEmpty then s
    else
      let s := ({ s with faults := { s.faults with folded := updAt s.faults.folded die (fun _ => true) } } : State).degrade (100 + die)
      s.raise { level := 3, source := 1, reg := some 0x20008, count := ((s.holders die pos).map (fun x => s.factorOn x.2 die)).foldl max 0 }

/-- A physical core leaves its position for another use. -/
def State.freeCore (s : State) (die p : Nat) (st : PhysState) : State :=
  let pos := s.positionOf die p
  let s := s.setPhys die p { s.phys die p with state := st }
  match pos with
  | none => s
  | some pos => (s.takeOver die pos).rehostAll die pos

/-- Free spares fill the lost positions of a die; when none that a context holds is left, the die is folded no more, with a notice (02 R47). -/
def State.unfold (s : State) (die : Nat) : State :=
  let s := (s.lostPositions die).foldl (fun s pos =>
    match s.spareFor die pos with
    | none => s
    | some p => (s.setPosition die pos (some p)).rehostAll die pos) s
  if s.faults.folded.getD die false && (s.lostPositions die).all (fun pos => (s.holders die pos).isEmpty) then
    (({ s with faults := { s.faults with folded := updAt s.faults.folded die (fun _ => false) } } : State).undegrade (100 + die)).raise
      { level := 1, source := 1, reg := some 0x20008 }
  else s

/-- Does a context run on a die? -/
def State.dieRuns (s : State) (die : Nat) : Bool := s.ctxs.any (fun c => c.2.live && c.2.dies.contains die)

/-- A core has returned to the pool: the die unfolds at the next tile boundary, or at once where nothing runs. -/
def State.returned (s : State) (die : Nat) : State := if s.dieRuns die then s else s.unfold die

/-! ## Sieves (11 R322, R323) -/

/-- What the fault aggregator holds of a physical core, whatever the health record says. -/
def State.rawPhys (s : State) (die p : Nat) : Phys := nget Phys.fresh s.faults.phys (136 * die + p)

/-- Is a core of the die under sieve? -/
def State.sieving (s : State) (die : Nat) : Bool := (List.range 136).any (fun p => (s.rawPhys die p).state == .sieve)

/-- The sieve of a core starts: it is neither assigned nor a spare. -/
def State.startSieve (s : State) (die p : Nat) : State :=
  let s := s.freeCore die p .sieve
  s.setPhys die p { s.rawPhys die p with forced := false }

/-- Is a physical core at a position that a resident context holds? -/
def State.inUse (s : State) (die p : Nat) : Bool :=
  match s.positionOf die p with
  | none => false
  | some pos => !(s.holders die pos).isEmpty

/-- Is it at a position of a context that runs? -/
def State.hostsRun (s : State) (die p : Nat) : Bool :=
  match s.positionOf die p with
  | none => false
  | some pos => (s.holders die pos).any (fun c => c.2.live)

/-! ## Re-checks begin (11 R315) -/

/-- Core Y: the lowest free spare of X's die, else of the lowest other die that has one, else the lowest other working core of X's die. -/
def State.chooseY (s : State) (die x : Nat) : Option (Nat × Nat) :=
  match (s.freeSpares die).head? with
  | some p => some (die, p)
  | none =>
    match (List.range 4).findSome? (fun d => if d = die then none else (s.freeSpares d).head?.map (fun p => (d, p))) with
    | some y => some y
    | none =>
      ((List.range 136).find? (fun p => p != x && (s.positionOf die p).isSome && (s.phys die p).state != .retired)).map (fun p => (die, p))

def State.setSample (s : State) (i : Nat) (f : Sample → Sample) : State := { s with faults := { s.faults with samples := updAt s.faults.samples i f } }

/-- Core Y of a sample is freed, and the re-check runs on both cores. -/
def State.freeY (s : State) (i die p : Nat) : State := (s.freeCore die p .recheck).setSample i (fun y => { y with freed := true })

/-- Core Y is chosen; one that a program runs on is freed in the same way as X, at its own seq.tb. -/
def State.takeY (s : State) (i : Nat) (x : Sample) : State :=
  match s.chooseY x.die x.phys with
  | none => s
  | some (d, p) =>
    let s := s.setSample i (fun y => { y with other := some (d, p), freed := false })
    if s.hostsRun d p then s else s.freeY i d p

/-- Core X is freed and Y is chosen. -/
def State.startRecheck (s : State) (i : Nat) : State :=
  match s.faults.samples[i]? with
  | none => s
  | some x => (s.freeCore x.die x.phys .recheck).takeY i x

/-- The sample whose re-check waits for a physical core X to be freed, and the one that waits for a Y. -/
def State.waitingX (s : State) (die p : Nat) : Option Nat :=
  s.faults.samples.findIdx? (fun x => x.state == 2 && x.die == die && x.phys == p && x.other.isNone)
def State.waitingY (s : State) (die p : Nat) : Option Nat :=
  s.faults.samples.findIdx? (fun x => x.state == 2 && x.other == some (die, p) && !x.freed)

/-- A re-check that waits for a physical core goes on: none where none does. -/
def State.recheckAt (s : State) (die p : Nat) : Option State :=
  match s.waitingX die p, s.waitingY die p with
  | some i, _ => some (s.startRecheck i)
  | none, some i => some (s.freeY i die p)
  | none, none => none

/-! ## Tile boundaries (05 R131, R132) -/

/-- The physical cores that hold a logical core: of a twin pair both (R319). -/
def State.membersOf (s : State) (c : Ctx) (die p : Nat) : List Nat :=
  match c.desc.twin, s.positionOf die p with
  | true, some pos => p :: (s.posPhys die (if pos % 2 = 0 then pos + 1 else pos - 1)).toList
  | _, _ => [p]

/-- At a tile boundary on a physical core a re-check that waits for it begins, or its due sieve does where a spare can take over or it is forced. -/
def State.boundaryCore (s : State) (die p : Nat) : State :=
  match s.recheckAt die p with
  | some s => s
  | none =>
    let x := s.rawPhys die p
    match s.positionOf die p with
    | none => s
    | some pos => if x.due.isSome && !s.sieving die && ((s.spareFor die pos).isSome || x.forced) then s.startSieve die p else s

/-- What a tile boundary of a logical core does about its host and its die. -/
def State.boundary (s : State) (k l : Nat) : State :=
  match s.ctx? k with
  | none => s
  | some c =>
    match s.coreAt c l with
    | none => s
    | some (die, p) => ((s.membersOf c die p).foldl (fun s p => s.boundaryCore die p) s).unfold die

/-- SEQ_TB (R131): a large partition that is asked to leave holds its cores here (13 R375). -/
def execSeqTb (k l : Nat) (s : State) : Out :=
  seqRowWith 0 0x05 (fun s c _ _ x => if c.preempt && !s.inStretch k c then .wait else seqTb x) (fun s k l x c => ((s.putCtx k (c.noteTile x)).boundary k l).settleAt k l) k l s

/-- SEQ_END (R132). -/
def execSeqEnd (k l : Nat) (s : State) : Out :=
  seqRowWith 0 0x07 (fun _ _ _ _ x => seqEnd x) (fun s k l x c => programOver ((s.putCtx k (c.noteTile x)).settleAt k l) k) k l s

end Sys2Proof.Machine
end

