-- ==== Sys2Proof/Machine/Sched.lean ====
section
/-! DEFINITION. Shares and accounting, the schedule, and how a context comes onto its cores and leaves them (13 R364, R369 to R371, R373 to R377). -/

namespace Sys2Proof.Machine

/-! ## Who is where -/

/-- Is there work for a context's cores (R364)? -/
def Ctx.runnable (c : Ctx) : Bool := c.status == .waiting || c.status == .running || c.status == .saved

/-- Contexts other than k whose partitions overlap that of k (R362). -/
def State.rivals (s : State) (k : Nat) (c : Ctx) : List (Nat × Ctx) := s.ctxs.filter (fun x => x.1 != k && s.overlap x.2 c)

/-- Does no other context run on the cores of a context, or still close on them? -/
def State.coresFree (s : State) (k : Nat) (c : Ctx) : Bool := (s.rivals k c).all (fun x => x.2.status != .running && x.2.status != .closing)

/-- Is a context's state being read back? -/
def State.restoring (s : State) (k : Nat) (c : Ctx) : Bool := c.resume && c.stored && c.status != .running && s.coresFree k c

/-! ## Accounting (R369, R371) -/

/-- Physical cores that serve a context: on each die its logical cores' hosts, of a twin pair both. -/
def State.coreCount (s : State) (c : Ctx) : Nat :=
  let hosts := (c.cores.filterMap (fun x => s.hostOf c x.1)).dedup.length
  if c.desc.twin then 2 * hosts else hosts

/-- One microsecond of System Time on the cores: virtual time by share weight, engine time in core-microseconds. -/
def State.charge (s : State) (k : Nat) (c : Ctx) : Ctx :=
  if c.status == .running || s.restoring k c then
    { c with vtime := c.vtime + ceilDiv 65536 c.desc.weight, engineTime := satAdd 64 c.engineTime (s.coreCount c) }
  else c

/-- System Time counts one unit of 1/16 ns: waits are measured (05 R127), and each whole microsecond is charged (R369, R371, 08 R228). -/
def State.tick (s : State) : State :=
  let s := { s with st := { s.st with now := s.st.now + 1 }, ctxs := s.ctxs.map (fun x => (x.1, if s.holdsFor x.1 then x.2 else x.2.waitTick (s.env x.2))) }
  if s.st.now.toNat % microsecond = 0 then { s with ctxs := s.ctxs.map (fun x => (x.1, s.charge x.1 x.2)) } else s

/-! ## Caravan windows (R372, R373) -/

/-- Window i of the table in force. -/
def State.window? (s : State) (i : Nat) : Option (CaravanTable × CaravanWindow) :=
  s.caravan.table.bind (fun t => (t.windows[i]?).map (fun w => (t, w)))

/-- The context of a window: the one resident with its number and epoch. -/
def State.windowCtx (s : State) (w : CaravanWindow) : Option Ctx :=
  match s.ctx? w.ctx with
  | none => none
  | some c => if c.epoch = w.epoch ∧ c.status ≠ .closing ∧ c.status ≠ .absent then some c else none

/-- Contexts that hold a window, open or at its lead time, and are runnable. -/
def State.windowHolders (s : State) (ws : List Nat) : List Nat :=
  ws.filterMap (fun i => match s.window? i with
    | none => none
    | some (_, w) => match s.windowCtx w with | none => none | some c => if c.runnable then some w.ctx else none)

/-- Does a context run only inside its windows (R372)? -/
def State.exclusive (s : State) (k : Nat) (c : Ctx) : Bool :=
  match s.caravan.table with
  | none => false
  | some t => t.windows.any (fun w => w.ctx == k && w.epoch == c.epoch && w.exclusive)

/-! ## Leaving (R375, R377) -/

/-- A Running context is asked to leave; one in a stretch finishes it, and overruns from a time on (R374, R377). -/
def State.askToLeave (s : State) (k : Nat) (overrunFrom : Nat) : State :=
  s.updCtx k (fun c =>
    if c.status == .running && !c.preempt then
      { c with preempt := true, asked := some s.st.now.toNat, lateFrom := if s.inStretch k c then some overrunFrom else none }
    else c)

/-! ## Coming onto the cores (R364, R376) -/

/-- Bound of a pre-emption: outgoing small or large, incoming from its start state or its save area (R376). -/
def preemptBound (small stored : Bool) : Nat := (if !small then 400 else if stored then 250 else 150) * microsecond

/-- A context is on its cores: Running, its slice begins, a program that waited for it starts. Pre-emptions that it waited for are measured: one
that missed its bound gives a notice (R376). -/
def State.becomeRunning (s : State) (k : Nat) (stored : Bool) : State :=
  match s.ctx? k with
  | none => s
  | some c =>
    let now := s.st.now.toNat
    let out := (s.rivals k c).filter (fun x => x.2.asked.isSome && x.2.status != .running)
    let s := out.foldl (fun s x =>
      let s := s.updCtx x.1 (fun y => { y with asked := none })
      if x.2.asked.getD now + preemptBound x.2.small stored < now then s.raise { level := 1, source := 5, ctx := some x.1, count := k } else s) s
    let s := s.putCtx k { (s.replan c) with status := .running, placed := s.st.now, resume := false, preempt := false, asked := none, lateFrom := none }
    match c.deferred with
    | none => s
    | some (key, v) => startNow s k key v

/-- A placed context takes its cores once they are free: an Idle context there is saved first; one whose state lies in its save area waits for its
restore (R364). -/
def State.takeCores (s : State) (k : Nat) : State :=
  match s.ctx? k with
  | none => s
  | some c =>
    if c.resume && c.runnable && c.status != .running && s.coresFree k c then
      let s := (s.rivals k c).foldl (fun s x => if x.2.status == .idle then s.saveAll x.1 else s) s
      if c.stored then s else s.becomeRunning k false
    else s

/-- Every placed context that finds its cores free takes them. -/
def State.settleCores (s : State) : State := s.ctxs.foldl (fun s x => s.takeCores x.1) s

/-! ## The decision (R370) -/

/-- Order of the pass: virtual time, then number. -/
def beforeIn (a b : Nat × Ctx) : Bool := decide (a.2.vtime < b.2.vtime ∨ (a.2.vtime = b.2.vtime ∧ a.1 < b.1))

def insertRunnable (a : Nat × Ctx) : List (Nat × Ctx) → List (Nat × Ctx)
  | [] => [a]
  | b :: r => if beforeIn a b then a :: b :: r else b :: insertRunnable a r

/-- Runnable contexts that the shares schedule, in the order of the pass: exclusive ones run only inside windows, and a window's context stays. -/
def State.candidates (s : State) (fixed : List Nat) : List (Nat × Ctx) :=
  (s.ctxs.filter (fun x => x.2.runnable && !fixed.contains x.1 && !s.exclusive x.1 x.2)).foldr insertRunnable []

/-- Is a Running context within its first slice? -/
def State.firstSlice (s : State) (c : Ctx) : Bool := decide (s.st.now.toNat < c.placed.toNat + 2 * millisecond)

/-- The Running contexts that hold cores of a context against it: in a stretch but past their slice, or otherwise. -/
def State.heldBy (s : State) (k : Nat) (c : Ctx) : List Nat × Bool :=
  let run := (s.rivals k c).filter (fun x => x.2.status == .running)
  ((run.filter (fun x => !s.firstSlice x.2 && s.inStretch x.1 x.2)).map (·.1), run.any (fun x => s.firstSlice x.2))

/-- One context of the pass: the contexts placed so far, and those in a stretch that keep an earlier one waiting. -/
def State.passOne (s : State) (a : List (Nat × Ctx) × List Nat) (x : Nat × Ctx) : List (Nat × Ctx) × List Nat :=
  if a.1.any (fun p => p.1 != x.1 && s.overlap p.2 x.2) then a
  else
    let (stretch, slice) := s.heldBy x.1 x.2
    if slice then a
    else if stretch.isEmpty then (a.1 ++ [x], a.2)
    else (a.1, a.2 ++ stretch)

/-- The schedule is decided: windows first, then the pass; Running contexts that are not placed are pre-empted, others that are placed come. -/
def State.schedule (s : State) : State :=
  let openNow := s.windowHolders s.caravan.openWindows
  let fixed := openNow ++ s.windowHolders s.caravan.armed
  let holders := s.ctxs.filter (fun x => fixed.contains x.1)
  let (placed, late) := (s.candidates fixed).foldl s.passOne (holders, [])
  let stays := fun (k : Nat) => placed.any (fun x => x.1 == k) && (!fixed.contains k || openNow.contains k)
  let s := s.ctxs.foldl (fun (s : State) x =>
    if x.2.status == .running then
      (if fixed.contains x.1 then s
       else if !stays x.1 || late.contains x.1 then s.askToLeave x.1 s.st.now.toNat else s)
    else s.updCtx x.1 (fun c => { c with resume := stays x.1 && c.runnable })) s
  s.settleCores

/-- A context becomes Waiting (R364, R369, R370): its virtual time is raised to the smallest of the Running contexts that overlap it, and the schedule is
decided. -/
def State.becomeWaiting (s : State) (k : Nat) : State :=
  match s.ctx? k with
  | none => s
  | some c =>
    let run := ((s.rivals k c).filter (fun x => x.2.status == .running)).map (fun x => x.2.vtime)
    let least := match run with | [] => 0 | v :: r => r.foldl min v
    (s.putCtx k { c with status := .waiting, vtime := max c.vtime least }).schedule

/-- A context that has work to run is runnable (R364). -/
def State.wake (s : State) (k : Nat) : State :=
  match s.ctx? k with
  | none => s
  | some c => if c.status == .idle then s.becomeWaiting k else s

end Sys2Proof.Machine
end

