-- ==== Sys2Proof/Machine/Descriptor.lean ====
section
/-! DEFINITION. CREATE_CONTEXT: the partition, the descriptor and the tables that it names, and the context they make (12 R358, 13 R362 to R366, 02 R46, R64,
08 R234, 09 R261 to R271, 10 R291, R300, R302, 11 R313, R318). -/

namespace Sys2Proof.Machine

/-! ## Refusals -/

/-- A refusal: completion code, offset of the first offending field, whether it lies in a table (12 R344), and whether poison is what offends. -/
structure Bad where
  code : Nat
  off : Nat
  table : Bool
  poison : Bool
  deriving DecidableEq, Repr


/-- The result field of a refusal: BAD_FIELD and OUT_OF_RANGE say where. -/
def Bad.result (b : Bad) : Nat :=
  if b.code = badField ∨ b.code = outOfRange then b.off % 65536 + (if b.table then 2 ^ 31 else 0) else 0

/-- A refusal of a field of a command. -/
def argBad (code off : Nat) : Bad := ⟨code, off, false, false⟩

/-- A check of a field of a table: it fails with a code at an offset. -/
def want (ok : Bool) (code off : Nat) : Option Bad := if ok then none else some ⟨code, off, true, false⟩
/-- A check of a field of a command. -/
def wantArg (ok : Bool) (code off : Nat) : Option Bad := if ok then none else some (argBad code off)
/-- The first check that fails. -/
def firstBad (l : List (Option Bad)) : Option Bad := l.findSome? id

/-- Does a range lie in near memory of one die, or in far memory? -/
def inMemory (a n : Nat) : Bool :=
  n != 0 && (match regionOf a, regionOf (a + n - 1) with
    | .near d, .near e => d == e
    | .far, .far => true
    | _, _ => false)

def inFar (a n : Nat) : Bool := n != 0 && regionOf a == .far && regionOf (a + n - 1) == .far
def inNear (a n : Nat) : Bool := n != 0 && (match regionOf a, regionOf (a + n - 1) with | .near d, .near e => d == e | _, _ => false)

/-- A table that CREATE_CONTEXT reads holds no poison: otherwise the offset of the first byte of the first poisoned granule (R358). -/
def State.clean (s : State) (a n : Nat) : Option Bad :=
  match s.firstPoison a n with
  | none => none
  | some g => some ⟨badField, g - a, true, true⟩

/-! ## The partition (13 R343, R362, R363) -/

/-- The checks of bytes 12 to 14. -/
def State.partitionBad (s : State) (size die index : Nat) : Option Bad :=
  firstBad [wantArg (decide (size ≤ 6)) badField 12,
    wantArg (if size ≤ 4 then decide (die ≤ 3) else if size = 5 then die == 0 || die == 2 else die == 0) outOfRange 13,
    wantArg (if size ≤ 3 then decide (index < 16 / 2 ^ size) && decide (8 * 2 ^ size * (index + 1) ≤ s.cfg.perDie) else index == 0) outOfRange 14]

/-! ## The descriptor (12 R358) -/

/-- The fields of a descriptor's 256 bytes. -/
def descOf (b : List Byte) : CtxDesc :=
  { job := BitVec.ofNat 64 (msgNat b 8 8), rank := msgNat b 16 2 % 32768, modules := msgNat b 18 2, cores := msgNat b 20 2, kind := msgNat b 22 1
    audit := msgNat b 23 1 % 4, twin := msgNat b 23 1 / 4 % 2 == 1, paced := msgNat b 23 1 / 8 % 2 == 1, mirage := msgNat b 24 1, policy := msgNat b 25 1
    weight := msgNat b 26 2, margin := msgNat b 28 4, saveAddr := msgNat b 32 8, saveLen := msgNat b 40 8, windows := msgNat b 48 8, hist := msgNat b 56 8
    optimiser := msgNat b 64 8, kindTable := msgNat b 72 8, watch := msgNat b 80 8, watchRecords := msgNat b 88 8, cairnRing := msgNat b 96 8
    regenRing := msgNat b 104 8, cairnCount := msgNat b 112 4, regenCount := msgNat b 116 4, sigAddr := msgNat b 120 8, sigLen := msgNat b 128 8
    collAddr := msgNat b 136 8, collLen := msgNat b 144 8, standInList := msgNat b 152 8, standIns := msgNat b 160 4, watchCount := msgNat b 164 4
    promptRing := msgNat b 168 8, rolloutRing := msgNat b 176 8, replayed := BitVec.ofNat 64 (msgNat b 184 8), pubList := msgNat b 192 8
    pubCount := msgNat b 200 4, cadence := msgNat b 204 4, fullInterval := msgNat b 208 1, ckptAddr := msgNat b 212 8, ckptLen := msgNat b 220 8
    genSlot := msgNat b 232 1 }

/-- A power of two from 1,024 to 1,048,576. -/
def ringCount (n : Nat) : Bool := (List.range 11).any (fun i => n == 2 ^ (10 + i))

/-- A field that only some kinds use is zero in the others. -/
def unused (used : Bool) (x off : Nat) : Option Bad := want (used || x == 0) badField off

/-- An address that may be absent lies in memory if it is there. -/
def placed (a off : Nat) : Option Bad := want (a == 0 || inMemory a 1) outOfRange off

/-- The checks of the descriptor's own bytes, by offset; which fields a kind needs: log 79. -/
def descBad (version : Nat) (b : List Byte) : Option Bad :=
  let d := descOf b
  let learner := d.kind == 2
  let rollout := d.kind == 3
  firstBad [
    want (b.take 8 == ascii "VXCTXDSC") badField 0,
    want (msgNat b 16 2 < 32768) badField 16,
    want (!inRange 1 32768 d.modules || decide (d.rank < d.modules)) outOfRange 16,
    want (inRange 1 32768 d.modules) outOfRange 18,
    want (inRange 8 512 d.cores) outOfRange 20,
    want (if version = 2 then d.kind == 1 else inRange 1 3 d.kind) badField 22,
    want (if version = 2 then msgNat b 23 1 == 0 else decide (msgNat b 23 1 < 16)) badField 23,
    want (decide (d.mirage ≤ 24) || d.mirage == 0xFF) outOfRange 24,
    want (decide (d.policy ≤ 1)) badField 25,
    want (d.weight != 0) outOfRange 26,
    want (decide (d.margin ≤ 10000000)) outOfRange 28,
    (if version = 2 then (List.range 208).findSome? (fun i => want (msgNat b (48 + i) 1 == 0) badField (48 + i)) else none),
    want (d.windows == 0 || inNear d.windows 1) outOfRange 48,
    placed d.hist 56,
    unused learner d.optimiser 64,
    want (!learner || d.optimiser != 0) badField 64,
    want (d.optimiser == 0 || inFar d.optimiser 128) outOfRange 64,
    unused (learner || rollout) d.kindTable 72,
    want (!rollout || d.kindTable != 0) badField 72,
    placed d.kindTable 72,
    placed d.watch 80,
    placed d.watchRecords 88,
    want (d.watchCount == 0 || d.watchRecords != 0) badField 88,
    want (d.audit % 2 == 0 || d.cairnRing != 0) badField 96,
    want (d.cairnRing == 0 || inFar d.cairnRing 64) outOfRange 96,
    want (d.audit / 2 == 0 || d.regenRing != 0) badField 104,
    want (d.regenRing == 0 || inFar d.regenRing 64) outOfRange 104,
    want (d.cairnCount == 0 || d.cairnRing != 0) badField 112,
    want (d.cairnRing == 0 || ringCount d.cairnCount) outOfRange 112,
    want (d.regenCount == 0 || d.regenRing != 0) badField 116,
    want (d.regenRing == 0 || ringCount d.regenCount) outOfRange 116,
    placed d.sigAddr 120,
    want (d.sigLen == 0 || d.sigAddr != 0) badField 128,
    placed d.collAddr 136,
    want (d.collLen == 0 || d.collAddr != 0) badField 144,
    placed d.standInList 152,
    want (decide (d.standIns ≤ 4096)) outOfRange 160,
    want (d.standIns == 0 || d.standInList != 0) badField 160,
    want (decide (d.watchCount ≤ 256)) outOfRange 164,
    want (d.watchCount == 0 || d.watch != 0) badField 164,
    unused rollout d.promptRing 168,
    want (!rollout || d.promptRing != 0) badField 168,
    placed d.promptRing 168,
    unused rollout d.rolloutRing 176,
    want (!rollout || d.rolloutRing != 0) badField 176,
    placed d.rolloutRing 176,
    want (d.standIns != 0 || d.replayed == 0) badField 184,
    unused learner d.pubList 192,
    placed d.pubList 192,
    unused learner d.pubCount 200,
    want (decide (d.pubCount ≤ 4096)) outOfRange 200,
    want (d.pubCount == 0 || d.pubList != 0) badField 200,
    unused learner d.cadence 204,
    unused learner d.fullInterval 208,
    want (d.ckptAddr == 0 || inRange 1 64 d.fullInterval) outOfRange 208,
    want (msgNat b 209 3 == 0) badField 209,
    unused learner d.ckptAddr 212,
    want (d.ckptAddr != 0 || (d.cadence == 0 && !(learner && d.audit / 2 == 1))) badField 212,
    want (d.ckptAddr == 0 || inFar d.ckptAddr 1) outOfRange 212,
    unused learner d.ckptLen 220,
    want (d.ckptLen == 0 || d.ckptAddr != 0) badField 220,
    want (msgNat b 228 4 == 0) badField 228,
    unused rollout d.genSlot 232,
    want (decide (d.genSlot ≤ 15)) outOfRange 232,
    (List.range 23).findSome? (fun i => want (msgNat b (233 + i) 1 == 0) badField (233 + i))]

/-! ## Geometry and save area (02 R46, 13 R362, R363, R366) -/

/-- A context at its creation. -/
def Ctx.fresh (epoch : BitVec 16) (size die index : Nat) (d : CtxDesc) : Ctx :=
  { status := .idle, epoch := epoch, size := size, die := die, index := index, desc := d, weight := d.weight, vtime := 0, engineTime := 0, overrun := 0
    folded := false, placed := 0, slots := [], grants := [], cores := (List.range d.cores).map (fun l => (l, Core.fresh)), faults := []
    poison := none, stopping := false, run := none, plan := none, frameStart := 0, taken := [], late := 0, overruns := 0, lastLate := none
    preempt := false, resume := false, asked := none, lateFrom := none, deferred := none, hung := false, closedAt := 0, closeCmd := none, learn := none
    steps := [], rounds := [], nextRound := 0, returned := [], gen := none, rollouts := none, kvUsed := 0, spillUsed := 0, rings := [], pubs := [], ckpts := []
    ckptNow := none, ckptDue := false, lastDone := none, drained := [], ckptLog := [], watchNoted := [], unsignedWarned := false }

/-- More than 16 logical cores on a physical core, a save area that is missing, misplaced or too short, or a signature area shorter than the cairn ring
needs (R46, R366, 16 R430). -/
def State.resourceBad (s : State) (c : Ctx) : Option Bad :=
  let d := c.desc
  let base := c.die * 0x3000000000
  let per := ceilDiv d.cores c.dies.length
  let fits := decide (base ≤ d.saveAddr) && decide (d.saveAddr + d.saveLen ≤ base + 0x3000000000)
  firstBad [want (s.hosted c && decide (s.foldFactor c ≤ 16)) noResources 20,
    want (d.saveAddr != 0 && fits && (if c.small then decide (d.cores * 3670016 ≤ d.saveLen) else decide (458752 ≤ d.saveLen / per / 65536 * 65536))) noResources 32,
    want (d.sigAddr == 0 || decide (2432 * d.cairnCount ≤ d.sigLen)) noResources 128]

/-- A collective or pacing route of a job over a version 3 port (08 R221): to any rank whose port is known. -/
def State.routeBad (s : State) (d : CtxDesc) : Option Bad :=
  let slow := (List.range d.modules).any (fun r => (s.egress d.job r).any (fun p => (portGet s.seif p).version == 3))
  firstBad [want (d.modules == 1 || d.collLen == 0 || !slow) noResources 136, want (d.modules == 1 || !d.paced || !slow) noResources 23]

/-! ## Link windows (08 R234) -/

/-- Do two periodic windows, in units of 256 ns, ever overlap? -/
def windowsMeet (a pa la b pb lb : Nat) : Bool :=
  let g := Nat.gcd pa pb
  let d := (b % g + g - a % g) % g
  decide (d < la) || decide (g - d < lb)

/-- A table's windows: port, start in units of 256 ns, period and length. -/
def State.allWindows (s : State) (base : Nat) : List (Nat × Nat × Nat × Nat) :=
  (s.linkEntries base).map (fun e => (e.port, s.loadNat (base + 8) 8 / 4096 + e.offset, s.loadNat (base + 16) 4, e.length))

def State.linkTableBad (s : State) (base : Nat) : Option Bad :=
  if base = 0 then none
  else
    let n := s.loadNat (base + 20) 4
    let period := s.loadNat (base + 16) 4
    let head := firstBad [s.clean base 32, want (s.load base 8 == ascii "VXWINDOW") badField 0, want (s.loadNat (base + 8) 8 % 4096 == 0) outOfRange 8,
      want (inRange 4 400000 period) outOfRange 16, want (inRange 1 65536 n) outOfRange 20, want (s.loadNat (base + 24) 8 == 0) badField 24]
    match head with
    | some b => some b
    | none =>
      let es := s.linkEntries base
      let entries := (es.zipIdx.flatMap (fun x =>
        let o := 32 + 16 * x.2
        let a := base + o
        [want (decide (x.1.port ≤ 17)) outOfRange o, want (s.loadNat (a + 1) 1 < 2) badField (o + 1),
         want (decide (x.1.length ≠ 0) && decide (x.1.offset + x.1.length ≤ period)) outOfRange (o + 8), want (s.loadNat (a + 12) 4 == 0) badField (o + 12),
         want ((es.take x.2).all (fun y => y.port != x.1.port || decide (y.offset + y.length ≤ x.1.offset ∨ x.1.offset + x.1.length ≤ y.offset))) badField (o + 4)]))
      let others := s.resident.flatMap (fun c => s.allWindows c.2.desc.windows)
      let clash := (s.allWindows base).any (fun x => others.any (fun y => x.1 == y.1 && windowsMeet x.2.1 x.2.2.1 x.2.2.2 y.2.1 y.2.2.1 y.2.2.2))
      firstBad ([s.clean base (32 + 16 * n)] ++ entries ++ [want (!clash) noResources 0])

/-! ## The optimiser table (09 R261, R262, R268, R271) -/

def posZero (x : W32) : Bool := !x.getLsbD 31
def finite' (x : W32) : Bool := x.toNat / 2 ^ 23 % 256 != 255
/-- Positive and finite. -/
def positive (x : W32) : Bool := posZero x && finite' x && x != 0
/-- +0 or more, below 1. -/
def belowOne (x : W32) : Bool := posZero x && decide (x.toNat < 0x3F800000)

def State.word32 (s : State) (a : Nat) : W32 := BitVec.ofNat 32 (s.loadNat a 4)

/-- Places of the parts of an optimiser table: parameter list, groups, tracked entries, patches, end. -/
structure OptPlan where
  params : Nat
  groups : Nat
  tracked : Nat
  patches : Nat
  finish : Nat
  deriving DecidableEq, Repr

def State.optPlan (s : State) (t : Nat) : OptPlan :=
  let g := 128 + 64 * ceilDiv (4 * s.loadNat (t + 16) 4) 64
  let k := g + 64 * s.loadNat (t + 14) 2
  let p := k + 96 * s.loadNat (t + 20) 4
  ⟨128, g, k, p, p + 16 * s.loadNat (t + 24) 4⟩

/-- The header of the optimiser table. -/
def State.optHeaderBad (s : State) (t modules : Nat) : Option Bad :=
  let at' := fun (o n : Nat) => s.loadNat (t + o) n
  let buffers := at' 10 1
  firstBad ([s.clean t 128, want (s.load t 8 == ascii "VXOPTIM1") badField 0, want (inRange 1 2 (at' 8 1)) badField 8, want (at' 9 1 == 0) badField 9,
      want (inRange 2 4 buffers) outOfRange 10, want (at' 11 1 == 0) badField 11, want (inRange 1 1024 (at' 14 2)) outOfRange 14,
      want (inRange 1 65536 (at' 16 4)) outOfRange 16, want (decide (at' 20 4 ≤ 4096)) outOfRange 20, want (decide (at' 24 4 ≤ 65536)) outOfRange 24,
      want (inRange 100 100000 (at' 28 4)) outOfRange 28, want (inMemory (at' 40 8) 1) outOfRange 40, want (inFar (at' 48 8) 262144) outOfRange 48,
      want (at' 56 8 == 0) badField 56]
    ++ (List.range 4).map (fun i => if i < buffers then want (inMemory (at' (64 + 8 * i) 8) 1) outOfRange (64 + 8 * i) else want (at' (64 + 8 * i) 8 == 0) badField (64 + 8 * i))
    ++ (List.range 4).map (fun i => want ((modules == 1 && decide (2 ≤ i)) || inMemory (at' (96 + 8 * i) 8) 1) outOfRange (96 + 8 * i)))

/-- The groups: values in range, and the parameter list covered with no gap and no overlap. -/
def State.groupsBad (s : State) (t : Nat) : Option Bad :=
  let p := s.optPlan t
  let adam := s.loadNat (t + 8) 1 == 1
  let n := s.loadNat (t + 14) 2
  let firsts := (List.range n).map (fun i => (s.loadNat (t + p.groups + 64 * i) 4, s.loadNat (t + p.groups + 64 * i + 4) 4))
  let checks := (List.range n).flatMap (fun i =>
    let o := p.groups + 64 * i
    let w := fun (k : Nat) => s.word32 (t + o + k)
    let before := ((firsts.take i).map (·.2)).foldl (· + ·) 0
    let flags := s.loadNat (t + o + 40) 1
    [want ((firsts.getD i (0, 0)).1 == before) badField o, want ((firsts.getD i (0, 0)).2 != 0) outOfRange (o + 4), want (posZero (w 8) && finite' (w 8)) outOfRange (o + 8),
     want (belowOne (w 12)) outOfRange (o + 12), want (if adam then belowOne (w 16) else true) outOfRange (o + 16), want (adam || w 16 == 0) badField (o + 16),
     want (if adam then positive (w 20) else true) outOfRange (o + 20), want (adam || w 20 == 0) badField (o + 20), want (posZero (w 24) && finite' (w 24)) outOfRange (o + 24),
     want (flags % 2 == 0 || finite' (w 28)) outOfRange (o + 28), want (decide (flags < (if adam then 2 else 4))) badField (o + 40), want (s.loadNat (t + o + 41) 23 == 0) badField (o + 41)])
  firstBad (checks ++ [want ((firsts.map (·.2)).foldl (· + ·) 0 == s.loadNat (t + 16) 4) badField p.groups])

/-- The tracked entries. -/
def State.trackedBad (s : State) (t : Nat) : Option Bad :=
  let p := s.optPlan t
  firstBad ((List.range (s.loadNat (t + 20) 4)).flatMap (fun i =>
    let o := p.tracked + 96 * i
    let b := fun (k : Nat) => s.loadNat (t + o + k) 1
    let ladder := b 4 == 2
    let low := b 5 % 4
    let high := b 5 / 4 % 4
    [want (inRange 1 2 (b 4)) badField (o + 4), want (if ladder then decide (b 5 < 32) else true) badField (o + 5),
     want (if ladder then decide (low ≤ high) else inRange 1 16 (b 5)) outOfRange (o + 5), want (if ladder then inRange 1 64 (b 6) else decide (b 6 ≤ 7)) outOfRange (o + 6),
     want (if ladder then inRange low high (b 7) else decide (b 7 ≤ b 5)) outOfRange (o + 7), want (if ladder then decide (b 8 ≤ 64) else true) outOfRange (o + 8),
     want (ladder || b 8 == 0) badField (o + 8), want (if ladder then b 9 == 0 else b 9 == 6 || b 9 == 7) badField (o + 9),
     want (s.loadNat (t + o + 10) 6 == 0) badField (o + 10), want (s.loadNat (t + o + 24) 8 == 0) badField (o + 24)]))

/-- The patch entries. -/
def State.patchesBad (s : State) (t : Nat) : Option Bad :=
  let p := s.optPlan t
  firstBad ((List.range (s.loadNat (t + 24) 4)).flatMap (fun i =>
    let o := p.patches + 16 * i
    let n := fun (k w : Nat) => s.loadNat (t + o + k) w
    let kind := n 0 1
    let tracks := kind == 3 || kind == 4
    [want (inRange 1 4 kind) badField o, want (if kind = 1 then n 1 1 == 0 else true) badField (o + 1), want (decide (n 1 1 ≤ 31)) outOfRange (o + 1),
     want (tracks || n 4 4 == 0) badField (o + 4), want (!tracks || decide (n 4 4 < s.loadNat (t + 20) 4)) outOfRange (o + 4),
     want (kind == 1 || n 8 4 == 0) badField (o + 8), want (kind != 1 || (n 8 4 % 8 == 0 && decide (n 8 4 < 3145728))) outOfRange (o + 8),
     want (n 12 4 == 0) badField (o + 12)]))

/-- The optimiser table of a learner; what depends on containers and mapped memory cannot be checked before the context exists (log 80). -/
def State.optimiserBad (s : State) (d : CtxDesc) : Option Bad :=
  if d.optimiser = 0 then none
  else
    match s.optHeaderBad d.optimiser d.modules with
    | some b => some b
    | none =>
      let t := d.optimiser
      let p := s.optPlan t
      let pad := (List.range ((p.groups - 128 - 4 * s.loadNat (t + 16) 4) / 4)).map (fun i =>
        let o := 128 + 4 * s.loadNat (t + 16) 4 + 4 * i
        want (s.loadNat (t + o) 4 == 0xFFFFFFFF) badField o)
      firstBad ([s.clean t p.finish, want (inFar t p.finish) outOfRange 16] ++ pad ++ [s.groupsBad t, s.trackedBad t, s.patchesBad t])

/-! ## Ring headers that the host has written (02 R64) -/

def State.ringBad (s : State) (a : Nat) (tag : String) (size : Nat) : Option Bad :=
  if a = 0 ∨ inMemory a 64 = false then none
  else firstBad [s.clean a 64, want (s.load a 8 == ascii tag) badField 0, want (ringCount (s.loadNat (a + 24) 4)) badField 24,
    want (s.loadNat (a + 28) 4 == size) badField 28, want (s.loadNat (a + 32) 32 == 0) badField 32]

/-! ## Kind tables (10 R291, R300) -/

def State.genBad (s : State) (t : Nat) : Option Bad :=
  let n := fun (o w : Nat) => s.loadNat (t + o) w
  let temp := s.word32 (t + 12)
  let topp := s.word32 (t + 20)
  firstBad ([s.clean t 128, want (s.load t 8 == ascii "VXGENPAR") badField 0, want (inRange 2 4194304 (n 8 4)) outOfRange 8,
      want (temp == 0 || positive temp) outOfRange 12, want (decide (n 16 4 ≤ n 8 4)) outOfRange 16,
      want (positive topp && decide (topp.toNat ≤ 0x3F800000)) outOfRange 20, want (inRange 1 16777215 (n 24 4)) outOfRange 24,
      want (decide (n 32 1 ≤ 16)) outOfRange 32, want (inRange 1 2 (n 33 1)) badField 33, want (inRange 1 4 (n 34 1)) outOfRange 34, want (n 35 1 == 0) badField 35,
      want (n 36 4 != 0) outOfRange 36, want (inRange 1 65536 (n 44 4)) outOfRange 44, want (n 56 8 == 0) badField 56]
    ++ (List.range 16).map (fun i => want (decide (i < n 32 1) || n (64 + 4 * i) 4 == 0) badField (64 + 4 * i)))

def State.learnerTableBad (s : State) (t : Nat) : Option Bad :=
  let n := fun (o w : Nat) => s.loadNat (t + o) w
  let host := n 17 1 / 2 % 2 == 1
  let own := firstBad [s.clean t 64, want (s.load t 8 == ascii "VXLRNRTB") badField 0, want (inRange 1 1048576 (n 8 4)) outOfRange 8, want (inRange 1 1024 (n 12 4)) outOfRange 12,
    want (decide (n 16 1 ≤ 2)) badField 16, want (decide (n 17 1 < 4)) badField 17, want (n 17 1 != 0) outOfRange 17, want (n 18 2 == 0) badField 18,
    want (finite' (s.word32 (t + 20))) outOfRange 20, want (positive (s.word32 (t + 24))) outOfRange 24, want (n 28 4 == 0) badField 28, want (n 56 8 == 0) badField 56]
  match own with
  | some b => some b
  | none => firstBad [s.ringBad (n 32 8) "VXROLLRR" 128, if host then s.ringBad (n 40 8) "VXREWARD" 32 else none]

def State.kindBad (s : State) (d : CtxDesc) : Option Bad :=
  if d.kindTable = 0 then none
  else if d.kind = 3 then want (inMemory d.kindTable 128) outOfRange 72 |>.orElse (fun _ => s.genBad d.kindTable)
  else want (inMemory d.kindTable 64) outOfRange 72 |>.orElse (fun _ => s.learnerTableBad d.kindTable)

/-! ## Watch table, stand-ins, publication list (11 R313, 02 R65, 10 R302) -/

def State.watchBad (s : State) (d : CtxDesc) : Option Bad :=
  firstBad ([s.clean d.watch (32 * d.watchCount)] ++ (List.range d.watchCount).flatMap (fun i =>
    let o := 32 * i
    let b := fun (k : Nat) => s.loadNat (d.watch + o + k) 1
    [want (decide (b 4 < 4)) badField (o + 4), want (b 4 % 2 == 0 || decide (b 5 ≤ 2)) badField (o + 5), want (b 4 / 2 == 0 || decide (b 6 ≤ 2)) badField (o + 6),
     want (decide (b 7 ≤ 30)) outOfRange (o + 7), want (s.loadNat (d.watch + o + 24) 8 == 0) badField (o + 24)]))

def State.standInBad (s : State) (d : CtxDesc) : Option Bad :=
  firstBad ([s.clean d.standInList (2 * d.standIns)]
    ++ (List.range d.standIns).map (fun i => want (decide (s.loadNat (d.standInList + 2 * i) 2 < d.modules)) outOfRange (2 * i)))

def State.pubBad (s : State) (d : CtxDesc) : Option Bad :=
  firstBad ([s.clean d.pubList (16 * d.pubCount)] ++ (List.range d.pubCount).flatMap (fun i =>
    [want (decide (s.loadNat (d.pubList + 16 * i + 10) 2 < d.modules)) outOfRange (16 * i + 10), want (s.loadNat (d.pubList + 16 * i + 12) 4 == 0) badField (16 * i + 12)]))

/-- Every table that a descriptor names. -/
def State.tablesBad (s : State) (d : CtxDesc) : Option Bad :=
  firstBad [s.linkTableBad d.windows, s.optimiserBad d, s.kindBad d, s.watchBad d, s.standInBad d,
    s.ringBad d.promptRing "VXPROMPT" 32, s.ringBad d.rolloutRing "VXROLLRR" 128, s.pubBad d]

/-! ## What the tables say -/

def State.groupAt (s : State) (a : Nat) : GroupEntry :=
  ⟨s.loadNat a 4, s.loadNat (a + 4) 4, s.word32 (a + 8), s.word32 (a + 12), s.word32 (a + 16), s.word32 (a + 20), s.word32 (a + 24), s.word32 (a + 28), s.word32 (a + 32),
   s.word32 (a + 36), s.loadNat (a + 40) 1⟩

def State.trackedAt (s : State) (a : Nat) : TrackedEntry :=
  ⟨s.word32 a, s.loadNat (a + 4) 1, s.loadNat (a + 5) 1, s.loadNat (a + 6) 1, s.loadNat (a + 7) 1, s.loadNat (a + 8) 1, s.loadNat (a + 9) 1, s.word32 (a + 16), s.word32 (a + 20),
   (List.range 16).map (fun i => s.word32 (a + 32 + 4 * i))⟩

def State.patchAt (s : State) (a : Nat) : PatchEntry := ⟨s.loadNat a 1, s.loadNat (a + 1) 1, s.loadNat (a + 2) 2, s.loadNat (a + 4) 4, s.loadNat (a + 8) 4⟩

/-- A version number that nothing constrains: the first current version is the one that the initial load names (R253, log 57). -/
def State.freeVersion (s : State) : Nat := s.fresh % 0xFFFF + 1

/-- What the step driver holds of an optimiser table: the first buffer is current, the first areas hold its state. -/
def State.learnerOf (s : State) (t : Nat) : Learner :=
  let p := s.optPlan t
  let v := s.freeVersion
  let n := fun (o w : Nat) => s.loadNat (t + o) w
  let entries := (List.range (n 20 4)).map (fun i => s.load (t + p.tracked + 96 * i) 96)
  let area := fun (i : Nat) => (MasterArea.mk (n (96 + 8 * i) 8) (if i % 2 = 0 then v else 0))
  { algorithm := n 8 1
    buffers := (List.range (n 10 1)).map (fun i =>
      if i = 0 then ⟨n 64 8, .current, v, [], entries, none⟩ else ⟨n (64 + 8 * i) 8, .free, 0, [], [], none⟩)
    stepFlow := n 12 2, commitLead := n 28 4, stepCount := BitVec.ofNat 64 (n 32 8), statsArea := n 40 8, controlArea := n 48 8
    params := (List.range (n 16 4)).map (fun i => s.word32 (t + 128 + 4 * i)), groups := (List.range (n 14 2)).map (fun i => s.groupAt (t + p.groups + 64 * i))
    tracked := (List.range (n 20 4)).map (fun i => s.trackedAt (t + p.tracked + 96 * i)), patches := (List.range (n 24 4)).map (fun i => s.patchAt (t + p.patches + 16 * i))
    own := [area 0, area 1], buddy := [area 2, area 3], lastStep := none, lastTime := 0, discarded := 0, decisionLog := [], lastGroup := none, hashing := [],
    committed := s.load (t + p.groups) (64 * n 14 2) ++ entries.flatten }

/-- Version buffers of a rollout context, of which no rule gives number or place (log 57): 2 to 4, the first current. -/
def State.rolloutLearner (s : State) : Learner :=
  let v := s.freeVersion
  let n := 2 + Config.fresh (s.freeCount + 1) % 3
  let at' := fun (i : Nat) => farBase + 64 * (Config.fresh (s.freeCount + 2 + i) % ((farTop - farBase) / 64))
  { algorithm := 0, buffers := (List.range n).map (fun i => if i = 0 then ⟨at' i, .current, v, [], [], none⟩ else ⟨at' i, .free, 0, [], [], none⟩)
    stepFlow := 0, commitLead := 0, stepCount := 0, statsArea := 0, controlArea := 0, params := [], groups := [], tracked := [], patches := [],
    own := [], buddy := [], lastStep := none, lastTime := 0, discarded := 0, decisionLog := [], lastGroup := none, hashing := [], committed := [] }

def State.genOf (s : State) (t : Nat) : GenTable :=
  let n := fun (o w : Nat) => s.loadNat (t + o) w
  { vocab := n 8 4, temperature := s.word32 (t + 12), topK := n 16 4, topP := s.word32 (t + 20), answerLimit := n 24 4, drawTensor := s.word32 (t + 28)
    stops := (List.range (n 32 1)).map (fun i => s.word32 (t + 64 + 4 * i)), policy := n 33 1, roundLimit := n 34 1, kvBytes := n 36 4, pool := n 40 4,
    perRound := n 44 4, spill := n 48 8 }

def State.rolloutTableOf (s : State) (t : Nat) : LearnerTable :=
  let n := fun (o w : Nat) => s.loadNat (t + o) w
  ⟨n 8 4, n 12 4, n 16 1, n 17 1, s.word32 (t + 20), s.word32 (t + 24), n 32 8, n 40 8, n 48 8⟩

/-- A ring whose header the module writes, with both indices zero (R64). -/
def State.writeRing (s : State) (a : Nat) (tag : String) (count size : Nat) : State :=
  if a = 0 then s else s.store a (ascii tag ++ zeros 16 ++ leBytes 4 count ++ leBytes 4 size ++ zeros 32)

/-- The rings of a context by kind. -/
def State.ringsOf (s : State) (d : CtxDesc) : List (Nat × DataRing) :=
  let host := fun (a : Nat) (size : Nat) => (DataRing.mk a size (s.loadNat (a + 24) 4) (BitVec.ofNat 64 (s.loadNat (a + 8) 8)) (BitVec.ofNat 64 (s.loadNat (a + 16) 8)) [])
  (if d.cairnRing = 0 then [] else [(0, ⟨d.cairnRing, 128, d.cairnCount, 0, 0, []⟩)])
    ++ (if d.regenRing = 0 then [] else [(1, ⟨d.regenRing, 192, d.regenCount, 0, 0, []⟩)])
    ++ (if d.promptRing = 0 then [] else [(2, host d.promptRing 32)]) ++ (if d.rolloutRing = 0 then [] else [(3, host d.rolloutRing 128)])

/-- Publications of the list entries whose source is this rank (R302). -/
def State.pubsOf (s : State) (d : CtxDesc) : List Publication :=
  ((List.range d.pubCount).filter (fun i => s.loadNat (d.pubList + 16 * i + 10) 2 == d.rank)).map (fun i => ⟨i, 0, 0, 0, [], []⟩)

/-! ## Creation (R358, 13 R365) -/

/-- The next epoch, which is never zero. -/
def nextEpoch (e : BitVec 16) : BitVec 16 := if e = 0xFFFF then 1 else e + 1

/-- The context that an accepted CREATE_CONTEXT makes: Idle, with the next epoch, its rings' headers written, and its rank claimed (08 R223). -/
def State.makeContext (s : State) (k size die index : Nat) (d : CtxDesc) : State :=
  let e := nextEpoch s.epochCounter
  let c := Ctx.fresh e size die index d
  let c := { c with
    folded := decide (1 < s.foldFactor c)
    learn := if d.kind = 2 then some (s.learnerOf d.optimiser) else if d.kind = 3 then some s.rolloutLearner else none
    gen := if d.kind = 3 then some (s.genOf d.kindTable) else none
    rollouts := if d.kind = 2 ∧ d.kindTable ≠ 0 then some (s.rolloutTableOf d.kindTable) else none
    rings := s.ringsOf d, pubs := s.pubsOf d }
  let s := (s.writeRing d.cairnRing "VXCAIRNR" d.cairnCount 128).writeRing d.regenRing "VXREGENR" d.regenCount 192
  let s := { s with epochCounter := e, freeCount := s.freeCount + 8 }
  (s.putCtx k c).seeClaim d.job d.rank d.modules s.cfg.serial none

end Sys2Proof.Machine
end

