-- ==== Sys2Proof/Machine/Matrix.lean ====
section
/-! DEFINITION. Matrix rows (04, 05 R138), with the mirage tap of sampled tiles (11 R309, R310). -/

namespace Sys2Proof.Machine

/-! ## The mirage tap -/

def State.mirageUnit (s : State) (die : Nat) : MirageUnit := s.faults.mirage.getD die .reset
def State.setMirage (s : State) (die : Nat) (m : MirageUnit) : State :=
  { s with faults := { s.faults with mirage := updAt s.faults.mirage die (fun _ => m) } }

/-- The samples of an abandoned sample are dropped and counted (11 R309). -/
def State.abandon (s : State) (p : Sample → Bool) : State :=
  let gone := s.faults.samples.filter (fun x => x.state == 0 && p x)
  let s := { s with faults := { s.faults with samples := s.faults.samples.filter (fun x => !(x.state == 0 && p x)) } }
  gone.foldl (fun s x => let m := s.mirageUnit x.die; s.setMirage x.die { m with skipped := satAdd 32 m.skipped 1 }) s

/-- The checked elements of a sampled tile, without padding (11 R309). -/
def checkedElements (t : Tile) (te : TensorEntry) (q : Nat) : List (Nat × Nat) :=
  ((List.range 16).map (fun i => ((q % 64 + 4 * i) % t.m, (q / 64 % 64 + 7 * i) % t.n))).filter (fun ij => (t.index te ij.1 ij.2).isSome)

def Tile.key (t : Tile) : Nat × Nat × Nat := (t.slot, t.shape, t.region)

/-- Does a sample belong to an open tile of a logical core? -/
def Sample.of (x : Sample) (k l : Nat) (key : Nat × Nat × Nat) : Bool := x.state == 0 && x.ctx == k && x.core == l && x.tile == key

/-- A tile opens: the die counts it, and a tile whose turn it is is sampled (11 R309). `y` is the core just after the open. -/
def tapOpen (s : State) (k l : Nat) (c : Ctx) (t : Tile) (te : TensorEntry) (x : Core) (initial : Option Nat) : State :=
  match s.coreAt c l with
  | none => s
  | some (die, phys) =>
    let m := s.mirageUnit die
    let s := s.setMirage die { m with tiles := m.tiles + 1 }
    if c.desc.mirage ≤ 24 ∧ m.tiles % 2 ^ c.desc.mirage = 0 then
      if !m.inService || m.testing then s.setMirage die { m with tiles := m.tiles + 1, skipped := satAdd 32 m.skipped 1 }
      else
        let elems := (checkedElements t te m.tiles).map (fun ij =>
          ({ row := ij.1, col := ij.2, pairs := [],
             addends := match initial with | none => [] | some a => [t.fmt.decode (x.tileCode t a ij.1 ij.2)],
             bad := false, nr := 0, core := 0, drainOk := true } : MirageElem))
        let smp : Sample :=
          { die := die, phys := phys, ctx := k, core := l, tile := t.key, tensor := t.tensor, step := (c.run.map RunPhase.step).getD 0,
            rowOrigin := t.rowOrigin, colOrigin := t.colOrigin, depth := 32 * (t.nb - 1) + t.tail, acc := t.accFormat, mode := t.mode,
            floatPair := false, rows := te.rows, cols := te.cols, slices := te.slices, slice := t.slice, blocks := [], elements := elems, bytes := 0, state := 0, attempts := 0, other := none, freed := false, alive := true }
        { s with faults := { s.faults with samples := s.faults.samples ++ [smp] } }
    else s

/-- Copies of the operand buffer of a die's unit: 8 MiB (11 R309). -/
def operandBuffer : Nat := 8388608

/-- The tap of an mx.mm: every product's operands of the checked elements, read as the core reads them, in the blocks that enter now. -/
def tapBlocks (stop : Option Nat) (x : Core) (e : QEntry) (t : Tile) (smp : Sample) : Sample :=
  let w := e.word
  let from' := x.mmFrom
  let first := fld (e.reg (opR3 w)) 32 32 + from'
  let count := x.mmUpto stop (fld (e.reg (opR3 w)) 0 32) - from'
  let va := View.ofReg (e.reg (opR0 w))
  let vb := View.ofReg (e.reg (opR1 w))
  match Format.ofCode va.code, Format.ofCode vb.code with
  | some fa, some fb =>
    let blocks := (List.range count).map (fun j => (first + j, x.operandBlock va fa t.m (from' + j), x.operandBlock vb fb t.n (from' + j)))
    let isFloat : Bool := match operandKind va.code with | some (.float _) => true | _ => false
    { smp with
      floatPair := smp.floatPair || isFloat
      blocks := smp.blocks ++ blocks.map (·.1)
      bytes := smp.bytes + count * (16 * (32 * fa.bits / 8 + 1) + 16 * (32 * fb.bits / 8 + 1))
      elements := smp.elements.map (fun el =>
        { el with
          nr := el.nr + count
          pairs := el.pairs ++ blocks.flatMap (fun b =>
            ((b.2.1.lines.getD el.row []).zip (b.2.2.lines.getD el.col [])).take (if b.1 = t.nb - 1 then t.tail else 32))
          bad := el.bad || blocks.any (fun b => b.2.1.badScale.getD el.row false || b.2.2.badScale.getD el.col false) }) }
  | _, _ => smp

/-- After an instruction on an open tile the sample is abandoned if the tile is poisoned, moved to another physical core, or its copies do not fit. -/
def tapCheck (s : State) (k l : Nat) (c : Ctx) (key : Nat × Nat × Nat) (poisoned : Bool) : State :=
  s.abandon (fun x => x.of k l key && (poisoned || s.coreAt c l != some (x.die, x.phys) ||
    decide (operandBuffer < ((s.faults.samples.filter (fun y => y.die == x.die)).map (·.bytes)).foldl (· + ·) 0)))

def State.updSamples (s : State) (p : Sample → Bool) (f : Sample → Sample) : State :=
  { s with faults := { s.faults with samples := updWhere s.faults.samples p f } }

/-- What an mx.mm does outside its core. -/
def afterMm (stop : Option Nat) (s : State) (k l : Nat) (x : Core) (c : Ctx) : State :=
  let s := s.putCtx k c
  match x.queue engMatrix with
  | [] => s
  | e :: _ =>
    let w1 := e.reg (opR2 e.word + 1)
    match (c.core? l).bind (fun y => y.tiles.find? (fun t => t.named w1)) with
    | none => s
    | some t =>
      let v := s.env c l x
      let s := if e.word.getLsbD 11 && x.atBlock.isNone then
          (match v.tensor t.tensor with
           | none => s
           | some te => tapOpen s k l c t te x (if fld w1 13 2 = 1 then some (64 * (e.reg (opR4 e.word)).toNat) else none))
        else s
      let s := s.updSamples (fun y => y.of k l t.key) (tapBlocks stop x e t)
      tapCheck s k l c t.key t.poisoned

/-- What an mx.merge does outside its core: the partial enters the samples. -/
def afterMerge (s : State) (k l : Nat) (x : Core) (c : Ctx) : State :=
  let s := s.putCtx k c
  match x.queue engMatrix with
  | [] => s
  | e :: _ =>
    let w1 := e.reg (opR2 e.word + 1)
    match (c.core? l).bind (fun y => y.tiles.find? (fun t => t.named w1)) with
    | none => s
    | some t =>
      let a := 64 * (e.reg (opR0 e.word)).toNat
      let s := s.updSamples (fun y => y.of k l t.key) (fun y => { y with
        elements := y.elements.map (fun el =>
          { el with nr := el.nr + 1, addends := el.addends ++ [t.fmt.decode (x.tileCode t a el.row el.col)] }) })
      tapCheck s k l c t.key t.poisoned

/-- Is a drained code one of the two neighbours of the value on the destination grid, or the value itself (11 R312)? -/
def neighbourOk (fm : Format) (q : ScalePair) (v : FVal) (code : Nat) : Bool :=
  match v with
  | .fin _ _ _ =>
    let down := (encodePlain fm .rtz true 0 q v).1
    code == down || code == down + 1
  | _ => !(decodePlain fm q code).1.isFinite || (match fm with | .scaled _ => true | _ => false)

/-- Is the scale of an MX group the one that 03 R86 selects from its drained values, and a code of it one of the two neighbours of its value (11 R312)? -/
def mxNeighbourOk (el : Elem) (scale : Nat) (vs : List FVal) (v : FVal) (code : Nat) : Bool :=
  if (mxBad el vs).isSome then scale == 255
  else
    let k := mxExponent el vs
    let down := (mxElement el k .rtz 0 v).1
    let up := match el, v with
      | .int8, .fin true _ _ => (down + 255) % 256
      | _, _ => down + 1
    decide ((scale : Int) = k + 127) && (code == down || code == up)

/-- The cells of a tile that share an element's MX scale: its square, or its row of the square. -/
def mxCells (square : Bool) (i j : Nat) : List (Nat × Nat) :=
  if square then (List.range 1024).map (fun n => (i / 32 * 32 + n / 32, j / 32 * 32 + n % 32)) else (List.range 32).map (fun n => (i, j / 32 * 32 + n))

/-- Are the drained codes of a checked element right for the values that drained (11 R312)? -/
def drainRight (x : Core) (t : Tile) (te : TensorEntry) (fm : Format) (mode : Rounding) (q : ScalePair) (i j : Nat) : Bool :=
  match fm with
  | .mx el square =>
    let (scale, ds) := drainGroup x t te el mode (mxCells square i j)
    let live := ds.filter (·.idx.isSome)
    live.all (fun r => r.idx != t.index te i j || mxNeighbourOk el scale (live.map (·.v)) r.v r.code)
  | _ => let r := drainPlain x t te fm mode q i j; neighbourOk fm q r.v r.code

/-- A sampled tile is drained or spilled: the core's values at that moment are kept, and the drained codes are looked at (11 R311, R312). -/
def tapClose (drain : Bool) (s : State) (k l : Nat) (x : Core) (c : Ctx) : State :=
  let s := s.putCtx k c
  match x.queue engMatrix with
  | [] => s
  | e :: _ =>
    match x.tiles.find? (fun t => t.named (e.reg (opR2 e.word + 1))) with
    | none => s
    | some t =>
      let s := tapCheck s k l c t.key t.poisoned
      let d := View.ofReg (e.reg (opR0 e.word))
      let q := ScalePair.ofReg (e.reg (opR1 e.word))
      let ok := fun (el : MirageElem) =>
        match drain, drainFormat d.code, (s.env c l x).tensor t.tensor with
        | true, some fm, some te => drainRight x t te fm (roundingFor te ((Rounding.ofCode (fld e.word 20 2)).getD .rne)) q el.row el.col
        | _, _, _ => true
      s.updSamples (fun y => y.of k l t.key) (fun y => { y with
        state := 1
        elements := y.elements.map (fun el => { el with core := x.accCode t el.row el.col, drainOk := ok el }) })

/-- Elements of a tensor that a tile covers, without padding. -/
def Tile.elements (t : Tile) (te : TensorEntry) : Nat := min t.m (te.rows - 32 * t.rowOrigin) * min t.n (te.cols - 32 * t.colOrigin)

/-- A drained tile is counted toward its tensor (02 R60). -/
def Ctx.noteDrain (c : Ctx) (v : Env) (x : Core) : Ctx :=
  match x.queue engMatrix with
  | [] => c
  | e :: _ =>
    match x.tiles.find? (fun t => t.named (e.reg (opR2 e.word + 1))) with
    | none => c
    | some t =>
      match v.tensor t.tensor with
      | none => c
      | some te => { c with drained := nset c.drained t.tensor.toNat ((nfind c.drained t.tensor.toNat).getD 0 + t.elements te) }

/-- mx.close discards the tile; a sample of it ends unchecked (11 R311 names drains and spills only). -/
def afterClose (s : State) (k l : Nat) (x : Core) (c : Ctx) : State :=
  let s := s.putCtx k c
  match x.queue engMatrix with
  | [] => s
  | e :: _ =>
    match x.tiles.find? (fun t => t.named (e.reg (opR2 e.word + 1))) with
    | none => s
    | some t => s.abandon (fun y => y.of k l t.key)

/-! ## The rows -/

/-- MX_MM (05 R138). `stop` blocks on, the array stops for a save of a partition of one die or less (R121). -/
def execMxMm (k l : Nat) (stop : Option Nat) (errs : List (Nat × Flips)) (s : State) : Out :=
  let stop := if (s.ctx? k).any Ctx.small then stop else none
  engineRowWith engMatrix 1 0x00 0x03 stop errs (fun _ _ v e x => mxMm v e stop x) (afterMm stop) k l s
/-- MX_MERGE (05 R138). -/
def execMxMerge (k l : Nat) (errs : List (Nat × Flips)) (s : State) : Out :=
  engineRowWith engMatrix 1 0x01 0x03 none errs (fun _ _ v e x => mxMerge v e x) afterMerge k l s
/-- MX_SPILL (05 R138). -/
def execMxSpill (k l : Nat) (s : State) : Out := engineRowWith engMatrix 1 0x02 0x03 none [] (fun _ _ _ e x => mxSpill e x) (tapClose false) k l s
/-- MX_DRAIN (05 R138). -/
def execMxDrain (k l : Nat) (errs : List (Nat × Flips)) (s : State) : Out :=
  engineRowWith engMatrix 1 0x03 0x03 none errs (fun _ _ v e x => mxDrain v e x)
    (fun s k l x c => tapClose true s k l x (c.noteDrain (s.env c l x) x)) k l s
/-- MX_STAT (05 R138). -/
def execMxStat (k l : Nat) (s : State) : Out := engineRow engMatrix 1 0x04 0x03 [] (fun _ _ _ e x => mxStat e x) k l s
/-- MX_CLOSE (05 R138). -/
def execMxClose (k l : Nat) (s : State) : Out := engineRowWith engMatrix 1 0x05 0x03 none [] (fun _ _ _ e x => mxClose e x) afterClose k l s

end Sys2Proof.Machine
end

