-- ==== Sys2Proof/Machine/Mirage.lean ====
section
/-! DEFINITION. Mirage checks, numeric watch, re-check verdicts, twin mismatches, sieves and the clearing of suspects (11 R309 to R323, R326, R331). -/

namespace Sys2Proof.Machine

/-! ## Exact values (R310, R311) -/

/-- A power of two as a rational. -/
def ratPow (e : Int) : Rat := if 0 ≤ e then ((2 ^ e.toNat : Nat) : Rat) else 1 / ((2 ^ (-e).toNat : Nat) : Rat)

/-- A finite value as a rational; NaN and infinities have none and read as zero. -/
def FVal.rat : FVal → Rat
  | .fin n m e => (if n then -1 else 1) * (m : Rat) * ratPow e
  | _ => 0

def FVal.isNeg : FVal → Bool
  | .fin n _ _ => n
  | .inf n => n
  | .nan => false

/-- The terms of an element: initial value and partials, then every product. -/
def MirageElem.terms (el : MirageElem) (pairs : List (FVal × FVal)) : List FVal := el.addends ++ pairs.map (fun p => (FVal.mul p.1 p.2).1)

/-- The exact value S of terms; an invalid scale makes it NaN (04 R102). -/
def exactTerms (bad : Bool) (ts : List FVal) : FVal := if bad then .nan else ts.foldl (fun a b => (FVal.add a b).1) (.fin false 0 0)

/-- The magnitude sum T of terms. -/
def magnitude (ts : List FVal) : Rat := ts.foldl (fun a b => a + b.abs.rat) 0

/-- Unit roundoff u and smallest step d of an accumulator (R311). -/
def Sample.unit (x : Sample) : Rat := ratPow (if x.acc = 1 then (if x.mode = 0 then -40 else -39) else (if x.mode = 0 then -24 else -23))
def Sample.step0 (x : Sample) : Rat := ratPow (if x.acc = 1 then -165 else -149)
def Sample.fmt (x : Sample) : FFmt := if x.acc = 1 then Fmts.m48 else Fmts.fp32

/-- Is an element checked at all (R311)? -/
def Sample.checks (x : Sample) (el : MirageElem) : Bool := decide ((el.nr : Rat) * x.unit < 1)

/-- The bound B of an element (R311), evaluated exactly (log 68). -/
def Sample.bound (x : Sample) (el : MirageElem) (t : Rat) : Rat :=
  let nu := (el.nr : Rat) * x.unit
  nu / (1 - nu) * t + (el.nr : Rat) * x.step0 + (if x.floatPair then t * ratPow (-80) else 0)

/-- Does a value agree with S within B (R312)? -/
def agrees (f : FFmt) (sv : FVal) (b : Rat) (a : FVal) : Bool :=
  match sv, a with
  | .nan, .nan => true
  | .inf n, .inf m => n == m
  | .fin _ _ _, .fin _ _ _ => decide (|a.rat - sv.rat| ≤ b)
  | .fin n _ _, .inf m => n == m && decide ((f.maxM : Rat) * ratPow (f.emax - f.p) < |sv.rat| + b)
  | _, _ => false

/-- A value of a checked element within the bound of its exact value; an unchecked element is always taken to be. -/
def Sample.within (x : Sample) (el : MirageElem) (code : Nat) : Bool :=
  let ts := el.terms el.pairs
  !x.checks el || agrees x.fmt (exactTerms el.bad ts) (x.bound el (magnitude ts)) (x.fmt.decode code)

/-- Does an element of a closed sample disagree (R312)? -/
def Sample.disagrees (x : Sample) (el : MirageElem) : Bool := x.checks el && !(x.within el el.core && el.drainOk)

/-! ## Numeric watch (R313, R314) -/

/-- A positive rational rounded toward +∞ to FP32. -/
def fp32Up (q : Rat) : Nat :=
  if q ≤ 0 then 0
  else
    let e0 : Int := (Nat.log2 q.num.natAbs : Int) - Nat.log2 q.den
    let e := if q < ratPow e0 then e0 - 1 else e0
    let u := max e (-126) - 23
    let k := (q / ratPow u).ceil.toNat
    if ((Fmts.fp32.maxM : Rat) * ratPow (Fmts.fp32.emax - 23) < (k : Rat) * ratPow u) then Fmts.fp32.infCode false else Fmts.fp32.encodeGrid false k u

/-- The bucket of a drift (R314). -/
def driftBucket (code : Nat) : Nat :=
  match Fmts.fp32.decode code with
  | .fin _ m e =>
    let q : Rat := (m : Rat) * ratPow e
    if q < ratPow (-24) then 0 else ((List.range 11).find? (fun (j : Nat) => decide (q < ratPow (2 * ((j : Int) + 1) - 24)))).elim 12 (fun j => j + 1)
  | _ => 12

/-- Wide operand format codes that a watch entry may name (R313). -/
def wideFormat (code : Nat) : Option (Format × FFmt) :=
  match Format.ofCode code with
  | some .fp32 => some (.fp32, Fmts.fp32)
  | some .bf16 => some (.bf16, Fmts.bf16)
  | some .fp16 => some (.fp16, Fmts.fp16)
  | _ => none

/-- An element of a wide tensor, none where the read meets poison or memory that is not there. -/
def State.wideElem (s : State) (a : Nat) (t : TensorEntry) (code slice row col : Nat) : Option FVal :=
  match wideFormat code with
  | none => none
  | some (f, g) =>
    let (q, r, c) := t.place slice row col
    let at' := a + q * f.granules * 64 + r * (4 * f.bits) + c * f.bits / 8
    (match regionOf at' with
     | .near _ => if s.poisonAt at' then none else some (g.decode (s.elemCode a t f slice row col))
     | .far => if s.poisonAt at' then none else some (g.decode (s.elemCode a t f slice row col))
     | _ => none)

/-- Global K indices of the products of a sample, in their order. -/
def Sample.ks (x : Sample) : List Nat := x.blocks.flatMap (fun b => (List.range (min 32 (x.depth - 32 * b))).map (32 * b + ·))

/-- The pairs of an element with wide operands in place of the narrow ones where an entry names them; none if a wide read meets poison. -/
def State.widePairs (s : State) (entry : Nat) (x : Sample) (el : MirageElem) : Option (List (FVal × FVal)) :=
  let flags := s.loadNat (entry + 4) 1
  let ta : TensorEntry := ⟨x.tensor, 0, 0, 3, [x.slices, x.rows, x.depth]⟩
  let tb : TensorEntry := ⟨x.tensor, 0, 0, 3, [x.slices, x.depth, x.cols]⟩
  let row := 32 * x.rowOrigin + el.row
  let col := 32 * x.colOrigin + el.col
  (el.pairs.zip x.ks).mapM (fun p => do
    let a ← if flags % 2 = 1 then s.wideElem (s.loadNat (entry + 8) 8) ta (s.loadNat (entry + 5) 1) x.slice row p.2 else some p.1.1
    let b ← if flags / 2 % 2 = 1 then s.wideElem (s.loadNat (entry + 16) 8) tb (s.loadNat (entry + 6) 1) x.slice p.2 col else some p.1.2
    some (a, b))

/-- The drift of an element as FP32 (R314); a T_w of zero under a non-zero S counts as +∞ (log 70). -/
def State.drift (s : State) (entry : Nat) (x : Sample) (el : MirageElem) : Option Nat :=
  match s.widePairs entry x el with
  | none => none
  | some ps =>
    let sv := exactTerms el.bad (el.terms el.pairs)
    let w := el.terms ps
    let sw := exactTerms el.bad w
    if !sv.isFinite || !sw.isFinite then none
    else
      let t := magnitude w
      if t = 0 then some (if sv.rat = 0 then 0 else Fmts.fp32.infCode false) else some (fp32Up (|sv.rat - sw.rat| / t))

/-- One measured element enters a record of the watch record area. -/
def State.watchRecord (s : State) (rec' : Nat) (tensor : W32) (d : Nat) : State :=
  let s := s.store rec' (leBytes 4 tensor.toNat)
  let s := s.store (rec' + 4) (leBytes 4 (min (2 ^ 32 - 1) (s.loadNat (rec' + 4) 4 + 1)))
  let s := s.store (rec' + 8) (leBytes 4 (max (s.loadNat (rec' + 8) 4) d))
  let b := rec' + 12 + 4 * driftBucket d
  s.store b (leBytes 4 (min (2 ^ 32 - 1) (s.loadNat b 4 + 1)))

/-- FP32 code of 2^−t. -/
def thresholdCode (t : Nat) : Nat := (127 - t) * 2 ^ 23

/-- A watched sample updates the records of the entries that list its tensor, with a notice at most once per entry and step counter. -/
def State.watch (s : State) (x : Sample) : State :=
  match s.ctx? x.ctx with
  | none => s
  | some c =>
    if !x.alive || c.desc.watch = 0 then s
    else
      ((List.range c.desc.watchCount).filter (fun i => s.loadNat (c.desc.watch + 32 * i) 4 == x.tensor.toNat)).foldl (fun s i =>
        let entry := c.desc.watch + 32 * i
        let ds := x.elements.filterMap (fun el => s.drift entry x el)
        let s := ds.foldl (fun s d => s.watchRecord (c.desc.watchRecords + 64 * i) x.tensor d) s
        let note := (i, x.step.toNat)
        if ds.any (fun d => decide (thresholdCode (s.loadNat (entry + 7) 1) ≤ d)) && !c.watchNoted.contains note then
          (s.updCtx x.ctx (fun c => { c with watchNoted := c.watchNoted.filter (fun n => n.1 != i) ++ [note] })).raise
            { level := 1, source := 1, reg := some 0x20008, ctx := some x.ctx, step := some x.step }
        else s) s

/-! ## MIRAGE_CHECK (R311 to R315) -/

/-- The n-th sample of a die that is closed and unchecked. -/
def State.closedSample (s : State) (die n : Nat) : Option Nat :=
  ((List.range s.faults.samples.length).filter (fun i => match s.faults.samples[i]? with | none => false | some x => x.die == die && x.state == 1))[n]?

def State.dropSample (s : State) (i : Nat) : State := { s with faults := { s.faults with samples := s.faults.samples.eraseIdx i } }

/-- What a report about a sample's tile says. -/
def Sample.report (x : Sample) : Report := { step := x.step, tensor := x.tensor, ctx := if x.alive then some x.ctx else none }

/-- A disagreement: its report, and unless a re-check of the core is pending the sample waits for the tile boundary that frees the core. -/
def State.disagreement (s : State) (i : Nat) (x : Sample) : State :=
  let s := s.report (coreKey x.die x.phys) 0x01 x.report
  if s.faults.samples.any (fun y => y.state == 2 && y.die == x.die && y.phys == x.phys) then s.dropSample i
  else
    let s := { s with faults := { s.faults with samples := updAt s.faults.samples i (fun y => { y with state := 2 }) } }
    if s.hostsRun x.die x.phys then s else s.startRecheck i

/-- The unit checks a sample to completion. -/
def State.check (s : State) (i : Nat) (x : Sample) : State :=
  let bad := (x.elements.filter x.disagrees).length
  let m := s.mirageUnit x.die
  let s := s.setMirage x.die { m with checked := satAdd 32 m.checked 1, disagree := satAdd 32 m.disagree bad }
  let s := s.watch x
  if bad = 0 then s.dropSample i else s.disagreement i x

/-- MIRAGE_CHECK: the unit of a die checks its i-th closed sample (R312). -/
def execMirageCheck (die i : Nat) (s : State) : Out :=
  withUnit die 4 (
    match s.closedSample die i with
    | none => s
    | some n =>
      match s.faults.samples[n]? with
      | none => s
      | some x => if (s.mirageUnit die).inService && !(s.mirageUnit die).testing then s.check n x else s)

/-! ## The mirage unit under suspicion (R317, R331) -/

/-- Every sample of a die that waits for its check, or is open, is abandoned. -/
def State.abandonDie (s : State) (die : Nat) : State :=
  let gone := (s.faults.samples.filter (fun x => x.die == die && x.state != 2)).length
  let m := s.mirageUnit die
  ({ s with faults := { s.faults with samples := s.faults.samples.filter (fun x => !(x.die == die && x.state != 2)) } } : State).setMirage die
    { m with skipped := satAdd 32 m.skipped gone }

/-- The unit self-tests. -/
def State.selfTest (s : State) (die : Nat) : State :=
  let s := s.abandonDie die
  s.setMirage die { s.mirageUnit die with testing := true }

/-- The unit goes out of service until the die's next reset, with a degraded event. -/
def State.mirageOut (s : State) (die : Nat) : State :=
  let s := s.abandonDie die
  let s := s.setMirage die { s.mirageUnit die with inService := false, testing := false }
  (s.degrade (500 + die)).raise { level := 3, source := 1, reg := some 0x20008, suspect := s.suspectIdx (mirageKey die) }

/-- A report that also puts an entry in a state: a new entry raises only its own event. -/
def State.reportAs (s : State) (key : SuspectKey) (cause state level : Nat) (rep : Report) : State :=
  match s.suspectIdx key with
  | some _ => (s.report key cause rep).suspectState key state cause level rep
  | none =>
    let s := s.report key cause rep
    match s.suspectIdx key with
    | none => s
    | some i => match nfind s.faults.suspects i with | none => s | some e => s.setSuspect i { e with state := state }

/-- A mirage transient: the unit self-tests, and the third within 24 hours takes it out of service. -/
def State.mirageTransient (s : State) (die : Nat) (rep : Report) : State :=
  let s := s.reportAs (mirageKey die) 0x04 2 1 rep
  let (s, _) := s.chargeEntry (mirageKey die)
  let m := s.mirageUnit die
  let l := withinDay s.st.now.toNat m.transients ++ [s.st.now.toNat]
  let s := s.setMirage die { m with transients := l }
  if 3 ≤ l.length then s.mirageOut die else s.selfTest die

/-- MIRAGE_SELF_TEST: passed or failed (R317). -/
def execMirageSelfTest (die : Nat) (pass : Bool) (s : State) : Out :=
  withUnit die 4 (
    let m := s.mirageUnit die
    if !m.testing then s
    else if pass then s.setMirage die { m with testing := false }
    else (s.reportAs (mirageKey die) 0x04 3 1 {}).mirageOut die)

/-! ## Charges and retirement of cores (R317) -/

/-- A core transient is charged; answers how many were charged within 24 hours. -/
def State.chargePhys (s : State) (die p : Nat) : State × Nat :=
  let (s, _) := s.chargeEntry (coreKey die p)
  let x := s.rawPhys die p
  let l := withinDay s.st.now.toNat x.transients ++ [s.st.now.toNat]
  (s.setPhys die p { x with transients := l }, l.length)

/-- A permanent-suspect core is retired, and it is sieved for the record: at once, or as soon as its die's sieve is free. -/
def State.retireAndSieve (s : State) (die p : Nat) : State :=
  let s := s.retireCore die p
  let busy := s.sieving die
  let x := s.rawPhys die p
  s.setPhys die p { x with state := if busy then .retired else .sieve, due := if busy then some s.st.now.toNat else none, forced := false }

/-! ## RECHECK_VERDICT (R316 to R318) -/

/-- The verdicts of R316. -/
inductive Verdict where
  | mirageTransient
  | coreTransient
  | permanent
  | mirageFault (charge : Bool)
  | inconclusive
  deriving DecidableEq, Repr

/-- The table of R316. -/
def verdictOf (yWithin same oSame : Bool) : Verdict :=
  match yWithin, same, oSame with
  | true, true, true => .mirageTransient
  | true, true, false => .coreTransient
  | true, false, _ => .permanent
  | false, true, o => .mirageFault (!o)
  | false, false, _ => .inconclusive

/-- The verdict on a sample from the repeats on X and Y. -/
def Sample.verdict (x : Sample) (xs ys : List W64) : Verdict :=
  verdictOf ((x.elements.zip ys).all (fun p => x.within p.1 p.2.toNat)) (xs == ys)
    ((x.elements.zip xs).all (fun p => p.1.core == p.2.toNat))

/-- The context of a sample's tile, while it lives. -/
def State.sampleCtx (s : State) (x : Sample) : Option Ctx := if x.alive then s.ctx? x.ctx else none

/-- A verdict on core X is recorded and raised at the level of the context's policy (R318, R329; for a context that has died: log 69). Under
hold-commit the step fails without re-execution. -/
def State.coreVerdict (s : State) (x : Sample) (state cause : Nat) : State :=
  let key := coreKey x.die x.phys
  let level := match s.sampleCtx x with | none => 2 | some c => if c.holdsCommit then 2 else 4
  let s := s.reportN key cause 1 x.report
  let s := match s.suspectIdx key with
    | none => s
    | some i =>
      match nfind s.faults.suspects i with
      | none => s
      | some e => (s.setSuspect i { e with state := state }).raise
          { level := level, source := 1, cause := cause, reg := some 0x20008, suspect := some i, ctx := x.report.ctx, step := some x.step, count := e.reports }
  match s.sampleCtx x with
  | none => s
  | some c =>
    if c.holdsCommit then
      (match c.steps.find? (fun st => st.counter == x.step.toNat) with
       | none => s
       | some st => failStep s x.ctx c st false false)
    else s

/-- A core transient: the second within 24 hours makes the core permanent-suspect. Answers whether it did. -/
def State.coreTransient (s : State) (x : Sample) : State × Bool :=
  let (s, n) := s.chargePhys x.die x.phys
  if 2 ≤ n then (s.coreVerdict x 3 0x03, true) else (s.coreVerdict x 2 0x02, false)

/-- A core that a re-check held returns to the spare pool. -/
def State.toSpare (s : State) (die p : Nat) : State :=
  let x := s.rawPhys die p
  (if x.state == .recheck then s.setPhys die p { x with state := .spare } else s).returned die

/-- The re-check of a sample ends: the sample goes, Y returns to the pool, X too unless it is retired; withheld prepare reports may go up. -/
def State.endRecheck (s : State) (i : Nat) (x : Sample) (retire : Bool) : State :=
  let s := s.dropSample i
  let s := match x.other with | none => s | some (d, p) => s.toSpare d p
  let s := if retire then s.retireAndSieve x.die x.phys else s.toSpare x.die x.phys
  match s.sampleCtx x with
  | none => s
  | some c => c.steps.foldl (fun s st => tryPrepare s x.ctx st.cmd) s

/-- The re-check runs once more with the next free spare as Y; the first Y returns to the pool. -/
def State.nextY (s : State) (i : Nat) (x : Sample) : State :=
  let s := (s.takeY i x).setSample i (fun y => { y with attempts := 1 })
  match x.other with
  | none => s
  | some (d, p) => s.toSpare d p

/-- What a verdict does. -/
def State.judge (s : State) (i : Nat) (x : Sample) (v : Verdict) : State :=
  match v with
  | .mirageTransient => (s.mirageTransient x.die x.report).endRecheck i x false
  | .coreTransient => let (s, gone) := s.coreTransient x; s.endRecheck i x gone
  | .permanent => (s.coreVerdict x 3 0x03).endRecheck i x true
  | .mirageFault charge =>
    let s := (s.reportAs (mirageKey x.die) 0x04 1 1 x.report).selfTest x.die
    if charge then (let (s, gone) := s.coreTransient x; s.endRecheck i x gone) else s.endRecheck i x false
  | .inconclusive =>
    if x.attempts = 0 then s.nextY i x else ((s.coreVerdict x 3 0x03).selfTest x.die).endRecheck i x true

/-- Position in the sample list of the n-th sample whose re-check is pending. -/
def State.pendingRecheck (s : State) (n : Nat) : Option Nat :=
  ((List.range s.faults.samples.length).filter (fun i => match s.faults.samples[i]? with | none => false | some x => x.state == 2))[n]?

/-- A core of a pending re-check that no program runs on any more is free of it. -/
def State.freeIdle (s : State) (n : Nat) (x : Sample) : State :=
  match x.other with
  | none => if s.hostsRun x.die x.phys then s else s.startRecheck n
  | some (d, p) => if x.freed || s.hostsRun d p then s else s.freeY n d p

/-- RECHECK_VERDICT: the n-th pending re-check ends with the values X′ and Y′ of its checked elements (R316). A re-check that waits for a core which no
program runs on any more begins in this step. -/
def execRecheckVerdict (i : Nat) (xs ys : List W64) (s : State) : Out :=
  .next (match s.pendingRecheck i with
    | none => s
    | some n =>
      match s.faults.samples[n]? with
      | none => s
      | some x0 =>
        let s := s.freeIdle n x0
        match s.faults.samples[n]? with
        | none => s
        | some x =>
          if x.freed && xs.length == x.elements.length && ys.length == x.elements.length then s.judge n x (x.verdict xs ys) else s)

/-! ## TWIN_MISMATCH (R321) -/

/-- A member of a mismatched pair: its report, and its sieve falls due at once. -/
def State.twinSuspect (s : State) (die p q : Nat) (rep : Report) : State :=
  let s := s.report (coreKey die p) 0x05 rep
  s.setPhys die p { s.rawPhys die p with due := some s.st.now.toNat, twin := some q, passed := false }

/-- The output of a core that the pair compares now, by engine: its instruction and the primary's digest (R320). -/
def State.twinOutput (s : State) (c : Ctx) (l : Nat) (x : Core) (engine : Nat) : Option (Nat × W64) :=
  if engine = 0 then
    ((s.env c l x).wordAt x).bind (fun w => if opClass w == 8 && opCode w == 0 && x.tokenReady w && gtVote x != .wait then some (x.seq.pos, voteDigest (x.vote w)) else none)
  else if engine < 16 then (x.queue engine).head?.bind (fun e => (x.awaits engine).map (fun d => (e.idx, d)))
  else
    ((x.wq (engine - 16)).descs.find? (fun d => d.phase == .started && !d.spans.isEmpty)).bind (fun d =>
      if d.write && !d.skipped then d.spans.head?.map (fun sp => (d.idx, x.twinDigest [(64 * sp.granule, 64 * sp.len)])) else none)

/-- TWIN_MISMATCH: the shadow's digest of an output differs from the primary's: both members stop and the context dies; no instruction has faulted (R321). -/
def execTwinMismatch (k l engine index : Nat) (shadow : W64) (s : State) : Out :=
  withCore k l s (fun c x =>
    match s.twinOutput c l x engine, s.coreAt c l with
    | some (idx, d), some (die, p) =>
      if c.live && c.desc.twin && idx == index && d != shadow then
        let rep : Report := { ctx := some k, step := ((c.run.map RunPhase.step).getD 0xFFFFFFFFFFFFFFFF) }
        let s := match s.membersOf c die p with
          | [a, b] => (s.twinSuspect die a b rep).twinSuspect die b a rep
          | _ => s
        s.die k c 0x31 2 ([0x00, BitVec.ofNat 8 engine] ++ leBytes 2 index ++ leBytes 2 l ++ leBytes 2 (min 65535 c.faults.length))
      else s
    | _, _ => s)

/-! ## Sieves (R322, R323) -/

/-- The sieve interval in System Time units (R322). -/
def State.sieveInterval (s : State) : Nat := s.cfg.sieveInterval.getD 24 * hourUnits

/-- When the sieve of a core fell or falls due. -/
def State.dueAt (s : State) (die p : Nat) : Nat :=
  let x := s.rawPhys die p
  x.due.getD (x.lastSieve + s.sieveInterval)

/-- May a core be sieved at once: a spare, a core at no held position, or a retired core whose sieve is due for the record? -/
def State.idleForSieve (s : State) (die p : Nat) : Bool :=
  let x := s.rawPhys die p
  if s.health.retiredCores.contains (die, p) then x.due.isSome && x.state == .retired
  else (x.state == .spare || x.state == .assigned) && !s.inUse die p

/-- Is a core the most overdue of the die's cores that can be sieved at once, the lowest number among equals? -/
def State.firstDue (s : State) (die p : Nat) : Bool :=
  (List.range 136).all (fun q => q == p || !s.idleForSieve die q || decide (s.st.now.toNat < s.dueAt die q)
    || decide (s.dueAt die p < s.dueAt die q ∨ (s.dueAt die p = s.dueAt die q ∧ p < q)))

/-- A command on a physical core. -/
def withPhys (die p : Nat) (f : State) : Out := if 4 ≤ die ∨ 136 ≤ p then .fault .noUnit else .next f

/-- SIEVE_DUE: a core that is free is sieved at once; an assigned one waits for its tile boundary or idle window (R323). -/
def execSieveDue (die core : Nat) (s : State) : Out :=
  withPhys die core (
    if s.st.now.toNat < s.dueAt die core then s
    else if s.idleForSieve die core then (if !s.sieving die && s.firstDue die core then s.startSieve die core else s)
    else
      let x := s.rawPhys die core
      if x.due.isNone && x.state != .sieve && !s.health.retiredCores.contains (die, core) then
        s.setPhys die core { x with due := some s.st.now.toNat } else s)

/-- SIEVE_FORCED: after 72 hours of deferral the sieve is forced at the next pre-emption point (R323). -/
def execSieveForced (die core : Nat) (s : State) : Out :=
  withPhys die core (
    let x := s.rawPhys die core
    match x.due with
    | none => s
    | some t => if s.inUse die core && decide (t + 72 * hourUnits ≤ s.st.now.toNat) then s.setPhys die core { x with forced := true } else s)

/-- Both members of a mismatched pair have passed: each is charged a core transient (R321), the second within 24 hours retires it (R317). -/
def State.chargeTwin (s : State) (die p : Nat) : State :=
  let (s, n) := s.chargePhys die p
  if 2 ≤ n then (s.reportAs (coreKey die p) 0x03 3 2 {}).retireAndSieve die p else s.reportAs (coreKey die p) 0x02 2 2 {}

/-- A member has passed its sieve: the pair is charged once both have. -/
def State.twinPassed (s : State) (die p : Nat) : State :=
  let x := s.rawPhys die p
  match x.twin with
  | none => s
  | some q =>
    let y := s.rawPhys die q
    if y.twin = some p ∧ y.passed = true then
      let s := (s.setPhys die p { x with twin := none, passed := false }).setPhys die q { y with twin := none, passed := false }
      (s.chargeTwin die p).chargeTwin die q
    else s.setPhys die p { x with passed := true }

/-- A member has failed: the pair is settled. -/
def State.twinFailed (s : State) (die p : Nat) : State :=
  match (s.rawPhys die p).twin with
  | none => s
  | some q =>
    let s := s.setPhys die p { s.rawPhys die p with twin := none, passed := false }
    s.setPhys die q { s.rawPhys die q with twin := none, passed := false }

/-- The health record takes the result of a retired core's sieve. -/
def State.recordSieve (s : State) (die p : Nat) (pass : Bool) : State :=
  { s with health := ({ s.health with coreResults := s.health.coreResults.filter (fun r => !(r.1 == die && r.2.1 == p)) ++ [(die, p, pass)] } : Health).written }

/-- A sieve ends. -/
def State.sieveEnds (s : State) (die p : Nat) (pass : Bool) : State :=
  let m := s.mirageUnit die
  let s := s.setMirage die { m with sieveRun := satAdd 32 m.sieveRun 1, sieveFail := if pass then m.sieveFail else satAdd 32 m.sieveFail 1 }
  let retired := s.health.retiredCores.contains (die, p)
  let s := s.setPhys die p { s.rawPhys die p with state := if retired then .retired else .spare, lastSieve := s.st.now.toNat, due := none, forced := false }
  if retired then s.recordSieve die p pass
  else if pass then ((s.returned die).twinPassed die p)
  else
    let s := (s.reportAs (coreKey die p) 0x06 3 1 {}).retireCore die p
    let s := (s.recordSieve die p false).twinFailed die p
    if (s.freeSpares die).isEmpty then s.raise { level := 2, source := 1, reg := some 0x20008 } else s

/-- SIEVE_COMPLETE: a pass returns the core to the pool, a failure retires it (R322, R323). -/
def execSieveComplete (die core : Nat) (pass : Bool) (s : State) : Out :=
  withPhys die core (if (s.rawPhys die core).state == .sieve then s.sieveEnds die core pass else s)

/-! ## SUSPECT_CLEAR_TIMEOUT (R326) -/

/-- SUSPECT_CLEAR_TIMEOUT: an entry in state suspect or transient without a report for 24 hours becomes cleared, with no event. -/
def execSuspectClearTimeout (i : Nat) (s : State) : Out :=
  withUnit i 1024 (
    match nfind s.faults.suspects i with
    | none => s
    | some e =>
      if (e.state = 1 ∨ e.state = 2) ∧ e.lastTime.toNat + dayUnits ≤ s.st.now.toNat then s.setSuspect i { e with state := 5 } else s)

end Sys2Proof.Machine
end

