-- ==== Sys2Proof/Machine/Replies.lean ====
section
/-! DEFINITION. Rings, doorbells, fetches, reply records and MSI-X (12 R337 to R348, 17 R443, R444). -/

namespace Sys2Proof.Machine

/-! ## Discarded accesses (17 R444) -/

/-- An access that the access rules discard is counted, with its kind and offset. -/
def State.badAccess (s : State) (off kind : Nat) : State :=
  { s with host := { s.host with csCount := min (2 ^ 24 - 1) (s.host.csCount + 1), csKind := kind, csOffset := off % 2 ^ 20 } }

def ringAt (n : Nat) : Nat := 0x10000 + 0x40 * n

/-! ## MSI-X (12 R342) -/

/-- Is MSI-X vector n masked, by its own mask bit or by the function mask? -/
def HostIf.vectorMasked (h : HostIf) (n : Nat) : Bool := h.functionMask || (nget (1 : W32) h.msixTable (16 * n + 12)).getLsbD 0

/-- A message of vector n: sent, or recorded in the pending-bit array while the vector is masked. -/
def HostIf.msix (h : HostIf) (n : Nat) : HostIf :=
  if !h.msixEnable then h
  else if h.vectorMasked n then { h with pba := h.pba ||| BitVec.ofNat 64 (2 ^ n) }
  else { h with msixSent := h.msixSent ++ [n] }

/-- Pending messages of vectors that are masked no more are sent. -/
def HostIf.releasePending (h : HostIf) : HostIf :=
  if !h.msixEnable then h
  else
    let go := (List.range 64).filter (fun n => h.pba.getLsbD n && !h.vectorMasked n)
    { h with msixSent := h.msixSent ++ go, pba := BitVec.ofNat 64 (((List.range 64).filter (fun n => h.pba.getLsbD n && !go.contains n)).foldl (fun a n => a + 2 ^ n) 0) }

/-! ## Rings (12 R338 to R340, R355) -/

/-- A ring stops: it is disabled with its Error bit set, and a warning is raised (R339). -/
def State.stopRing (s : State) (n : Nat) (reply : Bool) : State :=
  let r := ringGet s.host n
  if reply then (s.putRing n { r with rqEnable := false, rqError := true }).raise { level := 2, source := 9, reg := some (ringAt n + 0x18) }
  else (s.putRing n { r with sqEnable := false, sqError := true }).raise { level := 2, source := 9, reg := some (ringAt n + 0x08) }

/-- Does version 2 forbid this ring (R355)? -/
def State.ringTooNew (s : State) (n exp : Nat) : Bool := s.host.session == 2 && (decide (16 ≤ n) || decide (12 < exp))

def expOk (exp : Nat) : Bool := decide (6 ≤ exp ∧ exp ≤ 16)

/-- A write of SQ_CTRL_n: Error is W1C; the reply ring and the size are locked while the ring is enabled (17 R443); enabling zeroes the indices (R340). -/
def State.writeSqCtrl (s : State) (n : Nat) (v : W32) : State :=
  let r := ringGet s.host n
  let r1 := if v.getLsbD 30 then { r with sqError := false } else r
  let reply := fld v 16 6
  let exp := fld v 0 5
  if r.sqEnable then
    let s := s.putRing n { r1 with sqEnable := v.getLsbD 31 }
    if reply = r.sqReply ∧ exp = r.sqExp then s else s.badAccess (ringAt n + 0x08) 3
  else
    let r2 := { r1 with sqReply := reply, sqExp := exp }
    if !v.getLsbD 31 then s.putRing n r2
    else if r.sqBase.toNat % 4096 ≠ 0 ∨ expOk exp = false ∨ s.ringTooNew n exp = true then (s.putRing n r2).stopRing n false
    else s.putRing n { r2 with sqEnable := true, sqHead := 0, sqDoor := 0 }

/-- The shadow of a reply ring is written: the producer count, and ATTN_SEQ above it (R339). -/
def State.writeShadow (s : State) (n : Nat) : State :=
  let r := ringGet s.host n
  s.busWrite r.rqShadow.toNat (leBytes 4 r.rqProduced.toNat ++ leBytes 4 s.attn.seq.toNat)

/-- A write of RQ_CTRL_n. -/
def State.writeRqCtrl (s : State) (n : Nat) (v : W32) : State :=
  let r := ringGet s.host n
  let r1 := if v.getLsbD 30 then { r with rqError := false } else r
  let exp := fld v 0 5
  if r.rqEnable then
    let s := s.putRing n { r1 with rqEnable := v.getLsbD 31 }
    if exp = r.rqExp then s else s.badAccess (ringAt n + 0x18) 3
  else
    let r2 := { r1 with rqExp := exp }
    if !v.getLsbD 31 then s.putRing n r2
    else if r.rqBase.toNat % 4096 ≠ 0 ∨ r.rqShadow.toNat % 8 ≠ 0 ∨ expOk exp = false ∨ s.ringTooNew n exp = true then (s.putRing n r2).stopRing n true
    else (s.putRing n { r2 with rqEnable := true, rqProduced := 0, rqTail := 0 }).writeShadow n

/-- A doorbell write (R339, 17 R443, R446): held during a hub subsystem reset; discarded to a disabled ring or behind; too far ahead stops the ring. -/
def State.doorbell (s : State) (n : Nat) (v : W32) : State :=
  let r := ringGet s.host n
  let off := 0x1000 + 0x40 * n
  let behind := (r.sqDoor - v).toNat
  if s.resetting 6 then { s with host := { s.host with heldDoorbells := s.host.heldDoorbells ++ [(n, v)] } }
  else if !r.sqEnable then s.badAccess off 4
  else if 1 ≤ behind ∧ behind ≤ 2 ^ 31 then s.badAccess off 5
  else if 2 ^ r.sqExp < (v - r.sqHead).toNat ∨ s.ringTooNew n r.sqExp = true then s.stopRing n false
  else s.putRing n { r with sqDoor := v }

/-- Doorbells that were held during a hub subsystem reset take effect. -/
def State.releaseDoorbells (s : State) : State :=
  s.host.heldDoorbells.foldl (fun s d => s.doorbell d.1 d.2) { s with host := { s.host with heldDoorbells := [] } }

/-! ## Reply records (12 R339, R341, R344) -/

/-- The status field of a record as it is written: attention sequence, attention level, completion code. -/
def State.replyStatus (s : State) (code : Byte) : Nat := s.attn.seq.toNat % 16 * 4096 + s.attnLevel * 256 + code.toNat

def State.replyBytes (s : State) (r : Reply) : List Byte :=
  leBytes 2 r.tag.toNat ++ leBytes 2 (s.replyStatus r.code) ++ leBytes 4 r.result.toNat ++ leBytes 8 r.time.toNat ++ r.tail

/-- Has reply ring n a waiting record and space for it? -/
def Ring.canReply (r : Ring) : Bool := r.rqEnable && !r.waiting.isEmpty && decide ((r.rqProduced - r.rqTail).toNat < 2 ^ r.rqExp)

/-- The oldest waiting record of reply ring n is written, then the shadow; an armed ring sends its MSI-X once (R341, R342). -/
def State.writeReply (s : State) (n : Nat) : State :=
  let r := ringGet s.host n
  match r.waiting with
  | [] => s
  | w :: rest =>
    if r.canReply then
      let s := s.busWrite (r.rqBase.toNat + 32 * (r.rqProduced.toNat % 2 ^ r.rqExp)) (s.replyBytes w)
      let s := s.putRing n { r with waiting := rest, rqProduced := r.rqProduced + 1, armed := false }
      let s := s.writeShadow n
      if r.armed then { s with host := s.host.msix n } else s
    else s

/-- Every record that finds space is written: what a module does before a reset of kind 0x06 to 0x08 (14 R390). -/
def State.flushReplies (s : State) : State :=
  (List.range 64).foldl (fun s n => (ringGet s.host n).waiting.foldl (fun s _ => s.writeReply n) s) s

/-- The records that found no space are not written (14 R390). -/
def State.dropReplies (s : State) : State :=
  { s with host := { s.host with rings := s.host.rings.map (fun r => (r.1, { r.2 with waiting := [] })) } }

/-! ## Fetches (12 R339, R347) -/

/-- A command entry is fetched: it takes the reply ring and the version in force now. -/
def State.fetched (s : State) (n : Nat) (bytes : List Byte) : State :=
  let r := ringGet s.host n
  let c : HostCmd := ⟨s.host.nextCmd, n, r.sqReply, (bytes ++ zeros 64).take 64, s.st.now, s.host.session, false, false, 0⟩
  let s := s.putRing n { r with sqHead := r.sqHead + 1 }
  { s with host := { s.host with cmds := s.host.cmds ++ [c], nextCmd := s.host.nextCmd + 1 } }

/-- Is the module able to fetch: booted, and no module reset in progress? -/
def State.fetches (s : State) : Bool := s.mesa.stage == 0xF && !s.resetting 7 && !s.resetting 8

/-- COMMAND_FETCH (R339): the next entry of submission ring n, an error or a poisoned TLP; the last two stop the ring. -/
def execCommandFetch (n : Nat) (result : FetchResult) (s : State) : Out :=
  withRing n s (fun r =>
    if s.fetches && r.sqEnable && r.sqHead != r.sqDoor then
      match result with
      | .entry bytes => s.fetched n bytes
      | .error => s.stopRing n false
      | .poisoned => s.stopRing n false
    else s)

/-- REPLY_WRITE (R341). -/
def execReplyWrite (n : Nat) (s : State) : Out := withRing n s (fun _ => if s.resetting 7 || s.resetting 8 then s else s.writeReply n)

end Sys2Proof.Machine
end

