-- ==== Sys2Proof/Machine/Resets.lean ====
section
/-! DEFINITION. Reset domains, escalation, out of service, oasis services and the Mesa controller's failure (14 R383 to R398, 01 R19, 17 R440). -/

namespace Sys2Proof.Machine

/-! ## Domains (R389) -/

/-- Completion time of a kind of reset. -/
def resetTime (kind : Nat) : Nat :=
  match kind with
  | 1 => millisecond
  | 2 => 20 * millisecond
  | 3 => 3 * second
  | 4 => 3 * second / 2
  | 5 => 500 * millisecond
  | 6 => 2 * second
  | 7 => 6 * second
  | _ => 8 * second

/-- Is a kind of reset counted (R394)? -/
def countedKind (kind : Nat) : Bool := kind == 3 || kind == 6 || kind == 7 || kind == 8

/-- RESET_CTRL's state while a reset runs: retraining for a port or a channel, escalating after an escalation, resetting otherwise (log 71). -/
def ResetRec.stateCode (r : ResetRec) : Nat := if r.cause = 4 then 4 else if r.kind = 4 ∨ r.kind = 5 then 3 else 2

/-- Does the domain of one reset contain the domain of another (R399)? -/
def State.domainIn (s : State) (a b : ResetRec) : Bool :=
  (a.kind == b.kind && a.die == b.die && a.num == b.num) || a.kind == 8 || (a.kind == 7 && decide (b.kind < 7)) || (a.kind == 6 && b.kind == 2)
    || (a.kind == 3 && b.kind == 1 && b.die == a.die)
    || (a.kind == 3 && b.kind == 2 && (match s.ctx? b.num with | none => true | some c => c.dies == [a.die]))

/-! ## Deaths by a reset (12 R361, R390, R391) -/

/-- A context dies by a reset: a job-fatal event, DEVICE_RESETTING for every command of it, and it closes. -/
def State.killByReset (s : State) (k : Nat) : State :=
  match s.ctx? k with
  | none => s
  | some c =>
    let cmds := s.cmdsOf k
    if c.status == .closing then s.completeAll (cmds.map (·.id)) 0x40
    else
      let s := s.raise { level := 5, source := 5, ctx := some k, code := 0x40, reg := some (0x60000 + 4 * k), step := c.run.map RunPhase.step,
                         tag := cmds.head?.map HostCmd.tag }
      ((tellFailures (s.completeAll (cmds.map (·.id)) 0x40) k c false)).beginClose k

/-- Contexts with a core on a die. -/
def State.onDie (s : State) (die : Nat) : List Nat := (s.ctxs.filter (fun c => c.2.status != .absent && c.2.dies.contains die)).map (·.1)

/-- Nothing of a context is left in flight. -/
def State.dropTransfers (s : State) (k : Nat) : State :=
  { s with net := { s.net with packets := s.net.packets.filter (fun p => p.ctx != k), requests := s.net.requests.filter (fun r => r.ctx != k) }
           colls := s.colls.filter (fun x => x.ctx != k) }

/-- Every context is gone, with its translation entries. -/
def State.clearContexts (s : State) : State :=
  { s with ctxs := [], colls := [], xlate := [], caravan := .reset
           net := { s.net with packets := [], requests := [] }
           seif := { s.seif with ready := [], windows := [], peers := [], pacing := [], routes := [], claims := s.seif.claims.filter (fun c => !c.own) } }

/-! ## The module after a reset of kind 0x07 or 0x08 -/

/-- Departure notices leave on every up port (08 R222). -/
def State.notifyDeparture (s : State) : State :=
  s.upPorts.foldl (fun s p => s.sendControl p 2 (timestampMessage (portGet s.seif p) s.st.now ++ message [0x07])) s

/-- Degraded codes that outlast a module reset: retired pseudo-channels of the health record and lost regulator phases. -/
def State.lastingDegraded (s : State) : List Nat := s.rst.degraded.filter (fun x => (200 ≤ x ∧ x < 300) ∨ (400 ≤ x ∧ x < 500))

/-- Soft repairs become hard repairs (07 R208). -/
def State.hardRepair (s : State) (die : Nat) : State :=
  let mine := s.mem.softRepairs.filter (fun r => r.1 == die)
  if mine.isEmpty then s
  else { s with mem := { s.mem with softRepairs := s.mem.softRepairs.filter (fun r => r.1 != die) }
                health := ({ s.health with hardRepairs := s.health.hardRepairs ++ mine } : Health).written }

/-- A core that a reset found under sieve or re-check is sieved before it is offered (11 R331). -/
def resieve (now : Nat) (x : Phys) : Phys :=
  if x.state == .sieve || x.state == .recheck then { Phys.fresh with state := .sieve, lastSieve := x.lastSieve, due := some now }
  else { Phys.fresh with state := x.state, lastSieve := x.lastSieve }

/-- The state of the module at the start of a reset of kind 0x07 or 0x08: what R389 says is kept is kept, everything else is as after reset;
the boot runs anew. -/
def State.moduleCleared (s : State) (kind : Nat) : State :=
  let s := [0, 1, 2, 3].foldl (fun s d => s.hardRepair d) s
  { State.reset with
    pending := s.pending, cfg := s.cfg, health := s.health, flash := s.flash
    mesa := { Mesa.reset with failed := s.mesa.failed, signed := s.mesa.signed
                              spdmVersion := if kind = 7 then s.mesa.spdmVersion else [], spdmCaps := if kind = 7 then s.mesa.spdmCaps else []
                              spdmNegotiated := if kind = 7 then s.mesa.spdmNegotiated else [], spdmOut := if kind = 7 then s.mesa.spdmOut else [] }
    pins := s.pins
    st := { SysTime.reset with now := s.st.now }
    host := { HostIf.reset with
      msixTable := [], msixEnable := if kind = 7 then s.host.msixEnable else false, functionMask := if kind = 7 then s.host.functionMask else false
      msixSent := s.host.msixSent, busWrites := s.host.busWrites, lastRead := s.host.lastRead, nextCmd := s.host.nextCmd
      linkUp := kind == 7 && s.host.linkUp, linkSpeed := if kind = 7 then s.host.linkSpeed else 0, linkWidth := if kind = 7 then s.host.linkWidth else 0 }
    faults := { Faults.reset with phys := s.faults.phys.map (fun x => (x.1, resieve s.st.now.toNat x.2)) }
    power := { Power.resetWith (s.cfg.powerLimit.getD 4000) with
      rails := s.power.rails, lost := s.power.lost, fitted := s.power.fitted, stackTemps := s.power.stackTemps, stackDoubled := s.power.stackDoubled }
    rst := { s.rst with degraded := s.lastingDegraded, inProgress := [], state := 2 }
    captures := s.captures, nextCapture := s.nextCapture
    mem := { Mem.reset with bytes := s.mem.bytes, poison := s.mem.poison, lost := s.mem.lost, rewritten := s.mem.rewritten }
    seif := { Seif.reset with out := s.seif.out, nextTag := s.seif.nextTag }
    net := { Net.reset with nextId := s.net.nextId, badLinks := s.net.badLinks }
    xlVersion := s.xlVersion, freeCount := s.freeCount }

/-! ## The start of a reset (R389, R390, R399) -/

/-- Every fetched command that has not replied gets DEVICE_RESETTING, and the replies that find space are written (R390). -/
def State.replyAll (s : State) : State := ((s.completeAll (s.host.cmds.map (·.id)) 0x40).flushReplies).dropReplies

/-- Does a learner context hold a master area or a retain region in near memory of a die (09 R280)? -/
def Ctx.holdsOn (c : Ctx) (die : Nat) : Bool :=
  let there := fun (a : Nat) => regionOf a == .near die
  (match c.learn with | none => false | some l => (l.own ++ l.buddy).any (fun x => x.addr != 0 && there x.addr)) || c.steps.any (fun st => st.retain.any there)

/-- A reset clears what the open steps of other contexts would be executed from again (09 R280). -/
def State.loseAreas (s : State) (die : Nat) : State :=
  (s.resident.filter (fun c => c.2.holdsOn die)).foldl (fun s c =>
    (c.2.steps.filter StepRun.open').foldl (fun s st => s.onStep c.1 st.cmd (fun y st => loseStep s c.1 y st)) s) s

/-- What the start of a reset does to its domain. -/
def State.enterReset (s : State) (r : ResetRec) : State :=
  match r.kind with
  | 2 => s.killByReset r.num
  | 3 => ((s.onDie r.die).foldl (fun s k => s.killByReset k) s).loseAreas r.die
  | 4 => let s := s.portDown r.num 1; s.putPort r.num { portGet s.seif r.num with fast := true, attempts := 0 }
  | 6 => ((((s.ctxs.map (·.1)).foldl (fun s k => s.killByReset k) s).replyAll).notifyDeparture).clearContexts
  | 7 => (((((s.ctxs.map (·.1)).foldl (fun s k => s.killByReset k) s).replyAll).notifyDeparture).moduleCleared 7)
  | 8 => (((((s.ctxs.map (·.1)).foldl (fun s k => s.killByReset k) s).replyAll).notifyDeparture).moduleCleared 8)
  | _ => s

/-- A reset is requested: absorbed by a larger one that contains it, or begun; smaller ones inside it are abandoned, and the commands that waited
for them wait for it. -/
def State.beginReset (s : State) (r : ResetRec) : State :=
  if s.rst.inProgress.any (fun x => s.domainIn x r) then
    { s with rst := { s.rst with inProgress := updWhere s.rst.inProgress (fun x => s.domainIn x r) (fun x => { x with cmds := x.cmds ++ r.cmds }) } }
  else
    let inner := s.rst.inProgress.filter (fun x => s.domainIn r x)
    let rest := s.rst.inProgress.filter (fun x => !s.domainIn r x)
    let r := { r with cmds := r.cmds ++ inner.flatMap (·.cmds), started := s.st.now.toNat }
    let s := { s with rst := { s.rst with inProgress := rest } }
    let s := s.enterReset r
    { s with rst := { s.rst with inProgress := s.rst.inProgress ++ [r], state := r.stateCode } }

/-- A reset of a domain by kind, die and number. -/
def State.resetDomain (s : State) (kind die num cause : Nat) (cmds : List Nat) (ctx : Option Nat) : State :=
  s.beginReset ⟨kind, die, num, cause, countedKind kind, cmds, ctx, 0, 1⟩

/-- A reset of kind 0x07 or 0x08. -/
def State.moduleReset (s : State) (kind cause : Nat) : State := s.resetDomain kind 0 0 cause [] none

/-! ## Out of service (R395, R396) -/

/-- Opcodes that an out-of-service module runs (12 R346). -/
def servedOutOfService (op : Nat) : Bool := op == 0x00 || op == 0x0E || op == 0x0F || op == 0x10 || op == 0x12 || op == 0x13

/-- The module goes out of service: contexts die with their dies, the health record says so, and one device-fatal event is raised. -/
def State.goOutOfService (s : State) : State :=
  if s.rst.outOfService then s
  else
    let s := (s.ctxs.map (·.1)).foldl (fun s k => s.killByReset k) s
    let s := { s with rst := { s.rst with outOfService := true }, health := ({ s.health with outOfService := true } : Health).written }
    let s := s.raise { level := 6, source := 7, reg := some 0x50000 }
    let s := s.completeAll ((s.host.cmds.filter (fun c => !servedOutOfService c.opcode)).map (·.id)) 0x41
    s.clearContexts

/-! ## RESET_COMPLETION (R391, R393, R394) -/

/-- Re-checks and sieves on a die that was reset are abandoned, and its packets are gone (11 R331). -/
def State.dieFaults (s : State) (die : Nat) : State :=
  let samples := s.faults.samples.filter (fun (x : Sample) => x.die != die && (x.other.map (·.1)) != some die)
  let phys := s.faults.phys.map (fun (x : Nat × Phys) =>
    if x.1 / 136 = die ∧ (x.2.state = .sieve ∨ x.2.state = .recheck) then (x.1, resieve s.st.now.toNat x.2) else x)
  { s with faults := { s.faults with samples := samples, phys := phys }
           net := { s.net with packets := s.net.packets.filter (fun p => nodeDie p.planHop.node != die) } }

/-- Requests that a reset held count as issued now (R390). -/
def State.held (s : State) (p : Target → Bool) : State :=
  { s with net := { s.net with requests := s.net.requests.map (fun (q : Request) => if p q.target then { q with issued := s.st.now.toNat } else q) } }

/-- What the end of a reset does to its domain, and its event. -/
def State.leaveReset (s : State) (r : ResetRec) : State :=
  match r.kind with
  | 1 =>
    let x := s.rawPhys r.die r.num
    let busy := s.sieving r.die
    let retired := s.health.retiredCores.contains (r.die, r.num)
    let s := if busy then s.setPhys r.die r.num { x with state := if retired then .retired else x.state, due := some s.st.now.toNat } else s.startSieve r.die r.num
    s.raise { level := 1, source := 7, reg := some 0x50000, count := r.num }
  | 2 => (s.dropTransfers r.num).raise { level := 1, source := 7, reg := some 0x50000, count := r.num }
  | 3 =>
    let s := (s.hardRepair r.die).abandonDie r.die
    let s := (s.dieFaults r.die).held (fun t => t == .near r.die)
    let m := s.mirageUnit r.die
    let s := (s.setMirage r.die { m with tiles := 0, inService := true, testing := false, transients := [] }).undegrade (500 + r.die)
    let s := (s.onDie r.die).foldl (fun s k => s.dropTransfers k) s
    s.raise { level := 2, source := 7, reg := some 0x50000, count := r.die }
  | 5 =>
    (s.held (fun t => t == .far)).raise { level := 2, source := 7, reg := some 0x50000, count := r.num }
  | 6 =>
    let s := [0, 1, 2, 3].foldl (fun s p => s.undegrade (300 + p)) { s with svc := Service.reset }
    (s.releaseDoorbells).raise { level := 2, source := 7, reg := some 0x50000 }
  | 7 => s.raise { level := 2, source := 7, reg := some 0x50004 }
  | 8 => s.raise { level := 2, source := 7, reg := some 0x50004 }
  | _ => s

/-- A counted reset enters the counts, of which the total is kept in the health record (R393, R394). -/
def State.countReset (s : State) : State :=
  let total := min 4095 (s.rst.total + 1)
  { s with rst := { s.rst with hour := min 15 (s.rst.hour + 1), day := min 15 (s.rst.day + 1), total := total }
           health := ({ s.health with total := total } : Health).written }

/-- A reset completes: history, counts, its event, the replies of the commands that waited, and out of service at the third counted reset within
60 minutes or the eighth within 24 hours (R395). -/
def State.resetDone (s : State) (r : ResetRec) : State :=
  let rest := s.rst.inProgress.filter (fun x => x != r)
  let s := { s with rst := { s.rst with inProgress := rest, state := if rest.isEmpty then 0 else s.rst.state, lastKind := r.kind, lastCause := r.cause } }
  let s := if r.counted then s.countReset else s
  let s : State := s.leaveReset r
  let s : State := r.cmds.foldl (fun s id => s.complete id 0x00 0 []) s
  if r.counted ∧ (3 ≤ s.rst.hour ∨ 8 ≤ s.rst.day) then s.goOutOfService else s

/-- The reset in progress that a command names. -/
def State.findReset (s : State) (kind die num : Nat) : Option ResetRec :=
  s.rst.inProgress.find? (fun r => r.kind == kind && r.die == die && r.num == num)

/-- Pseudo-channels that failed training at a reset of their compute die are retired (07 R209); each is named by 128 × die + index. -/
def State.retireUntrained (s : State) (kind die : Nat) (untrained : List Nat) : State :=
  (untrained.filter (fun p => decide (p < 512) && ((kind == 3 && p / 128 == die) || kind == 7 || kind == 8))).foldl (fun s p => s.retirePc (p / 128) (p % 128)) s

/-- RESET_COMPLETION (R391): a module reset includes the boot, and a port's reset its training. `untrained`: pseudo-channels that failed training in it. -/
def execResetCompletion (kind die num : Nat) (untrained : List Nat) (s : State) : Out :=
  .next (match s.findReset kind die num with
    | none => s
    | some r =>
      if (kind = 7 ∨ kind = 8) ∧ s.mesa.stage ≠ 0xF then s
      else if kind = 4 ∧ (portGet s.seif num).state ≤ 1 then s
      else (s.resetDone r).retireUntrained kind die untrained)

/-! ## RESET_COMPLETION_TIMEOUT (R384) -/

/-- A partition's reset gives way to one of each die that holds a core of it, which counts once (R384, log 163). -/
def State.resetDies (s : State) (k : Nat) (dies cmds : List Nat) : State :=
  dies.foldl (fun s d => let first := some d == dies.head?; s.beginReset ⟨3, d, 0, 4, first, if first then cmds else [], some k, 0, 1⟩) s

/-- A reset that has failed gives way to the next larger domain. -/
def State.escalate (s : State) (r : ResetRec) : State :=
  let s := { s with rst := { s.rst with inProgress := s.rst.inProgress.filter (fun x => x != r) } }
  match r.kind with
  | 1 => s.resetDomain 3 r.die 0 4 r.cmds none
  | 2 => s.resetDies r.num (match s.ctx? r.num with | none => [r.die] | some c => c.dies) r.cmds
  | 3 => s.moduleReset 7 4
  | 6 => s.moduleReset 7 4
  | 7 => s.moduleReset 8 4
  | 8 => s.goOutOfService
  | _ => s

/-- A far-memory channel trains again, and after three failures it is out of service, which asks for action. -/
def State.channelFails (s : State) (r : ResetRec) : State :=
  if r.tries < 3 then
    { s with rst := { s.rst with inProgress := updWhere s.rst.inProgress (fun x => x == r) (fun x => { x with tries := x.tries + 1, started := s.st.now.toNat }) } }
  else
    let s := { s with
      mem := { s.mem with farIn := s.mem.farIn &&& ~~~(BitVec.ofNat 16 (2 ^ (r.num % 16))) }
      rst := { s.rst with inProgress := s.rst.inProgress.filter (fun x => x != r) } }
    let s := r.cmds.foldl (fun s id => s.complete id 0x00 0 []) s
    s.raise { level := 4, source := 4, reg := some 0x80010, count := r.num }

/-- RESET_COMPLETION_TIMEOUT: a reset has missed its completion time. A port's reset is not escalated. -/
def execResetCompletionTimeout (kind die num : Nat) (s : State) : Out :=
  .next (match s.findReset kind die num with
    | none => s
    | some r =>
      if s.st.now.toNat < r.started + resetTime kind then s
      else match kind with
        | 4 => s.portOut num
        | 5 => s.channelFails r
        | _ => s.escalate r)

/-- RESET_COUNT_WINDOW_EXPIRY (R393, R394): a counted reset leaves its window. -/
def execResetCountWindowExpiry (day : Bool) (s : State) : Out :=
  .next { s with rst := if day then { s.rst with day := s.rst.day - 1 } else { s.rst with hour := s.rst.hour - 1 } }

/-- REGULATOR_PHASE_LOSS (R395, R398): the first phase of a rail lost is a warning, the second degrades, and more take the module out of service. -/
def execRegulatorPhaseLoss (rail : Nat) (s : State) : Out :=
  withUnit rail 8 (
    let n := s.power.lost.getD rail 0
    if s.power.fitted.getD rail 0 ≤ n then s
    else
      let s := { s with power := { s.power with lost := updAt s.power.lost rail (· + 1) } }
      match n with
      | 0 => s.raise { level := 2, source := 2, reg := some (0x30020 + 4 * rail) }
      | 1 => (s.degrade (400 + rail)).raise { level := 3, source := 2, reg := some (0x30020 + 4 * rail) }
      | _ => s.goOutOfService)

/-! ## Services (01 R19, 17 R440) -/

/-- The pair that takes a failed pair's services: along the failover chain to the next pair that is in service. -/
def hostAlong (svc : List Service) : Nat → Nat → Nat
  | 0, p => p
  | n + 1, p => let q := (p + 1) % 4; if (svc.getD q ⟨0, q⟩).state ≠ 0 then hostAlong svc n q else q

/-- OASIS_PAIR_FAILURE (01 R19): the services that the pair runs move on, with a degraded event; when all four have failed the module is out of service. -/
def execOasisPairFailure (p : Nat) (s : State) : Out :=
  withUnit p 4 (
    if (s.svc.getD p ⟨0, p⟩).state = 1 then s
    else
      let svc := updAt s.svc p (fun x => { x with state := 1 })
      if svc.all (·.state == 1) then ({ s with svc := svc } : State).goOutOfService
      else
        let next := hostAlong svc 4 p
        let svc := svc.map (fun x => if x.host = p then { x with host := next } else x)
        (({ s with svc := svc } : State).degrade (300 + p)).raise { level := 3, source := 6, reg := some 0x50008, count := p })

/-- A pair that runs a service is restarted, and its services fail over (14 R383, 17 R440). -/
def State.restartPair (s : State) (p : Nat) : State :=
  if (s.svc.getD p ⟨0, p⟩).state = 1 then s
  else
    let svc := updAt s.svc p (fun x => { x with state := 2 })
    let next := hostAlong svc 4 p
    (({ s with svc := svc.map (fun x => if x.host = p then { x with host := next } else x) } : State).degrade (300 + p)).raise { level := 3, source := 6, reg := some 0x50008, count := p }

/-- SERVICE_RESTART_COMPLETE (17 R440): the pair is in service again; its services stay where they moved until a reset of kind 0x06 or larger. -/
def execServiceRestartComplete (p : Nat) (s : State) : Out :=
  withUnit p 4 (if (s.svc.getD p ⟨0, p⟩).state = 2 then { s with svc := updAt s.svc p (fun x => { x with state := 0 }) } else s)

/-- MESA_FAILURE (R395, 16 R432): signing requests are lost with their contexts, and the module goes out of service. -/
def execMesaFailure (s : State) : Out :=
  .next (({ s with mesa := { s.mesa with failed := true, signQueue := [] } } : State).goOutOfService)

end Sys2Proof.Machine
end

