-- ==== Sys2Proof/Machine/Admission.lean ====
section
/-! DEFINITION. When a fetched command starts, the checks that it passes first, and what every command row shares (12 R343 to R347, R355 to R360, 13 R365). -/

namespace Sys2Proof.Machine

/-! ## Commands and contexts (R343, R356) -/

/-- Does an opcode name a context (R356)? -/
def namesContext (op : Nat) : Bool := decide (0x02 ≤ op ∧ op ≤ 0x0B)

/-- The context that a command names; RESET_DOMAIN names one for kind 0x02 only. -/
def HostCmd.named (c : HostCmd) : Option Nat :=
  if namesContext c.opcode || (c.opcode == 0x11 && c.fieldAt 16 1 == 2) then some (c.fieldAt 8 1 % 64) else none

def HostCmd.fence (c : HostCmd) : Bool := c.fieldAt 3 1 % 2 == 1

/-- Commands that were fetched from the same ring before this one and have not completed. -/
def State.earlier (s : State) (c : HostCmd) : List HostCmd := (s.host.cmds.takeWhile (fun x => x.id != c.id)).filter (fun x => x.sq == c.sq)

/-! ## Start order (R347, R361, 13 R365) -/

/-- Has every earlier command of the ring replied: none is left, and none of their records waits to be written? -/
def State.fenced (s : State) (c : HostCmd) : Bool :=
  (s.earlier c).isEmpty && s.host.rings.all (fun r => r.2.waiting.all (fun w => w.sq != c.sq || decide (c.id < w.id)))

/-- A context with a partition alone. -/
def Ctx.probe (size die index : Nat) : Ctx := Ctx.fresh 0 size die index CtxDesc.zero

/-- Does a CREATE_CONTEXT wait for a Closing context: one with its number, or one on its cores (R365)? -/
def State.waitsClosure (s : State) (c : HostCmd) : Bool :=
  let size := c.fieldAt 12 1
  let die := c.fieldAt 13 1
  let index := c.fieldAt 14 1
  s.ctxs.any (fun x => x.2.status == .closing
    && (some x.1 == c.named || ((s.partitionBad size die index).isNone && s.overlap x.2 (Ctx.probe size die index))))

/-- A RUN waits for the RUN or the STEPs of its context in progress, a STEP for the RUN; a generation round keeps the cores as a RUN does. -/
def State.runBusy (s : State) (c : HostCmd) : Bool :=
  let others := s.host.cmds.filter (fun x => x.id != c.id && x.started && x.named == c.named)
  match c.opcode with
  | 0x06 => others.any (fun x => x.opcode == 0x06 || x.opcode == 0x07) || (match c.named.bind s.ctx? with | none => false | some y => y.run.isSome && y.status != .closing)
  | 0x07 => others.any (fun x => x.opcode == 0x06)
  | _ => false

/-- May a fetched command start? -/
def State.mayStart (s : State) (c : HostCmd) : Bool :=
  let before := s.earlier c
  (!c.fence || s.fenced c)
    && before.all (fun x => x.started || x.named != c.named)
    && before.all (fun x => x.opcode != 0x04 || x.named != c.named)
    && !s.runBusy c && !(c.opcode == 0x04 && s.waitsClosure c)

/-! ## Reserved fields and codes (R9, R343, R346, R357 to R360) -/

/-- Bits of a byte that a span of bytes leaves in use. -/
def useSpan (lo hi o : Nat) : Nat := if lo ≤ o ∧ o ≤ hi then 0xFF else 0

/-- Bits in use of the entry that MAP_MEMORY writes, bytes 24 to 55 (R336, 08 R226). -/
def entryUse (peer : Bool) (o : Nat) : Nat :=
  match o with
  | 25 => 0x3F
  | 26 => 0
  | 27 => 0
  | 41 => if peer then 0x7F else 0xFF
  | 42 => 0xFF
  | 43 => 0xFF
  | 48 => if peer then 0xFF else 0x0F
  | 49 => if peer then 0xFF else 0
  | _ => useSpan 24 47 o

/-- Bits in use of argument byte o, by opcode and by the byte that selects the operation. -/
def argUse (c : HostCmd) (o : Nat) : Nat :=
  let b := c.fieldAt 16 1
  match c.opcode with
  | 0x01 => useSpan 16 17 o
  | 0x02 => useSpan 16 16 o + useSpan 20 31 o
  | 0x03 =>
    match b with
    | 1 => if o = 17 then 7 else useSpan 16 16 o + useSpan 24 39 o
    | 2 => useSpan 16 16 o + useSpan 24 39 o
    | 3 => useSpan 16 16 o + useSpan 20 23 o + entryUse (c.fieldAt 24 1 == 2) o
    | _ => useSpan 16 16 o + useSpan 20 23 o
  | 0x04 => useSpan 16 19 o + useSpan 24 31 o
  | 0x06 => useSpan 16 16 o + useSpan 24 31 o
  | 0x07 => if o = 20 then 1 else useSpan 16 19 o + useSpan 24 31 o
  | 0x08 => useSpan 16 21 o
  | 0x09 => if o = 16 then 7 else useSpan 24 39 o
  | 0x0A => if o = 16 then 1 else useSpan 24 39 o
  | 0x0B => useSpan 16 17 o
  | 0x0C => useSpan 16 19 o + useSpan 24 31 o
  | 0x0D => useSpan 16 17 o
  | 0x0E => useSpan 16 16 o + useSpan 20 27 o + useSpan 32 39 o
  | 0x0F => useSpan 20 23 o
  | 0x10 => useSpan 16 19 o + useSpan 24 35 o
  | 0x11 => useSpan 16 16 o + (if b = 1 ∨ b = 3 then useSpan 17 17 o else 0) + (if b = 1 ∨ b = 4 ∨ b = 5 then useSpan 18 19 o else 0)
  | 0x12 => useSpan 16 19 o + useSpan 24 31 o
  | 0x13 => useSpan 16 16 o + useSpan 24 63 o
  | _ => 0

/-- Bits in use of byte o of a command. -/
def HostCmd.use (c : HostCmd) (o : Nat) : Nat :=
  if o < 3 ∨ (4 ≤ o ∧ o ≤ 7) then 0xFF
  else if o = 3 then 1
  else if 16 ≤ o then argUse c o
  else if c.named.isNone then 0
  else match o with
    | 8 => 0x3F
    | 10 => 0xFF
    | 11 => 0xFF
    | _ => if c.opcode = 0x04 then useSpan 12 14 o else 0

/-- Does byte o hold a code that is reserved: an operation, a kind, an entry type, a partition size? -/
def HostCmd.reservedCode (c : HostCmd) (o : Nat) : Bool :=
  let b := c.fieldAt o 1
  if o = 12 then c.opcode == 0x04 && decide (7 ≤ b)
  else if o = 16 then
    match c.opcode with
    | 0x03 => !inRange 1 4 b
    | 0x0E => !inRange 1 3 b
    | 0x11 => !inRange 1 8 b
    | 0x13 => !inRange 1 3 b
    | _ => false
  else o == 24 && c.opcode == 0x03 && c.fieldAt 16 1 == 3 && decide (3 ≤ b)

/-- The first byte with a reserved bit set or a reserved code. -/
def HostCmd.reserved (c : HostCmd) : Option Nat :=
  (List.range 64).find? (fun o => (c.fieldAt o 1) &&& (0xFF ^^^ c.use o) != 0 || c.reservedCode o)

/-! ## The checks of R346 -/

/-- Opcodes of version 3 alone (R355). -/
def newOpcode (op : Nat) : Bool := decide (0x07 ≤ op ∧ op ≤ 0x0C) || op == 0x12 || op == 0x13

/-- Does a reset cover the module, the hub subsystem or the named context? ATTEST of an out-of-service module is answered all the same (16 R432). -/
def State.covered (s : State) (c : HostCmd) : Bool :=
  !(c.opcode == 0x13 && s.rst.outOfService)
    && (s.resetting 6 || s.resetting 7 || s.resetting 8
      || (match c.named with
          | none => false
          | some k => s.rst.inProgress.any (fun r => (r.kind == 2 && r.num == k)
              || (r.kind == 3 && (match s.ctx? k with | none => false | some x => x.dies.contains r.die)))))

/-- Is the named context not there, or another than the epoch says? -/
def State.stranger (s : State) (c : HostCmd) : Bool :=
  match c.named with
  | none => false
  | some k =>
    match s.ctx? k with
    | none => true
    | some x => x.status == .absent || (c.fieldAt 10 2 != 0 && c.fieldAt 10 2 != x.epoch.toNat)

/-- The first failure of the checks, as completion code and result; the session in force when the command starts decides the first two. -/
def State.refusal (s : State) (c : HostCmd) : Option (Nat × Nat) :=
  let op := c.opcode
  let create := op == 0x04
  if 0x14 ≤ op ∨ (s.host.session = 2 ∧ newOpcode op = true) then some (0x10, 0)
  else if s.host.session = 0 ∧ op ≠ 0x00 ∧ op ≠ 0x01 then some (0x14, 0)
  else if s.rst.outOfService && !servedOutOfService op then some (0x41, 0)
  else if s.covered c then some (0x40, 0)
  else match c.reserved with
    | some o => some (badField, o)
    | none =>
      if !create && s.stranger c then some (0x15, 0)
      else if !create && (match c.named.bind s.ctx? with | none => false | some x => x.status == .closing) then some (0x20, 0)
      else none

/-- A command is marked. -/
def State.markCmd (s : State) (id : Nat) (f : HostCmd → HostCmd) : State := { s with host := { s.host with cmds := updWhere s.host.cmds (fun c => c.id == id) f } }

/-- COMMAND_START (R346, R347): a command whose turn it is starts, or completes with the code of the first check that fails. -/
def execCommandStart (id : Nat) (s : State) : Out :=
  .next (match s.cmd? id with
    | none => s
    | some c =>
      if c.started || !s.mayStart c then s
      else match s.refusal c with
        | some (code, result) => s.complete id code result []
        | none => s.markCmd id (fun c => { c with started := true }))

/-! ## Command rows -/

/-- What a command row does, once: its command has started, is of the row's opcode and has not begun. -/
def withCmd (id op : Nat) (s : State) (f : HostCmd → State) : Out :=
  .next (match s.cmd? id with
    | none => s
    | some c => if c.started && c.opcode == op && !c.begun then f c else s)

/-- A refusal of a command's own checks (R7: nothing changes). -/
def State.refuse (s : State) (id : Nat) (b : Bad) : State := s.complete id b.code b.result []

/-- A command row of a context: the context is there, for the checks have passed. -/
def withCtxCmd (id op : Nat) (s : State) (f : HostCmd → Nat → Ctx → State) : Out :=
  withCmd id op s (fun c =>
    match c.named with
    | none => s
    | some k => match s.ctx? k with | none => s.refuse id (argBad 0x15 0) | some x => f c k x)

/-- Run the checks of a command's arguments, then its effect. -/
def State.checked (s : State) (id : Nat) (checks : List (Option Bad)) (effect : State) : State :=
  match firstBad checks with
  | some b => s.refuse id b
  | none => effect

/-- A command that goes on has begun. -/
def State.begin' (s : State) (id : Nat) : State := s.markCmd id (fun c => { c with begun := true })

def ok : Nat := 0x00

end Sys2Proof.Machine
end

