-- ==== Sys2Proof/Machine/Stretches.lean ====
section
/-! DEFINITION. The rollouts that a step consumes, host rewards and the stretch map (10 R283 to R286, R300). -/

namespace Sys2Proof.Machine

/-! ## Rollouts of a step (R298, R300) -/

/-- What a step reads from a rollout record (R298). -/
structure Roll where
  round : Nat
  index : Nat
  reason : Nat
  seed : W64
  tokens : Nat
  g : Nat
  sample : Nat
  deriving DecidableEq, Repr

def State.rollAt (s : State) (a : Nat) : Roll :=
  ⟨s.peekNat (a + 8) 8, s.peekNat (a + 16) 4, s.peekNat (a + 22) 1, BitVec.ofNat 64 (s.peekNat (a + 24) 8), s.peekNat (a + 40) 4 + s.peekNat (a + 44) 4,
   s.peekNat (a + 48) 2, s.peekNat (a + 50) 2⟩

/-- Addresses of the entries that a ring holds: from `start` up to its producer index, at most its count. -/
def State.ringEntries (s : State) (ring size start : Nat) : List Nat :=
  let p := s.peekNat (ring + 8) 8
  let n := s.peekNat (ring + 24) 4
  let first := max start (p - n)
  (List.range (p - first)).map (fun i => ring + 64 + size * ((first + i) % n))

/-- Canonical batch order: ascending round, then ascending index (02 R40). -/
def Roll.key (r : Roll) : Nat := r.round * 2 ^ 32 + r.index
/-- A group: all rollouts of one prompt entry in one round, named by its first rollout. -/
def Roll.group (r : Roll) : Nat := r.round * 2 ^ 32 + (r.index - r.sample)

def insertRoll (x : Roll) : List Roll → List Roll
  | [] => [x]
  | y :: r => if x.key ≤ y.key then x :: y :: r else y :: insertRoll x r

def insertNat (x : Nat) : List Nat → List Nat
  | [] => [x]
  | y :: r => if x < y then x :: y :: r else if x = y then y :: r else y :: insertNat x r

/-- Was a rollout of a group ended so that no step consumes the group (R297, R300)? -/
def Roll.unfit (r : Roll) : Bool := r.reason == 3 || r.reason == 4

/-- The groups that a step consumes, in order, from the records and from the groups that have rollouts still running; none while one of their rollouts
has not ended (R300). -/
def nextGroups (rolls : List Roll) (running : List Nat) (groups : Nat) (last : Option Nat) : Option (List Roll) :=
  let after := fun (g : Nat) => match last with | none => true | some x => decide (x < g)
  let new := rolls.filter (fun r => after r.group)
  let keys := (new.map Roll.group ++ running.filter after).foldr insertNat []
  let good := (keys.filter (fun g => !new.any (fun r => r.group == g && r.unfit))).take groups
  let mine := new.filter (fun r => good.contains r.group)
  let whole := fun (g : Nat) => match mine.find? (fun r => r.group == g) with | none => false | some r => decide ((mine.filter (fun x => x.group == g)).length = r.g)
  if good.length = groups ∧ good.all whole then some (mine.foldr insertRoll []) else none

/-- Groups with rollouts that have no record yet: of the rollout contexts here that write the ring. Of one behind the peer window none are known (log 58). -/
def State.runningGroups (s : State) (t : LearnerTable) : List Nat :=
  (s.ctxs.filter (fun c => c.2.desc.kind == 3 && c.2.desc.rolloutRing == t.rolloutRing)).flatMap (fun c =>
    c.2.rounds.flatMap (fun r => (r.rollouts.filter (fun x => !x.recorded)).map (fun x => r.number * 2 ^ 32 + (x.index - x.sample))))

/-- May a group behind the peer window still be running? Nothing says; a ring in the module's own memory has its writers here or none. -/
def State.unseenRunning (s : State) (t : LearnerTable) : Bool := decide (windowBase ≤ t.rolloutRing) && s.fresh % 2 == 1

/-- The records that a learner context's rollout ring holds. -/
def State.rolls (s : State) (t : LearnerTable) : List Roll := (s.ringEntries t.rolloutRing 128 0).map s.rollAt

/-- The rollouts of the next step of a learner context. -/
def State.stepRolls (s : State) (c : Ctx) : Option (List Roll) :=
  match c.rollouts, c.learn with
  | some t, some l => if s.unseenRunning t then none else nextGroups (s.rolls t) (s.runningGroups t) t.groups l.lastGroup
  | _, _ => none

/-- Are the rollouts of the next step there? A learner without a rollout table takes none. -/
def State.rollsReady (s : State) (c : Ctx) : Bool := c.rollouts.isNone || (s.stepRolls c).isSome

/-- Is a completed rollout there that no earlier step has consumed? -/
def State.someRoll (s : State) (c : Ctx) : Bool :=
  match c.rollouts with
  | none => true
  | some t =>
    let last := c.learn.bind (·.lastGroup)
    (s.rolls t).any (fun r => !r.unfit && (match last with | none => true | some g => decide (g < r.group)))

/-! ## Host rewards (R300) -/

/-- Round and index of a reward entry. -/
def State.rewardAt (s : State) (a : Nat) : Nat × Nat := (s.peekNat a 8, s.peekNat (a + 8) 4)

/-- The entries of the reward ring that have not been taken, by address. -/
def State.rewardEntries (s : State) (t : LearnerTable) : List Nat := s.ringEntries t.rewardRing 32 (s.peekNat (t.rewardRing + 16) 8)

def State.rewards (s : State) (t : LearnerTable) : List (Nat × Nat) := (s.rewardEntries t).map s.rewardAt

/-- Every host reward that the step expects is there. -/
def State.rewarded (s : State) (c : Ctx) : Bool :=
  match c.rollouts with
  | none => true
  | some t => t.sources / 2 % 2 == 0 || (match s.stepRolls c with | none => false | some rs => rs.all (fun r => (s.rewards t).contains (r.round, r.index)))

/-- The reward entries of rollouts, in their order (02 R62). -/
def State.rewardBytes (s : State) (t : LearnerTable) (rs : List Roll) : List Byte :=
  if t.sources / 2 % 2 = 0 then []
  else rs.flatMap (fun r => match (s.rewardEntries t).find? (fun a => s.rewardAt a == (r.round, r.index)) with | none => [] | some a => s.peek a 32)

/-- Entries at the front of the reward ring that steps up to `last` have consumed are taken. -/
def State.takeRewards (s : State) (t : LearnerTable) (last : Nat) : State :=
  if t.sources / 2 % 2 = 0 then s
  else
    let n := ((s.rewards t).takeWhile (fun e => decide (e.1 * 2 ^ 32 + e.2 ≤ last))).length
    s.store (t.rewardRing + 16) (leBytes 8 (s.peekNat (t.rewardRing + 16) 8 + n))

/-! ## The stretch map (R283 to R286) -/

/-- An entry of the map: step rollout, stretch, tokens, rank, micro-batch. -/
structure MapEntry where
  rollout : Nat
  stretch : Nat
  tokens : Nat
  rank : Nat
  batch : Nat
  deriving DecidableEq, Repr

/-- Stretches of a sequence of `len` tokens: index and token count (R283). -/
def stretchesOf (len : Nat) : List (Nat × Nat) := (List.range (ceilDiv len 8192)).map (fun i => (i, min 8192 (len - 8192 * i)))

/-- place (R285): the stretches of consecutive rollouts spread over M ranks. -/
def placeBatch (m mb : Nat) (qs : List (Nat × Nat)) : List MapEntry :=
  let all := qs.flatMap (fun q => (stretchesOf q.2).map (fun x => (q.1, x.1, x.2)))
  all.mapIdx (fun i x => ⟨x.1, x.2.1, x.2.2, i * m / all.length, mb⟩)

/-- build_map (R285): rollouts still to place as (number, tokens), the open micro-batch, its number and its stretches. -/
def buildMap (m cap : Nat) : List (Nat × Nat) → List (Nat × Nat) → Nat → Nat → List MapEntry × Nat
  | [], cur, mb, used => if 0 < used then (placeBatch m mb cur, mb + 1) else ([], mb)
  | q :: r, cur, mb, used =>
    let n := ceilDiv q.2 8192
    if 0 < used ∧ cap < used + n then
      if cap ≤ n then
        let (e, k) := buildMap m cap r [] (mb + 2) 0
        (placeBatch m mb cur ++ placeBatch m (mb + 1) [q] ++ e, k)
      else
        let (e, k) := buildMap m cap r [q] (mb + 1) n
        (placeBatch m mb cur ++ e, k)
    else if cap ≤ used + n then
      let (e, k) := buildMap m cap r [] (mb + 1) 0
      (placeBatch m mb (cur ++ [q]) ++ e, k)
    else buildMap m cap r (cur ++ [q]) mb (used + n)

def MapEntry.bytes (e : MapEntry) : List Byte := leBytes 4 e.rollout ++ leBytes 2 e.stretch ++ leBytes 2 e.tokens ++ leBytes 2 e.rank ++ zeros 2 ++ leBytes 4 e.batch

/-- The header of a stretch map (R284). -/
def mapHeader (job : W64) (step m u batches entries : Nat) : List Byte :=
  ascii "VXSTRMAP" ++ leBytes 8 job.toNat ++ leBytes 8 step ++ leBytes 2 m ++ zeros 2 ++ leBytes 4 u ++ leBytes 4 batches ++ leBytes 4 entries ++ zeros 24

/-- A stretch map as it lies in memory. -/
def mapBytes (job : W64) (step m u : Nat) (lens : List Nat) : List Byte :=
  let (es, batches) := buildMap m (m * u) (lens.mapIdx (fun i n => (i, n))) [] 0 0
  mapHeader job step m u batches es.length ++ es.flatMap MapEntry.bytes

def State.mapEntryAt (s : State) (a : Nat) : MapEntry := ⟨s.loadNat a 4, s.loadNat (a + 4) 2, s.loadNat (a + 6) 2, s.loadNat (a + 8) 2, s.loadNat (a + 12) 4⟩

/-- The check of a supplied map (R286): every stretch once, token counts, ranks. -/
def State.mapOk (s : State) (area m : Nat) (lens : List Nat) : Bool :=
  let es := (List.range (s.loadNat (area + 36) 4)).map (fun i => s.mapEntryAt (area + 64 + 16 * i))
  let want := (lens.mapIdx (fun i n => (i, n))).flatMap (fun q => (stretchesOf q.2).map (fun x => (q.1, x.1, x.2)))
  decide (es.length = want.length) && want.all (fun w => es.any (fun e => (e.rollout, e.stretch, e.tokens) == w)) && es.all (fun e => decide (e.rank < m))

/-- The bytes of the map that lies in an area. -/
def State.mapThere (s : State) (area : Nat) : List Byte := s.load area (64 + 16 * s.loadNat (area + 36) 4)

/-- A step takes its rollouts: the map is built, or checked, and the digests of map and seeds are kept; none if a supplied map fails its check. -/
def State.takeRolls (s : State) (k : Nat) (c : Ctx) (st : StepRun) : Option (State × StepRun) :=
  match c.rollouts with
  | none => some (s, st)
  | some t =>
    let rs := (s.stepRolls c).getD []
    let lens := rs.map Roll.tokens
    let last := (rs.map Roll.group).foldl max 0
    if st.supplied && !s.mapOk t.mapArea c.desc.modules lens then none
    else
      let rewards := s.rewardBytes t rs
      let s := if st.supplied then s else s.store t.mapArea (mapBytes c.desc.job st.counter c.desc.modules t.capacity lens)
      let s := s.updCtx k (fun c => { c with learn := c.learn.map (fun l => { l with lastGroup := some last }) })
      let s := s.takeRewards t ((rs.map Roll.key).foldl max 0)
      some (s.spend, { st with mapDigest := sha3 (s.mapThere t.mapArea), seedDigest := seedDigest c.digestJob (rs.map Roll.seed), rewards := rewards
                               batches := max 1 (s.loadNat (t.mapArea + 32) 4) })

end Sys2Proof.Machine
end

