-- ==== Sys2Proof/Machine/Learner.lean ====
section
/-! DEFINITION. The learner rows: phases, gate, prepare and commit, digests, fences (01 R26 to R29, 09 R253 to R282, 02 R58). -/

namespace Sys2Proof.Machine

/-! ## Phases (01 R26) -/

/-- Act on the first step of a context that satisfies a test. -/
def onFirst (k : Nat) (s : State) (p : StepRun → Bool) (f : Ctx → StepRun → State) : Out :=
  withCtx k s (fun c => match c.steps.find? p with | none => s | some st => f c st)

/-- Is the module in doubt about a decision (R278)? -/
def State.doubtful (s : State) : Bool := s.ctxs.any (fun c => c.2.steps.any (·.inDoubt))

/-- Has every step before this one its outcome (R256)? -/
def Ctx.earlierDone (c : Ctx) (cmd : Nat) : Bool := (c.steps.takeWhile (fun x => x.cmd != cmd)).all (fun x => x.outcome.isSome)

/-- A program of a step starts; the phase waits for its end. -/
def beginProgram (s : State) (k : Nat) (c : Ctx) (st : StepRun) (phase : StepPhase) (slot : Nat) : State :=
  startStepProgram (s.setStep k { st with phase := phase, progDone := false }) k c st slot

/-- Phase 2: the reward program once a rollout of the step is there, then the advantage program once every rollout has ended and every reward is there
(10 R300). It overlaps no later phase of an earlier step. -/
def startScoring (s : State) (k : Nat) (c : Ctx) (st : StepRun) : State :=
  if c.run.isSome || !c.earlierDone st.cmd then s
  else if st.phase == .accepted && st.slots.getD 0 0xFF != 0xFF then (if s.someRoll c then beginProgram s k c st .scoring 0 else s)
  else if (st.phase == .accepted || (st.phase == .scoring && st.progDone)) && s.rollsReady c && s.rewarded c then beginProgram s k c st .advantage 1
  else s

/-- The learner program of a micro-batch starts; the micro-batch holds the version consumed (R255). -/
def startBatch (s : State) (k : Nat) (st : StepRun) (b : Nat) : State :=
  let s := s.addHold k st.consumed (.microBatch st.cmd b)
  match s.ctx? k with
  | none => s
  | some c => beginProgram s k c { st with batch := b } .learner 2

/-- Phase 3: the rollouts are taken, the stretch map stands, the version consumed is fixed, and the program of the first micro-batch starts; then that of
each further one. -/
def startLearner (s : State) (k : Nat) (c : Ctx) (st : StepRun) : State :=
  if c.run.isSome || s.doubtful then s
  else if st.phase == .learner then (if st.progDone && decide (st.batch + 1 < st.batches) then startBatch s k st (st.batch + 1) else s)
  else if st.phase == .advantage && st.progDone && c.earlierDone st.cmd && s.rollsReady c then
    match s.takeRolls k c st with
    | none => s.finishStep k st 0x11 (zeros 16)
    | some (s, st) => startBatch s k { st with consumed := c.currentVersion, source := c.learn.bind (·.lastStep) } 0
  else s

/-- Have all micro-batches of a step run? -/
def StepRun.batchesDone (st : StepRun) : Bool := st.phase == .learner && st.progDone && decide (st.batches ≤ st.batch + 1)

/-- Phase 4: the collectives of the step may start. -/
def startExchange (s : State) (k : Nat) (st : StepRun) : State := if st.batchesDone then s.setStep k { st with phase := .exchange } else s

/-- The owner's reduced gradient shard is copied to the buddy's retain region, or to one in the module's own far memory (R272); where that lies: log 41. -/
def copyShard (s : State) (k : Nat) (c : Ctx) (st : StepRun) : State × StepRun :=
  let bytes := st.shards.flatMap (fun p => s.load p.1 p.2)
  let poison := st.shards.flatMap (fun p => (List.range (p.2 / 64)).map (fun i => s.poisonAt (p.1 + 64 * i)))
  let a := st.retain.getD (farBase + 64 * (s.fresh % ((farTop - farBase) / 64)))
  let st := { st with retain := some a }
  if c.desc.modules = 1 then (s.spend.storeGranules a bytes poison, { st with shardCopied := true })
  else
    let (s, tag) := s.spend.peerWrite k c (buddyOf c.desc.modules c.desc.rank) ((c.learn.map (·.stepFlow)).getD 0) a (if bytes.isEmpty then zeros 64 else bytes) poison
    (s, { st with copyTag := some tag })

/-- Phase 5: the exchange is over; the shard is copied and the optimiser program starts, to wait for the decision at its gt.wait (log 40). -/
def startGate (s : State) (k : Nat) (c : Ctx) (st : StepRun) : State :=
  if st.phase == .exchange && c.run.isNone && s.colls.all (fun x => x.ctx != k) then
    let (s, st) := copyShard s k c st
    tryGate (beginProgram s k c st .gate 3) k st.cmd
  else s

/-- STEP_PHASE_START (01 R26): phases 2 to 5 of the first step that the phase can start for. -/
def execStepPhaseStart (k phase : Nat) (s : State) : Out :=
  match phase with
  | 2 => onFirst k s (fun st => st.phase == .accepted || (st.phase == .scoring && st.progDone)) (startScoring s k)
  | 3 => onFirst k s (fun st => (st.phase == .advantage || (st.phase == .learner && !st.batchesDone)) && st.progDone) (startLearner s k)
  | 4 => onFirst k s StepRun.batchesDone (fun _ st => startExchange s k st)
  | 5 => onFirst k s (fun st => st.phase == .exchange) (startGate s k)
  | _ => withCtx k s (fun _ => s)

/-! ## The gate (R272 to R275) -/

/-- A step control record is discarded and counted (R273). -/
def State.countDiscard (s : State) (k : Nat) : State :=
  s.updCtx k (fun c => { c with learn := c.learn.map (fun l => { l with discarded := l.discarded + 1 }) })

/-- A step control record that reaches the step driver of a context: with its step if it passes its checks; a record that fails them is discarded and
counted (R273). -/
def withRecord (k kind : Nat) (r : StepRec) (s : State) (f : Ctx → StepRun → State) : Out :=
  withCtx k s (fun c => if r.kind.toNat = kind then (match c.recordStep r with | none => s.countDiscard k | some st => f c st) else s)

def Ctx.fromChild (c : Ctx) (r : StepRec) : Bool := (childRanks c.desc.modules c.desc.rank).contains r.source.toNat
def Ctx.fromParent (c : Ctx) (r : StepRec) : Bool := c.desc.rank != 0 && r.source.toNat == parentRank c.desc.rank

/-- GATE_REPORT (R272 to R274). -/
def execGateReport (k : Nat) (r : StepRec) (s : State) : Out :=
  withRecord k 1 r s (fun c st => if c.fromChild r then tryGate (s.setStep k { st with gate := st.gate.take r }) k st.cmd else s)

/-- GATE_DECISION (R275): the record goes on to the children and takes effect. -/
def execGateDecision (k : Nat) (r : StepRec) (s : State) : Out :=
  withRecord k 2 r s (fun c st => if c.fromParent r then passDecision s k c st (recFlag r 0) r.stats else s)

/-- PENDING_VERSION_ALLOCATION (R257). -/
def execPendingVersionAllocation (k : Nat) (s : State) : Out :=
  onFirst k s (fun st => st.heard && !st.allocated) (fun _ st => tryAllocate s k st.cmd)

/-! ## Shard digests (R259, R260, R279) -/

/-- The shard digest of an area (R260). -/
def State.shardDigest (s : State) (job : W64) (step rank : Nat) (planes : List (Nat × Nat)) : List Byte :=
  sha3 (ascii "VXSHARD1" ++ leBytes 8 job.toNat ++ leBytes 8 step ++ leBytes 2 rank ++ planes.flatMap (fun p => sha3 (s.load p.1 p.2)))

/-- SHARD_DIGEST_COMPLETE (R260, R276, R279): of the own pending shard, or of the mirror, whose digest goes to its owner (log 42). Poison found in the
pending version becomes visible; a rank above 0 says so in its prepare report too. -/
def execShardDigestComplete (k : Nat) (mirror : Bool) (s : State) : Out :=
  onFirst k s (fun st => st.phase == .optimise && st.allocated && st.progDone) (fun c st =>
    match c.learn with
    | none => s
    | some l =>
      if mirror && c.desc.modules == 1 then s
      else
        match s.pendingPoison c l st with
        | some g =>
          let s := s.putCtx k (c.raisePoison g 0x06)
          if c.desc.rank = 0 then s else tryPrepare (s.setStep k { st with poisoned := true }) k st.cmd
        | none =>
          let (r, planes) := c.pendingPlanes l st mirror
          let d := s.shardDigest c.desc.job st.counter r planes
          if mirror then
            let s := (s.peerWrite k c r l.stepFlow (l.controlArea + 262080) (d ++ leBytes 8 st.counter ++ leBytes 1 st.attempt) []).1
            tryPrepare (s.setStep k { st with mirrorDigest := some d }) k st.cmd
          else
            let st := { st with ownDigest := some d }
            tryPrepare ((chargeMismatch s k c st).setStep k st) k st.cmd)

/-! ## Prepare, log, commit (R276 to R278) -/

/-- PREPARE_REPORT (R276, R277). -/
def execPrepareReport (k : Nat) (r : StepRec) (s : State) : Out :=
  withRecord k 3 r s (fun c st => if c.fromChild r then tryPrepare (s.setStep k { st with prep := st.prep.take r }) k st.cmd else s)

/-- Rounded up to a multiple of 4,096 units. -/
def to4096 (t : Nat) : Nat := 4096 * ceilDiv t 4096

/-- DECISION_LOG (R277): the log is acknowledged, the decision is final, the commit goes out. -/
def execDecisionLog (k : Nat) (s : State) : Out :=
  onFirst k s (fun st => st.logAck.isSome && !st.logged) (fun c st =>
    match c.learn with
    | none => s
    | some l =>
      let time := BitVec.ofNat 64 (to4096 ((st.logAck.getD 0).toNat + l.commitLead * microsecond))
      let s := s.sendRecs k c (childRanks c.desc.modules 0) (stepRecord c st 4 c.desc.modules 1 time [])
      adoptCommit s k { st with logged := true } time)

/-- COMMIT (R277, R278). -/
def execCommit (k : Nat) (r : StepRec) (s : State) : Out :=
  withRecord k 4 r s (fun c st =>
    if c.fromParent r && st.phase == .prepared then
      adoptCommit (s.sendRecs k c (childRanks c.desc.modules c.desc.rank) { r with source := BitVec.ofNat 16 c.desc.rank }) k st r.commitTime
    else s)

/-- COMMIT_TIME_REACHED (R278). -/
def execCommitTimeReached (k : Nat) (s : State) : Out :=
  onFirst k s (fun st => st.phase == .decided && st.outcome.isNone && (match st.commitTime with | none => false | some t => decide (t.toNat ≤ s.st.now.toNat)))
    (fun _ st => commitNow s k st.cmd)

/-! ## Failures and doubt (R278, R280) -/

/-- ABORT (R280). -/
def execAbort (k : Nat) (r : StepRec) (s : State) : Out :=
  withRecord k 5 r s (fun c st =>
    if c.fromParent r && st.outcome.isNone && st.commitTime.isNone then
      adoptAbort (s.sendRecs k c (childRanks c.desc.modules c.desc.rank) { r with source := BitVec.ofNat 16 c.desc.rank }) k st (recFlag r 5)
    else s)

/-- FAILURE_REPORT (R280): rank 0 answers with an abort, be it itself in phase 4 or not yet, until its decision is final. -/
def execFailureReport (k : Nat) (r : StepRec) (s : State) : Out :=
  withRecord k 6 r s (fun c st => if c.desc.rank = 0 ∧ st.outcome.isNone ∧ st.logAck.isNone then abortAll s k c st (recFlag r 5) else s)

/-- What a rank knows of a step's decision: committed at a time, or aborted with re-execution or not (R278). -/
inductive Known where
  | nothing
  | commit (time : W64)
  | abort (again : Bool)
  deriving DecidableEq, Repr

/-- Rank 0 knows its decision; rank 1 mod M knows its log. -/
def Ctx.knows (c : Ctx) (l : Learner) (counter attempt : Nat) : Known :=
  match c.steps.find? (fun x => x.counter == counter) with
  | some st =>
    if st.commitTime.isSome ∧ st.attempt = attempt then .commit (st.commitTime.getD 0)
    else if c.desc.rank = 0 then (if attempt < st.attempt then .abort true else .nothing)
    else if l.decisionLog.contains (counter, attempt) then .commit 0 else .abort false
  | none =>
    if l.lastStep = some counter then .commit l.lastTime
    else if c.desc.rank = 0 then .abort false
    else if l.decisionLog.contains (counter, attempt) then .commit 0 else .abort false

/-- DECISION_QUERY (R278): answered by rank 0 and rank 1 mod M. -/
def execDecisionQuery (k : Nat) (r : StepRec) (s : State) : Out :=
  withCtx k s (fun c =>
    match c.learn with
    | none => s
    | some l =>
      if c.headerOk r && r.kind == 8 && (c.desc.rank == 0 || c.desc.rank == 1 % c.desc.modules) then
        let reply := fun (flags : Nat) (time : W64) =>
          (s.sendRec k c r.source.toNat { r with source := BitVec.ofNat 16 c.desc.rank, kind := 9, flags := BitVec.ofNat 32 flags, commitTime := time, stats := [] }).1
        (match c.knows l r.stepCounter.toNat r.attempt.toNat with
         | .nothing => s
         | .commit t => reply 1 t
         | .abort again => reply (if again then 32 else 0) 0)
      else if r.kind == 8 then s.countDiscard k
      else s)

/-- DECISION_REPLY (R278): a module in doubt follows the first reply. -/
def execDecisionReply (k : Nat) (r : StepRec) (s : State) : Out :=
  withRecord k 9 r s (fun c st =>
    if st.inDoubt && (r.source.toNat == 0 || r.source.toNat == 1 % c.desc.modules) then
      (if recFlag r 0 then adoptCommit s k st r.commitTime else adoptAbort s k { st with inDoubt := false } (recFlag r 5))
    else s)

/-- EXCHANGE_DEADLINE_EXPIRY (R273, R277, R278, R280): 2 s from the report. The root aborts with re-execution; a prepared module is in doubt and asks;
if nobody answers within a further deadline the STEP ends with JOB_FATAL_FAULT; any other module reports the failure to rank 0. -/
def execExchangeDeadlineExpiry (k : Nat) (s : State) : Out :=
  onFirst k s (fun st => (st.phase == .gate || st.phase == .optimise || st.phase == .prepared) && st.logAck.isNone
      && (match st.sentAt with | none => false | some t => decide (t + 2 * second ≤ s.st.now.toNat))) (fun c st =>
    if c.desc.rank = 0 then abortAll s k c st true
    else if st.phase == .prepared then
      if st.inDoubt then s.finishStep k st 0x31 (zeros 16)
      else
        let st := { st with inDoubt := true, sentAt := some s.st.now.toNat }
        let ask := ([0, 1 % c.desc.modules].dedup).filter (· != c.desc.rank)
        (s.sendRecs k c ask (stepRecord c st 8 1 0 0 [])).setStep k st
    else failStep (s.setStep k { st with sentAt := some s.st.now.toNat }) k c st true false)

/-! ## Fences and version digests (R255, 02 R58) -/

/-- Whose hold: 0 a micro-batch, 1 a generation round, 2 a checkpoint, 3 a publication. Only a holder that has finished releases. -/
def Ctx.releasable (c : Ctx) (holder version : Nat) (h : Holder) : Bool :=
  match holder, h with
  | 0, .microBatch n b => (match c.steps.find? (fun st => st.cmd == n) with | none => true | some st => st.phase != .learner || st.progDone || decide (b < st.batch))
  | 1, .round n => (match c.rounds.find? (fun r => r.number == n) with | none => true | some r => r.rollouts.all (fun x => x.ended != 0))
  | 2, .checkpoint => (match c.ckptNow with | none => true | some x => x.version != version)
  | 3, .publication => !c.publishing version
  | _, _ => false

/-- FENCE_RELEASE (R254, R255): the first finished holder of the kind releases its count. -/
def execFenceRelease (k version holder : Nat) (s : State) : Out :=
  withCtx k s (fun c =>
    match c.learn.bind (fun l => l.bufferOf version) with
    | none => s
    | some b =>
      match b.holders.find? (c.releasable holder version) with
      | none => s
      | some h => (s.dropHold k version h).afterRelease k)

/-- The digest of a version is complete. -/
def Learner.digested (l : Learner) (version : Nat) (d : List Byte) : Learner :=
  { l with buffers := updWhere l.buffers (fun b => b.version == version && (b.state == .current || b.state == .held)) (fun b => { b with digest := some d }) }

/-- WEIGHT_DIGEST_COMPLETE (02 R58, R62): of the version committed first among those still being digested, else of a current version that came with the
initial load. -/
def execWeightDigestComplete (k : Nat) (s : State) : Out :=
  withCtx k s (fun c =>
    match c.learn with
    | none => s
    | some l =>
      match l.hashing with
      | (v, d) :: rest =>
        let mine := fun (st : StepRun) => st.outcome == some .committed && st.pending == v && st.digest.isNone
        let c := { c with learn := some { (l.digested v d) with hashing := rest }, steps := updWhere c.steps mine (fun st => { st with digest := some d }) }
        c.steps.foldl (fun s st => tryFinish s k st.cmd) (s.putCtx k c)
      | [] =>
        match l.buffers.find? (fun b => b.state == .current && b.digest.isNone) with
        | none => s
        | some b =>
          let c := { c with learn := some (l.digested b.version (setDigest (s.versionDigest b.addr (c.weightTensors l)))) }
          c.steps.foldl (fun s st => tryFinish s k st.cmd) (s.putCtx k c))

end Sys2Proof.Machine
end

