-- ==== Sys2Proof/Machine/Audit.lean ====
section
/-! DEFINITION. Cairns, their signatures and audit rings (02 R57 to R64, 16 R430). -/

namespace Sys2Proof.Machine

/-- The step that a context's running program belongs to, by its counter. -/
def Ctx.stepCounter (c : Ctx) : W64 := ((c.run.map RunPhase.step).getD 0)

/-- Is every invocation that a tensor depends on of class C (R42)? The fuel is the number of invocations. -/
def Program.classC (p : Program) : Nat → W32 → Bool
  | 0, _ => true
  | n + 1, t => (p.invocations.filter (fun i => i.outputs.contains t)).all (fun i => i.classReq == 1 && i.inputs.all (p.classC n))

/-- Effective class of a tensor (R42). -/
def Program.classOf (p : Program) (tensor : W32) : Nat := b2n (p.classC p.invocations.length tensor)

/-- Digest of the version that the running program reads; the version 0 of a plain context has none. -/
def Ctx.consumedDigest (c : Ctx) : Option (List Byte) :=
  if c.versionSeen = 0 then some (zeros 32) else (c.learn.bind (fun l => l.bufferOf c.versionSeen)).bind (·.digest)

/-- The seed set digest of what a context runs. -/
def Ctx.seedSet (c : Ctx) : List Byte := match c.stepOf with | some st => st.seedDigest | none => seedDigest c.digestJob c.seeds

/-- Where tensors lie, by identifier: the program places them, so the hash engine is told (log 60). -/
abbrev Places := List (Nat × Nat)

def Places.find (ps : Places) (id : W32) : Option Nat := (List.find? (fun x => x.1 == id.toNat) ps).map (·.2)

/-- The tensors that a program declares as step inputs (R59, 05 R153). -/
def Program.stepInputs (p : Program) : List TensorEntry := p.tensors.filter (fun t => t.flags / 2 % 2 == 1)

/-- The digest of a tensor at its place. -/
def State.digestAt (s : State) (ps : Places) (t : TensorEntry) : List Byte := tensorDigest t.id (s.tensorStream ((ps.find t.id).getD 0) t)

/-- The set digest of the step inputs. -/
def State.inputDigest (s : State) (p : Program) (ps : Places) : List Byte := setDigest (p.stepInputs.map (fun t => (t.id.toNat, s.digestAt ps t)))

/-- The first poisoned granule of tensors at their places. -/
def State.tensorPoison (s : State) (ps : Places) (ts : List TensorEntry) : Option Nat :=
  ts.findSome? (fun t => s.firstPoison ((ps.find t.id).getD 0) (tensorSize t))

/-- The cairn of a tensor (R59). Outside a STEP no stretch map is loaded, and its digest is zero (log 161). -/
def cairnOf (s : State) (c : Ctx) (p : Program) (t : TensorEntry) (ps : Places) (weight : List Byte) : List Byte :=
  let cls := p.classOf t.id
  let g := fun (l : List Byte) => if cls = 1 then zeros l.length else l
  sha3 (ascii "VXCAIRN1" ++ s.digestAt ps t ++ c.programDigest ++ weight ++ s.inputDigest p ps ++ leBytes 8 c.stepCounter.toNat ++ c.seedSet
    ++ leBytes 4 t.id.toNat ++ [BitVec.ofNat 8 cls] ++ zeros 3 ++ g (leBytes 2 c.desc.cores) ++ g (leBytes 2 c.desc.modules)
    ++ g (match c.stepOf with | some st => st.mapDigest | none => zeros 32))

/-- A cairn record before it is written (R60). -/
def cairnRecord (s : State) (c : Ctx) (p : Program) (t : TensorEntry) (ps : Places) (weight : List Byte) (signed : Bool) : List Byte :=
  cairnOf s c p t ps weight ++ leBytes 4 t.id.toNat ++ leBytes 2 c.versionSeen ++ [BitVec.ofNat 8 (p.classOf t.id), if signed then 1 else 0]
    ++ leBytes 8 c.stepCounter.toNat ++ zeros 8 ++ leBytes 8 0xFFFFFFFFFFFFFFFF ++ s.digestAt ps t ++ zeros 32

/-- Has the last tile of a tensor drained: as many elements as it has (R60)? -/
def Ctx.allDrained (c : Ctx) (t : TensorEntry) : Bool := decide (t.slices * t.rows * t.cols ≤ (nfind c.drained t.id.toNat).getD 0)

/-- Is the digest of a tensor due: it is selected, its tiles have drained, and it and the step inputs have their places? -/
def Ctx.cairnDue (c : Ctx) (p : Program) (t : TensorEntry) (ps : Places) : Bool :=
  c.desc.audit % 2 == 1 && t.flags / 4 % 2 == 1 && !c.stopping && c.allDrained t && (t :: p.stepInputs).all (fun x => (ps.find x.id).isSome)

/-- TENSOR_DIGEST_COMPLETE (R58 to R61): the cairn record of a selected tensor is written, or handed to the Mesa controller to be signed; poison of the
tensor or of a step input becomes visible. -/
def execTensorDigestComplete (k : Nat) (tensor : W32) (places : List (Nat × Nat)) (s : State) : Out :=
  withCtx k s (fun c =>
    match c.program with
    | none => s
    | some p =>
      match p.tensors.find? (fun t => t.id == tensor), c.consumedDigest with
      | some t, some weight =>
        if !c.cairnDue p t places then s
        else match s.tensorPoison places (t :: p.stepInputs) with
          | some a => s.putCtx k (c.raisePoison a 0x04)
          | none =>
            if t.flags / 8 % 2 = 1 ∧ c.desc.sigAddr ≠ 0 then
              (if 1024 ≤ s.mesa.signQueue.length then s
               else { s with mesa := { s.mesa with signQueue := s.mesa.signQueue ++ [(k, cairnRecord s c p t places weight true)] } })
            else
              let warn := t.flags / 8 % 2 == 1 && !c.unsignedWarned
              let s := s.produce k 0 (cairnRecord s c p t places weight false)
              if warn then (s.updCtx k (fun c => { c with unsignedWarned := true })).raise { level := 2, source := 6, ctx := some k } else s
      | _, _ => s)

/-- The signed message of a cairn (16 R430). -/
def cairnMessage (serial : W64) (cairn : List Byte) : List Byte := ascii "VXCAIRNS" ++ leBytes 8 serial.toNat ++ cairn

/-- An ML-DSA-44 signature of the identity key (log 23). -/
def State.sign (s : State) (msg : List Byte) : State × List Byte :=
  ({ s with mesa := { s.mesa with signed := s.mesa.signed + 1 } }, (List.range 2420).map (Config.signature s.mesa.signed msg))

/-- CAIRN_SIGNATURE_COMPLETE (R61, 16 R430): the first request of the context in the queue. -/
def execCairnSignatureComplete (k : Nat) (s : State) : Out :=
  withCtx k s (fun _ =>
    match s.mesa.signQueue.head? with
    | none => s
    | some (k', record) =>
      if k' = k ∧ s.mesa.failed = false then
        let s := { s with mesa := { s.mesa with signQueue := s.mesa.signQueue.drop 1 } }
        let (s, sig) := s.sign (cairnMessage s.cfg.serial (record.take 32))
        s.produce k 0 (record ++ sig)
      else s)

/-- RING_SPACE_FREED (R64): the host advances the consumer index of a ring that the module produces; entries that wait are written. -/
def execRingSpaceFreed (k ring : Nat) (index : W64) (s : State) : Out :=
  withCtx k s (fun c =>
    match nfind c.rings ring with
    | none => s
    | some r =>
      if ring = 2 ∨ ring = 4 then s
      else
        let s := s.store (r.addr + 16) (leBytes 8 index.toNat)
        let (s, r) := State.flushRing r.waiting.length s c ring { r with consumer := index }
        let s := s.updCtx k (fun c => { c with rings := nset c.rings ring r })
        c.steps.foldl (fun s st => tryFinish s k st.cmd) s)

end Sys2Proof.Machine
end

