-- ==== Sys2Proof/Machine/HostIf.lean ====
section
/-! DEFINITION. Host accesses to the control space, and writes of the configuration space (12 R335, R337, R342, 14 R392, 17 R441 to R446). -/

namespace Sys2Proof.Machine

/-! ## Module states (17 R446) -/

/-- Has the boot released the PCIe endpoint (16 R421 stage 0x4), and is the link up? A failed boot still shows BAR0, and a reset of kind 0x07 keeps
the link. -/
def State.reachable (s : State) : Bool := s.host.linkUp && (decide (4 < s.mesa.stage) || s.resetting 7) && !s.resetting 8

/-- Do writes other than RESET_CTRL take effect? -/
def State.writable (s : State) : Bool := s.mesa.stage == 0xF && !s.resetting 7

/-! ## Registers (R442, R443) -/

/-- A request of RESET_CTRL (14 R392): 0x5A, 0xA5, nothing else. -/
def State.resetRequest (s : State) (v : Nat) : State :=
  if v % 256 = 0x5A then s.moduleReset 7 5 else if v % 256 = 0xA5 then s.moduleReset 8 5 else s

/-- A 64-bit RW register takes its value: ring bases and shadows, locked while their ring is enabled, and WIN_BASE. -/
def State.write64 (s : State) (base : Nat) (v : W64) : State :=
  if base = 0x11000 then { s with host := { s.host with winBase := BitVec.ofNat 64 (v.toNat / 2 ^ 36 % 2 ^ 12 * 2 ^ 36) } }
  else
    let n := (base - 0x10000) / 0x40
    let r := ringGet s.host n
    match base % 0x40 with
    | 0x00 => if r.sqEnable then s.badAccess base 3 else s.putRing n { r with sqBase := v }
    | 0x10 => if r.rqEnable then s.badAccess base 3 else s.putRing n { r with rqBase := v }
    | _ => if r.rqEnable then s.badAccess base 3 else s.putRing n { r with rqShadow := v }

/-- A dword of the MSI-X table; a vector that is unmasked sends its pending message. -/
def State.writeMsix (s : State) (off : Nat) (v : W32) : State :=
  { s with host := ({ s.host with msixTable := nset s.host.msixTable (off - 0x12000) (if off % 16 = 12 then v % 2 else v) } : HostIf).releasePending }

/-- A 32-bit RW or WO register. -/
def State.write32At (s : State) (off : Nat) (v : W32) : State :=
  if off = 0x50000 then s.resetRequest v.toNat
  else if off < 0x10000 then s.doorbell ((off - 0x1000) / 0x40) v
  else
    let n := (off - 0x10000) / 0x40
    let r := ringGet s.host n
    match off % 0x40 with
    | 0x08 => s.writeSqCtrl n v
    | 0x18 => s.writeRqCtrl n v
    | 0x1C => s.putRing n { r with rqTail := v }
    | _ => if v.getLsbD 0 then s.putRing n { r with armed := true } else s

/-- Would the access rules discard a 32-bit write here for its offset alone (R441)? -/
def discards (off : Nat) : Bool :=
  match regKind off with
  | .reserved => true
  | .ro32 => true
  | .ro64 _ => true
  | _ => false

/-- A 32-bit write by the kind of its register: the low half of a 64-bit register is held, the high half takes effect with it; without a held
half the low half stays as it is (log 72). -/
def State.write32 (s : State) (off : Nat) (v : W32) : State :=
  match regKind off with
  | .reserved => s.badAccess off 2
  | .ro32 => s.badAccess off 2
  | .ro64 _ => s.badAccess off 2
  | .rw32 => s.write32At off v
  | .wo32 => s.write32At off v
  | .msix => s.writeMsix off v
  | .rw64 base =>
    if off = base then { s with host := { s.host with held := some (base, v) } }
    else
      let low := match s.host.held with | some (o, x) => if o = base then x.toNat else (s.readWord base).toNat | none => (s.readWord base).toNat
      ({ s with host := { s.host with held := none } } : State).write64 base (BitVec.ofNat 64 (v.toNat * 2 ^ 32 + low))

/-- A held low half that is followed by a write to another offset is discarded (R442). -/
def State.dropHeld (s : State) (off : Nat) : State :=
  match s.host.held with
  | none => s
  | some (o, _) => if off = o ∨ off = o + 4 then s else ({ s with host := { s.host with held := none } } : State).badAccess o 6

/-- A 64-bit write: a 64-bit RW register at once, otherwise both halves, a discarded access counted once. -/
def State.write64Any (s : State) (off : Nat) (v : W64) : State :=
  match regKind off with
  | .rw64 base => ({ s with host := { s.host with held := none } } : State).write64 base v
  | _ =>
    let lo := BitVec.ofNat 32 (lo32 v)
    let hi := BitVec.ofNat 32 (hi32 v)
    match discards off, discards (off + 4) with
    | true, true => s.badAccess off 2
    | true, false => (s.badAccess off 2).write32 (off + 4) hi
    | _, _ => (s.write32 off lo).write32 (off + 4) hi

/-- A write by the host: by the state of the module (R446), then by the access rules (R441 to R444). -/
def State.hostWriteReg (s : State) (off width : Nat) (v : W64) (full : Bool) : State :=
  if !s.reachable || s.mesa.stage == 0xE then s
  else if !s.writable then
    (if off = 0x50000 ∧ (width = 4 ∨ width = 8) ∧ full then s.resetRequest (lo32 v) else s)
  else
    let s := s.dropHeld off
    if full = false ∨ ¬ (width = 4 ∨ width = 8) ∨ off % width ≠ 0 then s.badAccess off 1
    else if width = 8 then s.write64Any off v
    else s.write32 off (BitVec.ofNat 32 (lo32 v))

/-- A naturally aligned 32-bit write with every byte enable. -/
def State.host32 (s : State) (off : Nat) (v : W32) : State := s.hostWriteReg off 4 (v.zeroExtend 64) true

/-! ## Reads (R441, R442) -/

/-- A 32-bit read: the low half of a 64-bit register latches its high half, and the high half of an RO register returns what is latched. -/
def State.read32 (s : State) (off : Nat) : State :=
  let give := fun (s : State) (w : W32) => ({ s with host := { s.host with lastRead := some ⟨leBytes 4 w.toNat, false⟩ } } : State)
  match regKind off with
  | .ro64 base =>
    if off = base then give { s with host := { s.host with latch := some (s.visibleWord (off + 4)) } } (s.visibleWord off)
    else give s (s.host.latch.getD (s.visibleWord off))
  | .rw64 base =>
    if off = base then give { s with host := { s.host with latch := some (s.visibleWord (off + 4)) } } (s.visibleWord off) else give s (s.visibleWord off)
  | _ => give s (s.visibleWord off)

/-! ## The rows -/

/-- DOORBELL_WRITE (R337, R339). -/
def execDoorbellWrite (n : Nat) (v : W32) (s : State) : Out := withRing n s (fun _ => s.host32 (0x1000 + 0x40 * n) v)
/-- RQ_TAIL_WRITE (R341). -/
def execRqTailWrite (n : Nat) (v : W32) (s : State) : Out := withRing n s (fun _ => s.host32 (ringAt n + 0x1C) v)
/-- RQ_ARM_WRITE (R342). -/
def execRqArmWrite (n : Nat) (v : W32) (s : State) : Out := withRing n s (fun _ => s.host32 (ringAt n + 0x28) v)
/-- SQ_ENABLE: a write of SQ_CTRL_n with Enable set (R340). -/
def execSqEnable (n : Nat) (v : W32) (s : State) : Out := withRing n s (fun _ => s.host32 (ringAt n + 0x08) (v ||| 0x80000000))
/-- SQ_DISABLE: a write of SQ_CTRL_n with Enable clear (R339). -/
def execSqDisable (n : Nat) (v : W32) (s : State) : Out := withRing n s (fun _ => s.host32 (ringAt n + 0x08) (v &&& 0x7FFFFFFF))
/-- RQ_ENABLE: a write of RQ_CTRL_n with Enable set (R340). -/
def execRqEnable (n : Nat) (v : W32) (s : State) : Out := withRing n s (fun _ => s.host32 (ringAt n + 0x18) (v ||| 0x80000000))
/-- RQ_DISABLE: a write of RQ_CTRL_n with Enable clear (R340). -/
def execRqDisable (n : Nat) (v : W32) (s : State) : Out := withRing n s (fun _ => s.host32 (ringAt n + 0x18) (v &&& 0x7FFFFFFF))
/-- RING_ERROR_CLEAR: a write of SQ_CTRL_n or RQ_CTRL_n with Error set, which clears it (R338). -/
def execRingErrorClear (n : Nat) (reply : Bool) (v : W32) (s : State) : Out :=
  withRing n s (fun _ => s.host32 (ringAt n + (if reply then 0x18 else 0x08)) (v ||| 0x40000000))
/-- WIN_BASE_WRITE (R335). -/
def execWinBaseWrite (v : W64) (s : State) : Out := .next (s.hostWriteReg 0x11000 8 v true)
/-- RESET_REQUEST_MODULE (14 R392). -/
def execResetRequestModule (s : State) : Out := .next (s.host32 0x50000 0x5A)
/-- RESET_REQUEST_RETRAIN (14 R392). -/
def execResetRequestRetrain (s : State) : Out := .next (s.host32 0x50000 0xA5)
/-- LOW_HALF_READ (R442): a 32-bit read; only one of a 64-bit register's low half latches. -/
def execLowHalfRead (off : Nat) (s : State) : Out := .next (if s.reachable && off % 4 == 0 then s.read32 off else s)
/-- LOW_HALF_WRITE (R442). -/
def execLowHalfWrite (off : Nat) (v : W32) (s : State) : Out := .next (s.host32 off v)
/-- REGISTER_WRITE (R441). -/
def execRegisterWrite (off width : Nat) (v : W64) (full : Bool) (s : State) : Out := .next (s.hostWriteReg off width v full)

/-- CONFIG_SPACE_WRITE (R342): the MSI-X enable and function mask are written; messages that are masked no more are sent. -/
def execConfigSpaceWrite (msixEnable functionMask : Bool) (s : State) : Out :=
  .next (if s.reachable then
    { s with host := ({ s.host with msixEnable := msixEnable, functionMask := functionMask } : HostIf).releasePending } else s)

end Sys2Proof.Machine
end

