-- ==== Sys2Proof/Machine/Rollout.lean ====
section
/-! DEFINITION. The sampler: rounds, admission, token choice, rollout records (10 R292 to R298). -/

namespace Sys2Proof.Machine

/-! ## Rounds (R292, R293) -/

/-- The prompt entries that a round can take: those returned to the front of the queue, then those of the ring that the host has written. -/
def State.promptAt (s : State) (a : Nat) : PromptEntry := ⟨s.loadNat a 8, s.loadNat (a + 8) 4, s.loadNat (a + 12) 2, BitVec.ofNat 64 (s.loadNat (a + 16) 8)⟩

/-- Entries of the prompt ring not yet taken. -/
def State.promptsIn (s : State) (c : Ctx) : List PromptEntry :=
  match nfind c.rings 2 with
  | none => []
  | some r =>
    let p := s.loadNat (r.addr + 8) 8
    (List.range (p - r.consumer.toNat)).map (fun i => s.promptAt (r.addr + 64 + 32 * ((r.consumer.toNat + i) % r.count)))

/-- The rollouts of a list of prompt entries: sample numbers within each, one index over the round. -/
def rolloutsOf (es : List PromptEntry) : List RolloutRun :=
  (es.flatMap (fun e => (List.range e.samples).map (fun j => (e, j)))).mapIdx (fun i x =>
    { index := i, promptAddr := x.1.addr, promptLen := x.1.len, promptId := x.1.id, samples := x.1.samples, sample := x.2, admitted := false, tokens := [],
      logProbs := [], slotsNear := 0, slotsSpill := 0, kvSlots := [], ended := 0, recorded := false })

/-- The rollout seed of a round (R293). -/
def roundSeed (job : W64) (k : Nat) : W64 := BitVec.ofNat 64 (leNat ((sha3 (ascii "VXRSEED1" ++ jobSeed job ++ leBytes 8 k)).take 8))

/-- The generation program of a round starts. -/
def startRound (s : State) (k : Nat) (c : Ctx) (r : RoundRun) : State :=
  let s := s.putCtx k { c with rounds := updWhere c.rounds (fun x => x.number == r.number) (fun x => { x with started := true }) }
  (startProgram s k ⟨none, c.desc.genSlot, BitVec.ofNat 64 r.number, 0, 0, some r.number, 0⟩ r.key r.version).wake k

/-- A new round takes its prompts. -/
def openRound (s : State) (k : Nat) (c : Ctx) (g : GenTable) : State :=
  let ring := s.promptsIn c
  let es := (c.returned ++ ring).take g.perRound
  if es.isEmpty ∨ g.roundLimit ≤ c.rounds.length then s
  else
    let fromRing := es.length - c.returned.length
    let s := match nfind c.rings 2 with
      | none => s
      | some r => s.store (r.addr + 16) (leBytes 8 (r.consumer.toNat + fromRing))
    let rings := c.rings.map (fun x => if x.1 = 2 then (2, { x.2 with consumer := x.2.consumer + BitVec.ofNat 64 fromRing }) else x)
    let seed := roundSeed c.desc.job c.nextRound
    let v := c.currentVersion
    let r : RoundRun := ⟨c.nextRound, seed, v, grainKey "VXGRKEY2" c.desc.job seed, rolloutsOf es, false, false⟩
    let s := s.putCtx k { c with rings := rings, returned := c.returned.drop es.length, rounds := c.rounds ++ [r], nextRound := c.nextRound + 1 }
    let s := s.addHold k v (.round r.number)
    match s.ctx? k with
    | none => s
    | some c => if c.run.isNone then startRound s k c r else s.wake k

/-- ROUND_START (R292, R293): a round that waits for the cores starts its program; otherwise a new round starts, on the current version. -/
def execRoundStart (k : Nat) (s : State) : Out :=
  withCtx k s (fun c =>
    match c.gen with
    | none => s
    | some g =>
      match c.rounds.find? (fun r => !r.started) with
      | some r => if c.run.isNone then startRound s k c r else if s.doubtful then s else openRound s k c g
      | none => if s.doubtful then s else openRound s k c g)

/-! ## Admission and KV slots (R294) -/

/-- Act on a rollout of a round. -/
def withRollout (k round ix : Nat) (s : State) (f : Ctx → GenTable → RoundRun → RolloutRun → State) : Out :=
  withCtx k s (fun c =>
    match c.gen, c.rounds.find? (fun r => r.number == round) with
    | some g, some r => (match r.rollouts.find? (fun x => x.index == ix) with | none => s | some x => f c g r x)
    | _, _ => s)

def State.setRollout (s : State) (k round : Nat) (x : RolloutRun) : State :=
  let put := fun (r : RoundRun) => { r with rollouts := updWhere r.rollouts (fun y => y.index == x.index) (fun _ => x) }
  s.updCtx k (fun c => { c with rounds := updWhere c.rounds (fun r => r.number == round) put })

/-- Stretch slots of the spill area. -/
def GenTable.spillSlots (g : GenTable) : Nat := g.spill / (8192 * g.kvBytes)

/-- Stretches of a rollout of the maximum length (R283, R297). -/
def GenTable.maxSlots (g : GenTable) (x : RolloutRun) : Nat := ceilDiv (min 16777216 (x.promptLen + g.answerLimit)) 8192

/-- Slots of the spill area that admitted rollouts may still need (log 61). -/
def Ctx.reserved (c : Ctx) (g : GenTable) : Nat :=
  ((c.rounds.flatMap (·.rollouts)).filter (fun x => x.admitted && x.ended == 0)).foldl (fun n x => n + (g.maxSlots x - x.slotsNear)) 0

/-- The lowest number that a list leaves out, of those below a bound. -/
def lowestFree (used : List Nat) (bound : Nat) : Nat := ((List.range bound).find? (fun i => !used.contains i)).getD bound

/-- Device address of a KV slot: slots of 8,192 tokens lie one behind the other from a place that no rule gives (log 61). -/
def Ctx.kvAddr (c : Ctx) (g : GenTable) (spill : Bool) (i : Nat) : Nat :=
  let size := 8192 * g.kvBytes
  let room := fun (bytes slots : Nat) => (bytes - slots * size) / 64 + 1
  (if spill then farBase + 64 * (Config.kvBase c.epoch true % room (farTop - farBase) g.spillSlots)
    else c.die * 0x3000000000 + 64 * (Config.kvBase c.epoch false % room 0x3000000000 g.pool)) + i * size

/-- A stretch takes the lowest free slot: of near memory, of the spill area when the pool is full. The slot is zeroed (R294). -/
def takeSlot (s : State) (k : Nat) (g : GenTable) (x : RolloutRun) : State × RolloutRun :=
  match s.ctx? k with
  | none => (s, x)
  | some c =>
    let used := (c.rounds.flatMap (·.rollouts)).flatMap (·.kvSlots)
    let spill := decide (g.pool ≤ c.kvUsed)
    let i := lowestFree ((used.filter (fun y => y.1 == spill)).map (·.2)) (if spill then g.spillSlots else g.pool)
    let c' := if spill then { c with spillUsed := c.spillUsed + 1 } else { c with kvUsed := c.kvUsed + 1 }
    ((s.putCtx k c').store (c.kvAddr g spill i) (zeros (8192 * g.kvBytes)),
     { x with slotsNear := if spill then x.slotsNear else x.slotsNear + 1, slotsSpill := if spill then x.slotsSpill + 1 else x.slotsSpill
              kvSlots := x.kvSlots ++ [(spill, i)] })

/-- A rollout takes n more slots, and is put back with them each time. -/
def takeSlotsGo (k round : Nat) (g : GenTable) : Nat → State → RolloutRun → State × RolloutRun
  | 0, s, x => (s, x)
  | n + 1, s, x =>
    let (s, x) := takeSlot s k g x
    takeSlotsGo k round g n (s.setRollout k round x) x

/-- A rollout has slots for its first `n` stretches (R294). -/
def takeSlots (s : State) (k round : Nat) (g : GenTable) (x : RolloutRun) (n : Nat) : State × RolloutRun :=
  takeSlotsGo k round g (n - (x.slotsNear + x.slotsSpill)) s x

/-- ROLLOUT_ADMISSION (R294). -/
def execRolloutAdmission (k round ix : Nat) (s : State) : Out :=
  withRollout k round ix s (fun c g r x =>
    if x.admitted || x.ended != 0 || r.aborting then s
    else if c.reserved g + g.maxSlots x ≤ g.spillSlots then
      let (s, x) := takeSlots s k round g { x with admitted := true } (ceilDiv x.promptLen 8192)
      s.setRollout k round x
    else s)

/-! ## Token choice (R295, R296) -/

/-- Place of an FP32 code in ascending order, -0 below +0. -/
def orderKey (x : W32) : Nat := if x.toNat < 2 ^ 31 then 2 ^ 31 + x.toNat else 2 ^ 32 - 1 - x.toNat

/-- Index before another: by value descending, then index ascending. -/
def insertLogit (x : Nat × W32) : List (Nat × W32) → List (Nat × W32)
  | [] => [x]
  | y :: r => if orderKey y.2 < orderKey x.2 then x :: y :: r
      else if orderKey y.2 = orderKey x.2 ∧ x.1 < y.1 then x :: y :: r else y :: insertLogit x r

/-- The indices by value descending. -/
def sortLogits (x : List W32) : List (Nat × W32) := (x.mapIdx (fun i v => (i, v))).foldr insertLogit []

/-- Sums of a list, each step rounded, in order. -/
def runSums : W32 → List W32 → List W32
  | _, [] => []
  | a, e :: r => stepAdd a e :: runSums (stepAdd a e) r

/-- L2E / T. -/
def coefOf (t : W32) : W32 := stepMul Tables.l2e (rcpRef t).1

/-- choose (R295); the logits are finite. -/
def chooseToken (x : List W32) (t : W32) (topk : Nat) (topp : W32) (draw : W32) : Nat :=
  let sorted := sortLogits x
  let first := (sorted.head?.map (·.1)).getD 0
  if t = 0 then first
  else
    let c := coefOf t
    let m := (sorted.head?.map (·.2)).getD 0
    let top := sorted.take (if topk = 0 then x.length else topk)
    let e := top.map (fun y => (exp2Ref (stepMul (f32Sub .rne false y.2 m).1 c)).1)
    let sums := runSums 0 e
    let thr := stepMul topp (sums.getLast?.getD 0)
    let n := match sums.findIdx? (fun y => !(f32 y).lt (f32 thr)) with | some j => j + 1 | none => e.length
    let cum := sums.getD (n - 1) 0
    let tgt := stepMul (stepMul (f32OfInt ((draw >>> 8).toNat : Int)) 0x33800000) cum
    match (sums.take n).findIdx? (fun y => (f32 tgt).lt (f32 y)) with
    | some j => (top.map (·.1)).getD j 0
    | none => (top.map (·.1)).getD (n - 1) 0

/-- logprob (R296). -/
def tokenLogProb (x : List W32) (tok : Nat) (t : W32) : W32 :=
  let c := coefOf t
  let r := (statRow 0 x c).1
  let z := stepMul (f32Sub .rne false (x.getD tok 0) r.a).1 c
  stepMul (f32Sub .rne false z (log2Ref r.b).1).1 Tables.c1

/-- The draw of a position (R295). -/
def tokenDraw (key : BitVec 128) (tensor : W32) (index position : Nat) : W32 :=
  (grain key 0 (BitVec.ofNat 32 position) (BitVec.ofNat 32 index) tensor).truncate 32

/-- TOKEN_CHOICE (R295 to R297): the logits of the next position. A rollout of an aborting round ends here, with no token (R304). -/
def execTokenChoice (k round ix : Nat) (logits : List W32) (s : State) : Out :=
  withRollout k round ix s (fun _ g r x =>
    if !x.admitted || x.ended != 0 || logits.length != g.vocab then s
    else if r.aborting then s.setRollout k round { x with ended := 4 }
    else if logits.any (fun y => !finite32 y) then
      (s.setRollout k round { x with ended := 3 }).raise { level := 1, source := 6, ctx := some k }
    else
      let pos := x.promptLen + x.tokens.length
      let (s, x) := takeSlots s k round g x (pos / 8192 + 1)
      let tok := chooseToken logits g.temperature g.topK g.topP (tokenDraw r.key g.drawTensor x.index pos)
      let lp := tokenLogProb logits tok (if g.temperature = 0 then one32 else g.temperature)
      let n := x.tokens.length + 1
      let reason := if g.stops.contains (BitVec.ofNat 32 tok) then 1 else if n = g.answerLimit ∨ 16777216 ≤ x.promptLen + n then 2 else 0
      s.setRollout k round { x with tokens := x.tokens ++ [BitVec.ofNat 32 tok], logProbs := x.logProbs ++ [lp], ended := reason })

/-! ## The end of a rollout (R294, R297, R298, R304) -/

/-- The prompt tokens, as bytes; behind the host or peer window they are not the module's to see (log 58). -/
def State.promptBytes (s : State) (x : RolloutRun) : List Byte :=
  s.peek x.promptAddr (4 * x.promptLen)

/-- A rollout of the same prompt entry. -/
def RolloutRun.sibling (x y : RolloutRun) : Bool := x.index - x.sample == y.index - y.sample

/-- The reason that a rollout's record gives: 0x04 too where a sibling ended so under the abort policy. -/
def RoundRun.reasonOf (r : RoundRun) (x : RolloutRun) : Nat := if r.rollouts.any (fun y => x.sibling y && y.ended == 4) then 4 else x.ended

/-- The record of a rollout (R298): arrays at addresses that no rule gives (log 62). -/
def rolloutRecord (g : GenTable) (r : RoundRun) (x : RolloutRun) (tokens probs : Nat) (digest : List Byte) : List Byte :=
  ascii "VXROLLRC" ++ leBytes 8 r.number ++ leBytes 4 x.index ++ leBytes 2 r.version ++ [BitVec.ofNat 8 (r.reasonOf x), if g.temperature = 0 then 1 else 0]
    ++ leBytes 8 r.seed.toNat ++ leBytes 8 x.promptId.toNat ++ leBytes 4 x.promptLen ++ leBytes 4 x.tokens.length ++ leBytes 2 x.samples ++ leBytes 2 x.sample
    ++ leBytes 4 g.temperature.toNat ++ leBytes 4 g.topK ++ leBytes 4 g.topP.toNat ++ leBytes 8 tokens ++ leBytes 8 probs ++ digest ++ zeros 16

/-- The prompt entries of an aborted round that go back to the front of the queue. -/
def RoundRun.returned (r : RoundRun) : List PromptEntry :=
  (r.rollouts.filter (fun x => x.sample == 0 && r.reasonOf x == 4)).map (fun x => ⟨x.promptAddr, x.promptLen, x.samples, x.promptId⟩)

/-- A round whose rollouts have all been recorded is over: its program ends, its prompts of aborted rollouts are returned. -/
def closeRound (s : State) (k round : Nat) : State :=
  match s.ctx? k with
  | none => s
  | some c =>
    match c.rounds.find? (fun r => r.number == round) with
    | none => s
    | some r =>
      if r.rollouts.all (·.recorded) then
        let mine := match c.run with | none => false | some p => p.round == some round
        (s.putCtx k { c with rounds := c.rounds.filter (fun y => y.number != round), returned := r.returned ++ c.returned
                             run := if mine then none else c.run, plan := if mine then none else c.plan }).settle k
      else s

/-- An address that nothing constrains, in far memory. -/
def State.freeAddr (s : State) : Nat := farBase + 64 * (s.fresh % ((farTop - farBase) / 64))

/-- ROLLOUT_END (R298): the record of a rollout that has ended is written, its slots are freed. -/
def execRolloutEnd (k round ix : Nat) (s : State) : Out :=
  withRollout k round ix s (fun c g r x =>
    if x.ended = 0 ∨ x.recorded = true then s
    else
      let tokens := s.promptBytes x ++ bytes32 x.tokens
      let at1 := s.freeAddr
      let at2 := s.spend.freeAddr
      let s := s.spend.spend
      let s := s.putCtx k { c with kvUsed := c.kvUsed - x.slotsNear, spillUsed := c.spillUsed - x.slotsSpill }
      let s := (s.store at1 tokens).store at2 (bytes32 x.logProbs)
      let s := s.setRollout k round { x with recorded := true, slotsNear := 0, slotsSpill := 0, kvSlots := [] }
      closeRound (s.produce k 3 (rolloutRecord g r x at1 at2 (sha3 tokens))) k round)

end Sys2Proof.Machine
end

