-- ==== Sys2Proof/Machine/Publish.lean ====
section
/-! DEFINITION. Weight publication and checkpoints (01 R29, R30, 10 R302 to R307). -/

namespace Sys2Proof.Machine

/-! ## Publication (R302 to R304) -/

/-- Target job, target rank and source rank of a publication list entry (12 R358). -/
def State.pubEntry (s : State) (c : Ctx) (e : Nat) : W64 × Nat × Nat :=
  let a := c.desc.pubList + 16 * e
  (BitVec.ofNat 64 (s.loadNat a 8), s.loadNat (a + 8) 2, s.loadNat (a + 10) 2)

/-- The target context, where it is resident on this module. -/
def State.pubTarget (s : State) (c : Ctx) (e : Nat) : Option (Nat × Ctx) :=
  let (job, rank, _) := s.pubEntry c e
  s.resident.find? (fun x => x.2.desc.kind == 3 && x.2.desc.job == job && x.2.desc.rank == rank)

def State.setPub (s : State) (k : Nat) (p : Publication) : State :=
  s.updCtx k (fun c => { c with pubs := updWhere c.pubs (fun y => y.entry == p.entry) (fun _ => p) })

/-- The bytes of a version buffer: the working copy and the tracked-state copy. -/
def State.bufferBytes (s : State) (c : Ctx) (l : Learner) (b : VersionBuf) : List Byte :=
  s.load b.addr (workSize (c.weightTensors l) + (b.tracked.map List.length).foldl (· + ·) 0)

/-- A version arrives in the free buffer of a target on the same module (R302); none if it has no free buffer, or one pending (09 R254). -/
def deliverVersion (s : State) (kt : Nat) (version : Nat) (bytes : List Byte) (tracked : List (List Byte)) : Option State :=
  match s.ctx? kt with
  | none => none
  | some t =>
    match t.learn with
    | none => none
    | some l =>
      match l.buffers.any (fun b => b.state == .pending), l.buffers.find? (fun b => b.state == .free) with
      | false, some b =>
        let l := l.pend version
        let l := { l with buffers := l.buffers.map (fun y => if y.state == .pending then { y with tracked := tracked } else y) }
        some ((s.putCtx kt { t with learn := some l }).store b.addr bytes)
      | _, _ => none

/-- What comes with a version that another module publishes (R302; layout: log 64): version, tensors of the working copy, bytes of the tracked-state
copy, and the weight-version digest. -/
def versionNote (version : Nat) (ids : List W32) (tracked : Nat) (digest : List Byte) : List Byte :=
  leBytes 2 version ++ zeros 2 ++ leBytes 4 ids.length ++ leBytes 4 tracked ++ zeros 20 ++ digest ++ ids.flatMap (fun i => leBytes 4 i.toNat)

/-- A version and its announcement travel to a target on another module by peer write, to places that no rule gives (R302, log 64). -/
def sendVersion (s : State) (k : Nat) (c : Ctx) (l : Learner) (b : VersionBuf) (entry : Nat) : State :=
  let (job, rank, _) := s.pubEntry c entry
  let bytes := toGranules (s.bufferBytes c l b)
  let poison := (List.range (bytes.length / 64)).map (fun i => s.poisonAt (b.addr + 64 * i))
  let note := toGranules (versionNote b.version ((c.weightTensors l).map (·.id)) (b.tracked.map List.length).sum (b.digest.getD []))
  let send := fun (s : State) (bytes : List Byte) (poison : List Bool) =>
    State.peerWriteGo false k job c.desc.rank rank l.stepFlow (bytes.length / 4096 + 1) s.spend s.freeAddr bytes poison
  send (send s bytes poison) note []

/-- A version that waits for a target goes into flight: it must have its digest, and a target on this module a free buffer. -/
def publishOne (s : State) (k : Nat) (c : Ctx) (l : Learner) (p : Publication) : Option State :=
  match l.bufferOf p.waiting with
  | none => none
  | some b =>
    if b.digest.isNone then none
    else
      let sent := s.setPub k { p with flight := p.waiting, waiting := 0, sends := 1, cmds := p.next, next := [] }
      match s.pubTarget c p.entry with
      | none => some (sendVersion sent k c l b p.entry)
      | some (kt, _) => deliverVersion sent kt p.waiting (s.bufferBytes c l b) b.tracked

/-- WEIGHT_PUBLICATION (R302, R303): the first waiting version that can goes into flight toward its target. -/
def execWeightPublication (k : Nat) (s : State) : Out :=
  withCtx k s (fun c =>
    match c.learn with
    | none => s
    | some l => ((c.pubs.filter (fun p => p.waiting != 0 && p.flight == 0)).findSome? (publishOne s k c l)).getD s)

/-- A version becomes current in a rollout context; running rounds follow the publication policy (R30, R304). -/
def makeVersionCurrent (s : State) (kt : Nat) (digest : List Byte) : State :=
  s.updCtx kt (fun t =>
    let abort := match t.gen with | none => false | some g => g.policy == 2
    let stop := fun (r : RoundRun) =>
      { r with aborting := true, rollouts := updWhere r.rollouts (fun x => !x.admitted && x.ended == 0) (fun x => { x with ended := 4 }) }
    { t with
      learn := t.learn.map (fun l =>
        let l := l.makeCurrent ((l.buffers.find? (fun b => b.state == .pending)).elim [] (·.tracked))
        { l with buffers := l.buffers.map (fun b => if b.state == .current then { b with digest := some digest } else b) })
      rounds := if abort then t.rounds.map stop else t.rounds })

/-- The hash engines of a rollout context recompute the digest of a buffer that has arrived; poison in it becomes visible (R302, 07 R213). -/
inductive Arrived where
  | poison (addr : Nat)
  | same
  | differs
  deriving DecidableEq, Repr

def State.arrived (s : State) (buf : Nat) (ts : List TensorEntry) (digest : List Byte) : Arrived :=
  match s.firstPoison buf (workSize ts) with
  | some a => .poison a
  | none => if setDigest (s.versionDigest buf ts) = digest then .same else .differs

/-- Release of a publication: the target has acknowledged, or it stays on its old version; the version's count ends with its last target, and so does
PUBLISH_WEIGHTS. -/
def endPublication (s : State) (k : Nat) (p : Publication) (code : Nat) : State :=
  let s := ((s.setPub k { p with flight := 0, sends := 0, cmds := [] }).endHolds k).afterRelease k
  match s.ctx? k with
  | none => s
  | some c => (p.cmds.filter (fun id => c.pubs.all (fun y => !y.cmds.contains id && !y.next.contains id))).foldl (fun s id => s.complete id code 0 []) s

/-- A second digest mismatch (R303, 11 R328): a warning, and one transient charged to each rank. -/
def failPublication (s : State) (k : Nat) (c : Ctx) (p : Publication) : State :=
  let (job, rank, _) := s.pubEntry c p.entry
  let s := s.raise { level := 2, source := 6, ctx := some k, count := rank }
  let s := (s.chargeRank c.desc.job c.desc.rank 0x09 (some k)).chargeRank job rank 0x09 (some k)
  let code := s.fresh % 256
  let s := match s.pubTarget c p.entry with
    | none => s
    | some (kt, _) => s.discardPending kt
  endPublication s.spend k p code

/-- A version that another module has written into the first free buffer of a rollout context, with its announcement at an address, becomes current if
its digest holds; if not it is written again (R302, R303). -/
def takeArrived (s : State) (k : Nat) (c : Ctx) (a : Nat) : State :=
  match c.learn with
  | none => s
  | some l =>
    match l.buffers.any (fun b => b.state == .pending), l.buffers.find? (fun b => b.state == .free) with
    | false, some b =>
      let ids := (List.range (s.loadNat (a + 4) 4)).map (fun i => BitVec.ofNat 32 (s.loadNat (a + 64 + 4 * i) 4))
      let ts := ids.filterMap (fun id => c.slots.findSome? (fun p => p.2.tensors.find? (fun t => t.id == id)))
      let digest := s.load (a + 32) 32
      (match s.arrived b.addr ts digest with
       | .poison g => s.putCtx k (c.raisePoison g 0x06)
       | .differs => s
       | .same =>
         let l := l.pend (s.loadNat a 2)
         let tracked := pieces 96 (s.loadNat (a + 8) 4 / 96) (s.load (b.addr + workSize ts) (s.loadNat (a + 8) 4))
         let l := { l with buffers := l.buffers.map (fun y => if y.state == .pending then { y with tracked := tracked } else y) }
         makeVersionCurrent (s.putCtx k { c with learn := some l }) k digest)
    | _, _ => s

/-- A publication whose digest did not hold at its target is sent once more; the second time it fails (R303). -/
def resend (s : State) (k : Nat) (c : Ctx) (l : Learner) (b : VersionBuf) (p : Publication) : State :=
  if p.sends < 2 then
    let s := s.setPub k { p with sends := p.sends + 1 }
    match s.pubTarget c p.entry with
    | none => sendVersion s k c l b p.entry
    | some (kt, _) => (deliverVersion (s.discardPending kt) kt p.flight (s.bufferBytes c l b) b.tracked).getD s
  else failPublication s k c p

/-- PUBLICATION_DIGEST_CHECK (R302, R303). In a learner context `entry` is the list entry in flight: a target on this module recomputes the digest of its
pending buffer, and `held` is the answer of one on another module. In a rollout context `entry` is the address of the announcement of a version that
another module has sent. -/
def execPublicationDigestCheck (k entry : Nat) (held : Bool) (s : State) : Out :=
  withCtx k s (fun c =>
    if c.desc.kind = 3 then takeArrived s k c entry
    else
      match c.learn, c.pubs.find? (fun p => p.entry == entry && p.flight != 0) with
      | some l, some p =>
        (match l.bufferOf p.flight with
         | none => s
         | some b =>
           let d := b.digest.getD []
           match s.pubTarget c p.entry with
           | none => if held then endPublication s k p 0x00 else resend s k c l b p
           | some (kt, t) =>
             match s.arrived ((t.learn.map Learner.pendingBuf).getD 0) (c.weightTensors l) d with
             | .poison g => s.putCtx kt (t.raisePoison g 0x06)
             | .same => endPublication (makeVersionCurrent s kt d) k p 0x00
             | .differs => resend s k c l b p)
      | _, _ => s)

/-! ## Checkpoints (R305 to R307) -/

/-- Pieces of 1 MiB with their SHA3-256. -/
def chunksOf (stream : List Byte) : List (List Byte × List Byte) := (megaPieces stream).map (fun p => (sha3 p, p))

/-- The shard's planes as one stream. -/
def State.planeStream (s : State) (planes : List (Nat × Nat)) : List Byte := planes.flatMap (fun p => s.load p.1 p.2)

/-- Chunk entries of a checkpoint: digest, holder, offset. A chunk that its base has unchanged is named there. -/
def chunkEntries (id : Nat) (base : List (List Byte × Nat × Nat)) : List (List Byte × List Byte) → Nat → Nat → List (List Byte × Nat × Nat)
  | [], _, _ => []
  | c :: r, i, off =>
    match base[i]? with
    | some b => if b.1 = c.1 then b :: chunkEntries id base r (i + 1) off else (c.1, id, off) :: chunkEntries id base r (i + 1) (off + c.2.length)
    | none => (c.1, id, off) :: chunkEntries id base r (i + 1) (off + c.2.length)

/-- A manifest (R306), with the group and tracked entries as they stood at the commit, and the chunk entries. -/
def manifest (c : Ctx) (l : Learner) (k : Checkpoint) (rank flat : Nat) (mirror : Bool) (shard : List Byte) (chunks : List (List Byte × Nat × Nat)) : List Byte :=
  ascii "VXCKPT01" ++ leBytes 8 c.desc.job.toNat ++ leBytes 8 k.id ++ leBytes 8 k.base ++ leBytes 2 k.version ++ leBytes 2 rank ++ leBytes 2 c.desc.modules
    ++ [BitVec.ofNat 8 l.algorithm, if mirror then 1 else 0] ++ leBytes 8 k.stepCount ++ leBytes 8 flat ++ leBytes 4 chunks.length ++ leBytes 4 l.groups.length
    ++ k.digest ++ shard ++ l.committed
    ++ chunks.flatMap (fun x => x.1 ++ leBytes 8 x.2.1 ++ leBytes 8 x.2.2)

/-- Bytes go out through the host window of a context (12 R336). -/
def State.hostWrite (s : State) (k a : Nat) (bytes : List Byte) : State :=
  match s.entryAt k a with
  | none => s
  | some (_, e) => if e.typ = 1 then s.busWrite (e.bus + (a - e.window)) bytes else s

/-- A CHECKPOINT command of a context that has begun. -/
def State.ckptCmd (s : State) (k : Nat) : Option HostCmd := s.host.cmds.find? (fun c => c.begun && c.opcode == 0x09 && c.fieldAt 8 1 == k)

/-- Does a stretch of the data area meet a checkpoint that far memory keeps (R306)? -/
def Ctx.keeps (c : Ctx) (a n : Nat) : Bool := c.ckpts.any (fun x => decide (a < x.place + x.len ∧ x.place < a + n))

/-- Where a checkpoint of n bytes goes: a place that no rule gives (log 65), but clear of the checkpoints that are kept. -/
def State.ckptPlace (s : State) (c : Ctx) (n : Nat) : Nat :=
  let any := c.desc.ckptAddr + 64 * (s.spend.fresh % ((c.desc.ckptLen - n) / 64 + 1))
  let behind := c.desc.ckptAddr :: c.ckpts.map (fun x => x.place + 64 * ceilDiv x.len 64)
  ((any :: behind).find? (fun a => !c.keeps a n && decide (a + n ≤ c.desc.ckptAddr + c.desc.ckptLen))).getD any

/-- A checkpoint of the current version is written: own shard and mirror, into the data area and to the sink. Where in the area: log 65. -/
def writeCheckpoint (s : State) (k : Nat) (c : Ctx) (l : Learner) (b : VersionBuf) (cmd : Option HostCmd) : State :=
  let m := c.desc.modules
  let flags := (cmd.map (fun x => x.fieldAt 16 1)).getD 0
  let full := c.ckpts.isEmpty || decide (c.desc.fullInterval ≤ c.ckpts.length) || flags % 2 == 1
  let id := l.lastStep.getD s.fresh
  let base' := if full then none else c.ckpts.head?
  let flat := flatLength (c.weightTensors l)
  let side := fun (mirror : Bool) =>
    let r := if mirror then (c.desc.rank + m - 1) % m else c.desc.rank
    let areas := if mirror then l.buddy else l.own
    (r, planesOf (planeWidths l.algorithm) (shardLength flat m r) (((areas.find? (fun a => a.version == b.version)).map (·.addr)).getD 0))
  let (r0, planes) := side false
  let chunks := chunksOf (s.planeStream planes)
  let entries := chunkEntries id ((base'.map (·.chunks)).getD []) chunks 0 0
  let shard := s.shardDigest c.desc.job id r0 planes
  let (r1, planes1) := side true
  let chunks1 := if m = 1 then [] else chunksOf (s.planeStream planes1)
  let entries1 := chunkEntries id ((base'.map (·.mirror)).getD []) chunks1 0 0
  let ck : Checkpoint := { id := id, place := 0, len := 0, version := b.version, full := full, base := (base'.map (·.id)).getD 0xFFFFFFFFFFFFFFFF,
                           sink := cmd.bind (fun x => if flags / 2 % 2 = 1 then some (x.fieldAt 24 8, x.fieldAt 32 8) else none), changedOnly := flags / 4 % 2 == 1,
                           chunks := entries, mirror := entries1, digest := b.digest.getD [], shardDigest := shard, stepCount := l.stepCount.toNat, sent := 0,
                           cmd := cmd.map (·.id), started := s.st.now.toNat }
  let own := manifest c l ck r0 flat false shard entries
  let written := fun (cs : List (List Byte × List Byte)) (es : List (List Byte × Nat × Nat)) => ((cs.zip es).filter (fun x => x.2.2.1 == id)).flatMap (fun x => x.1.2)
  let mine := own ++ written chunks entries
  let mirrored := if m = 1 then [] else manifest c l ck r1 flat true (s.shardDigest c.desc.job id r1 planes1) entries1 ++ written chunks1 entries1
  let sinkBytes := own ++ (if ck.changedOnly then written chunks entries else chunks.flatMap (·.2))
  let data := mine ++ mirrored
  let base := s.ckptPlace c data.length
  let ck := { ck with place := base, len := data.length, sent := if ck.sink.isSome then sinkBytes.length else 0 }
  let s := (s.spend.spend).store base data
  let s := match ck.sink with | none => s | some (a, n) => s.hostWrite k a (sinkBytes.take n)
  let s := s.addHold k b.version .checkpoint
  s.updCtx k (fun c => { c with ckptNow := some ck, ckptLog := c.ckptLog ++ [(ck.id, ck.version)], ckptDue := if cmd.isSome then c.ckptDue else false })

/-- CHECKPOINT_START (R305, R306): on a CHECKPOINT command, or on a trigger; of the current version, whose digest must be complete. -/
def execCheckpointStart (k : Nat) (s : State) : Out :=
  withCtx k s (fun c =>
    let cmd := s.ckptCmd k
    match c.learn with
    | none => s
    | some l =>
      match l.buffers.find? (fun b => b.state == .current) with
      | none => s
      | some b => if c.ckptNow.isSome || (cmd.isNone && !c.ckptDue) || b.digest.isNone then s else writeCheckpoint s k c l b cmd)

/-- The checkpoint in flight is over. -/
def endCheckpoint (s : State) (k : Nat) (ck : Checkpoint) (keep : Bool) : State :=
  let s := s.updCtx k (fun c => { c with ckptNow := none, ckpts := if keep then (if ck.full then [ck] else c.ckpts ++ [ck]) else c.ckpts })
  (s.dropHold k ck.version .checkpoint).afterRelease k

/-- CHECKPOINT_COMPLETE (R307): every byte is acknowledged; a full checkpoint replaces those before it. -/
def execCheckpointComplete (k : Nat) (s : State) : Out :=
  withCtx k s (fun c =>
    match c.ckptNow with
    | none => s
    | some ck =>
      let s := endCheckpoint s k ck true
      match ck.cmd with
      | none => s
      | some id => s.complete id 0x00 0 (leBytes 8 ck.id ++ leBytes 8 ck.sent))

/-- CHECKPOINT_DEADLINE_EXPIRY (R307): a checkpoint that no command started is past 60 s; it is given up and its fence count released (log 67). -/
def execCheckpointDeadlineExpiry (k : Nat) (s : State) : Out :=
  withCtx k s (fun c =>
    match c.ckptNow with
    | none => s
    | some ck => if ck.cmd.isNone ∧ ck.started + 60 * second ≤ s.st.now.toNat then endCheckpoint s k ck false else s)

end Sys2Proof.Machine
end

