-- ==== Sys2Proof/Machine/Commands.lean ====
section
/-! DEFINITION. The host's commands, one row each, but for those of their own modules (12 R353 to R360, 13 R372, R378, 14 R389, 15 R400, 16 R428, R429). -/

namespace Sys2Proof.Machine

/-! ## NOP and OPEN_SESSION (12 R354, R355) -/

/-- NOP (R354): the result is ATTN_SEQ. -/
def execNop (id : Nat) (s : State) : Out := withCmd id 0x00 s (fun _ => s.complete id ok s.attn.seq.toNat [])

/-- The highest version from 2 and 3 in a range. -/
def sharedVersion (highest lowest : Nat) : Option Nat := if lowest ≤ 3 ∧ 3 ≤ highest then some 3 else if lowest ≤ 2 ∧ 2 ≤ highest then some 2 else none

/-- OPEN_SESSION (R355, R357). -/
def execOpenSession (id : Nat) (s : State) : Out :=
  withCmd id 0x01 s (fun c =>
    let highest := c.fieldAt 16 1
    let lowest := c.fieldAt 17 1
    s.checked id [wantArg (inRange 1 15 highest) outOfRange 16, wantArg (inRange 1 highest lowest) outOfRange 17]
      (match sharedVersion highest lowest with
       | none => s.complete id 0x13 0 []
       | some v =>
         if s.host.session ≠ 0 ∧ v ≠ s.host.session ∧ s.ctxs.isEmpty = false then s.refuse id (argBad badField 16)
         else ({ s with host := { s.host with session := v } } : State).complete id ok v []))

/-! ## LOAD_PROGRAM (05 R155, 12 R357) -/

/-- Bytes that a unit of the hub reads: those of poisoned granules are free values (log 77). -/
def State.readThrough (s : State) (a n : Nat) : List Byte :=
  (List.range n).map (fun i => if s.poisonAt (a + i) then Config.lost s.freeCount i else sget s.mem.bytes (a + i))

/-- LOAD_PROGRAM: the reply to a failure holds its reason, section and entry. -/
def execLoadProgram (id : Nat) (s : State) : Out :=
  withCtxCmd id 0x02 s (fun c k x =>
    let slot := c.fieldAt 16 1
    let n := c.fieldAt 20 4
    let a := c.fieldAt 24 8
    s.checked id [wantArg (decide (slot ≤ 15)) outOfRange 16, wantArg (decide (64 ≤ n)) outOfRange 20, wantArg (a % 64 == 0 && inMemory a n) outOfRange 24]
      (let bytes := s.readThrough a n
       let s := if s.loadPoison a n then s.spend else s
       match firstFail (s.loadFails x bytes) with
       | some f => s.complete id (loadCode f.reason) f.reason (leBytes 4 f.sec ++ leBytes 4 f.idx)
       | none => (s.putCtx k (x.putProgram slot (programOf bytes x.desc.cores))).complete id ok 0 []))

/-! ## MAP_MEMORY (12 R336, R357, R464, 07 R209, 14 R385) -/

def unit64K : Nat := 65536

/-- Does a range touch a withdrawn band or the capture area? -/
def State.notGrantable (s : State) (a n : Nat) : Bool :=
  (decide (a < farTop ∧ captureArea < a + n)) || (List.range (n / unit64K)).any (fun i => s.withdrawn (a + unit64K * i))

/-- Checks of the range of a grant or a revoke. -/
def State.rangeBad (s : State) (a n : Nat) : List (Option Bad) :=
  [wantArg (a % unit64K == 0 && (decide (a < nearTop) || decide (farBase ≤ a ∧ a < farTop))) outOfRange 24,
   wantArg (n % unit64K == 0 && n != 0 && decide (if a < nearTop then a + n ≤ nearTop else a + n ≤ farTop)) outOfRange 32,
   wantArg (!s.notGrantable a n) outOfRange 24]

/-- What a revoke leaves of a grant. -/
def Grant.without (g : Grant) (a n : Nat) : List Grant :=
  let low := min (g.addr + g.len) a
  let high := max g.addr (a + n)
  (if g.addr < low then [⟨g.addr, low - g.addr, g.access⟩] else []) ++ (if high < g.addr + g.len then [⟨high, g.addr + g.len - high, g.access⟩] else [])

/-- Is all of a range granted? -/
def Ctx.holds (c : Ctx) (a n : Nat) : Bool := (unitsOf a n).all (fun u => c.grants.any (fun g => decide (g.addr ≤ 65536 * u ∧ 65536 * u < g.addr + g.len)))

/-- The entry that a command writes. -/
def entryOf (c : HostCmd) (version : Nat) : XlateEntry :=
  { typ := c.fieldAt 24 1, ctx := c.fieldAt 25 1 % 64, size := c.fieldAt 28 4, window := c.fieldAt 32 8, bus := c.fieldAt 40 8, attr := c.fieldAt 48 1
    rank := c.fieldAt 40 2 % 32768, flow := c.fieldAt 42 2, remote := c.fieldAt 44 6, version := version }

def XlateEntry.finish (e : XlateEntry) : Nat := e.window + unit64K * e.size

/-- Checks of operation 0x03. -/
def State.entryBad (s : State) (c : HostCmd) (k : Nat) : List (Option Bad) :=
  let i := c.fieldAt 20 4
  let e := entryOf c 0
  [wantArg (decide (i ≤ 4095)) outOfRange 20,
   wantArg (match nfind s.xlate i with | none => true | some o => o.ctx == k) badField 20,
   wantArg (e.typ != 0) badField 24, wantArg (e.ctx == k) badField 25, wantArg (e.size != 0) outOfRange 28,
   wantArg (e.window % unit64K == 0 && decide (windowBase ≤ e.window ∧ e.finish ≤ addrTop)) outOfRange 32,
   wantArg (s.xlate.all (fun o => o.1 == i || decide (o.2.finish ≤ e.window ∨ e.finish ≤ o.2.window))) badField 32,
   wantArg (e.typ != 1 || e.bus % 4096 == 0) outOfRange 40, wantArg (e.typ != 2 || e.remote % 64 == 0) outOfRange 44]

/-- Requests issued under the entry of an index before a change of it. -/
def State.underOld (s : State) (index mark : Nat) : Bool :=
  s.net.requests.any (fun r => decide (r.id < mark) && (match r.target with | .host i _ => i == index | .peer i _ _ _ => i == index | _ => false))

/-- A change of an index: the command completes once requests under the old entry have (R464). -/
def State.changeEntry (s : State) (id index : Nat) (replaced : Bool) : State :=
  if replaced && s.underOld index s.net.nextId then s.markCmd id (fun c => { c with begun := true, mark := s.net.nextId })
  else s.complete id ok 0 []

/-- The effect of MAP_MEMORY. -/
def State.mapMemory (s : State) (id : Nat) (c : HostCmd) (k : Nat) (x : Ctx) : State :=
  let a := c.fieldAt 24 8
  let n := c.fieldAt 32 8
  let i := c.fieldAt 20 4
  match c.fieldAt 16 1 with
  | 1 => s.checked id (s.rangeBad a n) ((s.putCtx k { x with grants := x.grants ++ [⟨a, n, c.fieldAt 17 1 % 8⟩] }).complete id ok 0 [])
  | 2 => s.checked id (s.rangeBad a n ++ [wantArg (x.holds a n) outOfRange 24])
      ((s.putCtx k { x with grants := x.grants.flatMap (fun g => g.without a n) }).complete id ok 0 [])
  | 3 => s.checked id (s.entryBad c k)
      (({ s with xlate := nset s.xlate i (entryOf c (s.xlVersion + 1)), xlVersion := s.xlVersion + 1 } : State).changeEntry id i (nfind s.xlate i).isSome)
  | _ => s.checked id [wantArg (decide (i ≤ 4095)) outOfRange 20, wantArg (match nfind s.xlate i with | none => true | some o => o.ctx == k) badField 20]
      (({ s with xlate := ndel s.xlate i } : State).changeEntry id i (nfind s.xlate i).isSome)

/-- MAP_MEMORY; run again on a command that waits for requests under an old entry, it completes once they are done. -/
def execMapMemory (id : Nat) (s : State) : Out :=
  match s.cmd? id with
  | some c =>
    if c.begun && c.opcode == 0x03 then .next (if s.underOld (c.fieldAt 20 4) c.mark then s else s.complete id ok 0 [])
    else withCtxCmd id 0x03 s (fun c k x => s.mapMemory id c k x)
  | none => .next s

/-! ## CREATE_CONTEXT (12 R358, 13 R362 to R366) -/

/-- The refusal of a CREATE_CONTEXT: of its arguments, of the descriptor, of what it asks for, of a table. The version is the one in force at its fetch
(12 R361). -/
def State.createBad (s : State) (c : HostCmd) (k : Nat) : Option Bad :=
  let a := c.fieldAt 24 8
  match firstBad [wantArg ((s.ctx? k).isNone) badField 8, s.partitionBad (c.fieldAt 12 1) (c.fieldAt 13 1) (c.fieldAt 14 1),
      wantArg (c.fieldAt 16 4 == 256) outOfRange 16, wantArg (a % 64 == 0 && inMemory a 256) outOfRange 24, s.clean a 256] with
  | some b => some b
  | none =>
    let bytes := s.load a 256
    let d := descOf bytes
    match descBad (if c.version = 0 then s.host.session else c.version) bytes with
    | some b => some b
    | none => (s.resourceBad (Ctx.fresh 0 (c.fieldAt 12 1) (c.fieldAt 13 1) (c.fieldAt 14 1) d)).orElse (fun _ => (s.routeBad d).orElse (fun _ => s.tablesBad d))

/-- CREATE_CONTEXT: the result is the new epoch; poison that it reads gives a notice. -/
def execCreateContext (id : Nat) (s : State) : Out :=
  withCmd id 0x04 s (fun c =>
    match c.named with
    | none => s
    | some k =>
      match s.createBad c k with
      | some b => (if b.poison then s.raise { level := 1, source := 5, ctx := some k } else s).refuse id b
      | none =>
        let s := s.makeContext k (c.fieldAt 12 1) (c.fieldAt 13 1) (c.fieldAt 14 1) (descOf (s.load (c.fieldAt 24 8) 256))
        s.complete id ok s.epochCounter.toNat [])

end Sys2Proof.Machine
end

