-- ==== Sys2Proof/Machine/Queries.lean ====
section
/-! DEFINITION. SET_POWER_LIMIT, QUERY_ATTENTION, ACK_ATTENTION, READ_CAPTURE, RESET_DOMAIN and the expiry of commands
(12 R348, R350, R353, R357, 11 R324, 14 R381 to R385, R389, R399, 15 R400). -/

namespace Sys2Proof.Machine

/-! ## SET_POWER_LIMIT (15 R400) -/

/-- L_eff of a set limit. -/
def Power.limitOf (p : Power) (set : Nat) : Nat := if p.sensorFault then set * 85 / 100 else set

/-- SET_POWER_LIMIT: the set limit; it counts from the next evaluation, and the result is L_eff. -/
def execSetPowerLimit (id : Nat) (s : State) : Out :=
  withCmd id 0x0D s (fun c =>
    let w := c.fieldAt 16 2
    s.checked id [wantArg (inRange 1500 4000 w) outOfRange 16]
      (({ s with power := { s.power with setLimit := w } } : State).complete id ok (s.power.limitOf w) []))

/-! ## Attention (12 R350, R353, R357) -/

/-- An entry of the log as it is read. -/
def AttnEntry.bytes (e : AttnEntry) : List Byte :=
  leBytes 4 e.seq.toNat ++ [BitVec.ofNat 8 e.level, BitVec.ofNat 8 e.source, BitVec.ofNat 8 e.cause, BitVec.ofNat 8 (b2n e.acked + 2 * b2n e.tagValid)]
    ++ leBytes 4 e.register.toNat ++ leBytes 4 e.value.toNat ++ leBytes 2 e.suspect.toNat ++ [e.ctx, 0] ++ leBytes 2 e.epoch.toNat ++ leBytes 2 e.tag.toNat
    ++ [e.code] ++ zeros 7 ++ leBytes 8 e.step.toNat ++ leBytes 8 e.time.toNat ++ leBytes 8 e.count.toNat ++ zeros 8

/-- Entries of the log from a sequence on; none if it lies ahead. -/
def Attention.from (a : Attention) (first : W32) : List AttnEntry :=
  let span := (a.seq - first).toNat
  if 2 ^ 31 ≤ span then [] else a.log.filter (fun e => decide ((e.seq - first).toNat ≤ span))

/-- A suspect entry as it is read (11 R324). -/
def Suspect.bytes (x : Suspect) : List Byte :=
  [BitVec.ofNat 8 x.key.kind, BitVec.ofNat 8 x.state, BitVec.ofNat 8 x.first, BitVec.ofNat 8 x.last] ++ leBytes 2 x.rank ++ [BitVec.ofNat 8 x.key.die, 0]
    ++ leBytes 2 x.key.index ++ leBytes 2 (min 65535 x.transients.length) ++ leBytes 4 x.reports ++ leBytes 8 x.job.toNat ++ leBytes 8 x.serial.toNat
    ++ leBytes 8 x.firstTime.toNat ++ leBytes 8 x.lastTime.toNat ++ leBytes 8 x.step.toNat ++ leBytes 4 x.tensor.toNat ++ [BitVec.ofNat 8 (x.seq % 16)] ++ zeros 3

/-- Suspect entries from an index on. -/
def Faults.from (f : Faults) (first : Nat) : List Suspect := ((List.range (1024 - first)).filterMap (fun i => nfind f.suspects (first + i)))

/-- QUERY_ATTENTION: entries go to the host; the result is their number, and the reply holds ATTN_SEQ and ATTN_SUMMARY. -/
def execQueryAttention (id : Nat) (s : State) : Out :=
  withCmd id 0x0E s (fun c =>
    let kind := c.fieldAt 16 1
    let first := c.fieldAt 20 4
    let n := c.fieldAt 24 4
    let a := c.fieldAt 32 8
    s.checked id [wantArg (kind != 2 || decide (first ≤ 1023)) outOfRange 20, wantArg (kind == 3 || inRange 1 4096 n) outOfRange 24, wantArg (a % 64 == 0) outOfRange 32]
      (let items := match kind with
        | 1 => ((s.attn.from (BitVec.ofNat 32 first)).take n).map AttnEntry.bytes
        | 2 => ((s.faults.from first).take n).map Suspect.bytes
        | _ => []
       let s := if items.isEmpty then s else s.busWrite a (items.flatMap (fun x => x))
       s.complete id ok items.length (leBytes 4 s.attn.seq.toNat ++ leBytes 4 s.attnSummary)))

/-- ACK_ATTENTION (R353). -/
def execAckAttention (id : Nat) (s : State) : Out :=
  withCmd id 0x0F s (fun c =>
    let q := BitVec.ofNat 32 (c.fieldAt 20 4)
    let ahead := (q - s.attn.seq).toNat
    s.checked id [wantArg (ahead == 0 || decide (2 ^ 31 ≤ ahead)) outOfRange 20]
      (let log := s.attn.log.map (fun (e : AttnEntry) => if (q - e.seq).toNat < 2 ^ 31 then { e with acked := true } else e)
       let all := q == s.attn.seq
       let attn := { s.attn with log := log, lost := if all then 0 else s.attn.lost, lostLevel := if all then 0 else s.attn.lostLevel }
       ({ s with attn := attn } : State).complete id ok 0 []))

/-! ## READ_CAPTURE (14 R385) -/

/-- The capture that a command names, with its slot. -/
def State.captureOf (s : State) (index : Nat) : Option (Nat × Capture) :=
  s.captures.find? (fun x => if index = 0xFFFFFFFF then x.2.index + 1 == s.nextCapture else x.2.index.toNat == index)

/-- READ_CAPTURE: the lesser of the length asked for and the capture's size, from the capture area. -/
def execReadCapture (id : Nat) (s : State) : Out :=
  withCmd id 0x10 s (fun c =>
    let a := c.fieldAt 24 8
    match s.captureOf (c.fieldAt 16 4) with
    | none => s.refuse id (argBad outOfRange 16)
    | some (slot, x) =>
      s.checked id [wantArg (a % 64 == 0) outOfRange 24]
        (let n := min (c.fieldAt 32 4) x.bytes.length
         let from' := captureArea + captureSlot * slot
         let s' := s.busWrite a (s.readThrough from' n)
         let s' := if s.loadPoison from' n then s'.spend else s'
         ({ s' with captures := nset s'.captures slot { x with read := true } } : State).complete id ok n []))

/-! ## RESET_DOMAIN (12 R357, 14 R389, R399) -/

/-- Does a physical core serve a resident context? -/
def State.serves (s : State) (die p : Nat) : Bool :=
  s.ctxs.any (fun x => x.2.status != .absent && x.2.dies.contains die && (s.positions x.2).any (fun i => s.posPhys die i == some p))

/-- The checks of RESET_DOMAIN's die and number. -/
def State.resetBad (s : State) (kind die num : Nat) : List (Option Bad) :=
  let top := match kind with | 1 => 135 | 4 => 17 | 5 => 15 | _ => 0xFFFF
  [wantArg (decide (die ≤ 3)) outOfRange 17, wantArg (decide (num ≤ top)) outOfRange 18, wantArg (kind != 1 || !s.serves die num) badField 18]

/-- RESET_DOMAIN: for kinds 0x06 to 0x08 the reply precedes the reset, for the others it follows it. -/
def execResetDomain (id : Nat) (s : State) : Out :=
  withCmd id 0x11 s (fun c =>
    let kind := c.fieldAt 16 1
    let die := c.fieldAt 17 1
    let num := c.fieldAt 18 2
    s.checked id (s.resetBad kind die num)
      (if 6 ≤ kind then (s.complete id ok 0 []).resetDomain kind 0 0 1 [] none
       else
         let s := s.begin' id
         match c.named with
         | some k =>
           (match s.ctx? k with
            | none => s.refuse id (argBad 0x15 0)
            | some x => s.resetDomain kind x.die k 1 [id] (some k))
         | none => s.resetDomain kind die num 1 [id] none))

/-! ## Expiry (12 R348, 14 R381 to R384, R399) -/

/-- The declared bound of the program in a slot, in System Time units. -/
def Ctx.boundOf (x : Ctx) (slot : Nat) : Option Nat := (nfind x.slots slot).map (fun p => p.bound * microsecond)

/-- The slot that a RUN in progress runs from, else the one it names. -/
def Ctx.runSlot (x : Ctx) (c : HostCmd) : Nat :=
  match x.run with
  | none => c.fieldAt 16 1
  | some r => if r.cmd = some c.id then r.slot else c.fieldAt 16 1

/-- The slots of a STEP in progress, else those it names. -/
def Ctx.stepSlots (x : Ctx) (c : HostCmd) : List Nat :=
  match x.steps.find? (fun st => st.cmd == c.id) with
  | some st => st.slots
  | none => (List.range 4).map (fun i => c.fieldAt (16 + i) 1)

/-- A command's deadline after its fetch (R381); a RUN of an empty slot has none. -/
def State.deadline (s : State) (c : HostCmd) : Option Nat :=
  let x := c.named.bind s.ctx?
  if c.version ≠ 2 ∧ c.fieldAt 4 4 ≠ 0 then some (c.fieldAt 4 4 * microsecond)
  else match c.opcode with
    | 0x05 => some (200 * millisecond)
    | 0x06 => (x.bind (fun y => y.boundOf (y.runSlot c))).map (fun b => 3 * b / 2)
    | 0x07 => x.map (fun y => 3 * (((y.stepSlots c).filterMap y.boundOf).foldl (· + ·) 0) / 2)
    | 0x08 => some (2 * second)
    | 0x09 => some (60 * second)
    | 0x0A => some (60 * second)
    | 0x11 => some (resetTime (c.fieldAt 16 1) + second)
    | _ => some (10 * millisecond)

/-- The oasis pair whose services a command without context needs (01 R19; PRESUMED, log 82): power and attestation on pair 3, fault on pair 2. -/
def servicePair (op : Nat) : Nat := if op = 0x0D ∨ op = 0x12 ∨ op = 0x13 then 3 else 2

/-- The pair that runs the services of a pair. -/
def State.hostPair (s : State) (p : Nat) : Nat := (s.svc.getD p ⟨0, p⟩).host

/-- A started command of a context has expired (R383): capture, hung and Closing, replies, a job-fatal event, and a reset of the partition. -/
def State.hang (s : State) (c : HostCmd) (k : Nat) (x : Ctx) : State :=
  if x.hung then s.complete c.id 0x40 0 []
  else
    let index := s.nextCapture
    let s := s.capture k 1 c.tag.toNat c.opcode 2
    let s := s.raise { level := 5, source := 5, ctx := some k, tag := some c.tag, code := 0x22, reg := some (0x60000 + 4 * k), step := x.run.map RunPhase.step }
    let s := s.complete c.id 0x22 0 (leBytes 2 index.toNat ++ [2])
    let s := s.completeAll ((s.cmdsOf k).map (·.id)) 0x40
    let s := ((tellFailures s k x false).beginClose k).updCtx k (fun y => { y with hung := true })
    s.resetDomain 2 x.die k 2 [] (some k)

/-- A started RESET_DOMAIN has expired: the next larger domain is reset, unless that has happened already. -/
def State.expireReset (s : State) (c : HostCmd) : State :=
  let s' := s.complete c.id 0x22 0 []
  match s.rst.inProgress.find? (fun r => r.cmds.contains c.id) with
  | none => s'
  | some r =>
    let rest := { r with cmds := r.cmds.filter (· != c.id) }
    let s' := { s' with rst := { s'.rst with inProgress := updWhere s'.rst.inProgress (fun y => y == r) (fun _ => rest) } }
    if r.kind = c.fieldAt 16 1 ∧ r.kind ≠ 4 ∧ r.kind ≠ 5 then s'.escalate rest else s'

/-- COMMAND_DEADLINE_EXPIRY (R348, R383): a command that has not started ends; one that has started is hung, or the pair that runs its service is
restarted. -/
def execCommandDeadlineExpiry (id : Nat) (s : State) : Out :=
  .next (match s.cmd? id with
    | none => s
    | some c =>
      match s.deadline c with
      | none => s
      | some d =>
        if s.st.now.toNat < c.fetched.toNat + d then s
        else if !c.started then s.complete id 0x22 0 []
        else if c.opcode = 0x11 then s.expireReset c
        else match c.named.bind (fun k => (s.ctx? k).map (fun x => (k, x))) with
          | some (k, x) => s.hang c k x
          | none => (s.restartPair (s.hostPair (servicePair c.opcode))).complete id 0x22 0 [])

end Sys2Proof.Machine
end

