-- ==== Sys2Proof/Machine/Power.lean ====
section
/-! DEFINITION. Power evaluation, calms, the voltage loop, brake and fast limit (15 R400 to R417, 18 R454). -/

namespace Sys2Proof.Machine

/-! ## The calm ratio (R405) -/

def Power.brakeK (p : Power) : Nat := if p.brake then 48 else 0
/-- The local ratio, in 64ths. -/
def Power.localK (p : Power) : Nat := max (max p.kPower p.kThermal) (max p.brakeK p.kFast)
/-- The applied ratio follows its components; the largest local ratio of the pacing period is kept for R248. -/
def Power.apply (p : Power) : Power := { p with applied := max p.localK p.kJob, periodMax := max p.periodMax p.localK }

def clampK (x : Rat) : Nat := min 56 x.ceil.toNat

/-- The power component. -/
def powerK (e limit : Rat) : Nat := if limit ≤ 0 then 56 else clampK (256 * (e - limit) / limit)

/-- The thermal component of a junction temperature in 1/16 °C (R412). -/
def thermalK (t : Int) : Nat := if t < 1600 then 0 else clampK (((t - 1600 : Int) : Rat) / 2)

/-- The hottest junction and its site. -/
def hottest (temps : List Int) : Option (Int × Nat) :=
  temps.zipIdx.foldl (fun m x => match m with | none => some x | some y => if y.1 < x.1 then some x else some y) none

/-- Estimate, limits and the power component of an evaluation. -/
def Power.evaluate (p : Power) (raw : Nat) : Power :=
  let limit := p.limitOf p.setLimit
  let trim := min p.trim ((limit : Rat) / 4)
  let e : Rat := (p.gain : Rat) * raw / 4096
  let k := powerK e (limit - trim)
  { p with effective := limit, trim := trim, estimate := e, lastE := e, eSum := p.eSum + e, eCount := p.eCount + 1, kPower := k, intMax := p.intMax && k == 56 }

/-- Junction readings of an evaluation. -/
def Power.readTemps (p : Power) (temps : List Int) : Power :=
  match hottest temps with
  | none => p
  | some (t, site) => { p with junction := t, site := site, kThermal := thermalK t, thermWarning := decide (1680 ≤ t) || (p.thermWarning && decide (1648 ≤ t)) }

/-- What an evaluation adds to the voltage loop's interval, and the release of the brake. -/
def Power.account (p : Power) (asserted : Bool) : Power :=
  { p with loopSum := p.loopSum + p.kPower, loopCount := p.loopCount + 1, loopZero := p.loopZero && p.kPower == 0 && p.kThermal == 0, brake := p.brake && asserted }

/-- POWER_EVALUATION (R400, R402, R405, R412): every 10 µs, with the raw estimate and the junctions of the four compute dies and the hub die. -/
def execPowerEvaluation (raw : Nat) (temps : List Int) (s : State) : Out :=
  .next (if !s.pins.pwrGood then s
    else
      let p := (((s.power.evaluate raw).readTemps (temps.take 5)).account (!s.pins.pwrbrakeN)).apply
      let t : State := { s with power := p }
      if p.thermWarning && !s.power.thermWarning then t.raise { level := 2, source := 2, reg := some 0x30010 } else t)

/-! ## The interval of 1 ms (R403, R404, R406) -/

/-- Do measurement and estimate disagree? -/
def disagrees (m e : Rat) : Bool := decide (12 * m / 100 < (if m < e then e - m else m - e))

def clampRat (x lo hi : Rat) : Rat := if x < lo then lo else if hi < x then hi else x

/-- The interval ends: control power, trim, peak, agreement. -/
def Power.interval (p : Power) (measured : Nat) : Power :=
  let m : Rat := measured
  let e : Rat := if p.eCount = 0 then p.lastE else p.eSum / p.eCount
  let ctl := max m e
  let limit : Rat := p.effective
  let dis := disagrees m e
  let run := if dis then p.disagreeRun + 1 else 0
  let agree := if dis then 0 else p.agreeRun + 1
  let count := dis && decide (p.disagreeRun < 51)
  let fitting := p.intMax && decide (limit < ctl) && p.rails.getD 0 0 == 650
  { p with
    measured := m, control := ctl, history := (measured :: p.history).take 20, trim := clampRat (p.trim + (ctl - limit) / 2) 0 (limit / 4)
    eSum := 0, eCount := 0, intMax := true, disagreeRun := run, agreeRun := agree
    sumM := if count then p.sumM + m else if dis then p.sumM else 0, sumE := if count then p.sumE + e else if dis then p.sumE else 0
    disagreement := p.disagreement && (p.sensorFault || decide (agree < 50))
    loopBelow := p.loopBelow && decide (ctl < 95 * (limit - p.trim) / 100), atMaxRun := if fitting then p.atMaxRun + 1 else 0 }

/-- POWER_INTERVAL: every 1 ms, with the measured input power. -/
def execPowerInterval (measured : Nat) (s : State) : Out := .next (if s.pins.pwrGood then { s with power := s.power.interval measured } else s)

/-- A gain in 1/4,096, to nearest; of two that are as near, no rule says which (log 84). -/
def nearestGain (x : Rat) (free : Nat) : Nat :=
  let f := x.floor
  let r := x - f
  if r < 1 / 2 then f.toNat else if 1 / 2 < r then f.toNat + 1 else f.toNat + free % 2

/-- The gain that the 51 intervals ask for. -/
def Power.newGain (p : Power) (free : Nat) : Option Nat := if p.sumE = 0 then none else some (nearestGain (p.gain * p.sumM / p.sumE) free)

/-- POWER_DISAGREEMENT (R404): the 51st disagreeing interval in a row. -/
def execPowerDisagreement (s : State) : Out :=
  .next (if s.power.disagreeRun < 51 ∨ s.power.sensorFault then s
    else
      let again := { s.power with disagreement := true, disagreeRun := 0, agreeRun := 0, sumM := 0, sumE := 0 }
      let warned : State := ({ s with power := again } : State).raise { level := 2, source := 2, reg := some 0x3000C }
      match s.power.newGain s.fresh with
      | some g =>
        if 3277 ≤ g ∧ g ≤ 5120 then ({ warned with power := { again with gain := g } } : State).spend
        else ({ warned with power := { again with sensorFault := true } } : State).spend.raise { level := 3, source := 2, reg := some 0x3000C }
      | none => ({ warned with power := { again with sensorFault := true } } : State).raise { level := 3, source := 2, reg := some 0x3000C })

/-- LIMIT_UNREACHABLE (R409). -/
def execLimitUnreachable (s : State) : Out :=
  .next (if s.power.atMaxRun < 100 ∨ s.power.unreachable then s
    else ({ s with power := { s.power with unreachable := true } } : State).raise { level := 4, source := 2, reg := some 0x3000C })

/-! ## The voltage loop (R410) -/

/-- The core rails' next set point. -/
def Power.nextRail (p : Power) (ceiling : Nat) : Nat :=
  let v := p.rails.getD 0 0
  if 4 * p.loopCount < p.loopSum then max 650 (v - 10) else if p.loopZero && p.loopBelow then min ceiling (v + 10) else v

/-- VOLTAGE_LOOP_STEP: every 10 ms, one set point for all four compute dies. -/
def execVoltageLoopStep (s : State) : Out :=
  .next (if !s.pins.pwrGood then s
    else
      let v := s.power.nextRail (s.cfg.ceiling.getD 900)
      { s with power := { s.power with rails := List.replicate 4 v ++ s.power.rails.drop 4, loopSum := 0, loopCount := 0, loopZero := true, loopBelow := true } })

/-! ## Fast limit, brake, trips (R407, R408, R411, R454) -/

/-- FAST_LIMIT_TRIP: the component is 56; a notice at most once per second. -/
def execFastLimitTrip (s : State) : Out :=
  .next (if !s.pins.pwrGood then s
    else
      let now := s.st.now.toNat
      let p := ({ s.power with kFast := 56, fastAt := some now } : Power).apply
      if noticeDue s.power.lastFast now then
        ({ s with power := { p with lastFast := some now } } : State).raise { level := 1, source := 2, reg := some 0x3000C }
      else { s with power := p })

/-- FAST_LIMIT_END: 100 µs after the last trip. -/
def execFastLimitEnd (s : State) : Out :=
  .next (match s.power.fastAt with
    | none => s
    | some t => if t + 100 * microsecond ≤ s.st.now.toNat then { s with power := ({ s.power with kFast := 0, fastAt := none } : Power).apply } else s)

/-- The brake acts, with a notice at most once per second. -/
def State.brakeOn (s : State) : State :=
  let now := s.st.now.toNat
  let p := ({ s.power with brake := true } : Power).apply
  if noticeDue s.power.lastBrake now then
    ({ s with power := { p with lastBrake := some now } } : State).raise { level := 1, source := 2, reg := some 0x3000C }
  else { s with power := p }

/-- PWRBRAKE_ASSERT: before the compute dies are released it only waits for their release (18 R454). -/
def execPwrbrakeAssert (s : State) : Out :=
  .next (
    let t : State := { s with pins := { s.pins with pwrbrakeN := false } }
    if s.pins.pwrbrakeN = true ∧ s.pins.pwrGood = true ∧ s.mesa.stage = 0xF then t.brakeOn else t)

/-- PWRBRAKE_RELEASE: the component returns to zero at the next evaluation. -/
def execPwrbrakeRelease (s : State) : Out :=
  .next { s with pins := { s.pins with pwrbrakeN := true } }

/-- RAIL_MONITOR_EXCURSION (R411): the die is reset; the reset's cause is none of R393's (log 85). -/
def execRailMonitorExcursion (die : Nat) (s : State) : Out := withUnit die 4 (if s.pins.pwrGood then s.resetDomain 3 die 0 0 [] none else s)

end Sys2Proof.Machine
end

