-- ==== Sys2Proof/Machine/Trust.lean ====
section
/-! DEFINITION. REINSTATE, ATTEST, measurements and SPDM (16 R419, R422, R426 to R429, R432, 14 R397, 12 R361). -/

namespace Sys2Proof.Machine

/-! ## Measurements and signatures (R426, R428) -/

/-- The type of the object that a measurement covers, 0 for none. -/
def measuredType (i : Nat) : Nat := [0, 5, 1, 2, 3, 4, 6, 0, 0].getD i 0

/-- The version that was loaded of a type. -/
def Mesa.version (m : Mesa) (t : Nat) : Nat := m.loaded.getD (t - 1) 0

/-- What tells the object of a measurement apart: version and bank of an image, the record that was selected. -/
def Mesa.measuredKey (m : Mesa) (i : Nat) : Nat :=
  let t := measuredType i
  if i = 7 then m.healthAt else if t = 0 then 0 else 2 * m.version t + m.bankB / 2 ^ (t - 1) % 2

/-- A measurement: of the lifecycle byte as it stands, of the rest as the boot found it (log 86). -/
def Mesa.measurement (m : Mesa) (i : Nat) : List Byte :=
  if i = 8 then sha3 ((if m.lifecycle then 1 else 0) :: zeros 31) else (List.range 32).map (Config.measured i (m.measuredKey i))

/-- The security version in an attestation entry. -/
def Mesa.entryVersion (m : Mesa) (i : Nat) : List Byte :=
  if measuredType i = 0 then (List.range 4).map (fun j => Config.measured i 0 (32 + j)) else leBytes 4 (m.version (measuredType i))

/-- An ML-DSA-44 signature over a message; each has its own randomness. -/
def Mesa.sign (m : Mesa) (message : List Byte) : List Byte := (List.range 2420).map (Config.signature m.signed message)

def State.signed (s : State) : State := { s with mesa := { s.mesa with signed := s.mesa.signed + 1 } }

/-- The certificate chain. -/
def chain : List Byte := (List.range (min Config.chainLength 65472)).map Config.certificate

/-! ## ATTEST (R428) -/

/-- Body of an attestation. -/
def State.attestBody (s : State) (kind : Nat) : List Byte :=
  match kind with
  | 1 => (List.range 9).flatMap (fun i => [BitVec.ofNat 8 i, 1, 0, 0] ++ s.mesa.entryVersion i ++ zeros 8 ++ s.mesa.measurement i)
  | 2 => chain
  | _ => (List.range 1312).map Config.identityKey ++ leBytes 8 s.health.counter ++ zeros 24

/-- The response: header, body, and for kinds 0x01 and 0x03 a signature over both. -/
def State.attestation (s : State) (kind : Nat) (nonce : List Byte) : List Byte :=
  let body := s.attestBody kind
  let message := ascii "VXATTEST" ++ [BitVec.ofNat 8 kind, 0, 0, 0] ++ leBytes 4 body.length ++ leBytes 8 s.cfg.serial.toNat ++ leBytes 8 s.st.now.toNat ++ nonce ++ body
  if kind = 2 then message else message ++ s.mesa.sign message

/-- ATTEST: the result is the number of bytes written; a failed Mesa controller attests nothing. -/
def execAttest (id : Nat) (s : State) : Out :=
  withCmd id 0x13 s (fun c =>
    let kind := c.fieldAt 16 1
    let a := c.fieldAt 24 8
    s.checked id [wantArg (a % 64 == 0) outOfRange 24]
      (if s.mesa.failed then s.complete id 0x42 0 []
       else
         let bytes := s.attestation kind ((c.bytes.drop 32).take 32)
         let t := if kind = 2 then s else s.signed
         (t.busWrite a bytes).complete id ok bytes.length []))

/-! ## REINSTATE (R419, R422, R429, 14 R397) -/

/-- The larger of the two floors of a type (R422). -/
def State.floor (s : State) (t : Nat) : Nat := max (s.health.floors.getD (t - 1) 0) (s.cfg.floors.getD (t - 1) 0)

/-- Is a reinstatement record accepted: an object of type 7 for this module that verifies and names the next counter value? -/
def State.reinstates (s : State) (r : List Byte) : Bool :=
  let body := (r.drop 128).take 64
  r.take 8 == ascii "VXIMAGE1" && msgNat r 8 2 == 7 && decide (msgNat r 10 1 ≤ 7) && msgNat r 11 1 == 0 && decide (s.floor 7 ≤ msgNat r 12 4)
    && msgNat r 16 8 == 64 && (r.drop 24).take 32 == sha3 body && msgNat r 56 8 == s.cfg.serial.toNat && msgNat r 64 64 == 0
    && Config.verifies (msgNat r 10 1) (r.take 128) ((r.drop 192).take 2420)
    && body.take 8 == ascii "VXREINST" && msgNat body 8 8 == s.cfg.serial.toNat && msgNat body 16 8 == s.health.counter + 1 && msgNat body 24 40 == 0

/-- The module comes back: counter, record, counts, reply, and a reset of kind 0x07 that is not counted. -/
def State.reinstate (s : State) (id : Nat) : State :=
  let s : State := { s with
    health := ({ s.health with outOfService := false } : Health).written
    rst := { s.rst with outOfService := false, hour := 0, day := 0 } }
  (s.complete id ok 0 []).beginReset ⟨7, 0, 0, 7, false, [], none, 0, 1⟩

/-- REINSTATE: in service it changes nothing (12 R361); `host` is the record in host memory. -/
def execReinstate (id : Nat) (host : List Byte) (s : State) : Out :=
  withCmd id 0x12 s (fun c =>
    if !s.rst.outOfService then s.complete id ok 0 []
    else s.checked id [wantArg (c.fieldAt 16 4 == 2612) outOfRange 16, wantArg (c.fieldAt 24 8 % 64 == 0) outOfRange 24]
      (if s.mesa.failed || !s.reinstates ((host ++ zeros 2612).take 2612) then s.complete id 0x42 0 [] else s.reinstate id))

/-! ## SPDM (R427, R432) -/

/-- Transports: 0 the mailbox of the PCIe link, 1 MCTP over SMBus, 2 MCTP over PCIe messages. Does one reach the Mesa controller? -/
def State.spdmReaches (s : State) (transport : Nat) : Bool :=
  s.pins.pwrGood && !s.mesa.failed && (match transport with
    | 0 => s.host.linkUp && !s.resetting 8
    | 1 => true
    | 2 => s.host.linkUp
    | _ => false)

/-- A request that reaches the controller is answered on its transport. -/
def withSpdm (transport : Nat) (s : State) (f : State) : Out := .next (if s.spdmReaches transport then f else s)

def State.respond (s : State) (transport : Nat) (m : SpdmMsg) : State := { s with mesa := { s.mesa with spdmOut := nset s.mesa.spdmOut transport m } }

/-- An error answer to a request code, with an SPDM error code. -/
def spdmError (request error : Nat) : SpdmMsg := ⟨request, 0, [BitVec.ofNat 8 error], true⟩

/-- Without the exchange that comes before it a request is unexpected (PRESUMED, log 87). -/
def State.answer (s : State) (transport request : Nat) (ready : Bool) (f : State) : State :=
  if ready then f else s.respond transport (spdmError request 0x04)

/-- GET_VERSION: version 1.2; the exchange begins anew. -/
def execGetVersion (transport : Nat) (s : State) : Out :=
  withSpdm transport s
    (let m := { s.mesa with spdmVersion := s.mesa.spdmVersion.filter (· != transport) ++ [transport], spdmCaps := s.mesa.spdmCaps.filter (· != transport)
                            spdmNegotiated := s.mesa.spdmNegotiated.filter (· != transport) }
     ({ s with mesa := m } : State).respond transport ⟨0x84, 0, [0x12], false⟩)

/-- GET_CAPABILITIES: certificates, challenge and measurements with signatures; no secure session, pre-shared key or mutual authentication. -/
def execGetCapabilities (transport : Nat) (s : State) : Out :=
  withSpdm transport s (s.answer transport 0xE1 (s.mesa.spdmVersion.contains transport)
    (({ s with mesa := { s.mesa with spdmCaps := s.mesa.spdmCaps.filter (· != transport) ++ [transport] } } : State).respond transport ⟨0xE1, 0, [0x12, 0x16], false⟩))

/-- NEGOTIATE_ALGORITHMS: SHA3-256 and ML-DSA-44, if the requester offers both. -/
def execNegotiateAlgorithms (transport : Nat) (sha3Offered mldsaOffered : Bool) (s : State) : Out :=
  withSpdm transport s (s.answer transport 0xE3 (s.mesa.spdmCaps.contains transport)
    (let both := sha3Offered && mldsaOffered
     let rest := s.mesa.spdmNegotiated.filter (· != transport)
     ({ s with mesa := { s.mesa with spdmNegotiated := if both then rest ++ [transport] else rest } } : State).respond transport
       ⟨0xE3, 0, [if sha3Offered then 1 else 0, if mldsaOffered then 1 else 0], false⟩))

/-- GET_DIGESTS: the digest of the chain of slot 0. -/
def execGetDigests (transport : Nat) (s : State) : Out :=
  withSpdm transport s (s.answer transport 0x81 (s.mesa.spdmNegotiated.contains transport) (s.respond transport ⟨0x81, 0, sha3 chain, false⟩))

/-- GET_CERTIFICATE: a portion of the chain of slot 0; any other slot is an invalid request. -/
def execGetCertificate (transport slot offset len : Nat) (s : State) : Out :=
  withSpdm transport s (s.answer transport 0x82 (s.mesa.spdmNegotiated.contains transport)
    (s.respond transport (if slot = 0 then ⟨0x82, 0, (chain.drop offset).take len, false⟩ else spdmError 0x82 0x01)))

/-- CHALLENGE: signed with the identity key over the chain's digest and the nonce. -/
def execChallenge (transport slot : Nat) (nonce : List Byte) (s : State) : Out :=
  withSpdm transport s (s.answer transport 0x83 (s.mesa.spdmNegotiated.contains transport)
    (if slot = 0 then s.signed.respond transport ⟨0x83, 0, sha3 chain ++ nonce ++ s.mesa.sign (sha3 chain ++ nonce), false⟩
     else s.respond transport (spdmError 0x83 0x01)))

/-- The measurement blocks of an index, 0xFF for all of them. -/
def Mesa.blocks (m : Mesa) (index : Nat) : List Byte :=
  ((List.range 9).filter (fun i => index = 0xFF ∨ index = i)).flatMap (fun i => BitVec.ofNat 8 i :: m.measurement i)

/-- GET_MEASUREMENTS. -/
def execGetMeasurements (transport index : Nat) (sign : Bool) (nonce : List Byte) (s : State) : Out :=
  withSpdm transport s (s.answer transport 0xE0 (s.mesa.spdmNegotiated.contains transport)
    (let body := s.mesa.blocks index
     if body.isEmpty then s.respond transport (spdmError 0xE0 0x01)
     else if sign then s.signed.respond transport ⟨0xE0, 0, body ++ nonce ++ s.mesa.sign (body ++ nonce), false⟩
     else s.respond transport ⟨0xE0, 0, body, false⟩))

/-- SPDM_UNSUPPORTED_REQUEST: the error UnsupportedRequest, with the request's code. -/
def execSpdmUnsupportedRequest (transport code : Nat) (s : State) : Out :=
  withSpdm transport s (s.respond transport ⟨code, 0, [0x07, BitVec.ofNat 8 code], true⟩)

end Sys2Proof.Machine
end

