-- ==== Sys2Proof/Machine/Boot.lean ====
section
/-! DEFINITION. Boot, flash, firmware update, supply and reset pins, the link, SMBus and the TAP (16 R418 to R425, R431, 18 R448 to R459, 12 R333, R334). -/

namespace Sys2Proof.Machine

/-! ## Images (16 R419, R422) -/

/-- The failure code of an image of a type, 0 if it is acceptable. -/
def State.imageFault (s : State) (t : Nat) (x : FlashImage) : Nat :=
  if !x.verifies || !x.digestOk then 2
  else if x.version < s.floor t then 3
  else if (t = 6 ∨ x.serial ≠ 0) ∧ x.serial ≠ s.cfg.serial then 4
  else 0

/-- The image of a type in a bank. -/
def Flash.image (f : Flash) (t : Nat) (b : Bool) : FlashImage := (if b then f.bankB else f.bankA).getD (t - 1) ⟨0, false, false, 0⟩

/-- The boot stops with a code and the type that failed. -/
def State.bootFails (s : State) (code t : Nat) : State := { s with mesa := { s.mesa with stage := 0xE, failure := code, typ := t } }

/-- An image of a bank is loaded. -/
def State.loadImage (s : State) (t : Nat) (b : Bool) : State :=
  let n := 2 ^ (t - 1)
  let bits := s.mesa.bankB / (2 * n) * (2 * n) + (if b then n else 0) + s.mesa.bankB % n
  { s with mesa := { s.mesa with loaded := updAt s.mesa.loaded (t - 1) (fun _ => (s.flash.image t b).version), bankB := bits } }

/-- A type is loaded from the active bank, else from the other, with a notice and that bank active from now on. If both fail, which of the two codes
shows is open (log 88). -/
def State.loadType (s : State) (t : Nat) : State :=
  let b := s.health.bankB.getD (t - 1) false
  let first := s.imageFault t (s.flash.image t b)
  let second := s.imageFault t (s.flash.image t (!b))
  if first = 0 then s.loadImage t b
  else if second = 0 then
    (({ s.loadImage t (!b) with health := ({ s.health with bankB := updAt s.health.bankB (t - 1) (fun _ => !b) } : Health).written } : State)).raise { level := 1, source := 8, count := t }
  else s.spend.bootFails (if s.fresh % 2 = 0 then first else second) t

/-- The next type, if the boot has not failed. -/
def State.thenType (s : State) (t : Nat) : State := if s.mesa.stage = 0xE then s else s.loadType t

def State.atStage (s : State) (n : Nat) : State := if s.mesa.stage = 0xE then s else { s with mesa := { s.mesa with stage := n } }

/-! ## Stages (R421, R425) -/

/-- The core map after a reset: each position has the core of its own number, or for a retired core the next spare of the die (log 18). -/
def bootMap (h : Health) (perDie die : Nat) : List (Nat × Nat) :=
  let spares := (List.range 136).filter (fun p => decide (perDie ≤ p) && !h.retiredCores.contains (die, p))
  ((List.range perDie).filter (fun p => h.retiredCores.contains (die, p))).zipIdx.map (fun (x : Nat × Nat) => (136 * die + x.1, spares.getD x.2 255))

/-- Stage 0x3: the copy whose counter field is the counter, or one more, in which case the increment is completed. -/
def State.readHealth (s : State) : State :=
  let h := s.health
  let adopt := fun (h : Health) =>
    { s with
      health := h
      mesa := { s.mesa with healthAt := h.counter }
      rst := { s.rst with outOfService := h.outOfService, total := h.total }
      faults := { s.faults with
        map := (List.range 4).flatMap (bootMap h s.cfg.perDie)
        folded := (List.range 4).map (fun d => (bootMap h s.cfg.perDie d).any (fun x => x.2 == 255)) } }
  if h.copies.contains h.counter then adopt h
  else if h.copies.contains (h.counter + 1) then adopt { h with counter := h.counter + 1 }
  else s.bootFails 5 0

/-- Floors that the configuration record raises enter the health record. -/
def State.raiseFloors (s : State) : State :=
  let floors := (List.range 8).map (fun i => max (s.health.floors.getD i 0) (s.cfg.floors.getD i 0))
  if floors = s.health.floors then s else { s with health := ({ s.health with floors := floors } : Health).written }

/-- The last stage is over: memory is trained, the dies are released, and a brake that waited acts. -/
def State.isReady (s : State) : State :=
  if s.mesa.stage = 0xE then s
  else
    let s := ({ s with mesa := { s.mesa with stage := 0xF } } : State).raiseFloors
    let s := [0, 1, 2, 3].foldl (fun (s : State) d => if s.retired d = 0 then s else s.degrade (200 + d)) s
    let s := [0, 1, 2, 3].foldl (fun (s : State) d => if s.faults.folded.getD d false then s.degrade (100 + d) else s) s
    if !s.pins.pwrbrakeN then s.brakeOn else s

/-- Stage 0x6: the configuration record's fields take effect. -/
def State.configure (s : State) : State :=
  let fault := s.imageFault 6 s.flash.config
  if fault = 2 ∨ fault = 4 then s.bootFails fault 6
  else if !s.flash.configMatches then s.bootFails 7 6
  else
    let limit := s.cfg.powerLimit.getD 4000
    { s with
      mesa := { s.mesa with loaded := updAt s.mesa.loaded 5 (fun _ => s.flash.config.version), stage := 7 }
      power := { s.power with setLimit := limit, effective := limit }
      st := { s.st with gmPriority := s.cfg.priority.getD 128 } }

/-- The stage in progress ends, and the next begins. -/
def State.bootStage (s : State) : State :=
  let s : State := { s with flash := { s.flash with retries := 0 } }
  if s.mesa.stage ≠ 0 ∧ s.mesa.stage ≠ 0xF ∧ s.flash.readable = false then s.bootFails 8 0
  else match s.mesa.stage with
    | 0 => s.atStage 1
    | 1 => if s.flash.rootOk then s.atStage 2 else s.bootFails 1 0
    | 2 =>
      if !s.flash.manifestOk then s.bootFails 2 5
      else if (s.flash.image 5 false).version < s.floor 5 then s.bootFails 3 5
      else ({ s with mesa := { s.mesa with loaded := updAt s.mesa.loaded 4 (fun _ => (s.flash.image 5 false).version) } } : State).atStage 3
    | 3 => s.readHealth.atStage 4
    | 4 => ((s.loadType 1).thenType 2).atStage 5
    | 5 => if s.flash.identityOk then s.atStage 6 else s.bootFails 6 0
    | 6 => s.configure
    | 7 => ((s.loadType 3).thenType 4).isReady
    | _ => s

/-- Can the boot run: power is good, MOD_RESET_N is released, and the controller works? -/
def State.boots (s : State) : Bool := s.pins.pwrGood && s.pins.modResetN && !s.mesa.failed && s.mesa.stage != 0xF && s.mesa.stage != 0xE

/-- BOOT (16 R421): one stage. -/
def execBoot (s : State) : Out := .next (if s.boots then s.bootStage else s)

/-- FLASH_TRANSACTION_TIMEOUT (18 R453): three retries, then the boot fails. Writes of the health record are whole steps (log 11). -/
def execFlashTransactionTimeout (s : State) : Out :=
  .next (if s.boots && s.mesa.stage != 0 then
      if s.flash.retries < 3 then { s with flash := { s.flash with retries := s.flash.retries + 1 } }
      else ({ s with flash := { s.flash with retries := 0 } } : State).bootFails 8 0
    else s)

/-- FIRMWARE_UPDATE (16 R422, R432): the image enters the inactive bank; one that verifies is active from the next module reset (log 89). -/
def execFirmwareUpdate (typ version : Nat) (verifies digestOk : Bool) (serial : W64) (s : State) : Out :=
  .next (if !s.pins.pwrGood || s.mesa.failed || !inRange 1 4 typ then s
    else
      let b := s.health.bankB.getD (typ - 1) false
      let x : FlashImage := ⟨version, verifies, digestOk, serial⟩
      let put := fun (l : List FlashImage) => updAt l (typ - 1) (fun _ => x)
      let flash := if b then { s.flash with bankA := put s.flash.bankA } else { s.flash with bankB := put s.flash.bankB }
      let t : State := { s with flash := flash }
      if s.imageFault typ x = 0 then { t with health := ({ t.health with bankB := updAt t.health.bankB (typ - 1) (fun _ => !b) } : Health).written } else t)

/-! ## Supply (18 R456 to R459, 15 R413) -/

/-- Every rail is off: what has no home in flash or on the board is gone; a reset in progress is abandoned. -/
def State.powerLost (s : State) (pins : Pins) : State :=
  { State.reset with
    pending := s.pending, cfg := s.cfg, health := s.health, flash := { s.flash with retries := 0 }
    mesa := { Mesa.reset with failed := s.mesa.failed, signed := s.mesa.signed }
    pins := { pins with pwrGood := false, railsOn := false, smbBusy := none, tap := 0, tapOut := none }
    host := { HostIf.reset with msixSent := s.host.msixSent, busWrites := s.host.busWrites, nextCmd := s.host.nextCmd }
    power := { Power.resetWith (s.cfg.powerLimit.getD 4000) with lost := s.power.lost, fitted := s.power.fitted }
    rst := { ResetState.reset with outOfService := s.health.outOfService, total := s.health.total }
    seif := { Seif.reset with out := s.seif.out, nextTag := s.seif.nextTag }
    net := { Net.reset with nextId := s.net.nextId, badLinks := s.net.badLinks }
    xlVersion := s.xlVersion, freeCount := s.freeCount }

/-- INPUT_POWER_APPLIED (R456). -/
def execInputPowerApplied (s : State) : Out := .next { s with pins := { s.pins with input48 := true } }

/-- PWR_EN_RISE: the rails come up, PWR_GOOD asserts and the straps are sampled (R449), unless a trip or a fault locks the module out (R457). -/
def execPwrEnRise (s : State) : Out :=
  .next (if s.pins.pwrEn then s
    else if s.pins.input48 && !s.pins.lockout then
      { s with pins := { s.pins with pwrEn := true, pwrGood := true, railsOn := true, smbAddr := 0x58 + s.pins.straps % 8 } }
    else { s with pins := { s.pins with pwrEn := true } })

/-- PWR_EN_FALL (R456, R458, R459): power-down takes precedence; a lock-out and the keeper of THERMTRIP_N end. -/
def execPwrEnFall (s : State) : Out :=
  .next (if s.pins.pwrEn then s.powerLost { s.pins with pwrEn := false, lockout := false, thermtripN := true } else s)

/-- INPUT_VOLTAGE_FAULT (R457): rails drop; with PWR_EN high the module stays off until PWR_EN is cycled. -/
def execInputVoltageFault (s : State) : Out := .next (s.powerLost { s.pins with input48 := false, lockout := s.pins.lockout || s.pins.pwrEn })

/-- THERMAL_TRIP (15 R413, R458). -/
def execThermalTrip (s : State) : Out := .next (if s.pins.railsOn then s.powerLost { s.pins with thermtripN := false, lockout := true } else s)

/-! ## Reset pins and the link (18 R453, R459, 12 R333, R334) -/

/-- A reset pin that falls performs kind 0x08 with cause 0x6. -/
def State.pinReset (s : State) : State := if s.pins.pwrGood then s.moduleReset 8 6 else s

/-- The boot begins anew, also where the reset was absorbed into one in progress. -/
def State.bootAgain (s : State) : State := { s with mesa := { s.mesa with stage := 0, failure := 0, typ := 0, bankB := 0 } }

/-- MOD_RESET_N_ASSERT. -/
def execModResetNAssert (s : State) : Out :=
  .next (if s.pins.modResetN then ({ s with pins := { s.pins with modResetN := false } } : State).pinReset.bootAgain else s)

/-- MOD_RESET_N_RELEASE: the boot may run. -/
def execModResetNRelease (s : State) : Out := .next { s with pins := { s.pins with modResetN := true } }

/-- PERST_N_ASSERT (14 R389). -/
def execPerstNAssert (s : State) : Out :=
  .next (if s.pins.perstN then ({ s with pins := { s.pins with perstN := false } } : State).pinReset else s)

/-- PERST_N_RELEASE: the link may train. -/
def execPerstNRelease (s : State) : Out := .next { s with pins := { s.pins with perstN := true } }

/-- FUNCTION_LEVEL_RESET (12 R334, 14 R389): kind 0x07, cause 0x6. -/
def execFunctionLevelReset (s : State) : Out := .next (if s.pins.pwrGood && s.reachable then s.moduleReset 7 6 else s)

/-- The link goes down. -/
def State.linkDown (s : State) : State := { s with host := { s.host with linkUp := false, linkSpeed := 0, linkWidth := 0 } }

/-- HOT_RESET (12 R333): the endpoint resets: its link and configuration; the module behind it goes on (log 83). -/
def execHotReset (s : State) : Out :=
  .next (if s.host.linkUp then
    ({ s with host := { s.host with msixTable := [], msixEnable := false, functionMask := false, pba := 0 } } : State).linkDown else s)

/-- Can the link train: the endpoint is released and out of reset, and REFCLK is there? -/
def State.canTrain (s : State) : Bool :=
  s.pins.pwrGood && s.pins.perstN && s.pins.refclk && !s.host.linkUp && (decide (4 < s.mesa.stage) || s.resetting 7)

/-- LINK_TRAINED (12 R333, R334): below 128 GT/s or x16 it raises a warning. -/
def execLinkTrained (speed width : Nat) (s : State) : Out :=
  .next (if s.canTrain && [16, 32, 64, 128].contains speed && [4, 8, 16].contains width then
      let t : State := { s with host := { s.host with linkUp := true, linkSpeed := speed, linkWidth := width } }
      if speed < 128 ∨ width < 16 then t.raise { level := 2, source := 9 } else t
    else s)

/-- REFCLK_LOSS (18 R453). -/
def execRefclkLoss (s : State) : Out := .next ({ s with pins := { s.pins with refclk := false } } : State).linkDown

/-- REFCLK_RETURN. -/
def execRefclkReturn (s : State) : Out := .next { s with pins := { s.pins with refclk := true } }

/-! ## SMBus and TAP (18 R449, R453, R455) -/

/-- SMBUS_TRANSACTION: the module takes one for its own address. -/
def execSmbusTransaction (addr : Nat) (s : State) : Out :=
  .next (if s.pins.pwrGood && addr == s.pins.smbAddr then
    { s with pins := { s.pins with smbBusy := some s.st.now.toNat, smbTaken := s.pins.smbTaken ++ [addr] } } else s)

/-- SMBUS_CLOCK_TIMEOUT: the module releases the bus and discards the transaction. -/
def execSmbusClockTimeout (s : State) : Out :=
  .next (if s.pins.smbBusy.isSome then { s with pins := { s.pins with smbBusy := none, smbTaken := s.pins.smbTaken.dropLast } } else s)

/-- What the TAP makes of an instruction (codes: log 90): 0 BYPASS, 1 IDCODE, 2 SAMPLE/PRELOAD, 3 EXTEST, which a ready module refuses. -/
def State.tapTakes (s : State) (ir : Nat) : Nat :=
  if ir = 1 ∨ ir = 2 then ir else if ir = 3 ∧ !(s.pins.pwrGood && s.mesa.stage == 0xF) then 3 else 0

/-- TAP_INSTRUCTION (R455): the lifecycle byte is set; IDCODE shows 0x0004_5659. -/
def execTapInstruction (ir : Nat) (s : State) : Out :=
  .next (if s.pins.railsOn then
      let n := s.tapTakes ir
      { s with pins := { s.pins with tap := n, tapOut := if n = 1 then some 0x00045659 else none }, mesa := { s.mesa with lifecycle := true } }
    else s)

end Sys2Proof.Machine
end

