-- ==== Sys2Proof/Machine/Contexts.lean ====
section
/-! DEFINITION. Schedule, caravan, pre-emption, restore and teardown rows (13 R370 to R380). -/

namespace Sys2Proof.Machine

/-- SLICE_BOUNDARY (R370): the schedule is decided. -/
def execSliceBoundary (s : State) : Out := .next s.schedule

/-! ## The caravan (R372 to R374) -/

/-- CARAVAN_TABLE_ACTIVATION (R372): an accepted table replaces the previous one at its frame start. -/
def execCaravanTableActivation (s : State) : Out :=
  .next (match s.caravan.next with
    | none => s
    | some t => if t.start ≤ s.st.now.toNat then { s with caravan := { s.caravan with table := some t, next := none, armed := [], openWindows := [] } } else s)

/-- Opening times of a window: the latest at or before a time, and the first after it. -/
def openings (t : CaravanTable) (w : CaravanWindow) (now : Nat) : Option Nat × Nat :=
  let first := t.start + w.offset * microsecond
  let frame := t.frame * microsecond
  if now < first then (none, first) else (some (first + (now - first) / frame * frame), first + ((now - first) / frame + 1) * frame)

/-- The lead of a window (R373): by the contexts that hold its cores, longer if its own context is Saved. -/
def State.lead (s : State) (k : Nat) (c : Ctx) : Nat :=
  let holders := (s.rivals k c).filter (fun x => x.2.status == .running)
  (if holders.all (fun x => x.2.small) then 150 else 400) * microsecond + (if c.status == .saved then 100 * microsecond else 0)

/-- A context that holds the cores of a window is asked to leave; one in a stretch is named in a notice with the window's context, at most once per window
context per second (R374; the notice's fields: log 76). -/
def State.clearFor (s : State) (k opens : Nat) (x : Nat × Ctx) : State :=
  let s' := s.askToLeave x.1 opens
  let last := nfind s.caravan.lastNotice k
  if s.inStretch x.1 x.2 && noticeDue last s.st.now.toNat then
    ({ s' with caravan := { s'.caravan with lastNotice := nset s'.caravan.lastNotice k s.st.now.toNat } } : State).raise
      { level := 1, source := 5, ctx := some x.1, count := k }
  else s'

/-- CARAVAN_LEAD_TIME (R373): the contexts that hold the window's cores are asked to leave; if its own is not runnable the window stays empty. -/
def execCaravanLeadTime (i : Nat) (s : State) : Out :=
  .next (match s.window? i with
    | none => s
    | some (t, w) =>
      match s.windowCtx w with
      | none => s
      | some c =>
        let opens := (openings t w s.st.now.toNat).2
        if c.runnable && decide (opens ≤ s.st.now.toNat + s.lead w.ctx c) && !s.caravan.armed.contains i then
          let s := { s with caravan := { s.caravan with armed := s.caravan.armed ++ [i] } }
          ((s.rivals w.ctx c).filter (fun x => x.2.status == .running)).foldl (fun s x => s.clearFor w.ctx opens x) s
        else s)

/-- CARAVAN_WINDOW_OPEN (R373): the window's context, if it was runnable at the lead time, comes onto its cores and stays until the close. -/
def execCaravanWindowOpen (i : Nat) (s : State) : Out :=
  .next (match s.window? i with
    | none => s
    | some (t, w) =>
      match (openings t w s.st.now.toNat).1 with
      | none => s
      | some opened =>
        if s.caravan.armed.contains i && decide (s.st.now.toNat < opened + w.length * microsecond) then
          let s := { s with caravan := { s.caravan with armed := s.caravan.armed.filter (· != i), openWindows := s.caravan.openWindows ++ [i] } }
          (match s.windowCtx w with
           | none => s
           | some c => if c.runnable && c.status != .running then (s.putCtx w.ctx { c with resume := true }).settleCores else s)
        else s)

/-- CARAVAN_WINDOW_CLOSE (R373, R374): the context returns to share scheduling; an exclusive one is pre-empted, and one that has not come yet stays. -/
def execCaravanWindowClose (i : Nat) (s : State) : Out :=
  .next (match s.window? i with
    | none => s
    | some (t, w) =>
      let closed := match (openings t w s.st.now.toNat).1 with | none => false | some o => decide (o + w.length * microsecond ≤ s.st.now.toNat)
      if closed && (s.caravan.openWindows.contains i || s.caravan.armed.contains i) then
        let s := { s with caravan := { s.caravan with armed := s.caravan.armed.filter (· != i), openWindows := s.caravan.openWindows.filter (· != i) } }
        match s.windowCtx w with
        | none => s
        | some c =>
          if c.status == .running then (if w.exclusive then s.askToLeave w.ctx s.st.now.toNat else s)
          else s.putCtx w.ctx { c with resume := false }
      else s)

/-! ## Pre-emption and restore (R375 to R377, R380) -/

/-- Does a core of a large partition stand at a seq.tb with everything before it complete (R375)? -/
def atBoundary (v : Env) (x : Core) : Bool :=
  x.seq.ended || (x.quiescent && (match v.wordAt x with | none => true | some w => opClass w == 0 && opCode w == 0x05))

/-- May the context leave now: asked to, no stretch, its issued requests and launched hops done, a large partition at its boundaries? -/
def State.mayLeave (s : State) (k : Nat) (c : Ctx) : Bool :=
  c.status == .running && c.preempt && !s.inStretch k c
    && s.net.requests.all (fun r => r.ctx != k) && s.net.packets.all (fun p => p.ctx != k) && c.cores.all (fun x => x.2.sends.all (·.launch.isNone))
    && (c.small || c.run.isNone || c.cores.all (fun x => x.2.folded || atBoundary (s.env c x.1 x.2) x.2))

/-- The µs by which a stretch ran past the time the context had to leave (R374). -/
def Ctx.overrunUs (c : Ctx) (now : Nat) : Nat := match c.lateFrom with | none => 0 | some t => (now - t) / microsecond

/-- PREEMPTION_SAVE_COMPLETE (R375, R380): at the tile boundaries of a large partition pending changes of the core map come first; then the context's
state lies in its save area, its overrun is charged, a due sieve is taken, and contexts that were placed come onto the cores. -/
def execPreemptionSaveComplete (k : Nat) (s : State) : Out :=
  withCtx k s (fun c =>
    if s.mayLeave k c then
      let hosts := c.cores.filterMap (fun x => s.coreAt c x.1)
      let s := if c.small then s else (c.cores.filter (fun x => !x.2.folded)).foldl (fun s x => s.settleAt k x.1) s
      let s := s.saveAll k
      let s := s.updCtx k (fun c => { c with status := .saved, preempt := false, lateFrom := none, overrun := satAdd 32 c.overrun (c.overrunUs s.st.now.toNat) })
      let s := hosts.dedup.foldl (fun s h => (s.membersOf c h.1 h.2).foldl (fun s p => s.boundaryCore h.1 p) s) s
      s.settleCores
    else s)

/-- RESTORE_COMPLETE (R364, R375, R380): a placed context's state is read back and it is Running; poison of control state ends it. -/
def execRestoreComplete (k : Nat) (s : State) : Out :=
  withCtx k s (fun c =>
    if c.resume && c.runnable && c.status != .running && s.coresFree k c then
      let stored := c.stored
      let s := s.putCtx k (c.restoreThe s (fun x => !x.folded))
      s.becomeRunning k stored
    else s)

/-! ## Teardown (R379) -/

/-- TEARDOWN_TIMEOUT (R379, 14 R384): quiescence has not been reached within 100 ms: the reset of a partition escalates; after any other closure there is
a capture, and its dies are reset. -/
def execTeardownTimeout (k : Nat) (s : State) : Out :=
  withCtx k s (fun c =>
    if c.status == .closing && decide (c.closedAt.toNat + 100 * millisecond ≤ s.st.now.toNat) && !s.quiet k then
      match s.rst.inProgress.find? (fun r => r.kind == 2 && r.num == k), c.hung with
      | some r, _ => s.escalate r
      | none, true => s.resetDies k c.dies []
      | none, false =>
        let cmd := c.closeCmd.bind s.cmd?
        let s := s.capture k 4 ((cmd.map (fun x => x.tag.toNat)).getD 0) ((cmd.map HostCmd.opcode).getD 0) 3
        let s := (match c.closeCmd with | none => s | some id => s.complete id 0x40 0 [])
        let s := s.updCtx k (fun c => { c with closeCmd := none })
        c.dies.foldl (fun s d => s.resetDomain 3 d 0 3 [] (some k)) s
    else s)

/-! ## BAR2 (12 R335, 07 R195, R213) -/

/-- What a byte of the device address map reads as, and whether it is poisoned. -/
structure Seen where
  byte : Byte
  poisoned : Bool
  deriving DecidableEq, Repr

/-- The context whose core an address of the scratchpad views shows: the Running one of lowest number that has the core, else the lowest resident (log 73). -/
def State.viewCtx (s : State) (l : Nat) : Option Ctx :=
  let has := s.ctxs.filter (fun x => (x.2.core? l).isSome)
  ((has.find? (fun x => x.2.status == .running)).orElse (fun _ => has.head?)).map (·.2)

/-- A byte of a scratchpad view: of the core, or of its slot where its state lies there (R195). -/
def State.viewByte (s : State) (a : Nat) : Option Seen :=
  let l := (a - viewBase) / 0x400000
  let o := (a - viewBase) % 0x400000
  if 0x300000 ≤ o then none
  else match s.viewCtx l with
    | none => none
    | some c => match c.core? l with
      | none => none
      | some x =>
        if x.inSlot && decide (c.savedGranules ≤ o / 64) then some ⟨0, false⟩
        else if x.inSlot then
          let p := c.slotAddr l + row8 + o
          some ⟨sget s.mem.bytes p, s.poisonAt p || sget (bytesToBits (sslice s.mem.bytes (c.slotAddr l + row4.1) row4.2)) (o / 64) != 0⟩
        else some ⟨sget x.sp o, sget x.spPoison (o / 64) != 0⟩

/-- A byte of the device address map, none where nothing answers. -/
def State.deviceByte (s : State) (a : Nat) : Option Seen :=
  match regionOf a with
  | .near _ => some ⟨sget s.mem.bytes a, s.poisonAt a⟩
  | .far => some ⟨sget s.mem.bytes a, s.poisonAt a⟩
  | .view => s.viewByte a
  | _ => none

/-- Can the host reach device memory, and is the address not held while data moves or a reset runs (07 R209, 14 R390)? -/
def State.bar2Ready (s : State) (a : Nat) : Bool :=
  s.reachable && s.writable && (match dieOf a with
    | some d => !s.mem.moving.getD d false && !s.rst.inProgress.any (fun x => x.kind == 3 && x.die == d)
    | none => true)

/-- HOST_BAD_ACCESS counts. -/
def State.hostBad (s : State) : State := { s with host := { s.host with badAccess := satAdd 32 s.host.badAccess 1 } }

/-- BAR2_READ: poison comes back in a poisoned TLP, with a notice. -/
def execBar2Read (off len : Nat) (s : State) : Out :=
  .next (
    let a := s.host.winBase.toNat + off
    if s.bar2Ready a && decide (off + len ≤ 2 ^ 36) then
      let seen := (List.range len).map (fun i => s.deviceByte (a + i))
      if seen.all Option.isSome then
        let poisoned := seen.any (fun x => match x with | none => false | some y => y.poisoned)
        let s := { s with host := { s.host with lastRead := some ⟨seen.map (fun x => match x with | none => 0xFF | some y => y.byte), poisoned⟩ } }
        if poisoned then s.raise { level := 1, source := 4, count := a } else s
      else ({ s with host := { s.host with lastRead := some ⟨List.replicate len 0xFF, false⟩ } } : State).hostBad
    else s)

/-- BAR2_WRITE: near and far memory take it; anything else is discarded and counted. -/
def execBar2Write (off : Nat) (bytes : List Byte) (s : State) : Out :=
  .next (
    let a := s.host.winBase.toNat + off
    if s.bar2Ready a && decide (off + bytes.length ≤ 2 ^ 36) then
      match regionOf a, regionOf (a + bytes.length - 1) with
      | .near _, .near _ => s.store a bytes
      | .far, .far => s.store a bytes
      | _, _ => s.hostBad
    else s)

end Sys2Proof.Machine
end

