-- ==== Sys2Proof/Machine/Jobs.lean ====
section
/-! DEFINITION. Commands that work on a context: DESTROY_CONTEXT, RUN, STEP, PUBLISH_WEIGHTS, CHECKPOINT, SET_SHARES, and the caravan table
(12 R357, R359 to R361, 13 R369 to R372, R378, 01 R26, 10 R302 to R307). -/

namespace Sys2Proof.Machine

/-! ## DESTROY_CONTEXT (12 R361, 13 R378) -/

/-- Step 1 of a closure by the host: RUNs and STEPs that run are CANCELLED, every other command of the context is turned away. -/
def State.destroy (s : State) (id k : Nat) (x : Ctx) : State :=
  let others := (s.cmdsOf k).filter (fun y => y.id != id)
  let runs := others.filter (fun y => y.started && (y.opcode == 0x06 || y.opcode == 0x07))
  let s := s.completeAll (runs.map (·.id)) 0x23
  let s := s.completeAll ((others.filter (fun y => !(y.started && (y.opcode == 0x06 || y.opcode == 0x07)))).map (·.id)) 0x20
  ((tellFailures s k x false).beginClose k).updCtx k (fun y => { y with closeCmd := some id })

/-- DESTROY_CONTEXT: the context is Closing; the command completes with the closure. -/
def execDestroyContext (id : Nat) (s : State) : Out := withCtxCmd id 0x05 s (fun _ k x => (s.begin' id).destroy id k x)

/-! ## RUN (12 R359) -/

/-- A check that a byte names a loaded slot. -/
def Ctx.slotBad (x : Ctx) (slot off : Nat) : List (Option Bad) :=
  [wantArg (decide (slot ≤ 15)) outOfRange off, wantArg ((nfind x.slots slot).isSome) badField off]

/-- RUN: the slot's program becomes the context's, keyed by the step counter (06 R178); it starts once the context is on its cores. -/
def execRun (id : Nat) (s : State) : Out :=
  withCtxCmd id 0x06 s (fun c k x =>
    let slot := c.fieldAt 16 1
    let step := BitVec.ofNat 64 (c.fieldAt 24 8)
    s.checked id (x.slotBad slot 16)
      ((startProgram (s.begin' id) k (RunPhase.of id slot step) (grainKey "VXGRKEY1" x.digestJob step) 0).wake k))

/-! ## STEP (01 R26, 12 R359, 09 R256) -/

/-- A STEP as it is accepted. -/
def StepRun.start (cmd counter : Nat) (slots : List Nat) (supplied : Bool) : StepRun :=
  { cmd := cmd, counter := counter, slots := slots, supplied := supplied, phase := .accepted, attempt := 0, consumed := 0, pending := 0, progDone := false
    votes := [], results := [], waited := [], collFinite := true, collFlags := 0, shardCopied := false, copyTag := none, gate := .empty, prep := .empty, combined := []
    heard := false, decision := none, allocated := false, scalars := [], ownDigest := none, mirrorDigest := none, buddyDigest := none, logTag := none
    logAck := none, logged := false, sentAt := none, commitTime := none, inDoubt := false, outcome := none, reason := 0, mapDigest := zeros 32
    seedDigest := zeros 32, ringNoted := false, batch := 0, batches := 1, source := none, ownStats := none, shards := [], retain := none, poisoned := false
    count := 0, rewards := [], rates := [], digest := none }

/-- Formats that a parameter may have (09 R261). -/
def paramFormat (code : Nat) : Bool :=
  match Format.ofCode code with
  | some .fp32 => true
  | some .bf16 => true
  | some .fp16 => true
  | some (.mx _ _) => true
  | _ => false

/-- Is a range inside memory that a context has mapped (12 R357)? -/
def Ctx.mapped (c : Ctx) (a n : Nat) : Bool := c.granted 0 a n || c.granted 1 a n || c.granted 2 a n

/-- What of the optimiser table depends on the learner container and on mapped memory (09 R261, R262): checked when a STEP names the container (log 80). -/
def Ctx.paramsBad (x : Ctx) (slot : Nat) : List (Option Bad) :=
  match x.learn, nfind x.slots slot with
  | some l, some p =>
    let m := x.desc.modules
    let ts := l.tensorsOf (some p)
    let width := (planeWidths l.algorithm).foldl (· + ·) 0
    let shard := fun (r : Nat) => width * shardLength (flatLength ts) m r
    let buffers := l.buffers.all (fun b => x.mapped b.addr (workSize ts + 96 * l.tracked.length))
    let areas := l.own.all (fun a => x.mapped a.addr (shard x.desc.rank)) && (m == 1 || l.buddy.all (fun a => x.mapped a.addr (shard ((x.desc.rank + m - 1) % m))))
    [wantArg (ts.length == l.params.length && ts.all (fun t => paramFormat t.format)) badField 18, wantArg (buffers && areas) noResources 18]
  | _, _ => []

/-- STEP: a learner's step driver takes it; the counter exceeds that of the latest completed step or restored checkpoint. -/
def execStep (id : Nat) (s : State) : Out :=
  withCtxCmd id 0x07 s (fun c k x =>
    let slots := (List.range 4).map (fun i => c.fieldAt (16 + i) 1)
    let counter := c.fieldAt 24 8
    s.checked id ([wantArg (x.desc.kind == 2) badField 8]
        ++ (if slots.getD 0 0 = 0xFF then [] else x.slotBad (slots.getD 0 0) 16) ++ x.slotBad (slots.getD 1 0) 17 ++ x.slotBad (slots.getD 2 0) 18
        ++ x.slotBad (slots.getD 3 0) 19 ++ x.paramsBad (slots.getD 2 0) ++ [wantArg (match x.lastDone with | none => true | some n => decide (n < counter)) outOfRange 24])
      (((s.begin' id).putCtx k { x with steps := x.steps ++ [StepRun.start id counter slots (c.fieldAt 20 1 % 2 == 1)] }).wake k))

/-! ## PUBLISH_WEIGHTS (12 R360, 10 R302, R303) -/

/-- A version waits for a target; one that waited is never sent and is released. -/
def State.publishTo (s : State) (k id version : Nat) (p : Publication) : State :=
  ((s.setPub k { p with waiting := version, next := p.next ++ [id] }).holdToPublish k version).endHolds k

/-- PUBLISH_WEIGHTS: it completes with its last target; entries of other source ranks are theirs to send. -/
def execPublishWeights (id : Nat) (s : State) : Out :=
  withCtxCmd id 0x08 s (fun c k x =>
    let entry := c.fieldAt 16 4
    let version := if c.fieldAt 20 2 = 0 then x.currentVersion else c.fieldAt 20 2
    let resident := match x.learn with | none => false | some l => version != 0 && l.buffers.any (fun b => b.version == version && (b.state == .current || b.state == .held))
    s.checked id [wantArg (x.desc.kind == 2) badField 8, wantArg (entry == 0xFFFFFFFF || decide (entry < x.desc.pubCount)) outOfRange 16, wantArg resident outOfRange 20]
      (let mine := x.pubs.filter (fun p => entry == 0xFFFFFFFF || p.entry == entry)
       if mine.isEmpty then s.complete id ok 0 []
       else mine.foldl (fun s p => s.publishTo k id version p) (s.begin' id)))

/-! ## CHECKPOINT (12 R360, 10 R305) -/

/-- Does a range of the window lie in a host entry of a context? -/
def State.inHostWindow (s : State) (k a n : Nat) : Bool :=
  match s.entryAt k a with
  | none => false
  | some (_, e) => e.typ == 1 && decide (a + n ≤ e.finish)

/-- CHECKPOINT: the checkpoint service takes the request; a host sink lies in the host window. -/
def execCheckpoint (id : Nat) (s : State) : Out :=
  withCtxCmd id 0x09 s (fun c k x =>
    let sink := c.fieldAt 16 1 / 2 % 2 == 1
    let a := c.fieldAt 24 8
    s.checked id [wantArg (x.desc.kind == 2 && x.desc.ckptAddr != 0) badField 8, wantArg (!sink || (a % 64 == 0 && s.inHostWindow k a 1)) outOfRange 24,
        wantArg (!sink || s.inHostWindow k a (c.fieldAt 32 8)) outOfRange 32]
      (s.begin' id))

/-! ## SET_SHARES (12 R357, 13 R369, R380) -/

def execSetShares (id : Nat) (s : State) : Out :=
  withCtxCmd id 0x0B s (fun c k x =>
    let w := c.fieldAt 16 2
    s.checked id [wantArg (w != 0) outOfRange 16] ((s.putCtx k { x with weight := w }).complete id ok 0 []))

/-! ## SET_CARAVAN_TABLE (13 R372) -/

def State.windowAt (s : State) (a : Nat) : CaravanWindow :=
  ⟨s.loadNat a 1 % 64, s.loadNat (a + 1) 1 % 2 == 1, BitVec.ofNat 16 (s.loadNat (a + 2) 2), s.loadNat (a + 4) 4, s.loadNat (a + 8) 4⟩

def State.caravanAt (s : State) (a : Nat) : CaravanTable :=
  ⟨s.loadNat (a + 8) 8, s.loadNat (a + 16) 4, (List.range (s.loadNat (a + 20) 4)).map (fun i => s.windowAt (a + 32 + 16 * i))⟩

/-- Do the partitions of two windows' contexts overlap? -/
def State.windowsShare (s : State) (x y : CaravanWindow) : Bool :=
  match s.ctx? x.ctx, s.ctx? y.ctx with
  | some a, some b => s.overlap a b
  | _, _ => false

/-- The lead that a window needs after one of another context: by that context's partition (R373; DEDUCED, log 81). -/
def State.leadAfter (s : State) (x : CaravanWindow) : Nat := match s.ctx? x.ctx with | none => 0 | some c => if c.small then 150 else 400

/-- Do two windows come closer than the lead, in a frame or from one frame to the next? -/
def State.tooClose (s : State) (frame : Nat) (x y : CaravanWindow) : Bool :=
  let after := fun (a b : CaravanWindow) => decide (b.offset < a.offset + a.length + s.leadAfter a ∧ a.offset ≤ b.offset)
    || decide (b.offset + frame < a.offset + a.length + s.leadAfter a)
  x.ctx != y.ctx && (after x y || after y x)

/-- The checks of one window at an offset of the table. -/
def State.windowBad (s : State) (a frame o : Nat) : List (Option Bad) :=
  let w := s.windowAt (a + o)
  let there := match s.ctx? w.ctx with | none => false | some c => c.status != .absent
  let epoch := match s.ctx? w.ctx with | none => true | some c => c.epoch == w.epoch
  [want (s.loadNat (a + o) 1 < 64 && there) badField o, want (s.loadNat (a + o + 1) 1 < 2) badField (o + 1), want epoch badField (o + 2),
   want (decide (500 ≤ w.length ∧ w.offset + w.length ≤ frame)) outOfRange (o + 8), want (s.loadNat (a + o + 12) 4 == 0) badField (o + 12)]

/-- The refusals of R372. -/
def State.caravanBad (s : State) (fetched : W64) (a n : Nat) : Option Bad :=
  let t := s.caravanAt a
  let windows := t.windows.zipIdx
  let pairs := windows.flatMap (fun y => (t.windows.take y.2).map (fun x => (x, y.1, 32 + 16 * y.2)))
  match firstBad [s.clean a n, want (s.load a 8 == ascii "VXCARAVN") badField 0,
      want (t.start % microsecond == 0 && decide (fetched.toNat + millisecond ≤ t.start)) outOfRange 8, want (inRange 1000 100000 t.frame) outOfRange 16,
      want (inRange 1 256 (s.loadNat (a + 20) 4)) outOfRange 20, want (s.loadNat (a + 24) 8 == 0) badField 24,
      wantArg (n == 32 + 16 * s.loadNat (a + 20) 4) outOfRange 16] with
  | some b => some b
  | none => firstBad (windows.flatMap (fun y => s.windowBad a t.frame (32 + 16 * y.2))
      ++ pairs.map (fun p => want (!(s.windowsShare p.1 p.2.1 && decide (p.2.1.offset < p.1.offset + p.1.length ∧ p.1.offset < p.2.1.offset + p.2.1.length))) badField (p.2.2 + 4))
      ++ pairs.map (fun p => want (!(s.windowsShare p.1 p.2.1 && s.tooClose t.frame p.1 p.2.1)) noResources (p.2.2 + 4)))

/-- SET_CARAVAN_TABLE: an accepted table replaces the previous one at its frame start; a length of 0 clears the table. -/
def execSetCaravanTable (id : Nat) (s : State) : Out :=
  withCmd id 0x0C s (fun c =>
    let n := c.fieldAt 16 4
    let a := c.fieldAt 24 8
    if n = 0 then ({ s with caravan := { Caravan.reset with lastNotice := s.caravan.lastNotice } } : State).complete id ok 0 []
    else s.checked id [wantArg (decide (32 ≤ n)) outOfRange 16, wantArg (a % 64 == 0 && inMemory a n) outOfRange 24, s.caravanBad c.fetched a n]
      (({ s with caravan := { s.caravan with next := some (s.caravanAt a) } } : State).complete id ok 0 []))

end Sys2Proof.Machine
end

