-- ==== Sys2Proof/Machine/Restore.lean ====
section
/-! DEFINITION. RESTORE: a learner context takes the state of a checkpoint (10 R306, R308, 09 R253, R259, R267). What comes from another module is free (log 91). -/

namespace Sys2Proof.Machine

/-- The sizes that a manifest of the context's shard has (10 R306): shard rank, flat length, shard length, plane widths, group, tracked and chunk counts. -/
structure ShardShape where
  rank : Nat
  flat : Nat
  elements : Nat
  widths : List Nat
  groups : Nat
  tracked : Nat
  deriving DecidableEq, Repr

def ShardShape.bytes (z : ShardShape) : Nat := z.elements * z.widths.foldl (· + ·) 0
def ShardShape.chunks (z : ShardShape) : Nat := ceilDiv z.bytes 1048576
/-- Bytes of a manifest with its group, tracked and chunk entries. -/
def ShardShape.head (z : ShardShape) : Nat := 128 + 64 * z.groups + 96 * z.tracked + 48 * z.chunks
/-- Length of chunk i. -/
def ShardShape.chunkLen (z : ShardShape) (i : Nat) : Nat := min 1048576 (z.bytes - 1048576 * i)

def Ctx.shardShape (c : Ctx) (l : Learner) : ShardShape :=
  let flat := flatLength (c.weightTensors l)
  ⟨c.desc.rank, flat, shardLength flat c.desc.modules c.desc.rank, planeWidths l.algorithm, l.groups.length, l.tracked.length⟩

/-- Is a manifest that of a checkpoint of the context's own shard? -/
def manifestNames (c : Ctx) (id : Nat) (b : List Byte) : Bool :=
  b.take 8 == ascii "VXCKPT01" && msgNat b 8 8 == c.desc.job.toNat && msgNat b 16 8 == id && msgNat b 39 1 % 2 == 0

/-- Does a manifest have the sizes of the context's tables? -/
def manifestFits (l : Learner) (z : ShardShape) (b : List Byte) : Bool :=
  msgNat b 32 2 != 0 && msgNat b 34 2 == z.rank && msgNat b 38 1 == l.algorithm && msgNat b 48 8 == z.flat && msgNat b 56 4 == z.chunks && msgNat b 60 4 == z.groups

/-- Where the context's data area holds a checkpoint's manifest: where the service wrote it, else where its header stands. -/
def State.heldAt (s : State) (c : Ctx) (id : Nat) : Option Nat :=
  let names := fun (a : Nat) => (s.firstPoison a 128).isNone && manifestNames c id (s.load a 128)
  match (c.ckpts.find? (fun x => x.id == id)).map (·.place) with
  | some a => if names a then some a else none
  | none => ((List.range (c.desc.ckptLen / 64 + 1)).map (fun i => c.desc.ckptAddr + 64 * i)).find? names

/-- The manifest that RESTORE follows: the own one, else the host's. -/
def State.manifestOf (s : State) (c : Ctx) (l : Learner) (z : ShardShape) (id : Nat) (host : List Byte) : Option (List Byte) :=
  let own := match s.heldAt c id with
    | none => none
    | some a => if (s.firstPoison a z.head).isNone ∧ manifestFits l z (s.load a z.head) = true then some (s.load a z.head) else none
  match own with
  | some b => some b
  | none => if manifestNames c id host && manifestFits l z host && decide (z.head ≤ host.length) then some (host.take z.head) else none

/-- Chunk i through its holder, else from the host's copy (manifest, then every chunk), else from the peer's mirror checkpoint. -/
def State.chunkOf (s : State) (c : Ctx) (z : ShardShape) (manifest host : List Byte) (i : Nat) : Option (List Byte) :=
  let e := (manifest.drop (128 + 64 * z.groups + 96 * z.tracked + 48 * i)).take 48
  let n := z.chunkLen i
  let good := fun (b : List Byte) => b.length == n && sha3 b == e.take 32
  let own := match s.heldAt c (msgNat e 32 8) with
    | none => []
    | some a =>
      let p := a + z.head + msgNat e 40 8
      if (s.firstPoison p n).isNone then s.load p n else []
  let hosts := (host.drop (z.head + 1048576 * i)).take n
  if good own then some own
  else if good hosts then some hosts
  else if c.desc.modules != 1 && host.isEmpty && Config.fresh (s.freeCount + 2) % 2 == 1 then
    some ((List.range n).map (fun j => Config.lost (s.freeCount + 1) (1048576 * i + j)))
  else none

/-- Every chunk, or none if one has no good copy. -/
def State.chunksFrom (s : State) (c : Ctx) (z : ShardShape) (manifest host : List Byte) : List Nat → Option (List Byte)
  | [] => some []
  | i :: r =>
    match s.chunkOf c z manifest host i, s.chunksFrom c z manifest host r with
    | some b, some t => some (b ++ t)
    | _, _ => none

/-- The master value of a flat element: of the own shard as it stands in memory; another owner's value is free. -/
def State.masterAt (s : State) (area m : Nat) (z : ShardShape) (f : Nat) : FVal :=
  let first := 512 * (z.rank * (z.flat / 512) / m)
  if first ≤ f ∧ f < first + z.elements then m48Val (BitVec.ofNat 32 (s.loadNat (area + 4 * (f - first)) 4)) (BitVec.ofNat 32 (s.loadNat (area + 4 * z.elements + 2 * (f - first)) 2))
  else m48Val (BitVec.ofNat 32 (Config.fresh (s.freeCount + 3 + 2 * f))) (BitVec.ofNat 32 (Config.fresh (s.freeCount + 4 + 2 * f)))

/-- The working copy of a tensor from its master values in flat order (09 R267): element plane, then scale plane, up to a granule boundary. -/
def encodeTensor (t : TensorEntry) (fm : Format) (xs : List FVal) : List Byte :=
  let body := match fm with
    | .mx e square =>
      let single := xs.map (fun x => Fmts.fp32.decode (Fmts.fp32.convert .rne false 0 x).1)
      let groups := (pieces (if square then 1024 else 32) single.length single).filter (fun g => !g.isEmpty)
      let outs := groups.map (fun g => mxEncode e .rne (fun _ => 0) g)
      packCodes e.bits (outs.flatMap (·.codes)) ++ outs.map (fun o => BitVec.ofNat 8 o.scale)
    | _ => packCodes fm.bits (xs.map (fun x => (encodePlain fm .rne false 0 ⟨0, 0⟩ x).1))
  body ++ zeros (t.bytesIn fm - body.length)

/-- The whole working copy, tensor by tensor from a flat index on. -/
def State.workingCopy (s : State) (area m : Nat) (z : ShardShape) (first : Nat) : List TensorEntry → List Byte
  | [] => []
  | t :: ts =>
    (match Format.ofCode t.format with
      | none => []
      | some fm => encodeTensor t fm ((List.range t.flat).map (fun i => s.masterAt area m z (first + i))))
      ++ s.workingCopy area m z (first + t.flat) ts

/-- A byte string goes to one address. -/
def State.storeEach (s : State) : List (Nat × List Byte) → State
  | [] => s
  | (a, b) :: r => (s.store a b).storeEach r

/-- What the step driver holds after the restore: one current buffer, own and mirror areas, step count, groups and tracked entries as the table has them. -/
def Learner.restored (l : Learner) (s : State) (t id version stepCount : Nat) (digest : List Byte) (tracked : List (List Byte)) : Learner :=
  let p := s.optPlan t
  let area := fun (x : MasterArea × Nat) => (MasterArea.mk x.1.addr (if x.2 = 0 then version else 0))
  { l with
    buffers := l.buffers.mapIdx (fun i b => if i = 0 then { b with state := .current, version := version, holders := [], tracked := tracked, digest := some digest }
      else { b with state := .free, version := 0, holders := [], tracked := [], digest := none })
    own := l.own.zipIdx.map area, buddy := l.buddy.zipIdx.map area, stepCount := BitVec.ofNat 64 stepCount, lastStep := some id
    groups := (List.range l.groups.length).map (fun i => s.groupAt (t + p.groups + 64 * i))
    tracked := (List.range l.tracked.length).map (fun i => s.trackedAt (t + p.tracked + 96 * i))
    committed := (List.range l.groups.length).flatMap (fun i => s.load (t + p.groups + 64 * i) 64) ++ tracked.flatten }

/-- The restore itself, from a manifest and the shard's stream; none if the weight-version digest differs. -/
def State.restoreFrom (s : State) (k id : Nat) (c : Ctx) (l : Learner) (z : ShardShape) (manifest stream : List Byte) : Option State :=
  let m := c.desc.modules
  let area := fun (x : List MasterArea) => ((x.map (·.addr)).head?).getD 0
  let free := fun (n : Nat) => (List.range n).map (Config.lost s.freeCount)
  let mirror := if m = 1 then [] else free (shardLength z.flat m ((z.rank + m - 1) % m) * z.widths.foldl (· + ·) 0)
  let planes := (s.store (area l.own) stream).store (area l.buddy) mirror
  let buffer := ((l.buffers.map (·.addr)).head?).getD 0
  let written := planes.store buffer (planes.workingCopy (area l.own) m z 0 (c.weightTensors l))
  let digest := (manifest.drop 64).take 32
  let same := if m = 1 then setDigest (written.versionDigest buffer (c.weightTensors l)) == digest else Config.fresh (s.freeCount + 2) % 4 / 2 == 1
  if same then
    let t := c.desc.optimiser
    let p := s.optPlan t
    let tracked := (List.range z.tracked).map (fun i => (manifest.drop (128 + 64 * z.groups + 96 * i)).take 96)
    let steps := msgNat manifest 40 8
    let table := (written.storeEach ((List.range z.groups).map (fun i => (t + p.groups + 64 * i + 32, (manifest.drop (128 + 64 * i + 32)).take 8)))).storeEach
      ((t + 32, leBytes 8 steps) :: tracked.zipIdx.map (fun x => (t + p.tracked + 96 * x.2, x.1)))
    let table := (table.store (buffer + workSize (c.weightTensors l)) tracked.flatten).updCtx k (fun c =>
      { c with learn := some (l.restored table t id (msgNat manifest 32 2) steps digest tracked), lastDone := some id, ckptLog := c.ckptLog ++ [(id, msgNat manifest 32 2)] })
    some { table with freeCount := s.freeCount + 5 + 2 * z.flat }
  else none

/-- A manifest read from the peer that mirrors the shard: its values are free (log 91), its version is one. -/
def State.peerManifest (s : State) (c : Ctx) (l : Learner) (z : ShardShape) (id : Nat) : List Byte :=
  ascii "VXCKPT01" ++ leBytes 8 c.desc.job.toNat ++ leBytes 8 id ++ leBytes 8 (Config.fresh s.freeCount) ++ leBytes 2 s.freeVersion ++ leBytes 2 z.rank
    ++ leBytes 2 c.desc.modules ++ [BitVec.ofNat 8 l.algorithm, 1] ++ (List.range (z.head - 40)).map (Config.lost (s.freeCount + 1))

/-- RESTORE (10 R308, 12 R360): the context takes the checkpoint's version, or the command completes with JOB_FATAL_FAULT. `host` is what the copy in the
host window reads as, if the host supplies one. -/
def execRestore (id : Nat) (host : List Byte) (s : State) : Out :=
  withCtxCmd id 0x0A s (fun c k x =>
    let ck := c.fieldAt 24 8
    let supplied := c.fieldAt 16 1 % 2 == 1
    let a := c.fieldAt 32 8
    let copy := if supplied then host else []
    s.checked id [wantArg (x.desc.kind == 2 && x.desc.ckptAddr != 0) badField 8, wantArg (!supplied || (a % 64 == 0 && s.inHostWindow k a 1)) outOfRange 32]
      (match x.learn with
       | none => s.refuse id (argBad badField 8)
       | some l =>
         let z := x.shardShape l
         let found := match s.manifestOf x l z ck copy with
           | some m => some m
           | none => if x.desc.modules != 1 && !supplied then some (s.peerManifest x l z ck) else none
         match found.bind (fun m => (s.chunksFrom x z m copy (List.range z.chunks)).bind (fun b => s.restoreFrom k ck x l z m b)) with
         | some s' =>
           let version := match s'.ctx? k with | none => 0 | some y => y.currentVersion
           s'.complete id ok version []
         | none => s.spend.complete id 0x31 0 []))

end Sys2Proof.Machine
end

