-- ==== Sys2Proof/Machine/Row.lean ====
section
/-! DEFINITION. Row-engine rows (05 R141, 06 R168 to R177). -/

namespace Sys2Proof.Machine

/-- A step of the row engine. -/
def rowRow (op : Nat) (errs : List (Nat × Flips)) (f : Env → QEntry → Core → CRes) (k l : Nat) (s : State) : Out :=
  engineRow engRow 3 op 0x03 errs (fun _ _ v e x => f v e x) k l s

/-- ROW_STAT (05 R141). -/
def execRowStat (k l : Nat) (errs : List (Nat × Flips)) (s : State) : Out := rowRow 0x00 errs (fun v e x => rowStat v e x) k l s
/-- ROW_MERGE (05 R141). -/
def execRowMerge (k l : Nat) (errs : List (Nat × Flips)) (s : State) : Out := rowRow 0x01 errs (fun v e x => rowMerge v e x) k l s
/-- ROW_APPLY (05 R141). -/
def execRowApply (k l : Nat) (errs : List (Nat × Flips)) (s : State) : Out := rowRow 0x02 errs (fun v e x => rowElements false v e x) k l s
/-- ROW_BWD (05 R141). -/
def execRowBwd (k l : Nat) (errs : List (Nat × Flips)) (s : State) : Out := rowRow 0x03 errs (fun v e x => rowElements true v e x) k l s
/-- ROW_KEEP (05 R141). -/
def execRowKeep (k l : Nat) (errs : List (Nat × Flips)) (s : State) : Out := rowRow 0x04 errs (fun _ e x => rowKeep e x) k l s
/-- ROW_FETCH (05 R141). -/
def execRowFetch (k l : Nat) (errs : List (Nat × Flips)) (s : State) : Out := rowRow 0x05 errs (fun _ e x => rowFetch e x) k l s

end Sys2Proof.Machine
end

