-- ==== Sys2Proof/Machine/Vector.lean ====
section
/-! DEFINITION. Vector rows and gr.draw (05 R139, R140, R463, 06 R158 to R167, R178 to R181). -/

namespace Sys2Proof.Machine

/-- A step of the vector unit on a vx. instruction. -/
def vectorRow (op : Nat) (errs : List (Nat × Flips)) (f : Env → QEntry → Core → CRes) (k l : Nat) (s : State) : Out :=
  engineRow engVector 2 op 0x03 errs (fun _ _ v e x => f v e x) k l s

/-- VX_LD (05 R139, 06 R158). -/
def execVxLd (k l : Nat) (errs : List (Nat × Flips)) (s : State) : Out := vectorRow 0x00 errs (fun _ e x => vxLd e x) k l s
/-- VX_ST (05 R139, 06 R158). -/
def execVxSt (k l : Nat) (s : State) : Out := vectorRow 0x01 [] (fun _ e x => vxSt e x) k l s
/-- VX_ADD (05 R139, 06 R158). -/
def execVxAdd (k l : Nat) (s : State) : Out := vectorRow 0x02 [] (fun _ e x => lane2 (f32Add (opMode e.word) (opSat e.word)) 1 e x) k l s
/-- VX_SUB (05 R139, 06 R158). -/
def execVxSub (k l : Nat) (s : State) : Out := vectorRow 0x03 [] (fun _ e x => lane2 (f32Sub (opMode e.word) (opSat e.word)) 1 e x) k l s
/-- VX_MUL (05 R139, 06 R158). -/
def execVxMul (k l : Nat) (s : State) : Out := vectorRow 0x04 [] (fun _ e x => lane2 (f32Mul (opMode e.word) (opSat e.word)) 1 e x) k l s
/-- VX_FMA (05 R139, 06 R158). -/
def execVxFma (k l : Nat) (s : State) : Out := vectorRow 0x05 [] (fun _ e x => lane3 (f32Fma (opMode e.word) (opSat e.word)) 1 e x) k l s
/-- VX_MIN (05 R139, 06 R158). -/
def execVxMin (k l : Nat) (s : State) : Out := vectorRow 0x06 [] (fun _ e x => lane2 (fun a b => pureRes (f32Min a b)) 1 e x) k l s
/-- VX_MAX (05 R139, 06 R158). -/
def execVxMax (k l : Nat) (s : State) : Out := vectorRow 0x07 [] (fun _ e x => lane2 (fun a b => pureRes (f32Max a b)) 1 e x) k l s
/-- VX_SEL (05 R139, 06 R158). -/
def execVxSel (k l : Nat) (s : State) : Out := vectorRow 0x08 [] (fun _ e x => lane3 (fun a b c => pureRes (if c = 0 then b else a)) 1 e x) k l s
/-- VX_CVT (05 R139, 06 R158). -/
def execVxCvt (k l : Nat) (s : State) : Out := vectorRow 0x09 [] (fun v e x => vxCvt v e x) k l s
/-- VX_CVTMX (05 R139, 06 R158). -/
def execVxCvtmx (k l : Nat) (errs : List (Nat × Flips)) (s : State) : Out := vectorRow 0x0A errs (fun v e x => vxCvtmx v e x) k l s
/-- VX_LDMX (05 R139, 06 R158). -/
def execVxLdmx (k l : Nat) (errs : List (Nat × Flips)) (s : State) : Out := vectorRow 0x0B errs (fun v e x => vxLdmx v e x) k l s
/-- VX_RCP (05 R139, 06 R158). -/
def execVxRcp (k l : Nat) (s : State) : Out := vectorRow 0x0C [] (fun _ e x => lane1 rcpRef 3 e x) k l s
/-- VX_RSQ (05 R139, 06 R158). -/
def execVxRsq (k l : Nat) (s : State) : Out := vectorRow 0x0D [] (fun _ e x => lane1 rsqRef 3 e x) k l s
/-- VX_EXP2 (05 R139, 06 R158). -/
def execVxExp2 (k l : Nat) (s : State) : Out := vectorRow 0x0E [] (fun _ e x => lane1 exp2Ref 3 e x) k l s
/-- VX_LOG2 (05 R139, 06 R158). -/
def execVxLog2 (k l : Nat) (s : State) : Out := vectorRow 0x0F [] (fun _ e x => lane1 log2Ref 3 e x) k l s
/-- VX_SQRT (05 R139, 06 R158). -/
def execVxSqrt (k l : Nat) (s : State) : Out := vectorRow 0x10 [] (fun _ e x => lane1 (f32Sqrt (opMode e.word)) 6 e x) k l s
/-- VX_PADD (05 R139, 06 R158). -/
def execVxPadd (k l : Nat) (s : State) : Out := vectorRow 0x11 [] (fun _ e x => lane2 (packedAdd (opMode e.word) (opSat e.word)) 1 e x) k l s
/-- VX_PMUL (05 R139, 06 R158). -/
def execVxPmul (k l : Nat) (s : State) : Out := vectorRow 0x12 [] (fun _ e x => lane2 (packedMul (opMode e.word) (opSat e.word)) 1 e x) k l s
/-- VX_PFMA (05 R139, 06 R158). -/
def execVxPfma (k l : Nat) (s : State) : Out := vectorRow 0x13 [] (fun _ e x => lane3 (packedFma (opMode e.word) (opSat e.word)) 1 e x) k l s
/-- VX_IADD (05 R139, 06 R158). -/
def execVxIadd (k l : Nat) (s : State) : Out := vectorRow 0x14 [] (fun _ e x => lane2 (fun a b => pureRes (a + b)) 1 e x) k l s
/-- VX_ISUB (05 R139, 06 R158). -/
def execVxIsub (k l : Nat) (s : State) : Out := vectorRow 0x15 [] (fun _ e x => lane2 (fun a b => pureRes (a - b)) 1 e x) k l s
/-- VX_IMUL (05 R139, 06 R158). -/
def execVxImul (k l : Nat) (s : State) : Out := vectorRow 0x16 [] (fun _ e x => lane2 (fun a b => pureRes (a * b)) 1 e x) k l s
/-- VX_AND (05 R139, 06 R158). -/
def execVxAnd (k l : Nat) (s : State) : Out := vectorRow 0x17 [] (fun _ e x => lane2 (fun a b => pureRes (a &&& b)) 1 e x) k l s
/-- VX_OR (05 R139, 06 R158). -/
def execVxOr (k l : Nat) (s : State) : Out := vectorRow 0x18 [] (fun _ e x => lane2 (fun a b => pureRes (a ||| b)) 1 e x) k l s
/-- VX_XOR (05 R139, 06 R158). -/
def execVxXor (k l : Nat) (s : State) : Out := vectorRow 0x19 [] (fun _ e x => lane2 (fun a b => pureRes (a ^^^ b)) 1 e x) k l s
/-- VX_SHL (05 R139, 06 R158). -/
def execVxShl (k l : Nat) (s : State) : Out := vectorRow 0x1A [] (fun _ e x => lane2 (fun a b => pureRes (a <<< (b.toNat % 32))) 1 e x) k l s
/-- VX_SHR (05 R139, 06 R158). -/
def execVxShr (k l : Nat) (s : State) : Out := vectorRow 0x1B [] (fun _ e x => lane2 (fun a b => pureRes (a >>> (b.toNat % 32))) 1 e x) k l s
/-- VX_SRA (05 R139, 06 R158). -/
def execVxSra (k l : Nat) (s : State) : Out := vectorRow 0x1C [] (fun _ e x => lane2 (fun a b => pureRes (a.sshiftRight (b.toNat % 32))) 1 e x) k l s
/-- VX_RSUM (05 R139, 06 R158). -/
def execVxRsum (k l : Nat) (s : State) : Out := vectorRow 0x1D [] (fun _ e x => vxRsum e x) k l s
/-- VX_RMAX (05 R139, 06 R158). -/
def execVxRmax (k l : Nat) (s : State) : Out := vectorRow 0x1E [] (fun _ e x => vxRmax e x) k l s
/-- VX_NFC (05 R139, 06 R158). -/
def execVxNfc (k l : Nat) (s : State) : Out := vectorRow 0x1F [] (fun _ e x => vxNfc e x) k l s
/-- VX_M48ADD (05 R139, 06 R158). -/
def execVxM48add (k l : Nat) (s : State) : Out := vectorRow 0x20 [] (fun _ e x => vxM48add e x) k l s
/-- VX_M48FMA (05 R139, 06 R158). -/
def execVxM48fma (k l : Nat) (s : State) : Out := vectorRow 0x21 [] (fun _ e x => vxM48fma e x) k l s
/-- VX_M48CVT (05 R139, 06 R158). -/
def execVxM48cvt (k l : Nat) (s : State) : Out := vectorRow 0x22 [] (fun v e x => vxM48cvt v e x) k l s
/-- VX_LI (05 R139, 06 R158). -/
def execVxLi (k l : Nat) (s : State) : Out := vectorRow 0x23 [] (fun _ e x => vxLi e x) k l s

/-- GR_DRAW (05 R140, 06 R179): the grain generators stand behind the vector unit. -/
def execGrDraw (k l : Nat) (s : State) : Out := engineRow engVector 6 0x00 0x03 [] (fun _ _ v e x => grDraw v e x) k l s

end Sys2Proof.Machine
end

