-- ==== Sys2Proof/Machine/Dispatch.lean ====
section
/-! DEFINITION. The effect of each command on everything but the queue: one arm per row of the opcode table. -/

namespace Sys2Proof.Machine

def exec (i : Instr) (s : State) : Host.Outcome State Fault Refusal :=
  match i with
  | .seqNop k l => Sys2Proof.Machine.execSeqNop k l s
  | .seqLoop k l => Sys2Proof.Machine.execSeqLoop k l s
  | .seqEndl k l => Sys2Proof.Machine.execSeqEndl k l s
  | .seqBrlc k l => Sys2Proof.Machine.execSeqBrlc k l s
  | .seqWaitSt k l => Sys2Proof.Machine.execSeqWaitSt k l s
  | .seqTb k l => Sys2Proof.Machine.execSeqTb k l s
  | .seqFence k l => Sys2Proof.Machine.execSeqFence k l s
  | .seqEnd k l => Sys2Proof.Machine.execSeqEnd k l s
  | .seqLi k l => Sys2Proof.Machine.execSeqLi k l s
  | .seqLih k l => Sys2Proof.Machine.execSeqLih k l s
  | .seqAddi k l => Sys2Proof.Machine.execSeqAddi k l s
  | .seqAdd k l => Sys2Proof.Machine.execSeqAdd k l s
  | .seqSub k l => Sys2Proof.Machine.execSeqSub k l s
  | .seqMul k l => Sys2Proof.Machine.execSeqMul k l s
  | .seqAnd k l => Sys2Proof.Machine.execSeqAnd k l s
  | .seqOr k l => Sys2Proof.Machine.execSeqOr k l s
  | .seqXor k l => Sys2Proof.Machine.execSeqXor k l s
  | .seqShl k l => Sys2Proof.Machine.execSeqShl k l s
  | .seqShr k l => Sys2Proof.Machine.execSeqShr k l s
  | .seqRdlc k l => Sys2Proof.Machine.execSeqRdlc k l s
  | .seqRdid k l => Sys2Proof.Machine.execSeqRdid k l s
  | .mxMm k l stop errs => Sys2Proof.Machine.execMxMm k l stop errs s
  | .mxMerge k l errs => Sys2Proof.Machine.execMxMerge k l errs s
  | .mxSpill k l => Sys2Proof.Machine.execMxSpill k l s
  | .mxDrain k l errs => Sys2Proof.Machine.execMxDrain k l errs s
  | .mxStat k l => Sys2Proof.Machine.execMxStat k l s
  | .mxClose k l => Sys2Proof.Machine.execMxClose k l s
  | .vxLd k l errs => Sys2Proof.Machine.execVxLd k l errs s
  | .vxSt k l => Sys2Proof.Machine.execVxSt k l s
  | .vxAdd k l => Sys2Proof.Machine.execVxAdd k l s
  | .vxSub k l => Sys2Proof.Machine.execVxSub k l s
  | .vxMul k l => Sys2Proof.Machine.execVxMul k l s
  | .vxFma k l => Sys2Proof.Machine.execVxFma k l s
  | .vxMin k l => Sys2Proof.Machine.execVxMin k l s
  | .vxMax k l => Sys2Proof.Machine.execVxMax k l s
  | .vxSel k l => Sys2Proof.Machine.execVxSel k l s
  | .vxCvt k l => Sys2Proof.Machine.execVxCvt k l s
  | .vxCvtmx k l errs => Sys2Proof.Machine.execVxCvtmx k l errs s
  | .vxLdmx k l errs => Sys2Proof.Machine.execVxLdmx k l errs s
  | .vxRcp k l => Sys2Proof.Machine.execVxRcp k l s
  | .vxRsq k l => Sys2Proof.Machine.execVxRsq k l s
  | .vxExp2 k l => Sys2Proof.Machine.execVxExp2 k l s
  | .vxLog2 k l => Sys2Proof.Machine.execVxLog2 k l s
  | .vxSqrt k l => Sys2Proof.Machine.execVxSqrt k l s
  | .vxPadd k l => Sys2Proof.Machine.execVxPadd k l s
  | .vxPmul k l => Sys2Proof.Machine.execVxPmul k l s
  | .vxPfma k l => Sys2Proof.Machine.execVxPfma k l s
  | .vxIadd k l => Sys2Proof.Machine.execVxIadd k l s
  | .vxIsub k l => Sys2Proof.Machine.execVxIsub k l s
  | .vxImul k l => Sys2Proof.Machine.execVxImul k l s
  | .vxAnd k l => Sys2Proof.Machine.execVxAnd k l s
  | .vxOr k l => Sys2Proof.Machine.execVxOr k l s
  | .vxXor k l => Sys2Proof.Machine.execVxXor k l s
  | .vxShl k l => Sys2Proof.Machine.execVxShl k l s
  | .vxShr k l => Sys2Proof.Machine.execVxShr k l s
  | .vxSra k l => Sys2Proof.Machine.execVxSra k l s
  | .vxRsum k l => Sys2Proof.Machine.execVxRsum k l s
  | .vxRmax k l => Sys2Proof.Machine.execVxRmax k l s
  | .vxNfc k l => Sys2Proof.Machine.execVxNfc k l s
  | .vxM48add k l => Sys2Proof.Machine.execVxM48add k l s
  | .vxM48fma k l => Sys2Proof.Machine.execVxM48fma k l s
  | .vxM48cvt k l => Sys2Proof.Machine.execVxM48cvt k l s
  | .vxLi k l => Sys2Proof.Machine.execVxLi k l s
  | .grDraw k l => Sys2Proof.Machine.execGrDraw k l s
  | .rowStat k l errs => Sys2Proof.Machine.execRowStat k l errs s
  | .rowMerge k l errs => Sys2Proof.Machine.execRowMerge k l errs s
  | .rowApply k l errs => Sys2Proof.Machine.execRowApply k l errs s
  | .rowBwd k l errs => Sys2Proof.Machine.execRowBwd k l errs s
  | .rowKeep k l errs => Sys2Proof.Machine.execRowKeep k l errs s
  | .rowFetch k l errs => Sys2Proof.Machine.execRowFetch k l errs s
  | .wqPost k l q errs => Sys2Proof.Machine.execWqPost k l q errs s
  | .wqWatch k l q => Sys2Proof.Machine.execWqWatch k l q s
  | .netSend k l errs => Sys2Proof.Machine.execNetSend k l errs s
  | .netMcast k l errs => Sys2Proof.Machine.execNetMcast k l errs s
  | .ckRdf k l => Sys2Proof.Machine.execCkRdf k l s
  | .ckClrf k l => Sys2Proof.Machine.execCkClrf k l s
  | .ckCap k l => Sys2Proof.Machine.execCkCap k l s
  | .ckPoison k l => Sys2Proof.Machine.execCkPoison k l s
  | .gtVote k l shadow => Sys2Proof.Machine.execGtVote k l shadow s
  | .gtWait k l => Sys2Proof.Machine.execGtWait k l s
  | .gtClr k l => Sys2Proof.Machine.execGtClr k l s
  | .sequencerDispatch k l => Sys2Proof.Machine.execSequencerDispatch k l s
  | .instructionCompletion k l engine shadow => Sys2Proof.Machine.execInstructionCompletion k l engine shadow s
  | .watchFire k l q n => Sys2Proof.Machine.execWatchFire k l q n s
  | .waitLimitExpiry k l engine watch => Sys2Proof.Machine.execWaitLimitExpiry k l engine watch s
  | .stTargetReached k l => Sys2Proof.Machine.execStTargetReached k l s
  | .contextFaultStop k => Sys2Proof.Machine.execContextFaultStop k s
  | .rippleBoundary owners => Sys2Proof.Machine.execRippleBoundary owners s
  | .onDiePacketArrival memoryPlane n err => Sys2Proof.Machine.execOnDiePacketArrival memoryPlane n err s
  | .wadiDescriptorStart k l q errs => Sys2Proof.Machine.execWadiDescriptorStart k l q errs s
  | .wadiRequestIssue k l q errs shadow => Sys2Proof.Machine.execWadiRequestIssue k l q errs shadow s
  | .memoryRequest n errs => Sys2Proof.Machine.execMemoryRequest n errs s
  | .wadiDataArrival n => Sys2Proof.Machine.execWadiDataArrival n s
  | .wadiDescriptorCompletion k l q => Sys2Proof.Machine.execWadiDescriptorCompletion k l q s
  | .wadiResponseTimeout n => Sys2Proof.Machine.execWadiResponseTimeout n s
  | .hostReadCompletion n status data => Sys2Proof.Machine.execHostReadCompletion n status data s
  | .memoryRefresh far unit bank => Sys2Proof.Machine.execMemoryRefresh far unit bank s
  | .patrolScrub addr err => Sys2Proof.Machine.execPatrolScrub addr err s
  | .rowRepair die pc row => Sys2Proof.Machine.execRowRepair die pc row s
  | .dataMoveComplete die => Sys2Proof.Machine.execDataMoveComplete die s
  | .stackTemperatureRead stack celsius => Sys2Proof.Machine.execStackTemperatureRead stack celsius s
  | .portTraining p => Sys2Proof.Machine.execPortTraining p s
  | .trainingRateFallback p => Sys2Proof.Machine.execTrainingRateFallback p s
  | .laneQualification p bad => Sys2Proof.Machine.execLaneQualification p bad s
  | .dataFrameReceive p fec frame => Sys2Proof.Machine.execDataFrameReceive p fec frame s
  | .controlFrameReceive p fec frame => Sys2Proof.Machine.execControlFrameReceive p fec frame s
  | .idleFrameReceive p fec frame => Sys2Proof.Machine.execIdleFrameReceive p fec frame s
  | .discoveryFrameReceive p fec frame => Sys2Proof.Machine.execDiscoveryFrameReceive p fec frame s
  | .ackTimeout p => Sys2Proof.Machine.execAckTimeout p s
  | .controlFrameSend p => Sys2Proof.Machine.execControlFrameSend p s
  | .discoveryFrameSend p => Sys2Proof.Machine.execDiscoveryFrameSend p s
  | .timestamp p => Sys2Proof.Machine.execTimestamp p s
  | .grandmasterAnnouncement p => Sys2Proof.Machine.execGrandmasterAnnouncement p s
  | .laneSwap p => Sys2Proof.Machine.execLaneSwap p s
  | .laneErrorThreshold p lane => Sys2Proof.Machine.execLaneErrorThreshold p lane s
  | .resendRequest p => Sys2Proof.Machine.execResendRequest p s
  | .pacing p => Sys2Proof.Machine.execPacing p s
  | .managementRelay p => Sys2Proof.Machine.execManagementRelay p s
  | .departureNotice p => Sys2Proof.Machine.execDepartureNotice p s
  | .writeAcknowledgement p => Sys2Proof.Machine.execWriteAcknowledgement p s
  | .collectiveAbort p => Sys2Proof.Machine.execCollectiveAbort p s
  | .partnerSilenceTimeout p => Sys2Proof.Machine.execPartnerSilenceTimeout p s
  | .routeAbsenceTimeout job rank => Sys2Proof.Machine.execRouteAbsenceTimeout job rank s
  | .holdoverEntry => Sys2Proof.Machine.execHoldoverEntry s
  | .holdoverLimit => Sys2Proof.Machine.execHoldoverLimit s
  | .trefPpsEdge highNs => Sys2Proof.Machine.execTrefPpsEdge highNs s
  | .tref10mDeviation => Sys2Proof.Machine.execTref10mDeviation s
  | .seifPacketArrival p => Sys2Proof.Machine.execSeifPacketArrival p s
  | .peerWriteTimeout tag => Sys2Proof.Machine.execPeerWriteTimeout tag s
  | .linkWindowOpen k n => Sys2Proof.Machine.execLinkWindowOpen k n s
  | .linkWindowClose k n => Sys2Proof.Machine.execLinkWindowClose k n s
  | .collectiveStart k desc => Sys2Proof.Machine.execCollectiveStart k desc s
  | .contributionArrival k => Sys2Proof.Machine.execContributionArrival k s
  | .collectiveCompletion k cid => Sys2Proof.Machine.execCollectiveCompletion k cid s
  | .collectiveDeadlineExpiry k cid => Sys2Proof.Machine.execCollectiveDeadlineExpiry k cid s
  | .pacingPeriodBoundary => Sys2Proof.Machine.execPacingPeriodBoundary s
  | .stepPhaseStart k phase => Sys2Proof.Machine.execStepPhaseStart k phase s
  | .gateReport k r => Sys2Proof.Machine.execGateReport k r s
  | .gateDecision k r => Sys2Proof.Machine.execGateDecision k r s
  | .pendingVersionAllocation k => Sys2Proof.Machine.execPendingVersionAllocation k s
  | .shardDigestComplete k mirror => Sys2Proof.Machine.execShardDigestComplete k mirror s
  | .prepareReport k r => Sys2Proof.Machine.execPrepareReport k r s
  | .decisionLog k => Sys2Proof.Machine.execDecisionLog k s
  | .commit k r => Sys2Proof.Machine.execCommit k r s
  | .commitTimeReached k => Sys2Proof.Machine.execCommitTimeReached k s
  | .abort k r => Sys2Proof.Machine.execAbort k r s
  | .failureReport k r => Sys2Proof.Machine.execFailureReport k r s
  | .decisionQuery k r => Sys2Proof.Machine.execDecisionQuery k r s
  | .decisionReply k r => Sys2Proof.Machine.execDecisionReply k r s
  | .exchangeDeadlineExpiry k => Sys2Proof.Machine.execExchangeDeadlineExpiry k s
  | .fenceRelease k version holder => Sys2Proof.Machine.execFenceRelease k version holder s
  | .weightDigestComplete k => Sys2Proof.Machine.execWeightDigestComplete k s
  | .tensorDigestComplete k tensor places => Sys2Proof.Machine.execTensorDigestComplete k tensor places s
  | .cairnSignatureComplete k => Sys2Proof.Machine.execCairnSignatureComplete k s
  | .ringSpaceFreed k ring index => Sys2Proof.Machine.execRingSpaceFreed k ring index s
  | .roundStart k => Sys2Proof.Machine.execRoundStart k s
  | .rolloutAdmission k round ix => Sys2Proof.Machine.execRolloutAdmission k round ix s
  | .tokenChoice k round ix logits => Sys2Proof.Machine.execTokenChoice k round ix logits s
  | .rolloutEnd k round ix => Sys2Proof.Machine.execRolloutEnd k round ix s
  | .weightPublication k => Sys2Proof.Machine.execWeightPublication k s
  | .publicationDigestCheck k entry held => Sys2Proof.Machine.execPublicationDigestCheck k entry held s
  | .checkpointStart k => Sys2Proof.Machine.execCheckpointStart k s
  | .checkpointComplete k => Sys2Proof.Machine.execCheckpointComplete k s
  | .mirageCheck die n => Sys2Proof.Machine.execMirageCheck die n s
  | .recheckVerdict n xs ys => Sys2Proof.Machine.execRecheckVerdict n xs ys s
  | .mirageSelfTest die pass => Sys2Proof.Machine.execMirageSelfTest die pass s
  | .twinMismatch k l engine index shadow => Sys2Proof.Machine.execTwinMismatch k l engine index shadow s
  | .sieveDue die core => Sys2Proof.Machine.execSieveDue die core s
  | .sieveForced die core => Sys2Proof.Machine.execSieveForced die core s
  | .sieveComplete die core pass => Sys2Proof.Machine.execSieveComplete die core pass s
  | .suspectClearTimeout n => Sys2Proof.Machine.execSuspectClearTimeout n s
  | .oasisPairFailure p => Sys2Proof.Machine.execOasisPairFailure p s
  | .mesaFailure => Sys2Proof.Machine.execMesaFailure s
  | .doorbellWrite n v => Sys2Proof.Machine.execDoorbellWrite n v s
  | .commandFetch n result => Sys2Proof.Machine.execCommandFetch n result s
  | .commandStart id => Sys2Proof.Machine.execCommandStart id s
  | .replyWrite n => Sys2Proof.Machine.execReplyWrite n s
  | .rqTailWrite n v => Sys2Proof.Machine.execRqTailWrite n v s
  | .rqArmWrite n v => Sys2Proof.Machine.execRqArmWrite n v s
  | .sqEnable n v => Sys2Proof.Machine.execSqEnable n v s
  | .sqDisable n v => Sys2Proof.Machine.execSqDisable n v s
  | .rqEnable n v => Sys2Proof.Machine.execRqEnable n v s
  | .rqDisable n v => Sys2Proof.Machine.execRqDisable n v s
  | .ringErrorClear n reply v => Sys2Proof.Machine.execRingErrorClear n reply v s
  | .winBaseWrite v => Sys2Proof.Machine.execWinBaseWrite v s
  | .resetRequestModule => Sys2Proof.Machine.execResetRequestModule s
  | .resetRequestRetrain => Sys2Proof.Machine.execResetRequestRetrain s
  | .lowHalfRead off => Sys2Proof.Machine.execLowHalfRead off s
  | .lowHalfWrite off v => Sys2Proof.Machine.execLowHalfWrite off v s
  | .registerWrite off width v full => Sys2Proof.Machine.execRegisterWrite off width v full s
  | .bar2Read off len => Sys2Proof.Machine.execBar2Read off len s
  | .bar2Write off bytes => Sys2Proof.Machine.execBar2Write off bytes s
  | .nop id => Sys2Proof.Machine.execNop id s
  | .openSession id => Sys2Proof.Machine.execOpenSession id s
  | .loadProgram id => Sys2Proof.Machine.execLoadProgram id s
  | .mapMemory id => Sys2Proof.Machine.execMapMemory id s
  | .createContext id => Sys2Proof.Machine.execCreateContext id s
  | .destroyContext id => Sys2Proof.Machine.execDestroyContext id s
  | .run id => Sys2Proof.Machine.execRun id s
  | .step id => Sys2Proof.Machine.execStep id s
  | .publishWeights id => Sys2Proof.Machine.execPublishWeights id s
  | .checkpoint id => Sys2Proof.Machine.execCheckpoint id s
  | .restore id host => Sys2Proof.Machine.execRestore id host s
  | .setShares id => Sys2Proof.Machine.execSetShares id s
  | .setCaravanTable id => Sys2Proof.Machine.execSetCaravanTable id s
  | .setPowerLimit id => Sys2Proof.Machine.execSetPowerLimit id s
  | .queryAttention id => Sys2Proof.Machine.execQueryAttention id s
  | .ackAttention id => Sys2Proof.Machine.execAckAttention id s
  | .readCapture id => Sys2Proof.Machine.execReadCapture id s
  | .resetDomain id => Sys2Proof.Machine.execResetDomain id s
  | .reinstate id host => Sys2Proof.Machine.execReinstate id host s
  | .attest id => Sys2Proof.Machine.execAttest id s
  | .commandDeadlineExpiry id => Sys2Proof.Machine.execCommandDeadlineExpiry id s
  | .sliceBoundary => Sys2Proof.Machine.execSliceBoundary s
  | .caravanTableActivation => Sys2Proof.Machine.execCaravanTableActivation s
  | .caravanLeadTime n => Sys2Proof.Machine.execCaravanLeadTime n s
  | .caravanWindowOpen n => Sys2Proof.Machine.execCaravanWindowOpen n s
  | .caravanWindowClose n => Sys2Proof.Machine.execCaravanWindowClose n s
  | .preemptionSaveComplete k => Sys2Proof.Machine.execPreemptionSaveComplete k s
  | .restoreComplete k => Sys2Proof.Machine.execRestoreComplete k s
  | .teardownQuiescence k => Sys2Proof.Machine.execTeardownQuiescence k s
  | .teardownTimeout k => Sys2Proof.Machine.execTeardownTimeout k s
  | .resetCompletion kind die num untrained => Sys2Proof.Machine.execResetCompletion kind die num untrained s
  | .resetCompletionTimeout kind die num => Sys2Proof.Machine.execResetCompletionTimeout kind die num s
  | .regulatorPhaseLoss rail => Sys2Proof.Machine.execRegulatorPhaseLoss rail s
  | .powerEvaluation raw temps => Sys2Proof.Machine.execPowerEvaluation raw temps s
  | .powerInterval measured => Sys2Proof.Machine.execPowerInterval measured s
  | .powerDisagreement => Sys2Proof.Machine.execPowerDisagreement s
  | .limitUnreachable => Sys2Proof.Machine.execLimitUnreachable s
  | .voltageLoopStep => Sys2Proof.Machine.execVoltageLoopStep s
  | .fastLimitTrip => Sys2Proof.Machine.execFastLimitTrip s
  | .fastLimitEnd => Sys2Proof.Machine.execFastLimitEnd s
  | .pwrbrakeAssert => Sys2Proof.Machine.execPwrbrakeAssert s
  | .pwrbrakeRelease => Sys2Proof.Machine.execPwrbrakeRelease s
  | .thermalTrip => Sys2Proof.Machine.execThermalTrip s
  | .railMonitorExcursion die => Sys2Proof.Machine.execRailMonitorExcursion die s
  | .inputPowerApplied => Sys2Proof.Machine.execInputPowerApplied s
  | .pwrEnRise => Sys2Proof.Machine.execPwrEnRise s
  | .pwrEnFall => Sys2Proof.Machine.execPwrEnFall s
  | .inputVoltageFault => Sys2Proof.Machine.execInputVoltageFault s
  | .modResetNAssert => Sys2Proof.Machine.execModResetNAssert s
  | .modResetNRelease => Sys2Proof.Machine.execModResetNRelease s
  | .perstNAssert => Sys2Proof.Machine.execPerstNAssert s
  | .perstNRelease => Sys2Proof.Machine.execPerstNRelease s
  | .functionLevelReset => Sys2Proof.Machine.execFunctionLevelReset s
  | .linkTrained speed width => Sys2Proof.Machine.execLinkTrained speed width s
  | .refclkLoss => Sys2Proof.Machine.execRefclkLoss s
  | .smbusTransaction addr => Sys2Proof.Machine.execSmbusTransaction addr s
  | .smbusClockTimeout => Sys2Proof.Machine.execSmbusClockTimeout s
  | .tapInstruction ir => Sys2Proof.Machine.execTapInstruction ir s
  | .boot => Sys2Proof.Machine.execBoot s
  | .flashTransactionTimeout => Sys2Proof.Machine.execFlashTransactionTimeout s
  | .firmwareUpdate typ version verifies digestOk serial => Sys2Proof.Machine.execFirmwareUpdate typ version verifies digestOk serial s
  | .getVersion transport => Sys2Proof.Machine.execGetVersion transport s
  | .getCapabilities transport => Sys2Proof.Machine.execGetCapabilities transport s
  | .negotiateAlgorithms transport sha3Offered mldsaOffered => Sys2Proof.Machine.execNegotiateAlgorithms transport sha3Offered mldsaOffered s
  | .getDigests transport => Sys2Proof.Machine.execGetDigests transport s
  | .getCertificate transport slot offset len => Sys2Proof.Machine.execGetCertificate transport slot offset len s
  | .challenge transport slot nonce => Sys2Proof.Machine.execChallenge transport slot nonce s
  | .getMeasurements transport index sign nonce => Sys2Proof.Machine.execGetMeasurements transport index sign nonce s
  | .spdmUnsupportedRequest transport code => Sys2Proof.Machine.execSpdmUnsupportedRequest transport code s
  | .hotReset => Sys2Proof.Machine.execHotReset s
  | .refclkReturn => Sys2Proof.Machine.execRefclkReturn s
  | .serviceRestartComplete p => Sys2Proof.Machine.execServiceRestartComplete p s
  | .checkpointDeadlineExpiry k => Sys2Proof.Machine.execCheckpointDeadlineExpiry k s
  | .resetCountWindowExpiry day => Sys2Proof.Machine.execResetCountWindowExpiry day s
  | .tref10mAmplitudeLoss => Sys2Proof.Machine.execTref10mAmplitudeLoss s
  | .tref10mRecovery => Sys2Proof.Machine.execTref10mRecovery s
  | .configSpaceWrite msixEnable functionMask => Sys2Proof.Machine.execConfigSpaceWrite msixEnable functionMask s

end Sys2Proof.Machine
end

