-- ==== Sys2Proof/WellFormed.lean ====
section
/-! DEFINITION. Well-formed commands: the units that a command names exist (12 R343, 01 R15, 05 R122, 08 R214, 12 R337, 07 R204, 15 R416).
A command that is not well-formed names a unit that no module has; its effect is a fault by name. -/

namespace Sys2Proof

/-- Context numbers 0 to 63 (12 R343). -/
def ctxOk (k : Nat) : Bool := decide (k < 64)
/-- Logical cores 0 to 511 of a context (07 R195). -/
def coreOk (k l : Nat) : Bool := ctxOk k && decide (l < 512)
/-- Wadi queues 0 to 15 of a core (07 R198). -/
def queueOk (q : Nat) : Bool := decide (q < 16)
/-- Engine codes with a queue (05 R122): 1 to 4 and the sixteen wadi queues from 16 on. -/
def engineOk (e : Nat) : Bool := decide (1 ≤ e ∧ e ≤ 4) || decide (16 ≤ e ∧ e < 32)
/-- Seif ports 0 to 17 (08 R214). -/
def portOk (p : Nat) : Bool := decide (p < 18)
/-- Rings 0 to 63 (12 R337). -/
def ringOk (n : Nat) : Bool := decide (n < 64)
/-- Physical cores 0 to 135 of dies 0 to 3 (01 R15). -/
def physOk (die core : Nat) : Bool := decide (die < 4) && decide (core < 136)

/-- Does a command name only units that the block has? -/
def Instr.wf : Instr → Bool
  | .seqNop k l => coreOk k l
  | .seqLoop k l => coreOk k l
  | .seqEndl k l => coreOk k l
  | .seqBrlc k l => coreOk k l
  | .seqWaitSt k l => coreOk k l
  | .seqTb k l => coreOk k l
  | .seqFence k l => coreOk k l
  | .seqEnd k l => coreOk k l
  | .seqLi k l => coreOk k l
  | .seqLih k l => coreOk k l
  | .seqAddi k l => coreOk k l
  | .seqAdd k l => coreOk k l
  | .seqSub k l => coreOk k l
  | .seqMul k l => coreOk k l
  | .seqAnd k l => coreOk k l
  | .seqOr k l => coreOk k l
  | .seqXor k l => coreOk k l
  | .seqShl k l => coreOk k l
  | .seqShr k l => coreOk k l
  | .seqRdlc k l => coreOk k l
  | .seqRdid k l => coreOk k l
  | .mxMm k l _ _ => coreOk k l
  | .mxMerge k l _ => coreOk k l
  | .mxSpill k l => coreOk k l
  | .mxDrain k l _ => coreOk k l
  | .mxStat k l => coreOk k l
  | .mxClose k l => coreOk k l
  | .vxLd k l _ => coreOk k l
  | .vxSt k l => coreOk k l
  | .vxAdd k l => coreOk k l
  | .vxSub k l => coreOk k l
  | .vxMul k l => coreOk k l
  | .vxFma k l => coreOk k l
  | .vxMin k l => coreOk k l
  | .vxMax k l => coreOk k l
  | .vxSel k l => coreOk k l
  | .vxCvt k l => coreOk k l
  | .vxCvtmx k l _ => coreOk k l
  | .vxLdmx k l _ => coreOk k l
  | .vxRcp k l => coreOk k l
  | .vxRsq k l => coreOk k l
  | .vxExp2 k l => coreOk k l
  | .vxLog2 k l => coreOk k l
  | .vxSqrt k l => coreOk k l
  | .vxPadd k l => coreOk k l
  | .vxPmul k l => coreOk k l
  | .vxPfma k l => coreOk k l
  | .vxIadd k l => coreOk k l
  | .vxIsub k l => coreOk k l
  | .vxImul k l => coreOk k l
  | .vxAnd k l => coreOk k l
  | .vxOr k l => coreOk k l
  | .vxXor k l => coreOk k l
  | .vxShl k l => coreOk k l
  | .vxShr k l => coreOk k l
  | .vxSra k l => coreOk k l
  | .vxRsum k l => coreOk k l
  | .vxRmax k l => coreOk k l
  | .vxNfc k l => coreOk k l
  | .vxM48add k l => coreOk k l
  | .vxM48fma k l => coreOk k l
  | .vxM48cvt k l => coreOk k l
  | .vxLi k l => coreOk k l
  | .grDraw k l => coreOk k l
  | .rowStat k l _ => coreOk k l
  | .rowMerge k l _ => coreOk k l
  | .rowApply k l _ => coreOk k l
  | .rowBwd k l _ => coreOk k l
  | .rowKeep k l _ => coreOk k l
  | .rowFetch k l _ => coreOk k l
  | .wqPost k l q _ => coreOk k l && queueOk q
  | .wqWatch k l q => coreOk k l && queueOk q
  | .netSend k l _ => coreOk k l
  | .netMcast k l _ => coreOk k l
  | .ckRdf k l => coreOk k l
  | .ckClrf k l => coreOk k l
  | .ckCap k l => coreOk k l
  | .ckPoison k l => coreOk k l
  | .gtVote k l _ => coreOk k l
  | .gtWait k l => coreOk k l
  | .gtClr k l => coreOk k l
  | .sequencerDispatch k l => coreOk k l
  | .instructionCompletion k l engine _ => coreOk k l && engineOk engine
  | .watchFire k l q _ => coreOk k l && queueOk q
  | .waitLimitExpiry k l engine _ => coreOk k l && (engine == 0 || engineOk engine)
  | .stTargetReached k l => coreOk k l
  | .contextFaultStop k => ctxOk k
  | .rippleBoundary _ => true
  | .onDiePacketArrival _ _ _ => true
  | .wadiDescriptorStart k l q _ => coreOk k l && queueOk q
  | .wadiRequestIssue k l q _ _ => coreOk k l && queueOk q
  | .memoryRequest _ _ => true
  | .wadiDataArrival _ => true
  | .wadiDescriptorCompletion k l q => coreOk k l && queueOk q
  | .wadiResponseTimeout _ => true
  | .hostReadCompletion _ _ _ => true
  | .memoryRefresh far unit _ => decide (unit < (if far then 16 else 512))
  | .patrolScrub _ _ => true
  | .rowRepair die _ _ => decide (die < 4)
  | .dataMoveComplete die => decide (die < 4)
  | .stackTemperatureRead stack _ => decide (stack < 16)
  | .portTraining p => portOk p
  | .trainingRateFallback p => portOk p
  | .laneQualification p _ => portOk p
  | .dataFrameReceive p _ _ => portOk p
  | .controlFrameReceive p _ _ => portOk p
  | .idleFrameReceive p _ _ => portOk p
  | .discoveryFrameReceive p _ _ => portOk p
  | .ackTimeout p => portOk p
  | .controlFrameSend p => portOk p
  | .discoveryFrameSend p => portOk p
  | .timestamp p => portOk p
  | .grandmasterAnnouncement p => portOk p
  | .laneSwap p => portOk p
  | .laneErrorThreshold p _ => portOk p
  | .resendRequest p => portOk p
  | .pacing p => portOk p
  | .managementRelay p => portOk p
  | .departureNotice p => portOk p
  | .writeAcknowledgement p => portOk p
  | .collectiveAbort p => portOk p
  | .partnerSilenceTimeout p => portOk p
  | .routeAbsenceTimeout _ _ => true
  | .holdoverEntry => true
  | .holdoverLimit => true
  | .trefPpsEdge _ => true
  | .tref10mDeviation => true
  | .seifPacketArrival p => portOk p
  | .peerWriteTimeout _ => true
  | .linkWindowOpen k _ => ctxOk k
  | .linkWindowClose k _ => ctxOk k
  | .collectiveStart k _ => ctxOk k
  | .contributionArrival k => ctxOk k
  | .collectiveCompletion k _ => ctxOk k
  | .collectiveDeadlineExpiry k _ => ctxOk k
  | .pacingPeriodBoundary => true
  | .stepPhaseStart k _ => ctxOk k
  | .gateReport k _ => ctxOk k
  | .gateDecision k _ => ctxOk k
  | .pendingVersionAllocation k => ctxOk k
  | .shardDigestComplete k _ => ctxOk k
  | .prepareReport k _ => ctxOk k
  | .decisionLog k => ctxOk k
  | .commit k _ => ctxOk k
  | .commitTimeReached k => ctxOk k
  | .abort k _ => ctxOk k
  | .failureReport k _ => ctxOk k
  | .decisionQuery k _ => ctxOk k
  | .decisionReply k _ => ctxOk k
  | .exchangeDeadlineExpiry k => ctxOk k
  | .fenceRelease k _ _ => ctxOk k
  | .weightDigestComplete k => ctxOk k
  | .tensorDigestComplete k _ _ => ctxOk k
  | .cairnSignatureComplete k => ctxOk k
  | .ringSpaceFreed k _ _ => ctxOk k
  | .roundStart k => ctxOk k
  | .rolloutAdmission k _ _ => ctxOk k
  | .tokenChoice k _ _ _ => ctxOk k
  | .rolloutEnd k _ _ => ctxOk k
  | .weightPublication k => ctxOk k
  | .publicationDigestCheck k _ _ => ctxOk k
  | .checkpointStart k => ctxOk k
  | .checkpointComplete k => ctxOk k
  | .mirageCheck die _ => decide (die < 4)
  | .recheckVerdict _ _ _ => true
  | .mirageSelfTest die _ => decide (die < 4)
  | .twinMismatch k l _ _ _ => coreOk k l
  | .sieveDue die core => physOk die core
  | .sieveForced die core => physOk die core
  | .sieveComplete die core _ => physOk die core
  | .suspectClearTimeout i => decide (i < 1024)
  | .oasisPairFailure p => decide (p < 4)
  | .mesaFailure => true
  | .doorbellWrite n _ => ringOk n
  | .commandFetch n _ => ringOk n
  | .commandStart _ => true
  | .replyWrite n => ringOk n
  | .rqTailWrite n _ => ringOk n
  | .rqArmWrite n _ => ringOk n
  | .sqEnable n _ => ringOk n
  | .sqDisable n _ => ringOk n
  | .rqEnable n _ => ringOk n
  | .rqDisable n _ => ringOk n
  | .ringErrorClear n _ _ => ringOk n
  | .winBaseWrite _ => true
  | .resetRequestModule => true
  | .resetRequestRetrain => true
  | .lowHalfRead _ => true
  | .lowHalfWrite _ _ => true
  | .registerWrite _ _ _ _ => true
  | .bar2Read _ _ => true
  | .bar2Write _ _ => true
  | .nop _ => true
  | .openSession _ => true
  | .loadProgram _ => true
  | .mapMemory _ => true
  | .createContext _ => true
  | .destroyContext _ => true
  | .run _ => true
  | .step _ => true
  | .publishWeights _ => true
  | .checkpoint _ => true
  | .restore _ _ => true
  | .setShares _ => true
  | .setCaravanTable _ => true
  | .setPowerLimit _ => true
  | .queryAttention _ => true
  | .ackAttention _ => true
  | .readCapture _ => true
  | .resetDomain _ => true
  | .reinstate _ _ => true
  | .attest _ => true
  | .commandDeadlineExpiry _ => true
  | .sliceBoundary => true
  | .caravanTableActivation => true
  | .caravanLeadTime _ => true
  | .caravanWindowOpen _ => true
  | .caravanWindowClose _ => true
  | .preemptionSaveComplete k => ctxOk k
  | .restoreComplete k => ctxOk k
  | .teardownQuiescence k => ctxOk k
  | .teardownTimeout k => ctxOk k
  | .resetCompletion _ _ _ _ => true
  | .resetCompletionTimeout _ _ _ => true
  | .regulatorPhaseLoss rail => decide (rail < 8)
  | .powerEvaluation _ _ => true
  | .powerInterval _ => true
  | .powerDisagreement => true
  | .limitUnreachable => true
  | .voltageLoopStep => true
  | .fastLimitTrip => true
  | .fastLimitEnd => true
  | .pwrbrakeAssert => true
  | .pwrbrakeRelease => true
  | .thermalTrip => true
  | .railMonitorExcursion die => decide (die < 4)
  | .inputPowerApplied => true
  | .pwrEnRise => true
  | .pwrEnFall => true
  | .inputVoltageFault => true
  | .modResetNAssert => true
  | .modResetNRelease => true
  | .perstNAssert => true
  | .perstNRelease => true
  | .functionLevelReset => true
  | .linkTrained _ _ => true
  | .refclkLoss => true
  | .smbusTransaction _ => true
  | .smbusClockTimeout => true
  | .tapInstruction _ => true
  | .boot => true
  | .flashTransactionTimeout => true
  | .firmwareUpdate _ _ _ _ _ => true
  | .getVersion _ => true
  | .getCapabilities _ => true
  | .negotiateAlgorithms _ _ _ => true
  | .getDigests _ => true
  | .getCertificate _ _ _ _ => true
  | .challenge _ _ _ => true
  | .getMeasurements _ _ _ _ => true
  | .spdmUnsupportedRequest _ _ => true
  | .hotReset => true
  | .refclkReturn => true
  | .serviceRestartComplete p => decide (p < 4)
  | .checkpointDeadlineExpiry k => ctxOk k
  | .resetCountWindowExpiry _ => true
  | .tref10mAmplitudeLoss => true
  | .tref10mRecovery => true
  | .configSpaceWrite _ _ => true

end Sys2Proof
end

