-- ==== Sys2Proof/Safety.lean ====
section
/-! DEFINITION. What a safe run is, the standing properties of a state, and the situations in which a command has its own effect: the terms that
claims are stated in. -/

namespace Sys2Proof.Machine

/-- The device memories are in canonical form: bytes, poison flags and rewritten flags. -/
abbrev Memory.wf (m : Mem) : Prop := SMap.wf m.bytes ∧ SMap.wf m.poison ∧ SMap.wf m.rewritten

/-- The attention log holds at most 4,096 entries (12 R351). -/
def Attention.bounded (a : Attention) : Prop := a.log.length ≤ 4096

/-- What every step keeps: canonical memories (07 R204) and a bounded attention log (12 R351). -/
def State.Inv (s : State) : Prop := Memory.wf s.mem ∧ s.attn.bounded

/-- A command completes: its effect is a next state, neither a fault nor a refusal. -/
def Completes (i : Instr) (s : State) : Prop := ∃ t, exec i s = .next t

/-- A queue is safe to run if every command that waits is well-formed. -/
def State.queueSafe (s : State) : Bool := s.pending.all Instr.wf

/-! ## Turns of instructions (05 R123 to R125) -/

/-- A running core of a context that is not stopping: context `k` is `c`, its logical core `l` is `x`. -/
structure CoreTurn (s : State) (k l : Nat) (c : Ctx) (x : Core) : Prop where
  context : k < 64
  logical : l < 512
  hasCtx : s.ctx? k = some c
  hasCore : c.core? l = some x
  live : c.live = true
  going : c.stopping = false
  notStopped : x.seq.stopped = false
  notFolded : x.folded = false

/-- The sequencer of a core stands at a sequencer-class instruction of a class and op whose token wait is satisfied and whose signal fits, in no calm
(05 R123, R125, 07 R185). -/
structure SeqTurn (s : State) (k l : Nat) (c : Ctx) (x : Core) (w : W64) (cls op : Nat) : Prop extends CoreTurn s k l c x where
  word : (s.env c l x).wordAt x = some w
  isClass : opClass w = cls
  isOp : opCode w = op
  calm : s.net.calm = false
  ready : opCw w ≤ x.token (opTw w)
  notEnded : x.seq.ended = false
  room : opCs w = 0 ∨ (x.takeToken w).token (opTs w) + opCs w < 2 ^ 32

/-- The head of an engine's queue is an instruction of a class and op that has not executed and whose token wait is satisfied, in no calm, and the matrix
array stands between no two blocks of it (05 R123, R125, 04 R121, 07 R185). -/
structure EngineTurn (s : State) (k l : Nat) (c : Ctx) (x : Core) (eng : Nat) (e : QEntry) (rest : List QEntry) (cls op : Nat) : Prop
    extends CoreTurn s k l c x where
  head : x.queue eng = e :: rest
  isClass : opClass e.word = cls
  isOp : opCode e.word = op
  calm : s.net.calm = false
  ready : opCw e.word ≤ x.token (opTw e.word)
  fresh : e.executed = false
  whole : x.midBlock eng = false

/-- The state with a core of a context replaced, and nothing else. -/
def State.withCoreAs (s : State) (k l : Nat) (c : Ctx) (y : Core) : State := s.putCtx k (c.putCore l y)

/-- A core whose sequencer has taken the wait of its instruction and one active beat (05 R125, R131). -/
def Core.begun (x : Core) (w : W64) : Core := (x.takeToken w).addBeats 0 1

/-- A core after the completion signal of an instruction (05 R125). -/
def Core.signalled (y : Core) (w : W64) : Core :=
  if opCs w = 0 then y else { y with t := sset y.t (opTs w) (BitVec.ofNat 32 (y.token (opTs w) + opCs w)) }

/-- The next state of a sequencer-class instruction that turns its begun core into `y` (05 R123). -/
def State.seqDone (s : State) (k l : Nat) (c : Ctx) (w : W64) (y : Core) : State := s.withCoreAs k l c (y.signalled w)

/-- A core as the head of an engine's queue finds it: `errs` is what its scratchpad's code meets in the granules that the head reads (07 R193), of an
mx.mm those of the blocks up to where it stops (04 R121). -/
def Core.met (x : Core) (s : State) (eng : Nat) (errs : List (Nat × Flips)) (stop : Option Nat := none) : Core := x.strike s.freeCount (x.hits eng stop errs)

/-- The state in which those errors are counted and reported (07 R193). -/
def State.met (s : State) (k l : Nat) (c : Ctx) (x : Core) (eng : Nat) (errs : List (Nat × Flips)) (stop : Option Nat := none) : State :=
  s.foundErrors k l c (x.hits eng stop errs)

/-- The core after an engine's head has executed: the head waits for its completion (05 R124), and in twin mode keeps the digest of its output (11 R320);
`z` is the core before. -/
def Core.executedHead (y : Core) (twin : Bool) (eng : Nat) (e : QEntry) (rest : List QEntry) (z : Core) : Core :=
  let y := y.setQueue eng ({ e with executed := true } :: rest)
  if twin then y.noteTwin eng z else y

/-- The next state of an engine instruction that turns the core that it finds, its wait taken, into `y` (05 R124). -/
def State.engineDone (s : State) (k l : Nat) (c : Ctx) (x : Core) (eng : Nat) (errs : List (Nat × Flips)) (e : QEntry) (rest : List QEntry) (y : Core) : State :=
  (s.met k l c x eng errs).withCoreAs k l c (y.executedHead c.desc.twin eng e rest (x.met s eng errs))

/-- A core after a lane op: all 64 lanes of v(d), the poison mark, the flags of the lanes unless poisoned, and the active beats (03 R90, R94, 06 R158). -/
def Core.laneDone (x : Core) (e : QEntry) (poisoned : Bool) (beats : Nat) (f : Nat → FRes) : Core :=
  let y := x.setLanes (opVd e.word) ((List.range 64).map (fun i => (f i).1)) poisoned
  let y := if poisoned then y
    else { y with fv := y.fv.record e.idx noTensor ((List.range 64).map (fun i => ElemEv.mk i noBlock (f i).2)) }
  y.addBeats engVector beats

/-- A core after a Master48 op: the pair v(d):v(d + 1), its poison, the flags unless poisoned, and 2 active beats (03 R94, 06 R158). -/
def Core.pairDone (x : Core) (e : QEntry) (poisoned : Bool) (f : Nat → (W32 × W32) × Ev) : Core :=
  let rs := (List.range 64).map f
  let y := (x.setLanes (opVd e.word) (rs.map (fun r => r.1.1)) poisoned).setLanes (opVd e.word + 1) (rs.map (fun r => r.1.2)) poisoned
  let y := if poisoned then y else { y with fv := y.fv.record e.idx noTensor (rs.mapIdx (fun i r => ElemEv.mk i noBlock r.2)) }
  y.addBeats engVector 2

/-- A core after row results: record arrays or rows in the scratchpad, the flags of the rows that no poison reaches, and the active beats (06 R176). -/
def Core.rowsDone (x : Core) (e : QEntry) (evs : List ElemEv) (beats : Nat) : Core := (x.rowFlags e evs).addBeats engRow beats

/-! ## Turns of the step driver (09 R256, R273) -/

/-- The oldest STEP of a context, and the STEPs after it. -/
structure StepTurn (s : State) (k : Nat) (c : Ctx) (st : StepRun) (later : List StepRun) : Prop where
  context : k < 64
  hasCtx : s.ctx? k = some c
  steps : c.steps = st :: later
  distinct : ∀ x ∈ later, x.cmd ≠ st.cmd

/-- The state whose only change is in the oldest STEP of a context. -/
def State.withStep (s : State) (k : Nat) (c : Ctx) (st : StepRun) (later : List StepRun) : State := s.putCtx k { c with steps := st :: later }

/-- No version buffer of a context is pending. -/
def Ctx.nonePending (c : Ctx) : Prop := ∀ l, c.learn = some l → ∀ b ∈ l.buffers, b.state ≠ .pending

/-! ## Frames of a Seif port (08 R217) -/

/-- A port that has heard a valid frame: its corrected codewords are counted, its time noted, and what the frame acknowledges has left the replay buffer. -/
def Port.heardFrame (x : Port) (n : Nat) (f : Frame) (now : W64) : Port :=
  let y := { x with fecCorr := satAdd 32 x.fecCorr n, lastRx := now }
  if f.ackValid then
    { y with buffer := x.unacked f.ack, acked := f.ack, ackTime := if (x.unacked f.ack).length < x.buffer.length then now else x.ackTime }
  else y

/-! ## Turns of the host's commands (12 R346, R347) -/

/-- A fetched command with an opcode has started and has not begun its effect. -/
structure CmdTurn (s : State) (id op : Nat) (c : HostCmd) : Prop where
  fetched : s.cmd? id = some c
  started : c.started = true
  isOp : c.opcode = op
  fresh : c.begun = false

/-- The same, for a command whose context is there. -/
structure CtxCmdTurn (s : State) (id op : Nat) (c : HostCmd) (k : Nat) (x : Ctx) : Prop extends CmdTurn s id op c where
  names : c.named = some k
  hasCtx : s.ctx? k = some x

end Sys2Proof.Machine
end

