-- ==== Sys2Proof/Certificates/Slice0/Obligations.lean ====
section
/-! DEFINITION. The statements for the provers: what the rules of the specification say the commands and the machine do. -/

open Sys2Proof Sys2Proof.Machine

/-! ## The queue (95, the block's commands) -/

/-- A command at the front of the queue: a step is its effect on the state with the queue's rest. An empty queue idles: while the rails are on, System Time counts one
unit of 1/16 ns and whole microseconds are charged to the contexts on their cores (log 3, the model's choice). -/
def Obligations.StepRunsFront : Prop :=
  (∀ (i : Instr) (rest : List Instr) (s : State), step { s with pending := i :: rest } = exec i { s with pending := rest })
  ∧ (∀ s : State, s.pending = [] → step s = .next (if s.pins.railsOn then s.tick else s))

/-- A command ends a run exactly when it names a unit that no module has: any other command answers a next state in every state. -/
def Obligations.CommandsComplete : Prop :=
  ∀ (i : Instr) (s : State), (i.wf = true → ∃ t, exec i s = .next t) ∧ (i.wf = false → ∃ f, exec i s = .fault f)

/-! ## The sequencer (05 R128 to R136) -/

/-- Arithmetic and moves of scalar registers: the named result in sd, the sequencer at the next instruction, its wait taken and its signal added,
one active beat; nothing else of the machine changes (05 R136). -/
def Obligations.SequencerArithmetic : Prop :=
  ∀ (s : State) (k l : Nat) (c : Ctx) (x : Core) (w : W64),
    let done := fun (v : W64) => Host.Outcome.next (ρ := Refusal) (φ := Fault) (s.seqDone k l c w (((x.begun w).setS (opR0 w) v).advance))
    let a := x.sreg (opR1 w)
    let b := x.sreg (opR2 w)
    (SeqTurn s k l c x w 0 0x00 → exec (.seqNop k l) s = .next (s.seqDone k l c w (x.begun w).advance))
    ∧ (SeqTurn s k l c x w 0 0x08 → exec (.seqLi k l) s = done (BitVec.ofNat 64 (w.toNat % 2 ^ 32)))
    ∧ (SeqTurn s k l c x w 0 0x09 → exec (.seqLih k l) s = done (BitVec.ofNat 64 (w.toNat % 2 ^ 32 * 2 ^ 32 + (x.sreg (opR0 w)).toNat % 2 ^ 32)))
    ∧ (SeqTurn s k l c x w 0 0x0A → exec (.seqAddi k l) s = done (a + BitVec.signExtend 64 (BitVec.truncate 22 w)))
    ∧ (SeqTurn s k l c x w 0 0x0B → exec (.seqAdd k l) s = done (a + b))
    ∧ (SeqTurn s k l c x w 0 0x0C → exec (.seqSub k l) s = done (a - b))
    ∧ (SeqTurn s k l c x w 0 0x0D → exec (.seqMul k l) s = done (a * b))
    ∧ (SeqTurn s k l c x w 0 0x0E → exec (.seqAnd k l) s = done (a &&& b))
    ∧ (SeqTurn s k l c x w 0 0x0F → exec (.seqOr k l) s = done (a ||| b))
    ∧ (SeqTurn s k l c x w 0 0x10 → exec (.seqXor k l) s = done (a ^^^ b))
    ∧ (SeqTurn s k l c x w 0 0x11 → exec (.seqShl k l) s = done (a <<< (w.toNat % 64)))
    ∧ (SeqTurn s k l c x w 0 0x12 → exec (.seqShr k l) s = done (a >>> (w.toNat % 64)))

/-- seq.rdlc reads the loop counter of an open level; seq.rdid reads its eight items (05 R136). -/
def Obligations.SequencerReads : Prop :=
  ∀ (s : State) (k l : Nat) (c : Ctx) (x : Core) (w : W64),
    let done := fun (v : W64) => Host.Outcome.next (ρ := Refusal) (φ := Fault) (s.seqDone k l c w (((x.begun w).setS (opR0 w) v).advance))
    let nat := fun (n : Nat) => BitVec.ofNat 64 n
    (∀ level : LoopLevel, SeqTurn s k l c x w 0 0x13 → x.seq.loops.reverse[fld w 30 2]? = some level → exec (.seqRdlc k l) s = done (nat level.lc))
    ∧ (SeqTurn s k l c x w 0 0x14 →
        (fld w 28 4 = 0 → exec (.seqRdid k l) s = done (nat l)) ∧ (fld w 28 4 = 1 → exec (.seqRdid k l) s = done (nat c.desc.cores))
        ∧ (fld w 28 4 = 2 → exec (.seqRdid k l) s = done (nat (s.rankOf c))) ∧ (fld w 28 4 = 3 → exec (.seqRdid k l) s = done (nat c.desc.modules))
        ∧ (fld w 28 4 = 4 → exec (.seqRdid k l) s = done (nat ((c.run.map (fun r => r.step.toNat)).getD 0)))
        ∧ (fld w 28 4 = 5 → exec (.seqRdid k l) s = done (nat c.versionSeen))
        ∧ (fld w 28 4 = 6 → exec (.seqRdid k l) s = done (nat ((c.stepOf.map StepRun.pending).getD 0)))
        ∧ (fld w 28 4 = 7 → exec (.seqRdid k l) s = done x.tileIndex))

/-- Loops: a count of 1 or more opens a level, seq.endl repeats or leaves the innermost level, seq.brlc skips n instructions where its condition
holds (05 R129, R130); a register count above 2^24 - 1 is the fault LOOP_RANGE. -/
def Obligations.SequencerLoops : Prop :=
  ∀ (s : State) (k l : Nat) (c : Ctx) (x : Core) (w : W64),
    let y := x.begun w
    (SeqTurn s k l c x w 0 0x01 →
      let n := if w.getLsbD 36 then (x.sreg (fld w 31 5)).toNat % 2 ^ 32 else w.toNat % 2 ^ 24
      (n ≠ 0 → n < 2 ^ 24 → exec (.seqLoop k l) s = .next (s.seqDone k l c w
        { y with seq := { y.seq with pos := x.seq.pos + 1, loops := ⟨x.seq.pos + 1, n, 0⟩ :: x.seq.loops } }))
      ∧ (n = 0 → exec (.seqLoop k l) s = .next (s.seqDone k l c w (y.setPos (skipBody ((s.env c l x).image.drop (x.seq.pos + 1)) 0 (x.seq.pos + 1)))))
      ∧ (2 ^ 24 ≤ n → exec (.seqLoop k l) s = .next (s.putCtx k (c.raiseFault s.st.now l 0 0x08 x.seq.pos))))
    ∧ (∀ (level : LoopLevel) (outer : List LoopLevel), SeqTurn s k l c x w 0 0x02 → x.seq.loops = level :: outer →
        (level.lc + 1 < level.count → exec (.seqEndl k l) s = .next (s.seqDone k l c w
          { y with seq := { y.seq with pos := level.start, loops := { level with lc := level.lc + 1 } :: outer } }))
        ∧ (level.count ≤ level.lc + 1 → exec (.seqEndl k l) s = .next (s.seqDone k l c w
          { y with seq := { y.seq with pos := x.seq.pos + 1, loops := outer } })))
    ∧ (∀ level : LoopLevel, SeqTurn s k l c x w 0 0x03 → x.seq.loops.reverse[fld w 35 2]? = some level →
        exec (.seqBrlc k l) s = .next (s.seqDone k l c w
          (y.setPos (x.seq.pos + 1 + if brlcHolds (fld w 32 3) level.lc level.count (fld w 0 18) then fld w 18 14 else 0))))

/-- seq.fence, seq.tb and seq.end where what they wait for has completed (05 R131, R132, R136): the boundary adds one to the tile index, counts an
overrun of 65,536 active beats and measures anew, and lets the core move to another host or give way to one; the end marks the core as ended; an open tile at
the end is the fault ACC_OPEN_AT_END. Where an engine that they name is at work they wait. A core of a context that is asked to leave waits at seq.tb outside a stretch
that cannot be pre-empted (13 R375). -/
def Obligations.SequencerBoundaries : Prop :=
  ∀ (s : State) (k l : Nat) (c : Ctx) (x : Core) (w : W64),
    let y := x.begun w
    let waits := Host.Outcome.next (ρ := Refusal) (φ := Fault) (s.putCtx k c)
    (SeqTurn s k l c x w 0 0x06 →
      ((∀ g ∈ fenceEngines w, x.queue g = []) → exec (.seqFence k l) s = .next (s.seqDone k l c w y.advance))
      ∧ ((∃ g ∈ fenceEngines w, x.queue g ≠ []) → exec (.seqFence k l) s = waits))
    ∧ (SeqTurn s k l c x w 0 0x05 →
      ((c.preempt = false ∨ s.inStretch k c = true) → x.quiescent = true → exec (.seqTb k l) s = .next (((s.putCtx k ((c.putCore l
          (({ y.advance with tileIndex := x.tileIndex + 1, tileBeats := [] } : Core).signalled w)).noteTile x)).boundary k l).settleAt k l))
      ∧ ((x.quiescent = false ∨ (c.preempt = true ∧ s.inStretch k c = false)) → exec (.seqTb k l) s = waits))
    ∧ (SeqTurn s k l c x w 0 0x07 →
      (x.quiescent = true → x.tiles = [] → exec (.seqEnd k l) s = .next (programOver ((s.putCtx k ((c.putCore l
          (({ y with seq := { y.seq with ended := true }, tileBeats := [] } : Core).signalled w)).noteTile x)).settleAt k l) k))
      ∧ (x.quiescent = true → x.tiles ≠ [] → exec (.seqEnd k l) s = .next (s.putCtx k (c.raiseFault s.st.now l 0 0x29 x.seq.pos)))
      ∧ (x.quiescent = false → exec (.seqEnd k l) s = waits))

/-- seq.wait.st holds until the System Time that its core observes reaches the target, then goes on with its signal; a target beyond the wait limit
is a fault (05 R128). -/
def Obligations.TimedLaunch : Prop :=
  ∀ (s : State) (k l : Nat) (c : Ctx) (x : Core) (w : W64),
    let y := x.begun w
    let target := x.sreg (opR0 w)
    let go := fun (z : Core) => c.putCore l (({ z.advance with seq := { z.advance.seq with waitTarget := none } } : Core).signalled w)
    let late := fun (t : Nat) => t < s.observed ∧ 16 * c.desc.margin < s.observed - t
    (SeqTurn s k l c x w 0 0x04 → x.seq.waitTarget = none →
      (target.toNat ≤ s.observed → ¬ late target.toNat → exec (.seqWaitSt k l) s = .next (s.spend.putCtx k (go y)))
      ∧ (late target.toNat → exec (.seqWaitSt k l) s = .next (s.spend.noteLate k (go y)))
      ∧ (s.observed < target.toNat → target.toNat ≤ s.observed + c.waitLimit → exec (.seqWaitSt k l) s =
          .next (s.spend.withCoreAs k l c { y with seq := { y.seq with waitTarget := some target } }))
      ∧ (s.observed + c.waitLimit < target.toNat → exec (.seqWaitSt k l) s = .next (s.spend.putCtx k (c.raiseFault s.st.now l 0 0x07 x.seq.pos))))
    ∧ (∀ t : W64, CoreTurn s k l c x → x.seq.waitTarget = some t → (s.env c l x).wordAt x = some w → t.toNat ≤ s.observed →
        (opCs w = 0 ∨ x.token (opTs w) + opCs w < 2 ^ 32) → ¬ late t.toNat → exec (.stTargetReached k l) s = .next (s.spend.putCtx k (go x)))

/-- ck. instructions where the engine that they name, or the instructions that write what they test, have completed (05 R144, 03 R91, 07 R213), and gt. instructions
(05 R145): a core's first vote of an attempt reaches the step driver, a vote after gt.wait is the result, gt.wait copies the decision into the gate predicate, gt.clr clears
the gate count. In twin mode a vote whose digest is not the shadow's is held (11 R320). A granule beyond the scratchpad is the fault SP_RANGE. -/
def Obligations.CheckAndGateInstructions : Prop :=
  ∀ (s : State) (k l : Nat) (c : Ctx) (x : Core) (w : W64),
    let y := x.begun w
    let eng := fld w 30 2
    let g := (x.sreg (opR0 w)).toNat
    let n := (x.sreg (fld w 25 5)).toNat
    let beyond := Host.Outcome.next (ρ := Refusal) (φ := Fault) (s.putCtx k (c.raiseFault s.st.now l 0 0x0A x.seq.pos))
    let waits := Host.Outcome.next (ρ := Refusal) (φ := Fault) (s.putCtx k c)
    (SeqTurn s k l c x w 7 0x00 → x.queue (eng + 1) = [] → exec (.ckRdf k l) s = .next (s.seqDone k l c w ((y.setS (opR0 w) (x.flagsOf eng).word).advance)))
    ∧ (SeqTurn s k l c x w 7 0x01 → x.queue (eng + 1) = [] → exec (.ckClrf k l) s = .next (s.seqDone k l c w ((y.setFlags eng .clear).advance)))
    ∧ (SeqTurn s k l c x w 7 0x02 → x.queue (eng + 1) = [] →
        (g < spGranules → exec (.ckCap k l) s = .next (s.seqDone k l c w ((y.spWrite (64 * g) ((x.flagsOf eng).capture ++ List.replicate 32 0) false).advance)))
        ∧ (spGranules ≤ g → exec (.ckCap k l) s = beyond))
    ∧ (SeqTurn s k l c x w 7 0x03 → y.writesInto g n = false →
        (n ≠ 0 → g + n ≤ spGranules → x.spPoisoned (64 * g) (64 * n) = false → exec (.ckPoison k l) s = .next (s.seqDone k l c w y.advance))
        ∧ (n ≠ 0 → g + n ≤ spGranules → x.spPoisoned (64 * g) (64 * n) = true → exec (.ckPoison k l) s = .next (s.putCtx k (c.raisePoison (viewAddr l g) 0x03)))
        ∧ ((n = 0 ∨ spGranules < g + n) → exec (.ckPoison k l) s = beyond))
    ∧ (SeqTurn s k l c x w 7 0x03 → y.writesInto g n = true → exec (.ckPoison k l) s = waits)
    ∧ (∀ shadow : W64, SeqTurn s k l c x w 8 0x00 → x.queue engMatrix = [] → x.queue engVector = [] → (c.desc.twin = false ∨ voteDigest (x.vote w) = shadow) →
        let done := s.seqDone k l c w y.advance
        (c.stepOf = none → exec (.gtVote k l shadow) s = .next done)
        ∧ (∀ st : StepRun, c.stepOf = some st →
          (l ∉ st.waited → nmem st.votes l = false →
            exec (.gtVote k l shadow) s = .next (tryGate (done.setStep k { st with votes := nset st.votes l (x.vote w) }) k st.cmd))
          ∧ (l ∉ st.waited → nmem st.votes l = true → exec (.gtVote k l shadow) s = .next done)
          ∧ (l ∈ st.waited → exec (.gtVote k l shadow) s = .next (done.setStep k { st with results := nset st.results l (x.vote w) }))))
    ∧ (∀ shadow : W64, SeqTurn s k l c x w 8 0x00 → c.desc.twin = true → voteDigest (x.vote w) ≠ shadow → exec (.gtVote k l shadow) s = waits)
    ∧ (∀ (st : StepRun) (apply : Bool), SeqTurn s k l c x w 8 0x01 → c.stepOf = some st → st.decision = some apply →
        exec (.gtWait k l) s = .next ((s.seqDone k l c w { y.advance with g := if apply then Gate.apply else Gate.skip }).setStep k
          { st with waited := if l ∈ st.waited then st.waited else st.waited ++ [l] }))
    ∧ (SeqTurn s k l c x w 8 0x02 → x.queue engVector = [] → exec (.gtClr k l) s = .next (s.seqDone k l c w { y.advance with gateCount := 0 }))

/-- Dispatch places an instruction with its scalar copies behind its engine's queue, in no calm; a completed head leaves the queue with its signal, in twin mode only with the
shadow's digest of its output; a reached watch fires once (05 R123, R124, R125, R143, R146, 07 R185, 11 R320). -/
def Obligations.DispatchAndCompletion : Prop :=
  ∀ (s : State) (k l : Nat) (c : Ctx) (x : Core),
    (∀ (w : W64) (eng : Nat), CoreTurn s k l c x → s.net.calm = false → x.seq.ended = false → (s.env c l x).wordAt x = some w → engineOf w = some eng →
        (x.queue eng).length < queueDepth eng →
        ((opP w = false ∨ x.g ≠ .undecided) → exec (.sequencerDispatch k l) s = .next (s.withCoreAs k l c
          (((x.addBeats 0 1).setQueue eng (x.queue eng ++ [⟨w, x.seq.pos, copyScalars w x.s, x.g, false, none⟩])).advance)))
        ∧ ((opP w = true ∧ x.g = .undecided) → exec (.sequencerDispatch k l) s = .next (s.putCtx k (c.raiseFault s.st.now l 0 0x09 x.seq.pos))))
    ∧ (∀ (eng : Nat) (e : QEntry) (rest : List QEntry) (shadow : W64), CoreTurn s k l c x → engineCode eng = true → x.queue eng = e :: rest → e.executed = true →
        (e.twin = none ∨ e.twin = some shadow →
          (opClass e.word = 4 → opCode e.word ≠ 1) → (opCs e.word = 0 ∨ x.token (opTs e.word) + opCs e.word < 2 ^ 32) →
          exec (.instructionCompletion k l eng shadow) s = .next (s.withCoreAs k l c ((x.setQueue eng rest).signalled e.word)))
        ∧ (e.twin = none ∨ e.twin = some shadow → opClass e.word = 4 → opCode e.word = 1 →
          exec (.instructionCompletion k l eng shadow) s = .next (s.withCoreAs k l c (x.setQueue eng rest)))
        ∧ (∀ v, e.twin = some v → v ≠ shadow → exec (.instructionCompletion k l eng shadow) s = .next s))
    ∧ (∀ (q i : Nat) (v : Watch), CoreTurn s k l c x → q < 16 → (x.wq q).watches[i]? = some v → ((x.wq q).c - v.value).toNat < 2 ^ 31 →
        let y := x.setWq q { x.wq q with watches := (x.wq q).watches.eraseIdx i }
        (v.count = 0 → exec (.watchFire k l q i) s = .next (s.withCoreAs k l c y))
        ∧ (v.count ≠ 0 → x.token v.token + v.count < 2 ^ 32 → exec (.watchFire k l q i) s = .next (s.withCoreAs k l c
            { y with t := sset x.t v.token (BitVec.ofNat 32 (x.token v.token + v.count)) })))

/-- A wait that has lasted longer than the limit is the fault of what is waited for: a token, a watch, a send buffer, a gate decision, a queue with room (05 R127); one that
has not is no fault. A stopped context dies of its poison or its fault (05 R147). -/
def Obligations.WaitLimitsAndStops : Prop :=
  ∀ (s : State) (k l : Nat) (c : Ctx) (x : Core),
    let lasted := fun (eng f idx : Nat) => ∃ v ∈ x.waits, v.engine = eng ∧ v.fault = f ∧ v.idx = idx ∧ v.stamp = sget x.beats eng ∧ c.waitLimit < v.lasted
    (∀ (w : W64) (f : Nat), CoreTurn s k l c x → x.seq.ended = false → (s.env c l x).wordAt x = some w →
        ((∃ eng, engineOf w = some eng ∧ queueDepth eng ≤ (x.queue eng).length ∧ f = 0x06)
          ∨ (engineOf w = none ∧ x.token (opTw w) < opCw w ∧ x.seq.waitTarget = none ∧ f = 0x02)
          ∨ (engineOf w = none ∧ opCw w ≤ x.token (opTw w) ∧ opClass w = 8 ∧ opCode w = 1 ∧ c.gateDecision = none ∧ f = 0x05)) →
        lasted 0 f x.seq.pos → exec (.waitLimitExpiry k l 0 false) s = .next (s.putCtx k (c.raiseFault s.st.now l 0 f x.seq.pos)))
    ∧ (∀ (eng : Nat) (e : QEntry) (rest : List QEntry) (f : Nat), CoreTurn s k l c x → engineCode eng = true → x.queue eng = e :: rest → e.executed = false → x.midBlock eng = false →
        (x.token (opTw e.word) < opCw e.word ∧ f = 0x02
          ∨ opCw e.word ≤ x.token (opTw e.word) ∧ (opClass e.word = 5 ∧ 4 ≤ x.sends.length ∧ f = 0x04
            ∨ opClass e.word = 4 ∧ opCode e.word = 1 ∧ 8 ≤ (x.wq (eng - 16)).watches.length ∧ f = 0x06
            ∨ opClass e.word = 4 ∧ opCode e.word = 0 ∧ 120 ≤ x.outstanding ∧ f = 0x06)) →
        lasted eng f e.idx → exec (.waitLimitExpiry k l eng false) s = .next (s.putCtx k (c.raiseFault s.st.now l eng f e.idx)))
    ∧ (∀ (q i : Nat) (v : Watch), CoreTurn s k l c x → q < 16 → (∀ u ∈ (x.wq q).watches.take i, watchReached (x.wq q).c u.value = true ∨ u.lasted ≤ c.waitLimit) →
        (x.wq q).watches[i]? = some v → watchReached (x.wq q).c v.value = false → c.waitLimit < v.lasted →
        exec (.waitLimitExpiry k l (16 + q) true) s = .next (s.putCtx k (c.raiseFault s.st.now l (16 + q) 0x03 v.idx)))
    ∧ (∀ eng, CoreTurn s k l c x → (eng = 0 ∨ engineCode eng = true) → (∀ v ∈ x.waits, v.lasted ≤ c.waitLimit) → exec (.waitLimitExpiry k l eng false) s = .next s)
    ∧ (k < 64 → s.ctx? k = some c → c.stopping = true → c.status ≠ .closing →
        (c.poison ≠ none → exec (.contextFaultStop k) s = .next (s.die k c 0x30 3 (fatalTail c)))
        ∧ (c.poison = none → exec (.contextFaultStop k) s = .next (s.die k c 0x31 2 (fatalTail c))))

/-! ## The vector unit (05 R139, R140, R463, 06 R158 to R167) -/

/-- FP32 lane ops: every lane of v(d) is the op of the same lanes of the sources; 1 active beat, 3 of the reference functions, 6 of the square root (05 R139, 06 R158, R163, R164, R167). -/
def Obligations.VectorFloatLanes : Prop :=
  ∀ (s : State) (k l : Nat) (c : Ctx) (x : Core) (e : QEntry) (rest : List QEntry),
    let turn := fun (op : Nat) => EngineTurn s k l c x engVector e rest 2 op
    let y := x.takeToken e.word
    let m := opMode e.word
    let sat := opSat e.word
    let va := opVa e.word
    let vb := opVb e.word
    let vc := opVc e.word
    let p2 := x.vPoisoned va || x.vPoisoned vb
    let p3 := p2 || x.vPoisoned vc
    let done := fun (p : Bool) (beats : Nat) (f : Nat → FRes) => Host.Outcome.next (ρ := Refusal) (φ := Fault) (s.engineDone k l c x engVector [] e rest (y.laneDone e p beats f))
    (turn 0x02 → exec (.vxAdd k l) s = done p2 1 (fun i => f32Add m sat (x.lane va i) (x.lane vb i)))
    ∧ (turn 0x03 → exec (.vxSub k l) s = done p2 1 (fun i => f32Sub m sat (x.lane va i) (x.lane vb i)))
    ∧ (turn 0x04 → exec (.vxMul k l) s = done p2 1 (fun i => f32Mul m sat (x.lane va i) (x.lane vb i)))
    ∧ (turn 0x05 → exec (.vxFma k l) s = done p3 1 (fun i => f32Fma m sat (x.lane va i) (x.lane vb i) (x.lane vc i)))
    ∧ (turn 0x06 → exec (.vxMin k l) s = done p2 1 (fun i => (f32Min (x.lane va i) (x.lane vb i), {})))
    ∧ (turn 0x07 → exec (.vxMax k l) s = done p2 1 (fun i => (f32Max (x.lane va i) (x.lane vb i), {})))
    ∧ (turn 0x08 → exec (.vxSel k l) s = done p3 1 (fun i => (if x.lane vc i = 0 then x.lane vb i else x.lane va i, {})))
    ∧ (turn 0x0C → exec (.vxRcp k l) s = done (x.vPoisoned va) 3 (fun i => rcpRef (x.lane va i)))
    ∧ (turn 0x0D → exec (.vxRsq k l) s = done (x.vPoisoned va) 3 (fun i => rsqRef (x.lane va i)))
    ∧ (turn 0x0E → exec (.vxExp2 k l) s = done (x.vPoisoned va) 3 (fun i => exp2Ref (x.lane va i)))
    ∧ (turn 0x0F → exec (.vxLog2 k l) s = done (x.vPoisoned va) 3 (fun i => log2Ref (x.lane va i)))
    ∧ (turn 0x10 → exec (.vxSqrt k l) s = done (x.vPoisoned va) 6 (fun i => f32Sqrt m (x.lane va i)))

/-- Packed BF16 and integer lane ops, by lane; integer ops set no flag, shift amounts count modulo 32 (05 R139). -/
def Obligations.VectorIntegerLanes : Prop :=
  ∀ (s : State) (k l : Nat) (c : Ctx) (x : Core) (e : QEntry) (rest : List QEntry),
    let turn := fun (op : Nat) => EngineTurn s k l c x engVector e rest 2 op
    let y := x.takeToken e.word
    let m := opMode e.word
    let sat := opSat e.word
    let a := fun (i : Nat) => x.lane (opVa e.word) i
    let b := fun (i : Nat) => x.lane (opVb e.word) i
    let cc := fun (i : Nat) => x.lane (opVc e.word) i
    let p2 := x.vPoisoned (opVa e.word) || x.vPoisoned (opVb e.word)
    let done := fun (p : Bool) (f : Nat → FRes) => Host.Outcome.next (ρ := Refusal) (φ := Fault) (s.engineDone k l c x engVector [] e rest (y.laneDone e p 1 f))
    (turn 0x11 → exec (.vxPadd k l) s = done p2 (fun i => packedAdd m sat (a i) (b i)))
    ∧ (turn 0x12 → exec (.vxPmul k l) s = done p2 (fun i => packedMul m sat (a i) (b i)))
    ∧ (turn 0x13 → exec (.vxPfma k l) s = done (p2 || x.vPoisoned (opVc e.word)) (fun i => packedFma m sat (a i) (b i) (cc i)))
    ∧ (turn 0x14 → exec (.vxIadd k l) s = done p2 (fun i => (a i + b i, {})))
    ∧ (turn 0x15 → exec (.vxIsub k l) s = done p2 (fun i => (a i - b i, {})))
    ∧ (turn 0x16 → exec (.vxImul k l) s = done p2 (fun i => (a i * b i, {})))
    ∧ (turn 0x17 → exec (.vxAnd k l) s = done p2 (fun i => (a i &&& b i, {})))
    ∧ (turn 0x18 → exec (.vxOr k l) s = done p2 (fun i => (a i ||| b i, {})))
    ∧ (turn 0x19 → exec (.vxXor k l) s = done p2 (fun i => (a i ^^^ b i, {})))
    ∧ (turn 0x1A → exec (.vxShl k l) s = done p2 (fun i => (a i <<< ((b i).toNat % 32), {})))
    ∧ (turn 0x1B → exec (.vxShr k l) s = done p2 (fun i => (a i >>> ((b i).toNat % 32), {})))
    ∧ (turn 0x1C → exec (.vxSra k l) s = done p2 (fun i => ((a i).sshiftRight ((b i).toNat % 32), {})))

/-- Loads, stores, moves, reductions, the gate count and gr.draw in each width; an access beyond the scratchpad is the fault SP_RANGE, an operand of gr.draw that no draw has
the fault DRAW_RANGE (05 R139, R140, 06 R181). What a load's granules hold is read with the errors that the scratchpad's code meets (07 R193). -/
def Obligations.VectorMovesAndReductions : Prop :=
  ∀ (s : State) (k l : Nat) (c : Ctx) (x : Core) (e : QEntry) (rest : List QEntry),
    let turn := fun (op : Nat) => EngineTurn s k l c x engVector e rest 2 op
    let y := x.takeToken e.word
    let w := e.word
    let g := (e.reg (opSx w)).toNat
    let lanes := (List.range 64).map (fun i => x.lane (opVa w) i)
    let p := x.vPoisoned (opVa w)
    let done := fun (z : Core) => Host.Outcome.next (ρ := Refusal) (φ := Fault) (s.engineDone k l c x engVector [] e rest z)
    let faults := fun (f : Nat) => Host.Outcome.next (ρ := Refusal) (φ := Fault) (s.putCtx k (c.raiseFault s.st.now l engVector f e.idx))
    (∀ errs, turn 0x00 →
        let z := x.met s engVector errs
        (g + 4 ≤ spGranules → exec (.vxLd k l errs) s = .next (s.engineDone k l c x engVector errs e rest
          (((z.takeToken w).setLanes (opVd w) (words32 64 (z.spRead (64 * g) 256)) (z.spPoisoned (64 * g) 256)).addBeats engVector 4)))
        ∧ (spGranules < g + 4 → exec (.vxLd k l errs) s = faults 0x0A))
    ∧ (turn 0x01 → (g + 4 ≤ spGranules → exec (.vxSt k l) s = done ((if e.skips then y else y.spWrite (64 * g) (bytes32 lanes) p).addBeats engVector 4))
        ∧ (spGranules < g + 4 → exec (.vxSt k l) s = faults 0x0A))
    ∧ (turn 0x23 → exec (.vxLi k l) s = done (y.laneDone e false 1 (fun _ => (BitVec.truncate 32 (e.reg (opSx w)), {}))))
    ∧ (turn 0x1D →
        let top := canonicalTree (SumNode.mk 0 0 []) (fun _ a b => SumNode.join (opMode w) (opSat w) a b) (lanes.mapIdx (fun i v => SumNode.mk v i []))
        let z := y.setLanes (opVd w) (top.val :: List.replicate 63 0) p
        exec (.vxRsum k l) s = done ((if p then z else { z with fv := z.fv.record e.idx noTensor top.evs }).addBeats engVector 6))
    ∧ (turn 0x1E → exec (.vxRmax k l) s = done ((y.setLanes (opVd w) (maxOf lanes :: List.replicate 63 0) p).addBeats engVector 6))
    ∧ (turn 0x1F → exec (.vxNfc k l) s = done (({ y with
        gateCount := if p then x.gateCount else satAdd 32 x.gateCount (lanes.filter (fun v => !(f32 v).isFinite)).length } : Core).addBeats engVector 1))
    ∧ (EngineTurn s k l c x engVector e rest 6 0x00 →
        let tid : W32 := BitVec.truncate 32 (e.reg (fld w 26 5))
        let elem := (e.reg (fld w 21 5)).toNat
        let use := (e.reg (fld w 16 5)).toNat
        let word := fun (j : Nat) => (List.range 64).map (fun i =>
          (BitVec.truncate 32 (grainAt x.key tid (BitVec.ofNat 64 (elem + i)) (useCount 0 use) >>> (32 * j)) : W32))
        ((s.env c l x).tensor tid ≠ none → use < 2 ^ 30 → elem + 63 < 2 ^ 64 →
          (fld w 14 2 = 0 → exec (.grDraw k l) s = done ((y.setLanes (opVd w) ((word 0).map (· &&& 0xFFFF)) false).addBeats engVector 1))
          ∧ (fld w 14 2 = 1 → exec (.grDraw k l) s = done ((y.setLanes (opVd w) (word 0) false).addBeats engVector 1))
          ∧ (fld w 14 2 = 2 → exec (.grDraw k l) s = done
              (((((y.setLanes (opVd w) (word 0) false).setLanes (opVd w + 1) (word 1) false).setLanes (opVd w + 2) (word 2) false).setLanes (opVd w + 3) (word 3) false).addBeats
                engVector 4)))
        ∧ (((s.env c l x).tensor tid = none ∨ 2 ^ 30 ≤ use ∨ 2 ^ 64 ≤ elem + 63) → exec (.grDraw k l) s = faults 0x0B))

/-- Conversions by lane, and Master48 ops by pair: the mode is the op's, or stochastic rounding on a gradient tensor, whose draws have the tensor, the element and the ordinal of
the key block; a key block that no draw has is the fault DRAW_RANGE (05 R139, 03 R84, 06 R158, R179, 05 R463). -/
def Obligations.VectorConversions : Prop :=
  ∀ (s : State) (k l : Nat) (c : Ctx) (x : Core) (e : QEntry) (rest : List QEntry),
    let turn := fun (op : Nat) => EngineTurn s k l c x engVector e rest 2 op
    let y := x.takeToken e.word
    let w := e.word
    let m := opMode w
    let key := e.reg (opSx w + 2)
    let first := (e.reg (opSx w + 3)).toNat
    let q := ScalePair.ofReg (e.reg (opSx w + 1))
    let tensor := (s.env c l x).tensor (BitVec.truncate 32 key)
    let ranged := fun (mode : Rounding) => mode ≠ .sr ∨ (fld key 62 2 = 0 ∧ first + 64 ≤ 2 ^ 64)
    let draw := fun (te : TensorEntry) (i : Nat) => cvtDraw x te (roundingFor te m) (first + i) (fld key 32 30)
    let done := fun (z : Core) => Host.Outcome.next (ρ := Refusal) (φ := Fault) (s.engineDone k l c x engVector [] e rest z)
    let faults := Host.Outcome.next (ρ := Refusal) (φ := Fault) (s.putCtx k (c.raiseFault s.st.now l engVector 0x0B e.idx))
    let lane := fun (r i : Nat) => f32 (x.lane r i)
    let pair := fun (i : Nat) => m48Val (x.lane (opVa w) i) (x.lane (opVa w + 1) i)
    let p48 := x.vPoisoned (opVa w) || x.vPoisoned (opVa w + 1)
    (∀ (te : TensorEntry) (dst src : Format), turn 0x09 → tensor = some te → ranged (roundingFor te m) → cvtFormat (opFmt w) = some dst → cvtFormat (opVc w % 32) = some src →
        exec (.vxCvt k l) s = done (vectorResult e (opVd w) (x.vPoisoned (opVa w)) te.id (first + ·) 1
          ((List.range 64).map (fun i => convertLane dst (roundingFor te m) (opSat w) (draw te i) q (decodePlain src q (x.lane (opVa w) i).toNat))) y))
    ∧ (∀ (te : TensorEntry) (dst : Format), turn 0x22 → tensor = some te → ranged (roundingFor te m) → cvtFormat (opFmt w) = some dst →
        exec (.vxM48cvt k l) s = done (vectorResult e (opVd w) p48 te.id (first + ·) 2
          ((List.range 64).map (fun i => convertLane dst (roundingFor te m) (opSat w) (draw te i) q (pair i, 0))) y))
    ∧ ((tensor = none ∨ ∃ te, tensor = some te ∧ ¬ ranged (roundingFor te m)) →
        (turn 0x09 → exec (.vxCvt k l) s = faults) ∧ (turn 0x22 → exec (.vxM48cvt k l) s = faults))
    ∧ (turn 0x20 → exec (.vxM48add k l) s = done (y.pairDone e (p48 || x.vPoisoned (opVb w))
        (fun i => m48Round m (opSat w) (FVal.add (pair i) (lane (opVb w) i)))))
    ∧ (turn 0x21 → exec (.vxM48fma k l) s = done (y.pairDone e (p48 || x.vPoisoned (opVb w) || x.vPoisoned (opVc w))
        (fun i => m48Round m (opSat w) (FVal.fma (lane (opVb w) i) (lane (opVc w) i) (pair i)))))

/-- A square of FP32 lanes becomes one MX square in scratchpad, in the mode of its tensor and with its draws; an MX or tensor-scaled square becomes sixteen registers. Places
beyond the scratchpad are the fault SP_RANGE, elements that no draw has the fault DRAW_RANGE (05 R139, 06 R158, R179, 03 R84, R86, R88). -/
def Obligations.VectorSquares : Prop :=
  ∀ (s : State) (k l : Nat) (c : Ctx) (x : Core) (e : QEntry) (rest : List QEntry) (errs : List (Nat × Flips)) (te : TensorEntry),
    let turn := fun (op : Nat) => EngineTurn s k l c x engVector e rest 2 op
    let z := x.met s engVector errs
    let y := z.takeToken e.word
    let w := e.word
    let sx := opSx w
    let g := (e.reg sx).toNat
    let sc := (e.reg (sx + 1)).toNat
    let key := e.reg (sx + 2)
    let elem := fun (i : Nat) => (e.reg (sx + 3)).toNat + i / 32 * (e.reg (sx + 4)).toNat + i % 32
    let tensor := (s.env c l x).tensor (BitVec.truncate 32 key)
    let done := fun (z : Core) => Host.Outcome.next (ρ := Refusal) (φ := Fault) (s.engineDone k l c x engVector errs e rest z)
    let faults := fun (f : Nat) => Host.Outcome.next (ρ := Refusal) (φ := Fault) (s.putCtx k (c.raiseFault s.st.now l engVector f e.idx))
    (∀ (el : Elem) (square : Bool), turn 0x0A → tensor = some te → mxFormat (opFmt w) = some (el, square) →
        let mode := roundingFor te (opMode w)
        let ranged := mode ≠ .sr ∨ (fld key 62 2 = 0 ∧ elem 1023 < 2 ^ 64)
        let fits := g + el.bits * 2 ≤ spGranules ∧ sc + (if square then 1 else 32) ≤ 64 * spGranules
        let p := (List.range 16).any (fun r => x.vPoisoned (opVd w + r))
        let out := encodeSquare el square mode (fun i => cvtDraw x te mode (elem i) (fld key 32 30)) elem
          ((List.range 1024).map (fun i => f32 (x.lane (opVd w + i / 64) (i % 64))))
        let stored := if e.skips then y else (y.spWrite (64 * g) (packCodes el.bits out.2.1) p).spWrite sc out.1 p
        (ranged → fits → exec (.vxCvtmx k l errs) s = done
          ((if p then stored else { stored with fv := stored.fv.record e.idx te.id out.2.2 }).addBeats engVector (if square then 20 else 18)))
        ∧ (ranged → ¬ fits → exec (.vxCvtmx k l errs) s = faults 0x0A)
        ∧ (¬ ranged → exec (.vxCvtmx k l errs) s = faults 0x0B))
    ∧ (∀ fm : Format, turn 0x0B → tensor = some te → Format.ofCode (opFmt w) = some fm → ((∃ el sq, fm = .mx el sq) ∨ ∃ f, fm = .scaled f) →
        let nsc := if fm.rowScaled then 32 else if fm.squareScaled then 1 else 8
        let fits := g + fm.granules ≤ spGranules ∧ sc + nsc ≤ 64 * spGranules
        let p := z.spPoisoned (64 * g) (64 * fm.granules) || z.spPoisoned sc nsc
        let code := unpackCode fm.bits (leNat (z.spRead (64 * g) (64 * fm.granules)))
        let scale := fun (i : Nat) => ((z.spRead sc nsc).getD (if fm.squareScaled then 0 else i / 32) 0).toNat
        let value := fun (i : Nat) => match fm with
          | .mx el _ => if scale i = 255 then (FVal.nan, 3) else (mxValue el (scale i) (code i), 0)
          | .scaled f => scaledValue f ⟨BitVec.ofNat 32 (leNat ((z.spRead sc nsc).take 4)), BitVec.ofNat 32 (leNat (((z.spRead sc nsc).drop 4).take 4))⟩ (code i)
          | _ => (FVal.nan, 0)
        let rs := (List.range 1024).map (fun i => f32Round (opMode w) (opSat w) (value i))
        let loaded := (List.range 16).foldl (fun u r => u.setLanes (opVd w + r) (((rs.drop (64 * r)).take 64).map (·.1)) p) y
        (fits → exec (.vxLdmx k l errs) s = done ((if p then loaded
          else { loaded with fv := loaded.fv.record e.idx te.id (rs.mapIdx (fun i r => ElemEv.mk (elem i) noBlock r.2)) }).addBeats engVector 16))
        ∧ (¬ fits → exec (.vxLdmx k l errs) s = faults 0x0A))
    ∧ (tensor = none → (turn 0x0A → exec (.vxCvtmx k l errs) s = faults 0x0B) ∧ (turn 0x0B → exec (.vxLdmx k l errs) s = faults 0x0B))

/-! ## The matrix array (04 R106 to R120, 05 R138) -/

/-- mx.mm on an open tile, on one that it opens, or resumed: a tile opened takes its scale pair and its initial value; each block enters in order; the array is busy for the blocks'
beats, and 18 more once it is done. In a partition of one die or less a save stops it after `stop` blocks, with the next block recorded and the instruction not executed, and it resumes there
without a token (04 R106, R107, R113, R120, R121, 05 R138). No such tile, or one that may not open, K blocks outside the tile, class C blocks of two segments, formats that may not pair, unusable views
and operands beyond the scratchpad are faults (04 R97, R116, 05 R137). -/
def Obligations.MatrixMultiply : Prop :=
  ∀ (s : State) (k l : Nat) (c : Ctx) (x : Core) (e : QEntry) (rest : List QEntry) (stop : Option Nat) (errs : List (Nat × Flips)),
    let w := e.word
    let lim := if c.small then stop else none
    let z := x.met s engMatrix errs lim
    let va := View.ofReg (e.reg (opR0 w))
    let vb := View.ofReg (e.reg (opR1 w))
    let first := fld (e.reg (opR3 w)) 32 32
    let count := fld (e.reg (opR3 w)) 0 32
    let d := opR2 w
    let at' := 64 * (e.reg (opR4 w)).toNat
    let loads := fld (e.reg (d + 1)) 13 2 = 1
    let fails := fun (f : Nat) => Host.Outcome.next (ρ := Refusal) (φ := Fault) (s.putCtx k (c.raiseFault s.st.now l engMatrix f e.idx))
    ∀ (t : Tile) (te : TensorEntry) (fa fb : Format) (ka kb : OperandKind) (beats : Nat),
    let usable := (s.env c l x).tensor t.tensor = some te ∧ Format.ofCode va.code = some fa ∧ Format.ofCode vb.code = some fb
      ∧ operandKind va.code = some ka ∧ operandKind vb.code = some kb ∧ pairBeats ka kb = some beats ∧ count ≠ 0 ∧ first + count ≤ t.nb
      ∧ (w.getLsbD 10 = true → first / 128 = (first + count - 1) / 128) ∧ badView va fa t.m = false ∧ badView vb fb t.n = false
      ∧ (va.reach fa t.m count).1 ≤ spGranules ∧ (vb.reach fb t.n count).1 ≤ spGranules
      ∧ (va.reach fa t.m count).2 ≤ 64 * spGranules ∧ (vb.reach fb t.n count).2 ≤ 64 * spGranules
    let run := fun (a : Nat) (evs : List ElemEv) (y : Core) (t : Tile) =>
      let upto := match lim with | none => count | some n => min count (a + n)
      let st := (List.range (upto - a)).foldl
        (fun st i => mmBlock te va vb fa fb ka (t.scaled && !t.pairOk) (first + (a + i)) (a + i) st) ⟨y, t, evs⟩
      let y := st.core.putTile st.tile
      let left := if upto < count then
          (({ y with atBlock := some ⟨upto, st.evs⟩ } : Core).addBeats engMatrix ((upto - a) * beats)).setQueue engMatrix ({ e with executed := false } :: rest)
        else (({ y with atBlock := none, fm := y.fm.record e.idx st.tile.tensor st.evs } : Core).addBeats engMatrix ((count - a) * beats + 18)).executedHead
          c.desc.twin engMatrix e rest z
      Host.Outcome.next (ρ := Refusal) (φ := Fault) (afterMm lim (s.met k l c x engMatrix errs lim) k l z (c.putCore l left))
    (EngineTurn s k l c x engMatrix e rest 1 0x00 →
      (w.getLsbD 11 = false → x.tileNamed (e.reg (d + 1)) = .ok t → usable → exec (.mxMm k l stop errs) s = run 0 [] (z.takeToken w) t)
      ∧ (w.getLsbD 11 = true → openTile (s.env c l x) x (w.getLsbD 10) (e.reg d) (e.reg (d + 1)) (e.reg (d + 2)) = .ok t → usable →
          ((∃ f, ka = .scaled f) → va.scale + 64 ≤ 64 * spGranules ∧ vb.scale + 64 ≤ 64 * spGranules) →
          (loads → at' + t.planes.1 + t.planes.2.1 ≤ 64 * spGranules) →
          let qa := z.scalePair va.scale
          let qb := z.scalePair vb.scale
          let paired : Tile := match ka with
            | .scaled _ => { t with scaled := true, sA := qa.s, sB := qb.s, pairOk := qa.ok && qb.ok,
                                    poisoned := z.spPoisoned va.scale 8 || z.spPoisoned vb.scale 8 }
            | _ => t
          let tile : Tile := { paired with poisoned := paired.poisoned || (decide loads && z.spPoisoned at' (t.planes.1 + t.planes.2.1)) }
          exec (.mxMm k l stop errs) s = run 0 []
            { loadTile (z.takeToken w) tile (if loads then some at' else none) with tiles := x.tiles ++ [tile] } tile)
      ∧ (∀ r, (if w.getLsbD 11 then openTile (s.env c l x) x (w.getLsbD 10) (e.reg d) (e.reg (d + 1)) (e.reg (d + 2)) else x.tileNamed (e.reg (d + 1))) = r →
          (∀ f, r = .error f → exec (.mxMm k l stop errs) s = fails f)
          ∧ (r = .ok t → (count = 0 ∨ t.nb < first + count) → exec (.mxMm k l stop errs) s = fails 0x28)
          ∧ (r = .ok t → count ≠ 0 → first + count ≤ t.nb → w.getLsbD 10 = true → first / 128 ≠ (first + count - 1) / 128 → exec (.mxMm k l stop errs) s = fails 0x24)
          ∧ (r = .ok t → count ≠ 0 → first + count ≤ t.nb → (w.getLsbD 10 = true → first / 128 = (first + count - 1) / 128) →
            let kinds := operandKind va.code = some ka ∧ operandKind vb.code = some kb
            let formats := kinds ∧ pairBeats ka kb = some beats ∧ Format.ofCode va.code = some fa ∧ Format.ofCode vb.code = some fb
            let viewed := badView va fa t.m = false ∧ badView vb fb t.n = false
            let pairs := w.getLsbD 11 = true ∧ (∃ f, ka = .scaled f) ∧ (64 * spGranules < va.scale + 64 ∨ 64 * spGranules < vb.scale + 64)
            ((s.env c l x).tensor t.tensor = none → exec (.mxMm k l stop errs) s = fails 0x0B)
            ∧ ((s.env c l x).tensor t.tensor = some te →
              ((operandKind va.code = none ∨ operandKind vb.code = none) → exec (.mxMm k l stop errs) s = fails 0x25)
              ∧ (kinds → pairBeats ka kb = none → exec (.mxMm k l stop errs) s = fails 0x25)
              ∧ (formats → ¬ viewed → exec (.mxMm k l stop errs) s = fails 0x25)
              ∧ (formats → viewed → (spGranules < (va.reach fa t.m count).1 ∨ spGranules < (vb.reach fb t.n count).1 ∨ 64 * spGranules < (va.reach fa t.m count).2
                  ∨ 64 * spGranules < (vb.reach fb t.n count).2 ∨ pairs ∨ (w.getLsbD 11 = true ∧ loads ∧ 64 * spGranules < at' + t.planes.1 + t.planes.2.1)) →
                exec (.mxMm k l stop errs) s = fails 0x0A)))))
    ∧ (∀ (a : Nat) (evs : List ElemEv), CoreTurn s k l c x → s.net.calm = false → x.queue engMatrix = e :: rest → opClass w = 1 → opCode w = 0x00 → e.executed = false →
        x.atBlock = some ⟨a, evs⟩ → x.tileNamed (e.reg (d + 1)) = .ok t → usable → exec (.mxMm k l stop errs) s = run a evs z t)

/-- mx.merge, mx.spill, mx.drain, mx.stat and mx.close on an open tile whose images lie in the scratchpad (04 R109, R112 to R119, 05 R138): a spill writes the tile's image
and closes it, a drain writes its squares, adds to the statistics entry and closes it, the partial of a merge enters each element once, mx.stat writes and clears an entry, mx.close
discards the tile. A skipped spill or drain writes nothing else (05 R146). No such tile, another accumulator format, another tensor's entry, an unusable view, and a place beyond the scratchpad are faults. -/
def Obligations.MatrixTiles : Prop :=
  ∀ (s : State) (k l : Nat) (c : Ctx) (x : Core) (e : QEntry) (rest : List QEntry) (errs : List (Nat × Flips)),
    let turn := fun (op : Nat) => EngineTurn s k l c x engMatrix e rest 1 op
    let w := e.word
    let y := x.takeToken w
    let z := x.met s engMatrix errs
    let a := 64 * (e.reg (opR0 w)).toNat
    let named := x.tileNamed (e.reg (opR2 w + 1))
    let into := fun (u : Core) => c.putCore l (u.executedHead c.desc.twin engMatrix e rest x)
    let read := fun (u : Core) => c.putCore l (u.executedHead c.desc.twin engMatrix e rest z)
    let found := s.met k l c x engMatrix errs
    let fails := fun (f : Nat) => Host.Outcome.next (ρ := Refusal) (φ := Fault) (s.putCtx k (c.raiseFault s.st.now l engMatrix f e.idx))
    (∀ f, named = .error f → (turn 0x01 → exec (.mxMerge k l errs) s = fails f) ∧ (turn 0x02 → exec (.mxSpill k l) s = fails f)
        ∧ (turn 0x03 → exec (.mxDrain k l errs) s = fails f) ∧ (turn 0x05 → exec (.mxClose k l) s = fails f))
    ∧ (turn 0x04 → (w.getLsbD 26 = true → (e.reg (opR0 w)).toNat < spGranules) →
        let u := if w.getLsbD 26 then y.spWrite a (x.stat (fld w 28 4)).bytes false else y
        let u := if w.getLsbD 27 then { u with stats := nset u.stats (fld w 28 4) .clear } else u
        exec (.mxStat k l) s = .next (s.engineDone k l c x engMatrix [] e rest (u.addBeats engMatrix (if w.getLsbD 26 then 4 else 2))))
    ∧ (turn 0x04 → w.getLsbD 26 = true → spGranules ≤ (e.reg (opR0 w)).toNat → exec (.mxStat k l) s = fails 0x0A)
    ∧ ∀ t : Tile, named = .ok t →
      let size := t.planes.1 + t.planes.2.1 + t.planes.2.2
      let accs := fld (e.reg (opR2 w + 1)) 18 2
      (turn 0x02 → (a + size ≤ 64 * spGranules → exec (.mxSpill k l) s =
          .next (tapClose false s k l x (into (((if e.skips then y else y.spWrite a (x.tileImage t) t.poisoned).closeTile t).addBeats engMatrix (t.m + 8)))))
        ∧ (64 * spGranules < a + size → exec (.mxSpill k l) s = fails 0x0A))
      ∧ (turn 0x05 → exec (.mxClose k l) s = .next (afterClose s k l x (into ((y.closeTile t).addBeats engMatrix 1))))
      ∧ (turn 0x01 → (1 < accs → exec (.mxMerge k l errs) s = fails 0x23) ∧ (accs ≤ 1 → accs ≠ t.accFormat → exec (.mxMerge k l errs) s = fails 0x27)
        ∧ (accs ≤ 1 → accs = t.accFormat → 64 * spGranules < a + size → exec (.mxMerge k l errs) s = fails 0x0A))
      ∧ ∀ te : TensorEntry, (s.env c l x).tensor t.tensor = some te →
        (turn 0x01 → accs ≤ 1 → accs = t.accFormat → a + size ≤ 64 * spGranules →
          let t' : Tile := { t with poisoned := t.poisoned || z.spPoisoned a size }
          let enter := fun (acc : Core × List ElemEv) (ij : Nat × Nat) =>
            let idx := t.index te ij.1 ij.2
            let draw := if t.rounding = .sr then acc.1.tileDraw t idx ij.1 ij.2 (t.nb + fld w 6 16) else 0
            let r := accumulate t.fmt t.rounding draw (acc.1.accCode t ij.1 ij.2) (acc.1.mark t ij.1 ij.2) (z.tileMark t a ij.1 ij.2)
              (t.fmt.decode (z.tileCode t a ij.1 ij.2))
            (acc.1.setAcc t ij.1 ij.2 r.1 r.2.1,
              if t'.poisoned then acc.2 else acc.2 ++ (match idx with | some n => [ElemEv.mk n noBlock r.2.2] | none => []))
          let out := t.cells.foldl enter (z.takeToken w, [])
          let u := out.1.putTile t'
          exec (.mxMerge k l errs) s = .next (afterMerge found k l z (read (({ u with fm := u.fm.record e.idx t.tensor out.2 } : Core).addBeats engMatrix (t.m + 10)))))
        ∧ (turn 0x03 →
          let d := View.ofReg (e.reg (opR0 w))
          let last := (t.n / 32 - 1) * d.kStride + (t.m / 32 - 1) * d.fStride
          let entry := x.stat t.statSlot
          (drainFormat d.code = none → exec (.mxDrain k l errs) s = fails 0x25)
          ∧ ∀ fm : Format, drainFormat d.code = some fm →
            let fits := d.elem + last * fm.granules + fm.granules ≤ spGranules ∧ (fm.scaleBytes = 0 ∨ d.scale + last * fm.scaleBytes + fm.scaleBytes ≤ 64 * spGranules)
              ∧ ∀ f, fm = .scaled f → d.scale + 64 ≤ 64 * spGranules
            let clash := entry.valid = true ∧ entry.tensor ≠ t.tensor
            let unusable := badView d fm t.m = true ∨ d.column = true
            (clash → exec (.mxDrain k l errs) s = fails 0x26)
            ∧ (¬ clash → unusable → exec (.mxDrain k l errs) s = fails 0x25)
            ∧ (¬ clash → ¬ unusable → ¬ fits → exec (.mxDrain k l errs) s = fails 0x0A)
            ∧ (¬ clash → ¬ unusable → fits →
              let y := z.takeToken w
              let mode := roundingFor te ((Rounding.ofCode (fld w 20 2)).getD .rne)
              let q := ScalePair.ofReg (e.reg (opR1 w))
              let squares := (List.range (t.m / 32)).flatMap (fun qi => (List.range (t.n / 32)).map (fun qj => (qi, qj, drainSquare y t te fm mode q qi qj)))
              let ds := squares.flatMap (fun sq => sq.2.2.2)
              let u := if e.skips then y else drainWrite t d fm q squares y
              let u := { u with stats := nset u.stats t.statSlot (entry.add t te ds) }
              let u := if t.poisoned then u
                else { u with fm := u.fm.record e.idx t.tensor (ds.filterMap (fun r => r.idx.map (fun n => ElemEv.mk n noBlock r.ev))) }
              let c' := read ((u.closeTile t).addBeats engMatrix (if fm.squareScaled then t.m + 44 else t.m + 12))
              exec (.mxDrain k l errs) s = .next (tapClose true found k l z (c'.noteDrain (found.env c' l z) z))))

/-! ## The row engine (05 R141, 06 R168 to R176) -/

/-- Row instructions whose regions lie in the scratchpad and side memory: one record or row of results for each row, in place, with its poison: the sums, maxima and segment
trees of row.stat and its dot modes with the kept records and the gain, the merge of records, the values and gradients of row.apply and row.bwd, copies to and from the side memory
(05 R141, 06 R170 to R176). A region beyond them, no rows or no elements are the fault SP_RANGE, a format that is not one of its own
or a gradient that is not there the fault ACC_VIEW (06 R168). -/
def Obligations.RowEngine : Prop :=
  ∀ (s : State) (k l : Nat) (c : Ctx) (x : Core) (e : QEntry) (rest : List QEntry) (errs : List (Nat × Flips)),
    let turn := fun (op : Nat) => EngineTurn s k l c x engRow e rest 3 op
    let o := RowOps.of e
    let z := x.met s engRow errs
    let y := z.takeToken e.word
    let top := 64 * spGranules
    let busy := if (s.env c l x).steppingB0 then 35 else 40
    let streamed := o.rows * ceilDiv o.n 64 + busy
    let done := fun (u : Core) => Host.Outcome.next (ρ := Refusal) (φ := Fault) (s.engineDone k l c x engRow errs e rest u)
    let beyond := Host.Outcome.next (ρ := Refusal) (φ := Fault) (s.putCtx k (c.raiseFault s.st.now l engRow 0x0A e.idx))
    let out := o.rows ≠ 0 ∧ 64 * o.out + 32 * o.rows ≤ top
    let kept := fun (row : Nat) => recordAt x.side x.sidePoison (o.side + 32 * row)
    let records := fun (res : List (RowRec × Bool × List ColEv)) => writeRecords z.sp z.spPoison (64 * o.out) (res.map (fun r => (r.1.bytes, r.2.1)))
    (turn 0x01 →
        let fits := out ∧ 64 * o.priAddr + 32 * o.rows ≤ top ∧ 64 * o.secAddr + 32 * o.rows ≤ top
        let recd := fun (a row : Nat) => recordAt z.sp z.spPoison (64 * a + 32 * row)
        let res := (List.range o.rows).map (fun row =>
          let r := mergeRec o.mode o.coef (recd o.priAddr row).1 (recd o.secAddr row).1 0
          (r.1, (recd o.priAddr row).2 || (recd o.secAddr row).2, r.2))
        let evs := (res.mapIdx (fun row r => if r.2.1 then [] else r.2.2.map (fun ce => ElemEv.mk row noBlock ce.2))).flatten
        (fits → exec (.rowMerge k l errs) s = done (({ y with sp := (records res).1, spPoison := (records res).2 } : Core).rowsDone e evs (o.rows + busy)))
        ∧ (¬ fits → exec (.rowMerge k l errs) s = beyond))
    ∧ (turn 0x04 →
        let fits := o.rows ≠ 0 ∧ badSide o = false ∧ 64 * o.priAddr + 32 * o.rows ≤ top
        let mem := writeRecords x.side x.sidePoison o.side (recordsAt z.sp z.spPoison (64 * o.priAddr) o.rows)
        (fits → exec (.rowKeep k l errs) s = done (({ y with side := mem.1, sidePoison := mem.2 } : Core).addBeats engRow (ceilDiv (32 * o.rows) 256 + 8)))
        ∧ (¬ fits → exec (.rowKeep k l errs) s = beyond))
    ∧ (turn 0x05 →
        let fits := out ∧ badSide o = false
        let mem := writeRecords z.sp z.spPoison (64 * o.out) (recordsAt x.side x.sidePoison o.side o.rows)
        (fits → exec (.rowFetch k l errs) s = done (({ y with sp := mem.1, spPoison := mem.2 } : Core).addBeats engRow (ceilDiv (32 * o.rows) 256 + 8)))
        ∧ (¬ fits → exec (.rowFetch k l errs) s = beyond))
    ∧ (∀ fx : Format, rowFormat o.priFormat = some fx →
      let r : Region := ⟨o.priAddr, fx, o.n⟩
      (turn 0x00 → o.mode < 3 →
        let fits := out ∧ o.n ≠ 0 ∧ r.last o.rows ≤ top
        let res := (List.range o.rows).map (fun row => let q := statRow o.mode (z.rowValues r row) o.coef; (q.1, z.rowPoisoned r row, q.2))
        let evs := (res.mapIdx (fun row q => if q.2.1 then [] else rowEvents o true row q.2.2)).flatten
        (fits → exec (.rowStat k l errs) s = done (({ y with sp := (records res).1, spPoison := (records res).2 } : Core).rowsDone e evs streamed))
        ∧ (¬ fits → exec (.rowStat k l errs) s = beyond))
      ∧ (∀ fd fg : Format, turn 0x00 → 3 ≤ o.mode → o.secondary = true → rowFormat o.secFormat = some fd →
        (if o.mode = 4 ∧ o.gain = true then rowFormat o.gainFormat else some .fp32) = some fg →
        let gained := o.mode == 4 && o.gain
        let dy : Region := ⟨o.secAddr, fd, o.n⟩
        let g : Region := ⟨o.gainAddr, fg, o.n⟩
        let fits := out ∧ o.n ≠ 0 ∧ r.last o.rows ≤ top ∧ dy.last o.rows ≤ top ∧ badSide o = false ∧ (gained = true → g.last 1 ≤ top)
        let res := (List.range o.rows).map (fun row =>
          let q := dotRow o.mode (kept row).1 o.coef (z.rowValues r row) (z.rowValues dy row) (if gained then some (z.rowValues g 0) else none)
          (q.1, z.rowPoisoned r row || z.rowPoisoned dy row || (kept row).2 || (gained && z.rowPoisoned g 0), q.2))
        let evs := (res.mapIdx (fun row q => if q.2.1 then [] else rowEvents o true row q.2.2)).flatten
        (fits → exec (.rowStat k l errs) s = done (({ y with sp := (records res).1, spPoison := (records res).2 } : Core).rowsDone e evs streamed))
        ∧ (¬ fits → exec (.rowStat k l errs) s = beyond))
      ∧ (∀ (bwd : Bool) (fd fg : Format), turn (if bwd then 0x03 else 0x02) → (bwd = true → o.secondary = true ∧ rowFormat o.secFormat = some fd) → (bwd = false → fd = .fp32) →
        (if o.mode ≠ 0 ∧ o.gain = true then rowFormat o.gainFormat else some .fp32) = some fg →
        let gained := o.mode != 0 && o.gain
        let dy : Region := ⟨o.secAddr, fd, o.n⟩
        let g : Region := ⟨o.gainAddr, fg, o.n⟩
        let results : Region := ⟨o.out, .fp32, o.n⟩
        let fits := o.rows ≠ 0 ∧ o.n ≠ 0 ∧ r.last o.rows ≤ top ∧ (bwd = true → dy.last o.rows ≤ top) ∧ (gained = true → g.last 1 ≤ top)
          ∧ results.last o.rows ≤ top ∧ badSide o = false
        let gi := fun (i : Nat) => if gained then some ((z.rowValues g 0).getD i 0) else none
        let res := (List.range o.rows).map (fun row =>
          let q := kept row
          let d := derive' o.mode q.1 o.coef
          let rs := (z.rowValues r row).mapIdx (fun i xi =>
            if bwd then bwdElem o.mode q.1.checked d o.coef xi ((z.rowValues dy row).getD i 0) (gi i) i else applyElem o.mode q.1 d o.coef xi (gi i) i)
          (rs.map (·.1), q.2 || z.rowPoisoned r row || (bwd && z.rowPoisoned dy row) || (gained && z.rowPoisoned g 0), d.evs ++ rs.flatMap (·.2)))
        let evs := (res.mapIdx (fun row q => if q.2.1 then [] else rowEvents o false row q.2.2)).flatten
        let i := if bwd then Instr.rowBwd k l errs else .rowApply k l errs
        (fits → exec i s = done ((res.zipIdx.foldl (fun u q => u.writeRow results q.2 q.1.1 q.1.2.1) y).rowsDone e evs streamed))
        ∧ (¬ fits → exec i s = beyond)))
    ∧ (let view := Host.Outcome.next (ρ := Refusal) (φ := Fault) (s.putCtx k (c.raiseFault s.st.now l engRow 0x25 e.idx))
       let noX := rowFormat o.priFormat = none
       let noDy := rowFormat o.secFormat = none ∨ o.secondary = false
       let noGain := o.gain = true ∧ rowFormat o.gainFormat = none
       (turn 0x00 → noX ∨ (3 ≤ o.mode ∧ noDy) ∨ (o.mode = 4 ∧ noGain) → exec (.rowStat k l errs) s = view)
       ∧ (turn 0x02 → noX ∨ (o.mode ≠ 0 ∧ noGain) → exec (.rowApply k l errs) s = view)
       ∧ (turn 0x03 → noX ∨ noDy ∨ (o.mode ≠ 0 ∧ noGain) → exec (.rowBwd k l errs) s = view))

/-! ## Wadi queues and the ripple plane (05 R142, R143, 07 R183 to R203) -/

/-- wq.post of a well-formed descriptor that may be moved is accepted behind the queue, inline or with a list; wq.watch places a watch; net.send and net.mcast copy
their source granules into a send buffer (05 R143, 07 R189, R196, R198, R200, R201). A full queue waits, a poisoned descriptor makes its poison visible, and what the checks refuse is a fault. -/
def Obligations.PostsWatchesAndSends : Prop :=
  ∀ (s : State) (k l : Nat) (c : Ctx) (x : Core) (e : QEntry) (rest : List QEntry) (errs : List (Nat × Flips)),
    let w := e.word
    let fails := fun (eng f : Nat) => Host.Outcome.next (ρ := Refusal) (φ := Fault) (s.putCtx k (c.raiseFault s.st.now l eng f e.idx))
    let waits := Host.Outcome.next (ρ := Refusal) (φ := Fault) (s.putCtx k c)
    (∀ q : Nat, q < 16 → EngineTurn s k l c x (engWadi q) e rest 4 0x00 →
        let g := (e.reg (fld w 28 5)).toNat
        let z := x.met s (engWadi q) errs
        let d := RawDesc.ofBytes (z.spRead (64 * g) 64)
        let write := d.op == 2
        let n : Desc := { id := (x.wq q).nextId, idx := e.idx, write := write, ordered := d.flags == 1, listCount := d.listCount, listAddr := d.listAddr, inline' := d.inline',
                          skipped := e.skips, phase := .accepted, spans := [], inFlight := 0,
                          entryVersions := if d.listCount = 0 then s.entriesOf k d.inline'.rowSpans else [] }
        let clean := g < spGranules ∧ x.outstanding < 120 ∧ z.spPoisoned (64 * g) 64 = false
        (clean → d.malformed = false → (d.listCount = 0 → d.inline'.check (s.remoteOk k c write) = none) →
          exec (.wqPost k l q errs) s = .next (s.engineDone k l c x (engWadi q) errs e rest
            (((z.takeToken w).setWq q { x.wq q with descs := (x.wq q).descs ++ [n], nextId := (x.wq q).nextId + 1 }).addBeats (engWadi q) 2)))
        ∧ (spGranules ≤ g → exec (.wqPost k l q errs) s = fails (engWadi q) 0x0A)
        ∧ (g < spGranules → 120 ≤ x.outstanding → exec (.wqPost k l q errs) s = waits)
        ∧ (g < spGranules → x.outstanding < 120 → z.spPoisoned (64 * g) 64 = true →
          exec (.wqPost k l q errs) s = .next ((s.met k l c x (engWadi q) errs).putCtx k (c.raisePoison (viewAddr l g) 0x02)))
        ∧ (clean → d.malformed = true → exec (.wqPost k l q errs) s = fails (engWadi q) 0x30)
        ∧ (clean → d.malformed = false → d.listCount = 0 → ∀ f, d.inline'.check (s.remoteOk k c write) = some f → exec (.wqPost k l q errs) s = fails (engWadi q) f))
    ∧ (∀ q : Nat, q < 16 → EngineTurn s k l c x (engWadi q) e rest 4 0x01 →
        ((x.wq q).watches.length < 8 → exec (.wqWatch k l q) s = .next (s.engineDone k l c x (engWadi q) [] e rest
          (((x.takeToken w).setWq q { x.wq q with watches := (x.wq q).watches ++ [⟨BitVec.truncate 32 (e.reg (fld w 28 5)), opTs w, opCs w, e.idx, 0⟩] }).addBeats (engWadi q) 1)))
        ∧ (8 ≤ (x.wq q).watches.length → exec (.wqWatch k l q) s = waits))
    ∧ (∀ group : Bool, EngineTurn s k l c x engRipple e rest 5 (if group then 1 else 0) →
        let o := SendOps.of e
        let z := x.met s engRipple errs
        let b : SendBuf := { slot := o.slot, group := group, dest := o.dest, granule := o.destGranule, token := o.token, signal := o.signal, len := o.len,
                             bytes := z.spRead (64 * o.granule) (64 * o.len), poison := (List.range o.len).map (fun i => sget z.spPoison (o.granule + i) != 0),
                             launch := none }
        let i := if group then Instr.netMcast k l errs else .netSend k l errs
        (sendCheck (s.env c l x) group o = none → x.sends.length < 4 →
          exec i s = .next (s.engineDone k l c x engRipple errs e rest (({ z.takeToken w with sends := x.sends ++ [b] } : Core).addBeats engRipple 1)))
        ∧ (sendCheck (s.env c l x) group o = none → 4 ≤ x.sends.length → exec i s = waits)
        ∧ (∀ f, sendCheck (s.env c l x) group o = some f → exec i s = fails engRipple f))

/-- A queue starts its oldest accepted descriptor, which waits for those before it where it is ordered, reading its list; it issues the requests of its spans in order, one for each
controller that holds part of a span, and counts completed descriptors in posting order; a skipped write moves nothing (07 R198 to R200). In twin mode a write whose digest is not the
shadow's is held (11 R320). -/
def Obligations.DescriptorsRun : Prop :=
  ∀ (s : State) (k l q : Nat) (c : Ctx) (x : Core) (d : Desc) (errs : List (Nat × Flips)), CoreTurn s k l c x → q < 16 →
    ((x.wq q).descs.find? (fun y => y.phase == .accepted) = some d →
        let before := (x.wq q).descs.takeWhile (fun y => y.id != d.id)
        let hit := errorsOn errs (startReads q x)
        let z := x.strike s.freeCount hit
        let found := s.foundErrors k l c hit
        let c' := c.putCore l z
        let rects := if d.listCount = 0 then [d.inline'] else z.listRects d
        let listed := 64 * d.listAddr + 32 * d.listCount ≤ 64 * spGranules
        let ready := d.ordered = false ∨ ∀ y ∈ before, y.phase = .completed
        let started : Desc := { d with phase := .started, spans := rects.flatMap Rect.spans,
                                       entryVersions := if d.listCount = 0 then d.entryVersions else found.entriesOf k (rects.flatMap Rect.rowSpans) }
        (ready → (d.listCount ≠ 0 → listed ∧ z.spPoisoned (64 * d.listAddr) (32 * d.listCount) = false ∧
              rects.findSome? (Rect.check (found.remoteOk k c' d.write)) = none) →
          exec (.wadiDescriptorStart k l q errs) s = .next (found.withCoreAs k l c' (z.setWq q { x.wq q with
            descs := updWhere (x.wq q).descs (fun y => y.id == d.id) (fun _ => started) })))
        ∧ (ready → d.listCount ≠ 0 → ¬ listed → exec (.wadiDescriptorStart k l q errs) s = .next (found.putCtx k (c'.raiseFault found.st.now l (engWadi q) 0x0A d.idx)))
        ∧ (ready → d.listCount ≠ 0 → listed → z.spPoisoned (64 * d.listAddr) (32 * d.listCount) = true →
          exec (.wadiDescriptorStart k l q errs) s = .next (found.putCtx k (c'.raisePoison (viewAddr l d.listAddr) 0x02)))
        ∧ (ready → d.listCount ≠ 0 → listed → z.spPoisoned (64 * d.listAddr) (32 * d.listCount) = false →
          ∀ f, rects.findSome? (Rect.check (found.remoteOk k c' d.write)) = some f →
          exec (.wadiDescriptorStart k l q errs) s = .next (found.putCtx k (c'.raiseFault found.st.now l (engWadi q) f d.idx)))
        ∧ (¬ ready → exec (.wadiDescriptorStart k l q errs) s = .next s))
    ∧ (∀ (sp : Span) (more : List Span) (shadow : W64), (x.wq q).descs.find? (fun d => d.phase == .started && !d.spans.isEmpty) = some d → d.spans = sp :: more →
        let range : Ranges := [(64 * sp.granule, 64 * sp.len)]
        let hit := errorsOn errs (if d.write then range else [])
        let z := x.strike s.freeCount hit
        let found := s.foundErrors k l c hit
        let c' := c.putCore l z
        let held := c.desc.twin && (x.strike s.freeCount (errorsOn errs range)).holdsWrite d sp shadow
        let rs := spanRequests found k l q c' z d sp
        let entered := found.enterSpan k l q c' z d rs
        (held = true → exec (.wadiRequestIssue k l q errs shadow) s = .next s)
        ∧ (held = false → d.skipped = true → d.write = true →
          exec (.wadiRequestIssue k l q errs shadow) s = .next (found.withCoreAs k l c' (z.updDesc q d.id (fun y => { y with spans := y.spans.drop 1 }))))
        ∧ (held = false → (d.skipped = false ∨ d.write = false) →
          exec (.wadiRequestIssue k l q errs shadow) s = .next ((rs.map (·.id)).foldl
            (fun s i => match s.net.requests.find? (fun r => r.id == i) with | none => s | some r => s.startRequest r) entered))
        ∧ (∀ (r : Request) (there back : List Hop), held = false → (d.skipped = false ∨ d.write = false) → rs = [r] → r.target ≠ .nowhere →
          (∀ y ∈ s.net.requests, y.id < s.net.nextId) → entered.memRoutes r = some (there, back) →
          exec (.wadiRequestIssue k l q errs shadow) s = .next { found.withCoreAs k l c' (z.updDesc q d.id (fun y => { y with spans := y.spans.drop 1, inFlight := y.inFlight + 1 })) with
            net := { s.net with requests := s.net.requests ++ [{ r with route := there }], nextId := s.net.nextId + 1 } }))
    ∧ ((x.wq q).descs.find? (fun d => d.phase == .started && d.spans.isEmpty && d.inFlight == 0) = some d →
        let done := countCompleted (updWhere (x.wq q).descs (fun y => y.id == d.id) (fun y => { y with phase := .completed })) (x.wq q).c
        exec (.wadiDescriptorCompletion k l q) s = .next (s.withCoreAs k l c (x.setWq q { x.wq q with descs := done.1, c := done.2 })))

/-- At its memory controller a write stores its granules with their poison and ends, and a read is answered with the bytes and poison of its range, which travel back; come back,
they are written into the scratchpad; while a reset holds the memory or its data moves a request waits (07 R199, R206, R209). The host's answer travels back in the same way, an error as poison.
A request without an answer for 100 ms loses its transfer, with a warning (07 R203). -/
def Obligations.TransferRequests : Prop :=
  ∀ (s : State) (i : Nat) (r : Request), s.net.requests.find? (fun y => y.id == i) = some r →
    (∀ errs, r.here = true → s.memWaits r = false → r.write = true → exec (.memoryRequest i errs) s = .next ((s.storeOffsets r.addr r.offsets r.bytes r.poison).endRequest r))
    ∧ (∀ errs, r.here = true → s.memWaits r = false → r.write = false →
        let read := s.readAccess (r.offsets.map (fun o => r.addr + 64 * o)) errs
        exec (.memoryRequest i errs) s = .next (read.1.answerRead r read.2.1 read.2.2))
    ∧ (∀ errs, (∀ f ∈ errs, f = []) → r.here = true → s.memWaits r = false → r.write = false → ∃ t y, exec (.memoryRequest i errs) s = .next t ∧ y ∈ t.net.requests
        ∧ y = { r with bytes := r.offsets.flatMap (fun o => s.load (r.addr + 64 * o) 64), poison := r.offsets.map (fun o => s.poisonAt (r.addr + 64 * o)),
                       served := true, route := ((s.memRoutes r).map (·.2)).getD [], last := none })
    ∧ (∀ errs, (r.here = false ∨ s.memWaits r = true) → exec (.memoryRequest i errs) s = .next s)
    ∧ (r.served = true → r.route = [] → r.moving = false → r.write = false → exec (.wadiDataArrival i) s = .next (s.finishRead r))
    ∧ ((∃ d, r.target = .near d) ∨ r.target = .far → r.served = false → (∀ y ∈ s.rst.inProgress, y.kind ≠ 3 ∧ y.kind ≠ 5) → r.issued + 100 * millisecond ≤ s.st.now.toNat →
        exec (.wadiResponseTimeout i) s = .next (s.loseTransfer r (s.memKey (r.addr + 64 * r.offsets.getD 0 0))))
    ∧ (∀ (n e : Nat) (data : List Byte), r.target = .host n e → r.write = false → r.here = true →
        exec (.hostReadCompletion i .success data) s =
            .next (s.answerRead r ((data ++ zeros (64 * r.offsets.length)).take (64 * r.offsets.length)) (r.offsets.map (fun _ => false)))
        ∧ ∀ status, status ≠ .success → exec (.hostReadCompletion i status data) s =
            .next (s.answerRead r (zeros (64 * r.offsets.length)) (r.offsets.map (fun _ => true))))

/-- A ripple boundary waits for hops in flight of either plane; a calm leaves the ripple number and launches nothing; otherwise it grows by one, new share weights count, packets in
forwarding buffers and sends whose ripple has come make their hops, and the owners of memory-plane links theirs, one packet for each link and way (01 R22, R23, 07 R183 to R185, R189, 13 R380).
At the end of a hop a packet is checked: written at its destinations with its signal, sent on, or discarded; a lost header poisons the window of its slot, or its transfer (07 R192). -/
def Obligations.RipplesAndPackets : Prop :=
  ∀ s : State,
    (∀ owners, s.net.inFlight = true → exec (.rippleBoundary owners) s = .next s)
    ∧ (∀ owners, s.net.inFlight = false →
        let q := (s.net.calmPhase + 1) % 64
        let started : State := { s with net := { s.net with calmPhase := q, calm := false, ripple := s.net.ripple + 1 }
                                        ctxs := s.ctxs.map (fun (x : Nat × Ctx) => (x.1, { x.2 with desc := { x.2.desc with weight := x.2.weight } })) }
        let launched := (started.ctxs.map (·.1)).foldl launchCtx started.forward
        (q * s.power.applied / 64 < (q + 1) * s.power.applied / 64 → exec (.rippleBoundary owners) s =
          .next { s with net := { s.net with calmPhase := q, calm := true }, power := { s.power with calmCount := s.power.calmCount + 1 } })
        ∧ ((q + 1) * s.power.applied / 64 ≤ q * s.power.applied / 64 →
          exec (.rippleBoundary owners) s = .next { launched with net := owners.foldl launchRequest launched.net })
        ∧ ((q + 1) * s.power.applied / 64 ≤ q * s.power.applied / 64 → (s.net.requests.map (·.id)).Nodup → ∃ t, exec (.rippleBoundary owners) s = .next t
            ∧ t.net.ripple = s.net.ripple + 1
            ∧ ∀ a ∈ t.net.requests, ∀ b ∈ t.net.requests, a.moving = true → b.moving = true → a.route.head? = b.route.head? → a.id = b.id))
    ∧ (∀ (i : Nat) (p : Packet) (err : PacketError), s.net.packets.find? (fun y => y.id == i && y.moving) = some p →
        let n := p.poison.length
        let h := p.planHop
        let s' : State := { s with net := s.net.correct h.link (packetCorrected err n) }
        let lost := (s'.dropCount (nodeDie h.node)).landLost p
        let suspect : Report := match lost.ctx? p.ctx with | none => {} | some c => { ctx := some p.ctx, job := c.desc.job, rank := c.desc.rank }
        (p.lost = true → exec (.onDiePacketArrival false i err) s = .next (s'.landLost p))
        ∧ (p.lost = false → receivedHeader (p.header.bytes n) err.header err.read = none →
          exec (.onDiePacketArrival false i err) s = .next (lost.report (linkKey h.link) 0x0A suspect))
        ∧ ∀ b, p.lost = false → receivedHeader (p.header.bytes n) err.header err.read = some b →
          ((∀ r, Header.read b = some r → s.carrier r = none) → exec (.onDiePacketArrival false i err) s = .next (s'.discardPacket p))
          ∧ ∀ (r : Header) (c : Ctx), Header.read b = some r → s.carrier r = some c →
            (badPacket b = true → exec (.onDiePacketArrival false i err) s = .next ((s'.discardPacket p).suspectSender p.ctx p.src))
            ∧ (badPacket b = false →
              let data := packetPayload err s.freeCount p.bytes (p.poison.zipWith (· || ·) (r.poison ++ List.replicate n false))
              let written := h.members.foldl (fun s l => s.atHome r.ctx l (fun c => deliverTo s.st.now r.granule data.1 data.2 (if r.signal then some r.token else none) c l))
                (if err.payload = [] then s' else s'.spend)
              exec (.onDiePacketArrival false i err) s = .next (written.landPacket { p with bytes := data.1, poison := data.2 })))
    ∧ (∀ (i : Nat) (r : Request) (h : Hop) (more : List Hop) (err : PacketError), s.net.requests.find? (fun y => y.id == i && y.moving) = some r → r.route = h :: more →
        let n := r.poison.length
        let link := linkOf true h
        let s' : State := { s with net := s.net.correct link (packetCorrected err n) }
        (receivedHeader (r.header.bytes n) err.header err.read = none →
          exec (.onDiePacketArrival true i err) s = .next (((s'.dropCount (nodeDie h.2)).report (linkKey link) 0x0A {}).loseTransfer r (linkKey link)))
        ∧ ∀ b, receivedHeader (r.header.bytes n) err.header err.read = some b →
          ((∀ x, Header.read b = some x → s.carrier x = none) → exec (.onDiePacketArrival true i err) s = .next ((s'.dropRequest r.id).dropCount (nodeDie h.2)))
          ∧ ∀ (x : Header) (c : Ctx), Header.read b = some x → s.carrier x = some c →
            (badPacket b = true → exec (.onDiePacketArrival true i err) s =
              .next (((s'.dropCount (nodeDie h.2)).suspectSender r.ctx r.core).loseTransfer r (linkKey link)))
            ∧ (badPacket b = false →
              let data := packetPayload err s.freeCount r.bytes r.poison
              let r' := { r with addr := x.remote, granule := x.granule, bytes := data.1, poison := data.2, route := more, moving := false, last := some h }
              exec (.onDiePacketArrival true i err) s = .next (((if err.payload = [] then s' else s'.spend).putRequest r').landed r')))

/-! ## Memory (07 R204 to R213, 15 R414) -/

/-- Refreshes, scrubs, repairs, moves and stack temperatures: a refresh and a clean scrub change nothing that is read; a scrub counts a corrected error, and an error that is not
correctable is counted and its granule poisoned; a repair takes the row off the list, with a notice, while the die's data moves, or retires the pseudo-channel (whether the bank has a repair
resource left is free, log 28); accesses go on after a move (07 R206 to R209, R211). A stack above 85 °C refreshes at twice the rate, and one that crosses 95 °C raises a warning (15 R414). -/
def Obligations.MemoryUpkeep : Prop :=
  ∀ s : State,
    (∀ (far : Bool) (unit bank : Nat), unit < (if far then 16 else 512) → exec (.memoryRefresh far unit bank) s = .next { s with mem := { s.mem with refresh := some (far, unit, bank) } })
    ∧ (∀ (a : Nat) (err : Flips), ((∃ d, regionOf a = .near d ∧ s.mem.moving.getD d false = false) ∨ regionOf a = .far) →
        let g := a / 64 * 64
        (err = [] ∨ s.poisonAt g = true → exec (.patrolScrub a err) s = .next s)
        ∧ (s.poisonAt g = false → granuleCode g err = .corrected → ∃ t, exec (.patrolScrub a err) s = .next t ∧ t.mem.bytes = s.mem.bytes ∧ t.mem.poison = s.mem.poison
            ∧ (regionOf a = .far → t = { s with mem := { s.mem with ceFar := satAdd 32 s.mem.ceFar 1 } })
            ∧ (∀ d, regionOf a = .near d → t.mem.ceNear = updAt s.mem.ceNear d (fun n => satAdd 32 n 1)))
        ∧ (s.poisonAt g = false → granuleCode g err = .uncorrectable → exec (.patrolScrub a err) s = .next (s.uncorrectable g)
            ∧ (regionOf a = .far → s.farOut g = false → (s.uncorrectable g).poisonAt g = true)
            ∧ (regionOf a = .far → (s.uncorrectable g).mem.ueFar = satAdd 32 s.mem.ueFar 1)
            ∧ (∀ d, regionOf a = .near d → (s.uncorrectable g).mem.ueNear = updAt s.mem.ueNear d (fun n => satAdd 32 n 1))))
    ∧ (∀ (a d : Nat) (err : Flips), regionOf a = .near d → s.mem.moving.getD d false = true → exec (.patrolScrub a err) s = .next s)
    ∧ (∀ (die pc row : Nat) (r : RowErr), die < 4 → s.mem.rows.find? (fun y => y.die == die && y.pc == pc && y.row == row) = some r →
        r.needsRepair s.st.now.toNat = true → s.mem.moving.getD die false = false →
        let off : State := { s with freeCount := s.freeCount + 1
                                    mem := { s.mem with rows := s.mem.rows.filter (fun y => !(y.die == die && y.pc == pc && y.row == row)) } }
        (Config.repairLeft s.freeCount = true → exec (.rowRepair die pc row) s = .next (({ off with mem := { off.mem with
            softRepairs := s.mem.softRepairs ++ [(die, pc, row)], moving := updAt s.mem.moving die (fun _ => true) } } : State).raise
            { level := 1, source := 4, reg := some (0x80020 + 4 * die), count := row }))
        ∧ (Config.repairLeft s.freeCount = false → exec (.rowRepair die pc row) s = .next (off.retirePc die pc)))
    ∧ (∀ die, die < 4 → exec (.dataMoveComplete die) s = .next { s with mem := { s.mem with moving := updAt s.mem.moving die (fun _ => false) } })
    ∧ (∀ (stack : Nat) (celsius : Int), stack < 16 →
        let read : State := { s with power := { s.power with
          stackTemps := updAt s.power.stackTemps stack (fun _ => celsius.toNat), stackDoubled := updAt s.power.stackDoubled stack (fun _ => decide (85 < celsius)) } }
        exec (.stackTemperatureRead stack celsius) s = .next (if 95 < celsius ∧ s.power.stackTemps.getD stack 0 ≤ 95
          then read.raise { level := 2, source := 2, reg := some 0x30010, count := stack } else read))

/-- Reading back what was stored in far memory: whole granules that are stored without poison read as stored, and no other byte changes (07 R204). -/
def Obligations.FarMemoryReadsBack : Prop :=
  ∀ (s : State) (a : Nat) (bytes : List Byte), Memory.wf s.mem → regionOf a = .far → a % 64 = 0 → bytes.length = 64 → s.farOut a = false →
    (s.store a bytes).load a 64 = bytes ∧ (s.store a bytes).poisonAt a = false ∧ ∀ b, (b < a ∨ a + 64 ≤ b) → (s.store a bytes).load b 1 = s.load b 1

/-! ## Seif ports and frames (08 R214 to R223) -/

/-- Training first attempts 224 Gb/s and falls back; one bad lane is spared, two fail the attempt, the third failure takes the port out of service (08 R218). A lane whose errors pass
the threshold is reported and the spare takes its place at the data frame that a lane swap message names, at both ends; a port whose spare is in use, on its way or bad retrains (R219); so does a port
whose acknowledgement has not advanced for 100 µs (R217). In another state of the port each of these changes nothing. -/
def Obligations.PortTrainingAndLanes : Prop :=
  ∀ (s : State) (p : Nat) (x : Port), p < 18 → portGet s.seif p = x →
    let retrained := fun (t : State) => (portGet t.seif p).state = 1 ∧ (portGet t.seif p).fast = true ∧ (portGet t.seif p).buffer = []
      ∧ (portGet t.seif p).partner = none ∧ (portGet t.seif p).spare = false ∧ (portGet t.seif p).fecCorr = x.fecCorr ∧ t.mem = s.mem
    (x.state ≤ 1 → exec (.portTraining p) s = .next (s.putPort p { x with state := 1, fast := true, changed := s.st.now }))
    ∧ (2 ≤ x.state → exec (.portTraining p) s = .next s)
    ∧ (x.state = 1 → x.fast = true → exec (.trainingRateFallback p) s = .next (s.putPort p { x with fast := false }))
    ∧ ((x.state ≠ 1 ∨ x.fast = false) → exec (.trainingRateFallback p) s = .next s)
    ∧ (∀ bad : BitVec 9, (x.state ≠ 1 → exec (.laneQualification p bad) s = .next s)
        ∧ (x.state = 1 →
          (badLanes bad = [] → exec (.laneQualification p bad) s =
            .next (s.putPort p { x with state := 2, spare := false, replaced := 0, attempts := 0, changed := s.st.now }))
          ∧ (∀ lane, badLanes bad = [lane] → exec (.laneQualification p bad) s =
            .next (s.putPort p { x with state := 2, spare := decide (lane < 8), replaced := lane, attempts := 0, changed := s.st.now }))
          ∧ (2 ≤ (badLanes bad).length → x.attempts + 1 < 3 → exec (.laneQualification p bad) s =
            .next (s.putPort p { x with attempts := x.attempts + 1, fast := true }))
          ∧ (2 ≤ (badLanes bad).length → 3 ≤ x.attempts + 1 → exec (.laneQualification p bad) s = .next (s.portOut p) ∧ (portGet (s.portOut p).seif p).state = 5)))
    ∧ (∀ lane,
        let used := lane < 9 ∧ x.state = 3 ∧ (lane = 8 → x.spare = true)
        let busy := x.spare = true ∨ x.swapTx ≠ none ∨ x.swapRx ≠ none ∨ x.replaced = 8
        (¬ used → exec (.laneErrorThreshold p lane) s = .next s)
        ∧ (used → busy → ∃ t, exec (.laneErrorThreshold p lane) s = .next t ∧ retrained t)
        ∧ (used → ¬ busy → ∃ t, exec (.laneErrorThreshold p lane) s = .next t ∧ (portGet t.seif p).swapTx = some (lane, x.txSeq) ∧ (portGet t.seif p).spare = false
            ∧ message ([0x03, BitVec.ofNat 8 lane] ++ leBytes 2 x.txSeq.toNat) ∈ (portGet t.seif p).outbox
            ∧ t = ((s.reportPort p 0x0C).post p ([0x03, BitVec.ofNat 8 lane] ++ leBytes 2 x.txSeq.toNat)).updPort p (fun y => { y with swapTx := some (lane, x.txSeq) })))
    ∧ (∀ (lane : Nat) (seq : BitVec 12) (payload : List Byte), x.swapTx = some (lane, seq) → x.txSeq = seq →
        (portGet (s.sendFrame p 1 payload).seif p).spare = true ∧ (portGet (s.sendFrame p 1 payload).seif p).replaced = lane)
    ∧ (∀ (i : Nat) (m : List Byte), x.message? 3 = some (i, m) →
        let s' := s.putPort p { x with inbox := x.inbox.eraseIdx i }
        let lane := msgNat m 1 1
        let seq := BitVec.ofNat 12 (msgNat m 2 2)
        let taken := x.spare = true ∨ x.swapTx ≠ none ∨ 8 ≤ lane
        (taken → exec (.laneSwap p) s = .next s')
        ∧ (¬ taken → (x.rxNext - seq - 1).toNat < 2048 → exec (.laneSwap p) s = .next (s'.spareIn p lane)
            ∧ (portGet (s'.spareIn p lane).seif p).spare = true ∧ (portGet (s'.spareIn p lane).seif p).replaced = lane)
        ∧ (¬ taken → 2048 ≤ (x.rxNext - seq - 1).toNat → exec (.laneSwap p) s =
            .next (s.putPort p { x with inbox := x.inbox.eraseIdx i, swapRx := some (lane, seq) })))
    ∧ (x.message? 3 = none → exec (.laneSwap p) s = .next s)
    ∧ (x.buffer ≠ [] → x.ackTime.toNat + 100 * microsecond ≤ s.st.now.toNat → ∃ t, exec (.ackTimeout p) s = .next t ∧ retrained t)
    ∧ ((x.buffer = [] ∨ s.st.now.toNat < x.ackTime.toNat + 100 * microsecond) → exec (.ackTimeout p) s = .next s)

/-- A valid frame counts its codewords, is noted, and its acknowledgement drops what it acknowledges from the replay buffer; a NAK sends the rest again, the eighth time of one
frame retrains the port. A data frame in sequence is accepted, and one that a lane swap names brings the spare in; any other is answered with a NAK; the messages of a control frame wait; an idle frame does no more;
a discovery frame brings the partner up, or, at 112 Gb/s with a partner that has version 4, trains the port once more (08 R215 to R217, R219, R221, R222). -/
def Obligations.PortFrames : Prop :=
  ∀ (s : State) (p n : Nat) (x : Port) (f : Frame), p < 18 → portGet s.seif p = x →
    let y := x.heardFrame n f s.st.now
    let noResend := f.nak = false ∨ f.ackValid = false ∨ x.unacked f.ack = []
    let live := 2 ≤ x.state ∧ x.state ≤ 4
    let bad := fun (nak : Bool) => Host.Outcome.next (ρ := Refusal) (φ := Fault) (s.putPort p { x with fecUncorr := satAdd 32 x.fecUncorr 1, nak := x.nak || nak })
    let broken := fun (nak : Bool) => Host.Outcome.next (ρ := Refusal) (φ := Fault) (s.putPort p { x with fecCorr := satAdd 32 x.fecCorr n, nak := x.nak || nak })
    (x.state = 3 → exec (.dataFrameReceive p none f) s = bad true)
    ∧ (x.state ≠ 3 → ∀ fec, exec (.dataFrameReceive p fec f) s = .next s)
    ∧ (live → exec (.controlFrameReceive p none f) s = bad false ∧ exec (.idleFrameReceive p none f) s = bad false ∧ exec (.discoveryFrameReceive p none f) s = bad false)
    ∧ (x.state = 3 → (frameOk f = false ∨ f.typ ≠ 1) → exec (.dataFrameReceive p (some n) f) s = broken true)
    ∧ (live → frameOk f = false → exec (.controlFrameReceive p (some n) f) s = broken false ∧ exec (.idleFrameReceive p (some n) f) s = broken false
        ∧ exec (.discoveryFrameReceive p (some n) f) s = broken false)
    ∧ (frameOk f = true → noResend →
        (x.state = 3 → f.typ = 1 →
          let got := s.putPort p { y with rxNext := x.rxNext + 1, nak := false, stream := x.stream ++ f.payload, times := x.times ++ [(f.payload.length, s.st.now.toNat)] }
          (f.seq = x.rxNext → (∀ lane, x.swapRx ≠ some (lane, f.seq)) → exec (.dataFrameReceive p (some n) f) s = .next got)
          ∧ (f.seq = x.rxNext → ∀ lane, x.swapRx = some (lane, f.seq) → exec (.dataFrameReceive p (some n) f) s = .next (got.spareIn p lane))
          ∧ (f.seq ≠ x.rxNext → exec (.dataFrameReceive p (some n) f) s = .next (s.putPort p { y with nak := true })))
        ∧ (live → f.typ = 2 → exec (.controlFrameReceive p (some n) f) s =
          .next (s.putPort p { y with inbox := x.inbox ++ (messagesOf f.payload).map (· ++ leBytes 8 s.st.now.toNat) }))
        ∧ (live → f.typ = 3 → exec (.idleFrameReceive p (some n) f) s = .next (s.putPort p y))
        ∧ (let d := parseDiscovery f.payload
           let v := commonVersion x.fast d.versions
           x.state = 2 → f.typ = 4 → recordOk f.payload = true → x.partner = none →
           ((x.fast = true ∨ d.versions.getLsbD 1 = false ∨ x.retried = true) → (∀ c ∈ s.seif.claims, c.serial = d.serial → p ∉ c.ports) →
             ∃ t, exec (.discoveryFrameReceive p (some n) f) s = .next t ∧ t.mem = s.mem
               ∧ (portGet t.seif p).partner = some d ∧ (portGet t.seif p).version = v ∧ (portGet t.seif p).state = (if v = 0 then 4 else 3)
               ∧ (portGet t.seif p).fast = (x.fast && v != 3) ∧ (portGet t.seif p).changed = s.st.now ∧ (portGet t.seif p).lastRx = s.st.now
               ∧ (portGet t.seif p).rxNext = x.rxNext ∧ (portGet t.seif p).fecCorr = satAdd 32 x.fecCorr n)
           ∧ (x.fast = false → d.versions.getLsbD 1 = true → x.retried = false → exec (.discoveryFrameReceive p (some n) f) s =
             .next (s.putPort p { Port.down with state := 1, fast := true, retried := true, changed := s.st.now, fecCorr := satAdd 32 x.fecCorr n,
                                                 fecUncorr := x.fecUncorr, replays := x.replays, drop := x.drop }))))
    ∧ (frameOk f = true → f.typ = 3 → f.ackValid = true → f.nak = true → x.unacked f.ack ≠ [] → live →
        let m := if x.resentSeq = f.ack then x.resent + 1 else 1
        let s' := s.putPort p { y with resent := m, resentSeq := f.ack, replays := satAdd 32 x.replays (x.unacked f.ack).length }
        (m < 8 → exec (.idleFrameReceive p (some n) f) s = .next { s' with seif := { s'.seif with out := s'.seif.out ++ (x.unacked f.ack).map (fun g => (p, g)) } })
        ∧ (8 ≤ m → exec (.idleFrameReceive p (some n) f) s = .next (s'.retrain p)))

/-- A discovery frame carries the module's record; a control frame carries the timestamp, the announcement and waiting messages, at most 31, after the relays that are due have joined them; a
module without a grandmaster or in holdover elects one first. Frame slots that had no data carried idle frames (08 R216, R220, R229, R231, R232, 11 R327). -/
def Obligations.PortSends : Prop :=
  ∀ (s : State) (p : Nat) (x : Port), p < 18 → portGet s.seif p = x →
    let idle := fun (y : Port) => if y.state = 4 then 0 else 90 - y.slots
    let frames := fun (y : Port) (typ : Nat) (payload : List Byte) =>
      if idle y = 0 then [y.frame typ payload]
      else [y.frame 3 []] ++ List.replicate (idle y - 1) (({ y with nak := false } : Port).frame 3 []) ++ [({ y with nak := false } : Port).frame typ payload]
    let sends := fun (s t : State) (y : Port) (typ : Nat) (payload : List Byte) =>
      t.seif.out = s.seif.out ++ (frames y typ payload).map (fun f => (p, f)) ∧ portGet t.seif p = { y with nak := false, slots := 0 }
        ∧ (∀ q, q ≠ p → portGet t.seif q = portGet s.seif q) ∧ t.mem = s.mem ∧ t.st = s.st ∧ t.attn = s.attn ∧ t.ctxs = s.ctxs
    (x.talks = true → ∃ t, exec (.discoveryFrameSend p) s = .next t ∧ sends s t x 4 (discoveryBytes (s.ownRecord p)))
    ∧ (x.talks = true →
        let ready := (if s.st.gm = 0 ∨ s.st.mode = 3 then s.elect else s).sendRelays
        let y := portGet ready.seif p
        ∃ t, exec (.controlFrameSend p) s = .next t ∧ sends ready t { y with outbox := y.outbox.drop 29 }
          2 (timestampMessage y ready.st.now ++ announcement ready.st ++ (y.outbox.take 29).flatMap id))
    ∧ (x.talks = false → exec (.discoveryFrameSend p) s = .next s ∧ exec (.controlFrameSend p) s = .next s)

/-- A partner silent for 100 µs departs and no claim is seen over its port any more (08 R222, R223); a departure notice does the same at once, and the ranks that its claims hold depart;
a rank that no port has reached for more than 1.5 s departs (R247); a relayed report is entered at rank 0 of its job and passed on elsewhere, and a relayed departure makes its rank depart (R247, 11 R327). -/
def Obligations.PartnersDepart : Prop :=
  ∀ (s : State) (p : Nat) (x : Port), p < 18 → portGet s.seif p = x →
    let gone := fun (t : State) => (portGet t.seif p).partner = none ∧ (portGet t.seif p).state = 2 ∧ (portGet t.seif p).version = 0
      ∧ (∀ c ∈ t.seif.claims, p ∉ c.ports) ∧ t.mem = s.mem
    (∀ d, x.partner = some d → x.lastRx.toNat + 100 * microsecond ≤ s.st.now.toNat → ∃ t, exec (.partnerSilenceTimeout p) s = .next t ∧ gone t)
    ∧ ((x.partner = none ∨ s.st.now.toNat < x.lastRx.toNat + 100 * microsecond) → exec (.partnerSilenceTimeout p) s = .next s)
    ∧ (∀ (d : Discovery) (i : Nat) (m : List Byte), x.message? 7 = some (i, m) → x.partner = some d →
        let held := s.seif.claims.filter (fun c => c.serial == d.serial && c.ports.contains p && !c.refused)
        ∃ t, gone t ∧ exec (.departureNotice p) s = .next (held.foldl (fun u c => u.rankDeparts c.job c.rank) t))
    ∧ (∀ (job : W64) (rank since : Nat), s.absentSince job rank = some since →
        (since + 3 * second / 2 < s.st.now.toNat → ∃ t, exec (.routeAbsenceTimeout job rank) s = .next t ∧ t.hasDeparted job rank = true
            ∧ ∀ r, s.route? job rank = some r → (∀ c ∈ s.ctxs, c.2.desc.job ≠ job) → t = { s with
              seif := { s.seif with routes := updWhere s.seif.routes (fun y => y.job == job && y.rank == rank) (fun y => { y with departed := true, port := none }) } })
        ∧ (s.st.now.toNat ≤ since + 3 * second / 2 → exec (.routeAbsenceTimeout job rank) s = .next s))
    ∧ (∀ (i : Nat) (m : List Byte), x.message? 6 = some (i, m) →
        let job := BitVec.ofNat 64 (msgNat m 4 8)
        let rank := msgNat m 12 2 % 32768
        let s' := s.putPort p { x with inbox := x.inbox.eraseIdx i }
        (msgNat m 1 1 = 1 → s.ownRank job = some 0 → exec (.managementRelay p) s = .next (s'.reportN (relayKey m) (msgNat m 3 1) (msgNat m 20 4)
          { rank := rank, job := job, serial := BitVec.ofNat 64 (msgNat m 24 8) }))
        ∧ (msgNat m 1 1 = 1 → s.ownRank job ≠ some 0 → exec (.managementRelay p) s = .next (s'.postTo job 0 (m.take 32)))
        ∧ (msgNat m 1 1 = 2 → msgNat m 3 1 = 2 → s.ownRank job = some 0 → (s'.rankDeparts job rank).ownRank job = some 0 →
          exec (.managementRelay p) s = .next (s'.rankDeparts job rank)))

/-! ## System Time (08 R228 to R233) -/

/-- A timestamp from the parent enters the mean of the last 64 offsets. Initial lock steps the count, once, with no context resident and never backward; after it the mean
steers the rate by at most 100 ppm toward zero. Holdover is entered when no port has announced the grandmaster for 1 ms and warns after 10 ms; the reference inputs follow R233, and a pulse in its
place gives the grandmaster its phase (08 R228, R229, R230, R232, R233, 18 R453). -/
def Obligations.SystemTimeFollowsItsParent : Prop :=
  ∀ s : State,
    (∀ (p i : Nat) (x : Port) (m : List Byte), p < 18 → portGet s.seif p = x → x.message? 1 = some (i, m) →
        let t1 : Int := msgNat m 16 8
        let t2 : Int := msgNat m 24 8
        let t3 : Int := msgNat m 8 8
        let t4 : Int := msgNat m 32 8
        let theta := ((t2 - t1) - (t4 - t3)) / 2
        let thetas := (s.st.thetas ++ [theta]).drop (s.st.thetas.length + 1 - 64)
        let mean := meanOf thetas
        let y := { x with inbox := x.inbox.eraseIdx i, echoTx := BitVec.ofNat 64 (msgNat m 8 8), arrival := BitVec.ofNat 64 (msgNat m 32 8),
                          delay := if t1 = 0 then x.delay else ((t2 - t1) + (t4 - t3)) / 2 }
        let steps := s.st.locked = false ∧ s.resident = [] ∧ 0 ≤ mean
        ((t1 = 0 ∨ s.st.parent ≠ some p) → exec (.timestamp p) s = .next (s.putPort p y))
        ∧ (t1 ≠ 0 → s.st.parent = some p → steps → exec (.timestamp p) s = .next { s.putPort p y with
            st := { s.st with now := s.st.now + BitVec.ofInt 64 mean, thetas := [], offset := 0, ratePpm := 0, mode := 2, locked := true } })
        ∧ (t1 ≠ 0 → s.st.parent = some p → ¬ steps → ∃ t, exec (.timestamp p) s = .next t
            ∧ portGet t.seif p = y ∧ t.st.thetas = thetas ∧ t.st.offset = mean ∧ t.st.now = s.st.now
            ∧ t.st.mode = (if -16 ≤ mean ∧ mean ≤ 16 then 2 else 1) ∧ t.st.locked = (s.st.locked || decide (-16 ≤ mean ∧ mean ≤ 16))
            ∧ (mean < 0 → -100 ≤ t.st.ratePpm ∧ t.st.ratePpm ≤ 0) ∧ (0 < mean → 0 ≤ t.st.ratePpm ∧ t.st.ratePpm ≤ 100) ∧ (mean = 0 → t.st.ratePpm = 0)))
    ∧ (let enters := s.st.gm ≠ 0 ∧ s.st.gm ≠ s.cfg.serial ∧ s.st.mode ≠ 3 ∧ s.st.gmHeard + millisecond ≤ s.st.now.toNat
       (enters → exec .holdoverEntry s = .next
          (({ s with st := { s.st with mode := 3, parent := none, holdover := some s.st.now.toNat, holdoverWarned := false } } : State).raise
            { level := 1, source := 3, reg := some 0x4000C }))
       ∧ (¬ enters → exec .holdoverEntry s = .next s))
    ∧ (∀ h, s.st.holdover = some h → s.st.mode = 3 → h + 10 * millisecond < s.st.now.toNat → s.st.holdoverWarned = false → exec .holdoverLimit s = .next
        (({ s with st := { s.st with holdoverWarned := true } } : State).raise { level := 2, source := 3, reg := some 0x4000C }))
    ∧ (∀ high,
        let seen := 20 ≤ high ∧ s.resetting 7 = false ∧ s.resetting 8 = false
        let sound := 100 ≤ high ∧ high ≤ 500000000
        (¬ seen → exec (.trefPpsEdge high) s = .next s)
        ∧ (seen → sound → s.st.ppsValid = true → s.st.inPlace = true → exec (.trefPpsEdge high) s =
            .next (({ s with st := { s.st with ppsBad := 0, ppsLast := some s.st.now.toNat } } : State).alignPps))
        ∧ (seen → (¬ sound ∨ (s.st.ppsValid = true ∧ s.st.inPlace = false)) → ∃ t, exec (.trefPpsEdge high) s = .next t ∧ t.st.ppsReject = satAdd 32 s.st.ppsReject 1
            ∧ (s.st.ppsValid = true → t.st.ppsValid = decide (s.st.ppsBad < 2)) ∧ t.st.now = s.st.now ∧ t.mem = s.mem)
        ∧ (seen → sound → s.st.ppsValid = false →
            let consistent := ∃ l, s.st.ppsLast = some l ∧ l < s.st.now.toNat ∧ secondError (s.st.now.toNat - l) ≤ microsecond
            let noted := fun (good : Nat) => ({ s with st := { s.st with ppsGood := good, ppsBad := 0, ppsLast := some s.st.now.toNat } } : State)
            (¬ consistent → exec (.trefPpsEdge high) s = .next (noted 1))
            ∧ (consistent → s.st.ppsGood + 1 < 8 → exec (.trefPpsEdge high) s = .next (noted (s.st.ppsGood + 1)))
            ∧ (consistent → 8 ≤ s.st.ppsGood + 1 → exec (.trefPpsEdge high) s =
                .next ((({ noted (s.st.ppsGood + 1) with st := { (noted (s.st.ppsGood + 1)).st with slewing := true } } : State).setRefs true s.st.tenValid).alignPps))))
    ∧ ((s.st.capable = false ∨ s.st.gm ≠ s.cfg.serial) → s.alignPps = s)
    ∧ (s.st.capable = true → s.st.gm = s.cfg.serial → s.st.locked = false → s.resident = [] → s.st.now.toNat % second ≠ 0 → s.st.now.toNat + second < 2 ^ 64 →
        s.alignPps.st.now.toNat % second = 0 ∧ s.st.now.toNat ≤ s.alignPps.st.now.toNat ∧ s.alignPps.st.now.toNat < s.st.now.toNat + second)
    ∧ (s.st.capable = true → s.st.gm = s.cfg.serial → (s.st.locked = true ∨ s.resident ≠ []) → s.alignPps.st.now = s.st.now ∧ s.alignPps.mem = s.mem)
    ∧ (s.st.tenValid = true → ∃ t, exec .tref10mDeviation s = .next t ∧ t.st.tenValid = false ∧ t.st.capable = false ∧ t.st.ppsValid = s.st.ppsValid ∧ t.pins = s.pins)
    ∧ (∃ t, exec .tref10mAmplitudeLoss s = .next t ∧ t.pins.tenMAmplitude = false ∧ (s.st.tenValid = true → t.st.tenValid = false ∧ t.st.capable = false))
    ∧ (∃ t, exec .tref10mRecovery s = .next t ∧ t.st.tenValid = true ∧ t.st.capable = s.st.ppsValid ∧ t.pins.tenMAmplitude = true ∧ t.mem = s.mem)

/-- The grandmaster is the best of the candidates heard within 1 ms and the module itself: lowest class, then priority, then serial; an announcement of it is noted (08 R231, R232). -/
def Obligations.GrandmasterIsTheBest : Prop :=
  ∀ (s : State) (p i : Nat) (x : Port) (m : List Byte), p < 18 → portGet s.seif p = x → x.message? 2 = some (i, m) →
    ∃ t, exec (.grandmasterAnnouncement p) s = .next t
      ∧ portGet t.seif p = { x with inbox := x.inbox.eraseIdx i, heard := some (msgNat m 1 1, msgNat m 2 1, BitVec.ofNat 64 (msgNat m 8 8), msgNat m 3 1), heardAt := msgNat m 32 8 }
      ∧ t.st.now = s.st.now ∧ t.mem = s.mem
      ∧ (t.st.gm = BitVec.ofNat 64 (msgNat m 8 8) → msgNat m 32 8 ≤ t.st.gmHeard)
      ∧ ((∀ a ∈ t.announced, a.2.2.2.1 = s.cfg.serial → a.2.1 = s.ownCandidate.1 ∧ a.2.2.1 = s.ownCandidate.2.1) →
          let best : Candidate := (t.st.gmClass, t.st.gmPriority, t.st.gm, t.st.hops)
          (∀ a ∈ t.announced, Candidate.better a.2 best = false) ∧ Candidate.better s.ownCandidate best = false
            ∧ (t.st.gm = s.cfg.serial ∨ ∃ a ∈ t.announced, a.2.2.2.1 = t.st.gm))

/-! ## Packets, windows, collectives (08 R224 to R248) -/

/-- A packet that passes the checks of R225 and is for this rank acts by its kind: a peer write is stored and acknowledged, a read is answered on its flow, data goes on to the core that asked, a
contribution waits in its collective; a write or read outside granted memory has no effect on memory and makes its sender a suspect. A packet that fails a check is discarded and counted (08 R225, R226). An
acknowledgement ends its transfer, so does its absence for 100 ms, with a warning (R227); link windows open at their place in the frame and are gone after they close (08 R234 to R236). -/
def Obligations.PeerPacketsAndWindows : Prop :=
  ∀ s : State,
    (∀ (p : Nat) (x : Port) (k : Nat) (c : Ctx), p < 18 → portGet s.seif p = x → 64 ≤ x.stream.length → wireLen x.stream ≤ x.stream.length →
        let b := x.stream.take (wireLen x.stream)
        let y := parsePacket b
        let a := y.target.toNat
        let taken := takeTimes x.times (wireLen x.stream) 0
        let s' := s.putPort p { x with stream := x.stream.drop (wireLen x.stream), times := taken.1 }
        let h := s'.histogram c p y.srcRank.toNat taken.2
        let sound := crc32 (b.take 60) = y.crc.toNat ∧ badHeader y = false ∧ s.refusedFrom p y = false
        let mine := sound ∧ s.jobCtx y.job = some (k, c) ∧ y.dstRank.toNat = c.desc.rank
        let mapped := a % 64 = 0 ∧ (regionOf a = .far ∨ a < nearTop)
        let refused := fun (t : State) => (t.dropSeif p).suspectRank y.job y.srcRank.toNat 0x0A (some k)
        (mine → y.kind = 1 → suppliesColl c y = false → mapped → c.granted 2 a (64 * y.len.toNat) = true → exec (.seifPacketArrival p) s =
          .next (((h.storeGranules a y.payload (poisonList y)).postTo y.job y.srcRank.toNat (ackMessage y.job y.srcRank.toNat y.tag.toNat)).controlWrite k a y.payload))
        ∧ (mine → y.kind = 1 → suppliesColl c y = false → (¬ mapped ∨ c.granted 2 a (64 * y.len.toNat) = false) → exec (.seifPacketArrival p) s = .next (refused h))
        ∧ (mine → y.kind = 1 → suppliesColl c y = true → exec (.seifPacketArrival p) s =
          .next ((deliverColl h p k (parsePacket y.payload)).postTo y.job y.srcRank.toNat (ackMessage y.job y.srcRank.toNat y.tag.toNat)))
        ∧ (mine → y.kind = 2 →
          let n := h.fresh % 64 + 1
          let reply := fun (data : List Byte) (poison : List Bool) =>
            h.spend.ready k { writePacket y.job c.desc.rank y.srcRank.toNat y.flow.toNat y.tag.toNat a data poison with kind := 3 }
          (mapped → c.granted 2 a (64 * n) = true → exec (.seifPacketArrival p) s =
            .next (reply (h.spend.load a (64 * n)) ((List.range n).map (fun i => h.spend.poisonAt (a + 64 * i)))))
          ∧ ((¬ mapped ∨ c.granted 2 a (64 * n) = false) → exec (.seifPacketArrival p) s =
            .next ((reply (zeros (64 * n)) (List.replicate n true)).suspectRank y.job y.srcRank.toNat 0x0A (some k))))
        ∧ (∀ (tr : PeerXfer) (i : Nat) (r : Request), mine → c.desc.hist = 0 → y.kind = 3 → s.seif.peers.find? (fun t => t.tag == y.tag.toNat && !t.write) = some tr → tr.request = some i →
          s.net.requests.find? (fun r => r.id == i) = some r → exec (.seifPacketArrival p) s = .next (({ s' with
            seif := { s'.seif with peers := s.seif.peers.filter (fun u => u.tag != tr.tag) } } : State).answerRead r
              ((y.payload ++ zeros (64 * r.offsets.length)).take (64 * r.offsets.length)) ((poisonList y ++ List.replicate r.offsets.length true).take r.offsets.length)))
        ∧ (∀ z : Coll, mine → c.desc.hist = 0 → (y.kind = 4 ∨ y.kind = 5) → s.colls.find? (fun u => u.ctx == k && u.desc.id.toNat == a % 2 ^ 32) = some z →
          (a / 2 ^ 32 < z.desc.chunks → exec (.seifPacketArrival p) s = .next { s' with
            colls := updWhere s.colls (fun u => u.ctx == k && u.desc.id.toNat == a % 2 ^ 32) (fun u => { u with inbox := u.inbox ++ [y] }) })
          ∧ (z.desc.chunks ≤ a / 2 ^ 32 → exec (.seifPacketArrival p) s = .next (refused s')))
        ∧ (mine → (y.kind = 4 ∨ y.kind = 5) → h.colls.find? (fun u => u.ctx == k && u.desc.id.toNat == a % 2 ^ 32) = none → exec (.seifPacketArrival p) s = .next (refused h))
        ∧ (crc32 (b.take 60) ≠ y.crc.toNat → exec (.seifPacketArrival p) s = .next ((s'.dropSeif p).reportPort p 0x0A))
        ∧ (crc32 (b.take 60) = y.crc.toNat → badHeader y = true → exec (.seifPacketArrival p) s = .next ((s'.dropSeif p).suspectRank y.job y.srcRank.toNat 0x0A none))
        ∧ (crc32 (b.take 60) = y.crc.toNat → badHeader y = false → s.refusedFrom p y = true → exec (.seifPacketArrival p) s = .next (s'.dropSeif p))
        ∧ (sound → s.jobCtx y.job = some (k, c) → y.dstRank.toNat ≠ c.desc.rank →
          (∀ r, s.route? y.job y.dstRank.toNat = some r → exec (.seifPacketArrival p) s = .next (s'.ready k y))
          ∧ (s.route? y.job y.dstRank.toNat = none → exec (.seifPacketArrival p) s =
            .next ((s'.dropSeif p).raise { level := 1, source := 3, ctx := some k, reg := some (0x70380 + 4 * p) })))
        ∧ (∀ r, sound → s.jobCtx y.job = none → s.route? y.job y.dstRank.toNat = some r → exec (.seifPacketArrival p) s =
          .next (s'.addReady ⟨64, r.port.getD 18, y, s.st.now⟩))
        ∧ (sound → s.jobCtx y.job = none → (∀ r ∈ s.seif.routes, r.job ≠ y.job) → exec (.seifPacketArrival p) s = .next (s'.dropSeif p)))
    ∧ (∀ (p i : Nat) (x : Port) (m : List Byte) (tr : PeerXfer) (j : Nat) (r : Request), p < 18 → portGet s.seif p = x → x.message? 8 = some (i, m) →
        s.ownRank (BitVec.ofNat 64 (msgNat m 4 8)) = some (msgNat m 2 2) → s.seif.peers.find? (fun y => y.tag == msgNat m 12 4 && y.write) = some tr →
        tr.request = some j → s.net.requests.find? (fun y => y.id == j) = some r →
        exec (.writeAcknowledgement p) s = .next (State.endRequest { s.putPort p { x with inbox := x.inbox.eraseIdx i } with
          seif := { (s.putPort p { x with inbox := x.inbox.eraseIdx i }).seif with peers := s.seif.peers.filter (fun y => y.tag != msgNat m 12 4) } } r))
    ∧ (∀ (p i : Nat) (x : Port) (m : List Byte), p < 18 → portGet s.seif p = x → x.message? 8 = some (i, m) → s.ownRank (BitVec.ofNat 64 (msgNat m 4 8)) ≠ some (msgNat m 2 2) →
        exec (.writeAcknowledgement p) s = .next ((s.putPort p { x with inbox := x.inbox.eraseIdx i }).postTo (BitVec.ofNat 64 (msgNat m 4 8)) (msgNat m 2 2) (m.take 32)))
    ∧ (∀ (tag : Nat) (tr : PeerXfer), s.seif.peers.find? (fun y => y.tag == tag && y.write) = some tr →
        let s' : State := { s with seif := { s.seif with peers := s.seif.peers.filter (fun y => y.tag != tag) } }
        let warned := fun (t : State) => t.raise { level := 2, source := 3, ctx := some tr.ctx, count := tr.rank }
        (s.st.now.toNat < tr.issued.toNat + 100 * millisecond → exec (.peerWriteTimeout tag) s = .next s)
        ∧ (tr.issued.toNat + 100 * millisecond ≤ s.st.now.toNat →
          (tr.request = none → exec (.peerWriteTimeout tag) s = .next (warned s'))
          ∧ ∀ i r, tr.request = some i → s.net.requests.find? (fun y => y.id == i) = some r → exec (.peerWriteTimeout tag) s = .next (warned (s'.endRequest r))))
    ∧ (∀ (k i : Nat) (c : Ctx) (opens closes : Nat), k < 64 → s.ctx? k = some c → c.status ≠ .closing → c.desc.windows ≠ 0 → i < s.loadNat (c.desc.windows + 20) 4 →
        (∀ w ∈ s.seif.windows, ¬ (w.ctx = k ∧ w.entry = i)) →
        let e := s.linkEntry c.desc.windows i
        s.windowNow c.desc.windows e = some (opens, closes) → ∃ t, exec (.linkWindowOpen k i) s = .next t ∧ t.mem = s.mem
          ∧ ∃ w ∈ t.seif.windows, w.ctx = k ∧ w.entry = i ∧ w.port = e.port ∧ w.flow = e.flow ∧ w.opened = BitVec.ofNat 64 opens ∧ w.closes = BitVec.ofNat 64 closes ∧ w.expected = e.expected)
    ∧ (∀ (k i : Nat) (c : Ctx) (w : OpenWindow), k < 64 → s.ctx? k = some c → s.seif.windows.find? (fun y => y.ctx == k && y.entry == i) = some w →
        (s.st.now.toNat < w.closes.toNat → exec (.linkWindowClose k i) s = .next s)
        ∧ (w.closes.toNat ≤ s.st.now.toNat → ∃ t, exec (.linkWindowClose k i) s = .next t ∧ t.mem = s.mem
          ∧ t.seif.windows = s.seif.windows.filter (fun y => !(y.ctx == k && y.entry == i))
          ∧ t.seif.ready.Sublist s.seif.ready))

/-- A collective starts with its keys and what this module contributes, its poisoned input becomes visible, or its descriptor is refused; a contribution whose digest does not hold is asked for again, the third
time of one the phase fails and its source is charged; one that holds is combined, moved or, a result, written; what is asked for is sent again; a phase completes when its chunks are there, with its flags for the step; its failure or
deadline ends it (08 R238 to R246). -/
def Obligations.CollectivesRun : Prop :=
  ∀ (s : State) (k : Nat) (c : Ctx), k < 64 → s.ctx? k = some c →
    (∀ (desc : List Byte),
        let d := parseColl desc
        (Format.ofCode d.format = none → exec (.collectiveStart k desc) s = .next (refuseColl s k badField c))
        ∧ ∀ f : Format, Format.ofCode d.format = some f →
          let idle := c.status = .running ∧ c.stopping = false ∧ s.coll? k d.id = none
          (¬ idle → exec (.collectiveStart k desc) s = .next s)
          ∧ (idle → ∀ code, d.bad = some code → exec (.collectiveStart k desc) s = .next (refuseColl s k code c))
          ∧ (idle → d.bad = none → ∀ a, s.inputPoison c d f = some a → exec (.collectiveStart k desc) s = .next (s.putCtx k (c.raisePoison a 0x05)))
          ∧ (idle → d.bad = none → s.inputPoison c d f = none →
            let x : Coll := { ctx := k, step := c.stepNow, started := s.st.now, desc := d, h := (collKeys c.digestJob c.stepNow d.id).1, k := (collKeys c.digestJob c.stepNow d.id).2,
                              leaves := [], done := [], mismatches := [], inbox := [], flags := 0, nonFinite := 0 }
            exec (.collectiveStart k desc) s = .next ((List.range d.chunks).foldl (fun s j => contributeChunk s k c d.id j) { s with colls := s.colls ++ [x] })))
    ∧ (∀ (x : Coll) (p : SeifPacket),
        (s.colls.filter (fun x => x.ctx == k)).findSome? (fun x => (x.inbox.find? (s.placeable k c x)).map (fun p => (x, p))) = some (x, p) →
        let chunk := p.target.toNat / 2 ^ 32
        let src := p.srcRank.toNat
        let x' := { x with inbox := x.inbox.erase p }
        let s' := s.setColl x'
        let holds := x.digest c.digestJob chunk src p.segment.toNat p.payload = p.digest
        let same := fun (y : Nat × Nat × Nat × Nat) => y.1 == chunk && y.2.1 == src && y.2.2.1 == p.segment.toNat
        let n := ((x.mismatches.find? same).map (·.2.2.2)).getD 0 + 1
        let counted := s'.setColl { x' with mismatches := x.mismatches.filter (fun y => !same y) ++ [(chunk, src, p.segment.toNat, n)] }
        (∀ f : Format, holds → Format.ofCode x.desc.format = some f →
          (x.done.contains chunk = true → exec (.contributionArrival k) s = .next s')
          ∧ (x.done.contains chunk = false → p.kind = 5 → exec (.contributionArrival k) s = .next (putResult s' c x' chunk p.payload Ev.none))
          ∧ (x.done.contains chunk = false → p.kind ≠ 5 → x.desc.reduces = true →
            exec (.contributionArrival k) s = .next (addLeaf s' k c x' chunk (if x.desc.cls = 1 then p.segment.toNat else src) p.payload))
          ∧ (x.done.contains chunk = false → p.kind ≠ 5 → x.desc.reduces = false → exec (.contributionArrival k) s = .next (putMoved s' x' f chunk p.payload)))
        ∧ (¬ holds → n < 3 → exec (.contributionArrival k) s =
          .next (counted.postTo c.desc.job src (resendMessage c.desc.job src x.desc.id chunk p.segment.toNat c.desc.rank)))
        ∧ (¬ holds → 3 ≤ n → exec (.contributionArrival k) s = .next ((counted.failColl k true).chargeRank c.desc.job src 0x07 (some k))))
    ∧ (∀ (p i : Nat) (y : Port) (m : List Byte) (x : Coll) (f : Format), p < 18 → portGet s.seif p = y → y.message? 4 = some (i, m) →
        s.ownRank (BitVec.ofNat 64 (msgNat m 4 8)) = some (msgNat m 2 2) → s.jobCtx (BitVec.ofNat 64 (msgNat m 4 8)) = some (k, c) →
        s.coll? k (BitVec.ofNat 32 (msgNat m 12 4)) = some x → Format.ofCode x.desc.format = some f →
        let s' := s.putPort p { y with inbox := y.inbox.eraseIdx i }
        let sent := sentParts s' c x f (msgNat m 16 4) (msgNat m 2 2) (msgNat m 20 4) (msgNat m 24 2)
        (sent = none → exec (.resendRequest p) s = .next s')
        ∧ (∀ kind ps a, sent = some (kind, ps) → s'.partsPoison ps = some a → exec (.resendRequest p) s = .next (s'.putCtx k (c.raisePoison a 0x05)))
        ∧ (∀ kind ps, sent = some (kind, ps) → s'.partsPoison ps = none → exec (.resendRequest p) s =
          .next (s'.contribute k c x kind (msgNat m 16 4) (msgNat m 2 2) (msgNat m 20 4) (msgNat m 24 2) (s'.readParts ps))))
    ∧ (∀ (cid : Nat) (x : Coll), s.coll? k (BitVec.ofNat 32 cid) = some x →
        let without := { s with colls := s.colls.filter (fun y => !(y.ctx == k && y.desc.id == x.desc.id)) }
        let there := ∀ j ∈ x.desc.needs c.desc.modules (s.localRanks c), j ∈ x.done
        (there → c.steps = [] → exec (.collectiveCompletion k cid) s = .next without)
        ∧ (∀ st : StepRun, there → c.steps.filter StepRun.open' = [st] → (∀ y ∈ c.steps, y.cmd = st.cmd → y = st) →
            let ranks := s.localRanks c
            let m := c.desc.modules
            let shard := ranks.map (fun r => (x.desc.shardAt x.desc.outFormat m x.desc.output ranks r, partialSize x.desc.outFormat (x.desc.shardLen m r)))
            let told := { st with collFlags := Nat.lor st.collFlags x.flags, shards := if x.desc.op = 1 then st.shards ++ shard else st.shards
                                  collFinite := if st.phase = .exchange ∨ st.phase = .gate then st.collFinite && x.nonFinite == 0 else st.collFinite }
            exec (.collectiveCompletion k cid) s = .next (tryPrepare (tryGate (without.setStep k told) k st.cmd) k st.cmd))
        ∧ (¬ there → exec (.collectiveCompletion k cid) s = .next s)
        ∧ (s.st.now.toNat < x.started.toNat + 2 * second → exec (.collectiveDeadlineExpiry k cid) s = .next s)
        ∧ (x.started.toNat + 2 * second ≤ s.st.now.toNat → exec (.collectiveDeadlineExpiry k cid) s = .next (s.failColl k true)
            ∧ (c.steps = [] → (s.failColl k true).colls = s.colls.filter (fun y => y.ctx != k) ∧ (s.failColl k true).mem = s.mem ∧ (s.failColl k true).ctxs = s.ctxs)))
    ∧ (∀ (p i : Nat) (y : Port) (m : List Byte) (x : Coll), p < 18 → portGet s.seif p = y → y.message? 9 = some (i, m) →
        s.ownRank (BitVec.ofNat 64 (msgNat m 4 8)) = some (msgNat m 2 2) → s.jobCtx (BitVec.ofNat 64 (msgNat m 4 8)) = some (k, c) →
        s.coll? k (BitVec.ofNat 32 (msgNat m 12 4)) = some x →
        let s' := s.putPort p { y with inbox := y.inbox.eraseIdx i }
        exec (.collectiveAbort p) s = .next (s'.endColl k (msgNat m 1 1 == 1))
          ∧ (c.steps = [] → s'.endColl k (msgNat m 1 1 == 1) = { s' with colls := s.colls.filter (fun y => y.ctx != k) }))

/-- Matched pacing (08 R248): at a period's start the job maximum of two periods before, or the latest one there is, applies and the period's largest ratio starts anew; a ratio from above is kept, passed on to the
children and applied; one from a child is kept, and once every child that counts has reported the maximum of the subtree goes on. -/
def Obligations.PacingPeriods : Prop :=
  ∀ s : State,
    (s.paced = [] → exec .pacingPeriodBoundary s = .next { s with power := { s.power with kJob := s.jobMax (pacingPeriod s.st.now), periodMax := 0 } })
    ∧ (∃ t, exec .pacingPeriodBoundary s = .next t ∧ t.power.periodMax = 0 ∧ t.power.kJob = t.jobMax (pacingPeriod s.st.now) ∧ t.mem = s.mem)
    ∧ (∀ (p i k : Nat) (x : Port) (m : List Byte) (c : Ctx) (q : Pacing), p < 18 → portGet s.seif p = x → x.message? 5 = some (i, m) →
        s.jobCtx (BitVec.ofNat 64 (msgNat m 4 8)) = some (k, c) → s.pacing? k = some q → q.ctx = k →
        let s' := s.putPort p { x with inbox := x.inbox.eraseIdx i }
        let job := BitVec.ofNat 64 (msgNat m 4 8)
        let period := msgNat m 12 8
        let kids := (childRanks c.desc.modules c.desc.rank).filter (fun r => s.egress job r == some p && !q.reports.any (fun x => x.1 == r && x.2.1 == period))
        (msgNat m 1 1 ≠ 0 → ∃ t, exec (.pacing p) s = .next t ∧ t.mem = s.mem ∧ t.power.kJob = t.jobMax (pacingPeriod s.st.now)
          ∧ (∃ y, t.pacing? k = some y ∧ y.maxima = (q.maxima.drop (q.maxima.length - 15)) ++ [(period, msgNat m 20 1)])
          ∧ ∀ r ∈ childRanks c.desc.modules c.desc.rank, ∀ e, s.egress job r = some e → (portGet s.seif e).version ≠ 3 → message (m.take 32) ∈ (portGet t.seif e).outbox)
        ∧ (msgNat m 1 1 = 0 → kids = [] → exec (.pacing p) s = .next s')
        ∧ (∀ r more, msgNat m 1 1 = 0 → kids = r :: more →
          let q' := { q with reports := (q.reports.drop (q.reports.length - 255)) ++ [(r, period, msgNat m 20 1, msgNat m 22 2)] }
          (q'.complete c period = true → q'.sent.contains period = false → exec (.pacing p) s = .next ((s'.setPacing q').passPacing c q' period))
          ∧ ((q'.complete c period = false ∨ q'.sent.contains period = true) → exec (.pacing p) s = .next (s'.setPacing q'))))


/-! ## The learner step (01 R26, 09 R253 to R282) -/

/-- Phases 2 to 5 begin once their inputs are there: the reward and the advantage program, the learner program of each micro-batch, which holds the version
consumed, the collectives, and the shard copy with the optimiser program; reports of children are taken in and go up with the module's own part, and the root
decides "apply" on a finite report of every rank; "skip" ends the step with its version discarded and its tracked entries updated; "apply" reads the group
rates and allocates the next version once a buffer and areas are there, or ends the step where a rate is out of range; the digest of the own shard is kept,
that of the mirror goes to its owner, and poison in the pending version becomes visible; a module that hears nothing for 2 s is in doubt and asks, or reports
the failure, and the root aborts (01 R26, 09 R255 to R257, R260, R262, R272 to R280). -/
def Obligations.StepPhasesAndReports : Prop :=
  ∀ (s : State) (k : Nat) (c : Ctx) (st : StepRun) (later : List StepRun), StepTurn s k c st later →
    let held := fun (v b : Nat) (y : Ctx) => { y with learn := y.learn.map (fun l => l.hold v (fun hs => hs ++ [.microBatch st.cmd b])) }
    (∀ (x : StepRun) (phase : StepPhase) (i : Nat) (p : Program), x.cmd = st.cmd → nfind c.slots (x.slots.getD i 0xFF) = some p →
        ∃ c', (beginProgram s k c x phase i).ctx? k = some c' ∧ c'.steps = { x with phase := phase, progDone := false } :: later
          ∧ c'.run = some (RunPhase.of x.cmd (x.slots.getD i 0xFF) (BitVec.ofNat 64 x.counter)))
    ∧ (c.run = none → st.phase = .accepted → st.slots.getD 0 0xFF ≠ 0xFF → s.someRoll c = true →
        exec (.stepPhaseStart k 2) s = .next (beginProgram s k c st .scoring 0))
    ∧ (c.run = none → (st.phase = .accepted ∧ st.slots.getD 0 0xFF = 0xFF ∨ st.phase = .scoring ∧ st.progDone = true) → s.rollsReady c = true → s.rewarded c = true →
        exec (.stepPhaseStart k 2) s = .next (beginProgram s k c st .advantage 1))
    ∧ (c.run = none → s.doubtful = false → st.phase = .advantage → st.progDone = true → s.rollsReady c = true →
        (s.takeRolls k c st = none → exec (.stepPhaseStart k 3) s = .next (s.finishStep k st 0x11 (zeros 16)))
        ∧ (∀ s' st' y, s.takeRolls k c st = some (s', st') → s'.ctx? k = some y → st'.cmd = st.cmd → exec (.stepPhaseStart k 3) s =
            .next (beginProgram (s'.putCtx k (held c.currentVersion 0 y)) k (held c.currentVersion 0 y)
              { st' with consumed := c.currentVersion, source := c.learn.bind (·.lastStep), batch := 0 } .learner 2)))
    ∧ (c.run = none → s.doubtful = false → st.phase = .learner → st.progDone = true → st.batch + 1 < st.batches → exec (.stepPhaseStart k 3) s =
        .next (beginProgram (s.putCtx k (held st.consumed (st.batch + 1) c)) k (held st.consumed (st.batch + 1) c) { st with batch := st.batch + 1 } .learner 2))
    ∧ (s.doubtful = true → exec (.stepPhaseStart k 3) s = .next s)
    ∧ (st.phase = .learner → st.progDone = true → st.batches ≤ st.batch + 1 →
        exec (.stepPhaseStart k 4) s = .next (s.withStep k c { st with phase := .exchange } later))
    ∧ (c.run = none → st.phase = .exchange → (∀ x ∈ s.colls, x.ctx ≠ k) →
        let copied := copyShard s k c st
        exec (.stepPhaseStart k 5) s = .next (tryGate (beginProgram copied.1 k c copied.2 .gate 3) k st.cmd)
        ∧ (c.desc.modules = 1 → copied.2.shardCopied = true ∧ ∃ a, copied.1.mem = (s.storeGranules a (st.shards.flatMap (fun p => s.load p.1 p.2))
            (st.shards.flatMap (fun p => (List.range (p.2 / 64)).map (fun i => s.poisonAt (p.1 + 64 * i))))).mem))
    ∧ (∀ r : StepRec, c.recordStep r = some st →
        (r.kind = 1 → c.fromChild r = true → exec (.gateReport k r) s = .next (tryGate (s.withStep k c { st with gate := st.gate.take r } later) k st.cmd))
        ∧ (r.kind = 3 → c.fromChild r = true → exec (.prepareReport k r) s = .next (tryPrepare (s.withStep k c { st with prep := st.prep.take r } later) k st.cmd))
        ∧ (r.kind = 2 → c.fromParent r = true → st.outcome = none →
          let count := (c.learn.map (fun l => l.stepCount.toNat)).getD 0
          let result := st.decision == some true
          (recFlag r 0 = false → ∃ t c', exec (.gateDecision k r) s = .next t ∧ t.ctx? k = some c' ∧ c'.nonePending
            ∧ (st.progDone = false → c'.steps = { st with decision := some result, combined := r.stats, sentAt := none, pending := 0, count := count, phase := .outcome
                                                          outcome := some (if result then .skippedResult else .skippedVote), reason := if result then 2 else 1 } :: later)
            ∧ (st.progDone = true → c.regenerates = false → c'.steps = later)
            ∧ ∀ l, c.learn = some l → ∃ l', c'.learn = some l' ∧ l'.tracked = l.tracked.map (fun e => e.update r.stats))
          ∧ ∀ l, c.learn = some l → recFlag r 0 = true → st.heard = false →
            let groups := l.groups.mapIdx (fun i g => s.rereadGroup (c.desc.optimiser + l.groupsAt + 64 * i) g)
            let heard := { st with heard := true, combined := r.stats, phase := .optimise, sentAt := none, scalars := groups.map groupScalars
                                   rates := groups.flatMap GroupEntry.rates }
            let v := nextVersion c.currentVersion
            (groups.all GroupEntry.ok = true → c.canAllocate l = true → st.allocated = false → ∃ t c', exec (.gateDecision k r) s = .next t ∧ t.mem = s.mem
              ∧ t.ctx? k = some c' ∧ c'.learn = some (({ l with groups := groups } : Learner).pend v)
              ∧ c'.steps = { heard with allocated := true, pending := v, decision := some true } :: later)
            ∧ (groups.all GroupEntry.ok = true → c.canAllocate l = false → ∃ t c', exec (.gateDecision k r) s = .next t ∧ t.mem = s.mem
              ∧ t.ctx? k = some c' ∧ c'.learn = some { l with groups := groups } ∧ c'.steps = heard :: later)
            ∧ (groups.all GroupEntry.ok = false → ∃ t c', exec (.gateDecision k r) s = .next t ∧ t.ctx? k = some c' ∧ c'.steps = later ∧ c'.nonePending)))
    ∧ (st.phase = .gate → st.gate.sent = false → c.gateOwn st s.colls k = true →
        let stats := if st.gate.own then st.gate.stats else addStats st.gate.stats (st.ownStats.getD (s.ownStats c))
        let finite := st.votes.all (·.2) && st.collFinite && st.gate.finite
        st.gate.full c.desc.modules c.desc.rank = true → ∃ s' st', s'.ctx? k = some { c with steps := st' :: later } ∧ s'.mem = s.mem ∧ st'.gate.sent = true
          ∧ st'.sentAt = some s.st.now.toNat
          ∧ tryGate s k st.cmd =
            (if c.desc.rank = 0 then passDecision s' k c st' (finite && st.gate.ranks + 1 == c.desc.modules) stats
             else (s'.sendRec k c (parentRank c.desc.rank) (stepRecord c st' 1 (st.gate.ranks + 1) (b2n finite) 0 stats)).1))
    ∧ (∀ l, c.learn = some l → st.heard = true → st.allocated = false → st.outcome = none →
        let v := nextVersion c.currentVersion
        (c.canAllocate l = true → exec (.pendingVersionAllocation k) s = .next (s.putCtx k { c with
          learn := some (l.pend v), steps := { st with allocated := true, pending := v, decision := some true } :: later }))
        ∧ (c.canAllocate l = false → exec (.pendingVersionAllocation k) s = .next s))
    ∧ (∀ l, c.learn = some l → st.phase = .optimise → st.allocated = true → st.progDone = true →
        let digest := fun (mirror : Bool) => s.shardDigest c.desc.job st.counter (c.pendingPlanes l st mirror).1 (c.pendingPlanes l st mirror).2
        let own := { st with ownDigest := some (digest false) }
        (s.pendingPoison c l st = none → exec (.shardDigestComplete k false) s = .next (tryPrepare ((chargeMismatch s k c own).setStep k own) k st.cmd))
        ∧ (s.pendingPoison c l st = none → c.desc.modules ≠ 1 → exec (.shardDigestComplete k true) s = .next (tryPrepare
            ((s.peerWrite k c (c.pendingPlanes l st true).1 l.stepFlow (l.controlArea + 262080) (digest true ++ leBytes 8 st.counter ++ leBytes 1 st.attempt) []).1.setStep k
              { st with mirrorDigest := some (digest true) }) k st.cmd))
        ∧ (∀ a, s.pendingPoison c l st = some a →
            (c.desc.rank = 0 → exec (.shardDigestComplete k false) s = .next (s.putCtx k (c.raisePoison a 0x06)))
            ∧ (c.desc.rank ≠ 0 → exec (.shardDigestComplete k false) s = .next
                (tryPrepare ((s.putCtx k (c.raisePoison a 0x06)).setStep k { st with poisoned := true }) k st.cmd))))
    ∧ (st.phase = .optimise → st.allocated = true → st.prep.sent = false → c.prepOwn st s.colls k = true → s.verdictPending k c = false →
        st.prep.full c.desc.modules c.desc.rank = true →
        let x := if st.prep.own then st else st.withOwn c.desc.modules (if c.desc.rank = 0 then some s.st.now.toNat else none)
        let sent := { x with prep := { x.prep with sent := true }, phase := .prepared, sentAt := some s.st.now.toNat }
        tryPrepare s k st.cmd = (if c.desc.rank = 0 then decideCommit (s.withStep k c sent later) k c sent
          else ((s.withStep k c sent later).sendRec k c (parentRank c.desc.rank) (stepRecord c sent 3 sent.prep.ranks
            (b2n sent.prep.prepared * 2 + b2n sent.prep.result * 4 + b2n sent.prep.mismatch * 8 + b2n sent.prep.poison * 16) 0 [])).1))
    ∧ (∀ sent, st.logAck = none → st.sentAt = some sent → sent + 2 * second ≤ s.st.now.toNat →
        (c.desc.rank = 0 → st.phase = .gate ∨ st.phase = .optimise ∨ st.phase = .prepared → exec (.exchangeDeadlineExpiry k) s = .next (abortAll s k c st true))
        ∧ (c.desc.rank ≠ 0 → st.phase = .prepared → st.inDoubt = false → ∃ t, exec (.exchangeDeadlineExpiry k) s = .next t ∧ t.mem = s.mem
          ∧ t.ctx? k = some { c with steps := { st with inDoubt := true, sentAt := some s.st.now.toNat } :: later })
        ∧ (c.desc.rank ≠ 0 → st.phase = .prepared → st.inDoubt = true → exec (.exchangeDeadlineExpiry k) s = .next (s.finishStep k st 0x31 (zeros 16)))
        ∧ (c.desc.rank ≠ 0 → st.phase = .gate ∨ st.phase = .optimise → st.outcome = none → exec (.exchangeDeadlineExpiry k) s = .next
            (((s.withStep k c { st with sentAt := some s.st.now.toNat } later).sendRec k c 0 (stepRecord c st 6 1 32 0 [])).1)))

/-- The decision is final once its log is acknowledged, and commits a commit lead after that, on a multiple of 4,096 units (09 R277); at that time the pending
version becomes current, the former one held, and the step count grows by one, unless poison in the version becomes visible (R278, R279); a commit record
that comes late takes effect on arrival with a notice (R278); an abort before the decision starts the next attempt from the retained inputs or ends the step
(R280, R281); a query is answered by who knows, and a module in doubt follows the reply (R278); a record that fails its checks is discarded and counted
(R273). -/
def Obligations.CommitAndAbort : Prop :=
  ∀ (s : State) (k : Nat) (c : Ctx) (st : StepRun) (later : List StepRun), StepTurn s k c st later →
    let decided := fun (x : StepRun) (time : W64) => { x with commitTime := some time, phase := .decided, sentAt := none, inDoubt := false }
    let retried := fun (t : State) (x : StepRun) => ∃ c', t.ctx? k = some c'
      ∧ (x.early = true → c'.steps = { x with attempt := x.attempt + 1 } :: later) ∧ (x.early = false → c'.steps = x.next :: later ∧ c'.nonePending)
    let ended := fun (t : State) => ∃ c', t.ctx? k = some c' ∧ c'.steps = later ∧ c'.nonePending
    let passed := fun (r : StepRec) => s.sendRecs k c (childRanks c.desc.modules c.desc.rank) { r with source := BitVec.ofNat 16 c.desc.rank }
    let late : Event := { level := 1, source := 6, ctx := some k, step := some (BitVec.ofNat 64 st.counter) }
    (∀ (l : Learner) (acked : W64), c.learn = some l → st.logAck = some acked → st.logged = false →
        let time := to4096 (acked.toNat + l.commitLead * microsecond)
        time < 2 ^ 64 → s.st.now.toNat ≤ time → ∃ t, exec (.decisionLog k) s = .next t ∧ t.mem = s.mem
          ∧ t.ctx? k = some { c with steps := decided { st with logged := true } (BitVec.ofNat 64 time) :: later })
    ∧ (∀ r : StepRec, c.recordStep r = some st →
        (r.kind = 4 → c.fromParent r = true → st.phase = .prepared →
          (s.st.now.toNat ≤ r.commitTime.toNat → ∃ t, exec (.commit k r) s = .next t ∧ t.mem = s.mem
            ∧ t.ctx? k = some { c with steps := decided st r.commitTime :: later })
          ∧ (r.commitTime.toNat < s.st.now.toNat → exec (.commit k r) s =
              .next ((commitNow ((passed r).setStep k (decided st r.commitTime)) k st.cmd).raise late)))
        ∧ (r.kind = 9 → st.inDoubt = true → r.source.toNat = 0 ∨ r.source.toNat = 1 % c.desc.modules →
          (recFlag r 0 = true → s.st.now.toNat ≤ r.commitTime.toNat → ∃ t, exec (.decisionReply k r) s = .next t ∧ t.mem = s.mem
            ∧ t.ctx? k = some { c with steps := decided st r.commitTime :: later })
          ∧ (recFlag r 0 = true → r.commitTime.toNat < s.st.now.toNat → exec (.decisionReply k r) s =
              .next ((commitNow (s.setStep k (decided st r.commitTime)) k st.cmd).raise late))
          ∧ (recFlag r 0 = false → recFlag r 5 = true → st.attempt < 2 → ∃ t, exec (.decisionReply k r) s = .next t ∧ retried t { st with inDoubt := false })
          ∧ (recFlag r 0 = false → recFlag r 5 = false ∨ 2 ≤ st.attempt → ∃ t, exec (.decisionReply k r) s = .next t ∧ ended t))
        ∧ (r.kind = 5 → c.fromParent r = true → st.outcome = none → st.commitTime = none →
          (recFlag r 5 = true → st.attempt < 2 → ∃ t, exec (.abort k r) s = .next t ∧ retried t st)
          ∧ (recFlag r 5 = false ∨ 2 ≤ st.attempt → ∃ t, exec (.abort k r) s = .next t ∧ ended t))
        ∧ (r.kind = 6 → c.desc.rank = 0 → st.outcome = none → st.logAck = none →
          (recFlag r 5 = true → st.attempt < 2 → ∃ t, exec (.failureReport k r) s = .next t ∧ retried t st)
          ∧ (recFlag r 5 = false ∨ 2 ≤ st.attempt → ∃ t, exec (.failureReport k r) s = .next t ∧ ended t)))
    ∧ (∀ (l : Learner) (time : W64), c.learn = some l → st.phase = .decided → st.outcome = none → st.commitTime = some time → time.toNat ≤ s.st.now.toNat →
        (∃ b ∈ l.buffers, b.state = .pending) → (∀ b ∈ l.buffers, b.state = .pending → b.version = st.pending) →
        (s.pendingPoison c l st = none → ∃ t c' l', exec (.commitTimeReached k) s = .next t ∧ t.ctx? k = some c' ∧ c'.learn = some l' ∧ c'.nonePending
          ∧ c'.currentVersion = st.pending ∧ l'.stepCount = l.stepCount + 1 ∧ l'.lastStep = some st.counter
          ∧ l'.tracked = l.tracked.map (fun e => e.update st.combined)
          ∧ l'.groups = (l.groups.zip st.scalars).map (fun x => { x.1 with p1 := x.2.q1, p2 := x.2.q2 })
          ∧ l'.hashing = l.hashing ++ [(st.pending, setDigest (s.versionDigest l.pendingBuf (c.weightTensors l)))]
          ∧ (∀ b ∈ l.buffers, b.state = .current → (∃ h ∈ b.holders, h ≠ .publication) → ∃ y ∈ l'.buffers, y.addr = b.addr ∧ y.version = b.version ∧ y.state = .held)
          ∧ (c.regenerates = false → c'.steps = later)
          ∧ (c.regenerates = true → c'.steps = { st with phase := .digest, outcome := some .committed, sentAt := none, inDoubt := false, progDone := true
                                                         count := (l.stepCount + 1).toNat } :: later))
        ∧ (∀ a, s.pendingPoison c l st = some a → exec (.commitTimeReached k) s = .next (s.putCtx k (c.raisePoison a 0x06))))
    ∧ (∀ (l : Learner) (r : StepRec), c.learn = some l → r.kind = 8 →
        let reply := fun (flags : W32) (time : W64) =>
          (s.sendRec k c r.source.toNat { r with source := BitVec.ofNat 16 c.desc.rank, kind := 9, flags := flags, commitTime := time, stats := [] }).1
        (c.headerOk r = false → exec (.decisionQuery k r) s = .next (s.countDiscard k))
        ∧ (c.headerOk r = true → c.desc.rank = 0 ∨ c.desc.rank = 1 % c.desc.modules → exec (.decisionQuery k r) s = .next
            (match c.knows l r.stepCounter.toNat r.attempt.toNat with | .nothing => s | .commit time => reply 1 time | .abort true => reply 32 0 | .abort false => reply 0 0))
        ∧ (∀ n a : Nat, c.desc.rank ≠ 0 → (∀ x ∈ c.steps, x.counter ≠ n) → l.lastStep ≠ some n → l.decisionLog.contains (n, a) = false → c.knows l n a = .abort false)
        ∧ (∀ (n : Nat) (time : W64), st.counter = n → st.commitTime = some time → c.knows l n st.attempt = .commit time))
    ∧ (∀ r : StepRec, c.recordStep r = none → (r.kind = 1 → exec (.gateReport k r) s = .next (s.countDiscard k))
        ∧ (r.kind = 2 → exec (.gateDecision k r) s = .next (s.countDiscard k)) ∧ (r.kind = 3 → exec (.prepareReport k r) s = .next (s.countDiscard k))
        ∧ (r.kind = 4 → exec (.commit k r) s = .next (s.countDiscard k)) ∧ (r.kind = 5 → exec (.abort k r) s = .next (s.countDiscard k))
        ∧ (r.kind = 6 → exec (.failureReport k r) s = .next (s.countDiscard k)) ∧ (r.kind = 9 → exec (.decisionReply k r) s = .next (s.countDiscard k)))

/-! ## Versions, digests, audit rings (02 R57 to R64, 09 R254, R255) -/

/-- A finished holder releases its count, and a held version without holders is free (09 R254, R255); a committed version gets the digest of its contents, and
so does one that the initial load left (02 R58, R62); a selected tensor whose tiles have drained gets its cairn, written or queued to be signed and then
written with its signature, unless it is poisoned (R60, R61, 16 R430); the consumer index that the host writes frees ring space, and entries that waited are
written (R64). -/
def Obligations.VersionsDigestsAndRings : Prop :=
  ∀ (s : State) (k : Nat) (c : Ctx), k < 64 → s.ctx? k = some c →
    let finishing := fun (t : State) (steps : List StepRun) => steps.foldl (fun t st => tryFinish t k st.cmd) t
    (∀ (l : Learner) (version holder : Nat) (b : VersionBuf) (h : Holder), c.learn = some l → l.bufferOf version = some b →
        b.holders.find? (c.releasable holder version) = some h → exec (.fenceRelease k version holder) s =
          .next ((s.putCtx k { c with learn := some (l.hold version (fun hs => hs.erase h)) }).afterRelease k)
        ∧ (b.state = .held → b.holders = [h] → ∃ y ∈ (l.hold version (fun hs => hs.erase h)).buffers, y.addr = b.addr ∧ y.state = .free ∧ y.holders = []))
    ∧ (∀ (l : Learner) (v : Nat) (d : List Byte) (rest : List (Nat × List Byte)), c.learn = some l → l.hashing = (v, d) :: rest →
        let steps := updWhere c.steps (fun st => st.outcome == some .committed && st.pending == v && st.digest.isNone) (fun st => { st with digest := some d })
        exec (.weightDigestComplete k) s =
          .next (finishing (s.putCtx k { c with learn := some { (l.digested v d) with hashing := rest }, steps := steps }) steps))
    ∧ (∀ (l : Learner) (b : VersionBuf), c.learn = some l → l.hashing = [] → l.buffers.find? (fun y => y.state == .current && y.digest.isNone) = some b →
        exec (.weightDigestComplete k) s = .next (finishing
          (s.putCtx k { c with learn := some (l.digested b.version (setDigest (s.versionDigest b.addr (c.weightTensors l)))) }) c.steps))
    ∧ (∀ (p : Program) (tensor : W32) (t : TensorEntry) (places : Places) (weight : List Byte), c.program = some p →
        p.tensors.find? (fun y => y.id == tensor) = some t → c.consumedDigest = some weight → c.cairnDue p t places = true →
        (∀ a, s.tensorPoison places (t :: p.stepInputs) = some a → exec (.tensorDigestComplete k tensor places) s = .next (s.putCtx k (c.raisePoison a 0x04)))
        ∧ (s.tensorPoison places (t :: p.stepInputs) = none →
          let written := s.produce k 0 (cairnRecord s c p t places weight false)
          (t.flags / 8 % 2 = 0 → exec (.tensorDigestComplete k tensor places) s = .next written)
          ∧ (t.flags / 8 % 2 = 1 → c.desc.sigAddr = 0 → c.unsignedWarned = true → exec (.tensorDigestComplete k tensor places) s = .next written)
          ∧ (t.flags / 8 % 2 = 1 → c.desc.sigAddr = 0 → c.unsignedWarned = false → exec (.tensorDigestComplete k tensor places) s = .next
              ((written.updCtx k (fun c => { c with unsignedWarned := true })).raise { level := 2, source := 6, ctx := some k }))
          ∧ (t.flags / 8 % 2 = 1 → c.desc.sigAddr ≠ 0 → s.mesa.signQueue.length < 1024 → exec (.tensorDigestComplete k tensor places) s = .next
              { s with mesa := { s.mesa with signQueue := s.mesa.signQueue ++ [(k, cairnRecord s c p t places weight true)] } })
          ∧ (t.flags / 8 % 2 = 1 → c.desc.sigAddr ≠ 0 → 1024 ≤ s.mesa.signQueue.length → exec (.tensorDigestComplete k tensor places) s = .next s)))
    ∧ (∀ (p : Program) (t : TensorEntry) (places : Places), c.cairnDue p t places = true ↔ c.desc.audit % 2 = 1 ∧ t.flags / 4 % 2 = 1 ∧ c.stopping = false
        ∧ t.slices * t.rows * t.cols ≤ (nfind c.drained t.id.toNat).getD 0 ∧ ∀ x ∈ t :: p.stepInputs, ∃ a, places.find x.id = some a)
    ∧ (∀ (record : List Byte) (more : List (Nat × List Byte)), s.mesa.signQueue = (k, record) :: more → s.mesa.failed = false →
        let msg := cairnMessage s.cfg.serial (record.take 32)
        let sig := (List.range 2420).map (Config.signature s.mesa.signed msg)
        exec (.cairnSignatureComplete k) s = .next (({ s with mesa := { s.mesa with signQueue := more, signed := s.mesa.signed + 1 } } : State).produce k 0 (record ++ sig)))
    ∧ (∀ (ring : Nat) (r : DataRing) (index : W64), nfind c.rings ring = some r → ring ≠ 2 → ring ≠ 4 →
        let written := State.flushRing r.waiting.length (s.store (r.addr + 16) (leBytes 8 index.toNat)) c ring { r with consumer := index }
        exec (.ringSpaceFreed k ring index) s = .next (finishing (written.1.updCtx k (fun c => { c with rings := nset c.rings ring written.2 })) c.steps)
        ∧ (r.waiting = [] → written = (s.store (r.addr + 16) (leBytes 8 index.toNat), { r with consumer := index })))

/-! ## Rollouts (10 R292 to R298, R304) -/

/-- A round opens on the current version with its seed and its prompts, holds that version, and starts its program; one that waits for the cores starts later
(10 R292, R293), and a module in doubt opens none (09 R278). A rollout is admitted while the spill area can hold what admitted rollouts may need, and takes
slots of the pool first (R294); the chosen token is the procedure's, at temperature 0 the lowest index of the largest logit (R295); a non-finite logit, a stop
token, the answer limit, the total limit and an aborting round end the rollout (R297, R304); an ended rollout is recorded and its slots are freed (R298). -/
def Obligations.RolloutsRun : Prop :=
  ∀ (s : State) (k : Nat) (c : Ctx) (g : GenTable), k < 64 → s.ctx? k = some c → c.gen = some g →
    (∀ r, c.rounds.find? (fun y => !y.started) = some r → c.run = none → exec (.roundStart k) s = .next (startRound s k c r))
    ∧ (let es := (c.returned ++ s.promptsIn c).take g.perRound
      c.rounds.find? (fun y => !y.started) = none → es ≠ [] → c.rounds.length < g.roundLimit →
       (s.doubtful = true → exec (.roundStart k) s = .next s)
       ∧ (s.doubtful = false → ∃ t c', exec (.roundStart k) s = .next t ∧ t.ctx? k = some c' ∧ c'.nextRound = c.nextRound + 1
         ∧ c'.returned = c.returned.drop es.length ∧ c'.learn = c.learn.map (fun l => l.hold c.currentVersion (fun hs => hs ++ [.round c.nextRound]))
         ∧ ∃ r, c'.rounds = c.rounds ++ [r] ∧ r.number = c.nextRound ∧ r.version = c.currentVersion
           ∧ r.seed = roundSeed c.desc.job c.nextRound ∧ r.key = grainKey "VXGRKEY2" c.desc.job r.seed ∧ r.rollouts = rolloutsOf es ∧ r.started = c.run.isNone))
    ∧ (∀ (round ix : Nat) (r : RoundRun) (x : RolloutRun), c.rounds.find? (fun y => y.number == round) = some r → r.rollouts.find? (fun y => y.index == ix) = some x →
        let after := fun (t : State) (p : RolloutRun → Prop) => ∃ c' r' x', t.ctx? k = some c' ∧ c'.rounds.find? (fun y => y.number == round) = some r'
          ∧ r'.rollouts.find? (fun y => y.index == ix) = some x' ∧ p x'
        (x.admitted = false → x.ended = 0 → r.aborting = false → c.reserved g + g.maxSlots x ≤ g.spillSlots →
          let more := ceilDiv x.promptLen 8192 - (x.slotsNear + x.slotsSpill)
          let near := min more (g.pool - c.kvUsed)
          ∃ t c', exec (.rolloutAdmission k round ix) s = .next t ∧ t.ctx? k = some c' ∧ c'.kvUsed = c.kvUsed + near ∧ c'.spillUsed = c.spillUsed + (more - near)
            ∧ after t (fun y => y.admitted = true ∧ y.slotsNear = x.slotsNear + near ∧ y.slotsSpill = x.slotsSpill + (more - near)
              ∧ y.kvSlots.length = x.kvSlots.length + more ∧ y.tokens = x.tokens ∧ y.ended = 0))
        ∧ (x.admitted = false → g.spillSlots < c.reserved g + g.maxSlots x → exec (.rolloutAdmission k round ix) s = .next s)
        ∧ (∀ logits : List W32, x.admitted = true → x.ended = 0 → logits.length = g.vocab →
          (r.aborting = true → exec (.tokenChoice k round ix logits) s = .next (s.setRollout k round { x with ended := 4 }))
          ∧ (r.aborting = false → (∃ y ∈ logits, finite32 y = false) → exec (.tokenChoice k round ix logits) s = .next
              ((s.setRollout k round { x with ended := 3 }).raise { level := 1, source := 6, ctx := some k }))
          ∧ (r.aborting = false → (∀ y ∈ logits, finite32 y = true) →
              let i := chooseToken logits g.temperature g.topK g.topP (tokenDraw r.key g.drawTensor x.index (x.promptLen + x.tokens.length))
              let n := x.tokens.length + 1
              (∃ t, exec (.tokenChoice k round ix logits) s = .next t ∧ after t (fun y => y.tokens = x.tokens ++ [BitVec.ofNat 32 i]
                ∧ y.logProbs = x.logProbs ++ [tokenLogProb logits i (if g.temperature = 0 then one32 else g.temperature)]
                ∧ (g.stops.contains (BitVec.ofNat 32 i) = true → y.ended = 1)
                ∧ (g.stops.contains (BitVec.ofNat 32 i) = false → n = g.answerLimit ∨ 16777216 ≤ x.promptLen + n → y.ended = 2)
                ∧ (g.stops.contains (BitVec.ofNat 32 i) = false → n ≠ g.answerLimit → x.promptLen + n < 16777216 → y.ended = 0)))
              ∧ (g.temperature = 0 → logits ≠ [] → i < logits.length ∧ (∀ j, j < logits.length → orderKey (logits.getD j 0) ≤ orderKey (logits.getD i 0))
                ∧ ∀ j, j < i → orderKey (logits.getD j 0) < orderKey (logits.getD i 0))))
        ∧ (x.ended ≠ 0 → x.recorded = false → ∃ t c', exec (.rolloutEnd k round ix) s = .next t ∧ t.ctx? k = some c' ∧ c'.kvUsed = c.kvUsed - x.slotsNear
            ∧ c'.spillUsed = c.spillUsed - x.slotsSpill
            ∧ ∀ r' ∈ c'.rounds, r'.number = round → ∀ y ∈ r'.rollouts, y.index = ix → y.recorded = true ∧ y.kvSlots = []))

/-! ## Publication and checkpoints (10 R302 to R307) -/

/-- The first waiting version that can goes into flight toward its target, one with its digest, into a free buffer of a target on this module or by peer write
to one on another; a digest that holds makes it current there and ends the publication, one that does not has it sent once more and then fails it
(10 R302, R303). A checkpoint starts on a trigger, of the current version, and holds it; a full one replaces those before it, and one that no command started
is given up after 60 s (R305 to R307). -/
def Obligations.PublicationAndCheckpoints : Prop :=
  ∀ (s : State) (k : Nat) (c : Ctx) (l : Learner), k < 64 → s.ctx? k = some c → c.learn = some l →
    let targets := c.pubs.filter (fun p => p.waiting != 0 && p.flight == 0)
    (exec (.weightPublication k) s = .next ((targets.findSome? (publishOne s k c l)).getD s))
    ∧ (∀ (p : Publication) (b : VersionBuf), c.pubs.find? (fun y => y.waiting != 0 && y.flight == 0) = some p → l.bufferOf p.waiting = some b → b.digest.isSome = true →
        let sent := s.setPub k { p with flight := p.waiting, waiting := 0, sends := 1, cmds := p.next, next := [] }
        (s.pubTarget c p.entry = none → exec (.weightPublication k) s = .next (sendVersion sent k c l b p.entry))
        ∧ (∀ (kt : Nat) (tc : Ctx) (tl : Learner) (f : VersionBuf), s.pubTarget c p.entry = some (kt, tc) → kt ≠ k → s.ctx? kt = some tc → tc.learn = some tl →
            (∀ y ∈ tl.buffers, y.state ≠ .pending) → tl.buffers.find? (fun y => y.state == .free) = some f → ∃ t tc' tl', exec (.weightPublication k) s = .next t
              ∧ t.ctx? k = sent.ctx? k ∧ t.ctx? kt = some tc' ∧ tc'.learn = some tl' ∧ t.mem = (s.store f.addr (s.bufferBytes c l b)).mem
              ∧ ∃ y ∈ tl'.buffers, y.addr = f.addr ∧ y.state = .pending ∧ y.version = p.waiting ∧ y.tracked = b.tracked))
    ∧ (∀ (e : Nat) (p : Publication) (b : VersionBuf) (d : List Byte), c.desc.kind ≠ 3 → c.pubs.find? (fun y => y.entry == e && y.flight != 0) = some p →
        l.bufferOf p.flight = some b → b.digest = some d →
        let released := fun (t : State) => ∃ c', t.ctx? k = some c' ∧ (∀ y ∈ c'.pubs, y.entry = p.entry → y.flight = 0)
          ∧ ((∀ y ∈ c.pubs, y.waiting ≠ p.flight ∧ (y.entry ≠ p.entry → y.flight ≠ p.flight)) → p.waiting ≠ p.flight → (∀ y ∈ l.buffers, y.holders.count .publication ≤ 1) →
            ∀ l', c'.learn = some l' → ∀ y ∈ l'.buffers, y.version = p.flight → y.state = .current ∨ y.state = .held → .publication ∉ y.holders)
        (s.pubTarget c p.entry = none →
          (∃ t, exec (.publicationDigestCheck k e true) s = .next t ∧ released t ∧ t.mem = s.mem)
          ∧ (p.sends < 2 → exec (.publicationDigestCheck k e false) s = .next (sendVersion (s.setPub k { p with sends := p.sends + 1 }) k c l b p.entry))
          ∧ (2 ≤ p.sends → exec (.publicationDigestCheck k e false) s = .next (failPublication s k c p)))
        ∧ (∀ (kt : Nat) (tc : Ctx) (tl : Learner) (held : Bool), s.pubTarget c p.entry = some (kt, tc) → kt ≠ k → s.ctx? kt = some tc → tc.learn = some tl →
            (s.arrived tl.pendingBuf (c.weightTensors l) d = .same → (∃ y ∈ tl.buffers, y.state = .pending) →
              (∀ y ∈ tl.buffers, y.state = .pending → y.version = p.flight) →
              ∃ t tc', exec (.publicationDigestCheck k e held) s = .next t ∧ released t ∧ t.ctx? kt = some tc' ∧ tc'.currentVersion = p.flight ∧ tc'.nonePending)
            ∧ (s.arrived tl.pendingBuf (c.weightTensors l) d = .differs → p.sends < 2 → exec (.publicationDigestCheck k e held) s = .next
                (let t := s.setPub k { p with sends := p.sends + 1 }; (deliverVersion (t.discardPending kt) kt p.flight (t.bufferBytes c l b) b.tracked).getD t))
            ∧ (s.arrived tl.pendingBuf (c.weightTensors l) d = .differs → 2 ≤ p.sends → exec (.publicationDigestCheck k e held) s = .next (failPublication s k c p))
            ∧ ∀ a, s.arrived tl.pendingBuf (c.weightTensors l) d = .poison a → exec (.publicationDigestCheck k e held) s = .next (s.putCtx kt (tc.raisePoison a 0x06))))
    ∧ (∀ (a : Nat) (held : Bool) (f : VersionBuf), c.desc.kind = 3 → (∀ y ∈ l.buffers, y.state ≠ .pending) → l.buffers.find? (fun y => y.state == .free) = some f →
        let ids := (List.range (s.loadNat (a + 4) 4)).map (fun i => BitVec.ofNat 32 (s.loadNat (a + 64 + 4 * i) 4))
        let tensors := ids.filterMap (fun id => c.slots.findSome? (fun p => p.2.tensors.find? (fun t => t.id == id)))
        (s.arrived f.addr tensors (s.load (a + 32) 32) = .same → ∃ t c', exec (.publicationDigestCheck k a held) s = .next t ∧ t.ctx? k = some c'
          ∧ c'.currentVersion = s.loadNat a 2 ∧ c'.nonePending)
        ∧ (s.arrived f.addr tensors (s.load (a + 32) 32) = .differs → exec (.publicationDigestCheck k a held) s = .next s)
        ∧ ∀ g, s.arrived f.addr tensors (s.load (a + 32) 32) = .poison g → exec (.publicationDigestCheck k a held) s = .next (s.putCtx k (c.raisePoison g 0x06)))
    ∧ (∀ b d, l.buffers.find? (fun y => y.state == .current) = some b → b.digest = some d → c.ckptNow = none → (c.ckptDue = true ∨ (s.ckptCmd k).isSome = true) →
        ∃ t c' ck, exec (.checkpointStart k) s = .next t ∧ t.ctx? k = some c' ∧ c'.ckptNow = some ck ∧ ck.version = b.version ∧ ck.digest = d
          ∧ ck.stepCount = l.stepCount.toNat ∧ ck.cmd = (s.ckptCmd k).map HostCmd.id ∧ ck.started = s.st.now.toNat
          ∧ (ck.full = true ↔ c.ckpts = [] ∨ c.desc.fullInterval ≤ c.ckpts.length ∨ ∃ x, s.ckptCmd k = some x ∧ x.fieldAt 16 1 % 2 = 1)
          ∧ c'.learn = some (l.hold b.version (fun hs => hs ++ [.checkpoint]))
          ∧ c'.ckptDue = (if (s.ckptCmd k).isSome then c.ckptDue else false))
    ∧ (∀ ck, c.ckptNow = some ck →
        (∃ t c', exec (.checkpointComplete k) s = .next t ∧ t.ctx? k = some c' ∧ c'.ckptNow = none ∧ c'.ckpts = (if ck.full then [ck] else c.ckpts ++ [ck]) ∧ t.mem = s.mem)
        ∧ (ck.cmd = none → ck.started + 60 * second ≤ s.st.now.toNat → exec (.checkpointDeadlineExpiry k) s = .next ((s.putCtx k { c with
            ckptNow := none, learn := some (l.hold ck.version (fun hs => hs.erase .checkpoint)) }).afterRelease k)))


/-! ## Faults and suspects (11 R309 to R331) -/

/-- A checked sample is counted, with its disagreeing elements: one that agrees is dropped, one that does not is reported; a re-check waits until both cores are
free and is then judged by the table of R316, and a permanent verdict retires the core; a mirage unit that fails its self-test is out of service; a twin
mismatch kills its context; sieves start, wait, are forced after 72 hours, and retire what fails; a quiet suspect is cleared after 24 hours
(11 R312, R315 to R317, R320 to R323, R326). -/
def Obligations.FaultChecks : Prop :=
  ∀ s : State,
    (∀ (die i n : Nat) (x : Sample), die < 4 → s.closedSample die i = some n → s.faults.samples[n]? = some x →
        let unit := s.mirageUnit die
        let bad := (x.elements.filter x.disagrees).length
        let counted := (s.setMirage die { unit with checked := satAdd 32 unit.checked 1, disagree := satAdd 32 unit.disagree bad }).watch x
        (unit.inService = true → unit.testing = false → exec (.mirageCheck die i) s = .next (if bad = 0 then counted.dropSample n else counted.disagreement n x))
        ∧ (unit.inService = false ∨ unit.testing = true → exec (.mirageCheck die i) s = .next s))
    ∧ (∀ (i n : Nat) (x : Sample) (xs ys : List W64), s.pendingRecheck i = some n → s.faults.samples[n]? = some x →
        (∀ y, (s.freeIdle n x).faults.samples[n]? = some y →
          (y.freed = true → xs.length = y.elements.length → ys.length = y.elements.length →
            exec (.recheckVerdict i xs ys) s = .next ((s.freeIdle n x).judge n y (y.verdict xs ys)))
          ∧ (y.freed = false → exec (.recheckVerdict i xs ys) s = .next (s.freeIdle n x)))
        ∧ (x.other = none → s.hostsRun x.die x.phys = true → s.freeIdle n x = s)
        ∧ (x.other = none → s.hostsRun x.die x.phys = false → s.freeIdle n x = s.startRecheck n)
        ∧ (x.freed = true → x.other.isSome = true → s.freeIdle n x = s)
        ∧ (∀ d p, x.other = some (d, p) → x.freed = false → s.freeIdle n x = if s.hostsRun d p = true then s else s.freeY n d p)
        ∧ (x.die, x.phys) ∈ (s.judge n x .permanent).health.retiredCores
        ∧ (x.attempts ≠ 0 → (x.die, x.phys) ∈ (s.judge n x .inconclusive).health.retiredCores)
        ∧ (x.attempts = 0 → s.judge n x .inconclusive = s.nextY n x))
    ∧ (verdictOf true true true = .mirageTransient ∧ verdictOf true true false = .coreTransient ∧ (∀ o, verdictOf true false o = .permanent)
        ∧ verdictOf false true true = .mirageFault false ∧ verdictOf false true false = .mirageFault true ∧ ∀ o, verdictOf false false o = .inconclusive)
    ∧ (∀ die, die < 4 →
        ((s.mirageUnit die).testing = true → exec (.mirageSelfTest die true) s = .next (s.setMirage die { s.mirageUnit die with testing := false })
          ∧ (die < s.faults.mirage.length → ∃ t, exec (.mirageSelfTest die false) s = .next t ∧ (t.mirageUnit die).inService = false ∧ 500 + die ∈ t.rst.degraded))
        ∧ ((s.mirageUnit die).testing = false → ∀ pass, exec (.mirageSelfTest die pass) s = .next s))
    ∧ (∀ (k l engine index : Nat) (c : Ctx) (x : Core) (die p : Nat) (d shadow : W64), CoreTurn s k l c x → c.desc.twin = true → s.coreAt c l = some (die, p) →
        s.twinOutput c l x engine = some (index, d) →
        (d ≠ shadow → ∃ t c', exec (.twinMismatch k l engine index shadow) s = .next t ∧ t.ctx? k = some c' ∧ c'.status = .closing ∧ c'.run = none ∧ c'.steps = [])
        ∧ (d = shadow → exec (.twinMismatch k l engine index shadow) s = .next s))
    ∧ (∀ die core, die < 4 → core < 136 →
        (s.st.now.toNat < s.dueAt die core → exec (.sieveDue die core) s = .next s)
        ∧ (s.dueAt die core ≤ s.st.now.toNat → s.idleForSieve die core = true → exec (.sieveDue die core) s =
          .next (if s.sieving die = false ∧ s.firstDue die core = true then s.startSieve die core else s))
        ∧ (s.dueAt die core ≤ s.st.now.toNat → s.idleForSieve die core = false → (s.rawPhys die core).due = none → (s.rawPhys die core).state ≠ .sieve →
          (die, core) ∉ s.health.retiredCores → exec (.sieveDue die core) s = .next (s.setPhys die core { s.rawPhys die core with due := some s.st.now.toNat }))
        ∧ (∀ due, (s.rawPhys die core).due = some due → s.inUse die core = true → due + 72 * hourUnits ≤ s.st.now.toNat → exec (.sieveForced die core) s =
          .next (s.setPhys die core { s.rawPhys die core with forced := true }))
        ∧ (∀ due, (s.rawPhys die core).due = some due → s.st.now.toNat < due + 72 * hourUnits → exec (.sieveForced die core) s = .next s)
        ∧ (∀ pass, (s.rawPhys die core).state ≠ .sieve → exec (.sieveComplete die core pass) s = .next s)
        ∧ ((s.rawPhys die core).state = .sieve →
          ((die, core) ∈ s.health.retiredCores → ∀ pass, ∃ t, exec (.sieveComplete die core pass) s = .next t
            ∧ (die, core, pass) ∈ t.health.coreResults ∧ (t.rawPhys die core).state = .retired ∧ t.ctxs = s.ctxs ∧ t.mem = s.mem)
          ∧ ((die, core) ∉ s.health.retiredCores → ∃ t, exec (.sieveComplete die core false) s = .next t
            ∧ (die, core) ∈ t.health.retiredCores ∧ (die, core, false) ∈ t.health.coreResults)
          ∧ ((die, core) ∉ s.health.retiredCores → (s.rawPhys die core).twin = none → ∃ t, exec (.sieveComplete die core true) s = .next t
            ∧ t.health = s.health ∧ (t.rawPhys die core).state = .spare ∧ (t.rawPhys die core).due = none)))
    ∧ (∀ (i : Nat) (e : Suspect), i < 1024 → nfind s.faults.suspects i = some e →
        ((e.state = 1 ∨ e.state = 2) → e.lastTime.toNat + dayUnits ≤ s.st.now.toNat → exec (.suspectClearTimeout i) s = .next (s.setSuspect i { e with state := 5 }))
        ∧ (s.st.now.toNat < e.lastTime.toNat + dayUnits ∨ e.state ≠ 1 ∧ e.state ≠ 2 → exec (.suspectClearTimeout i) s = .next s))

/-! ## Resets and services (01 R19, 14 R383 to R398) -/

/-- A reset completes into the history and the counts, a module reset once it has booted and a port's once it has trained; one that misses its time gives way
to the next larger, a channel's is tried again and a port's takes the port out; lost phases, failed pairs and a failed Mesa controller degrade the module or
take it out of service, where it holds no context (14 R384, R393 to R398, 01 R19, 17 R440). -/
def Obligations.ResetsAndServices : Prop :=
  ∀ s : State,
    (∀ (kind die num : Nat) (r : ResetRec) (untrained : List Nat), s.findReset kind die num = some r →
        let later := ((kind = 7 ∨ kind = 8) ∧ s.mesa.stage ≠ 0xF) ∨ (kind = 4 ∧ (portGet s.seif num).state ≤ 1)
        (later → exec (.resetCompletion kind die num untrained) s = .next s)
        ∧ (¬later → ∃ t, exec (.resetCompletion kind die num untrained) s = .next t ∧ t.rst.lastKind = kind ∧ t.rst.lastCause = r.cause ∧ r ∉ t.rst.inProgress
          ∧ (r.counted = true → t.rst.total = min 4095 (s.rst.total + 1))))
    ∧ (∀ (kind die num : Nat) (r : ResetRec), s.findReset kind die num = some r → r.started + resetTime kind ≤ s.st.now.toNat →
        (kind = 5 → r.tries < 3 → exec (.resetCompletionTimeout kind die num) s = .next { s with rst := { s.rst with
          inProgress := updWhere s.rst.inProgress (fun x => x == r) (fun x => { x with tries := x.tries + 1, started := s.st.now.toNat }) } })
        ∧ (kind = 5 → 3 ≤ r.tries → ∃ t, exec (.resetCompletionTimeout kind die num) s = .next t ∧ t.mem.farIn = s.mem.farIn &&& ~~~(BitVec.ofNat 16 (2 ^ (num % 16)))
          ∧ r ∉ t.rst.inProgress ∧ t.ctxs = s.ctxs)
        ∧ (kind = 4 → exec (.resetCompletionTimeout kind die num) s = .next (s.portOut num))
        ∧ (kind = 1 → ∃ t, exec (.resetCompletionTimeout kind die num) s = .next t ∧ ∃ y ∈ t.rst.inProgress, (y.kind = 3 ∧ y.die = die) ∨ y.kind = 7 ∨ y.kind = 8)
        ∧ (∀ c, kind = 2 → s.ctx? num = some c → c.dies ≠ [] → ∃ t, exec (.resetCompletionTimeout kind die num) s = .next t
          ∧ ∀ d ∈ c.dies, ∃ y ∈ t.rst.inProgress, (y.kind = 3 ∧ y.die = d) ∨ y.kind = 7 ∨ y.kind = 8)
        ∧ ((kind = 3 ∨ kind = 6) → ∃ t, exec (.resetCompletionTimeout kind die num) s = .next t ∧ ∃ y ∈ t.rst.inProgress, y.kind = 7 ∨ y.kind = 8)
        ∧ (kind = 7 → ∃ t, exec (.resetCompletionTimeout kind die num) s = .next t ∧ ∃ y ∈ t.rst.inProgress, y.kind = 8)
        ∧ (kind = 8 → ∃ t, exec (.resetCompletionTimeout kind die num) s = .next t ∧ t.rst.outOfService = true))
    ∧ (exec (.resetCountWindowExpiry false) s = .next { s with rst := { s.rst with hour := s.rst.hour - 1 } }
        ∧ exec (.resetCountWindowExpiry true) s = .next { s with rst := { s.rst with day := s.rst.day - 1 } })
    ∧ (∀ rail, rail < 8 → s.power.lost.getD rail 0 < s.power.fitted.getD rail 0 →
        let lost := { s with power := { s.power with lost := updAt s.power.lost rail (· + 1) } }
        (s.power.lost.getD rail 0 = 0 → exec (.regulatorPhaseLoss rail) s = .next (lost.raise { level := 2, source := 2, reg := some (0x30020 + 4 * rail) }))
        ∧ (s.power.lost.getD rail 0 = 1 → exec (.regulatorPhaseLoss rail) s = .next
            ((lost.degrade (400 + rail)).raise { level := 3, source := 2, reg := some (0x30020 + 4 * rail) }))
        ∧ (2 ≤ s.power.lost.getD rail 0 → ∃ t, exec (.regulatorPhaseLoss rail) s = .next t ∧ t.rst.outOfService = true))
    ∧ (∀ p, p < 4 → s.svc.length = 4 →
        ((s.svc.getD p ⟨0, p⟩).state ≠ 1 → (∃ q, q < 4 ∧ q ≠ p ∧ (s.svc.getD q ⟨0, q⟩).state = 0) → ∃ t, exec (.oasisPairFailure p) s = .next t
          ∧ (t.svc.getD p ⟨0, p⟩).state = 1 ∧ (∀ y ∈ t.svc, y.host ≠ p) ∧ 300 + p ∈ t.rst.degraded ∧ t.ctxs = s.ctxs ∧ t.mem = s.mem)
        ∧ ((s.svc.getD p ⟨0, p⟩).state ≠ 1 → (∀ q, q < 4 → q ≠ p → (s.svc.getD q ⟨0, q⟩).state = 1) → ∃ t, exec (.oasisPairFailure p) s = .next t
          ∧ t.rst.outOfService = true)
        ∧ ((s.svc.getD p ⟨0, p⟩).state = 1 → exec (.oasisPairFailure p) s = .next s)
        ∧ ((s.svc.getD p ⟨0, p⟩).state = 2 → exec (.serviceRestartComplete p) s = .next { s with svc := updAt s.svc p (fun x => { x with state := 0 }) })
        ∧ ((s.svc.getD p ⟨0, p⟩).state ≠ 2 → exec (.serviceRestartComplete p) s = .next s))
    ∧ (s.rst.outOfService = false → ∃ t, exec .mesaFailure s = .next t ∧ t.mesa.failed = true ∧ t.mesa.signQueue = [] ∧ t.rst.outOfService = true ∧ t.ctxs = [])
    ∧ (s.rst.outOfService = true → exec .mesaFailure s = .next { s with mesa := { s.mesa with failed := true, signQueue := [] } })

/-! ## Power and temperature (15 R400 to R417) -/

/-- The calm ratio and its components (15 R400 to R412): an evaluation forms the estimate and the power and thermal components, an interval the control power and the
trim, the voltage loop one set point for four dies; fast limit and brake act at once; without power good none of them runs. -/
def Obligations.PowerControl : Prop :=
  ∀ s : State,
    (s.pins.pwrGood = true → ∀ (raw : Nat) (temps : List Int), ∃ t, exec (.powerEvaluation raw temps) s = .next t
        ∧ t.power.estimate = (s.power.gain : Rat) * raw / 4096 ∧ t.power.effective = s.power.limitOf s.power.setLimit
        ∧ t.power.trim = min s.power.trim ((t.power.effective : Rat) / 4) ∧ t.power.kPower = powerK t.power.estimate (t.power.effective - t.power.trim)
        ∧ (∀ h site, hottest (temps.take 5) = some (h, site) → t.power.junction = h ∧ t.power.site = site ∧ t.power.kThermal = thermalK h)
        ∧ t.power.brake = (s.power.brake && !s.pins.pwrbrakeN) ∧ t.power.kFast = s.power.kFast ∧ t.power.kJob = s.power.kJob
        ∧ t.power.applied = max (max (max t.power.kPower t.power.kThermal) (max (if t.power.brake then 48 else 0) t.power.kFast)) t.power.kJob
        ∧ t.ctxs = s.ctxs ∧ t.mem = s.mem)
    ∧ (s.pins.pwrGood = true → ∀ measured : Nat, exec (.powerInterval measured) s = .next { s with power := s.power.interval measured }
        ∧ let e : Rat := if s.power.eCount = 0 then s.power.lastE else s.power.eSum / s.power.eCount
          let limit : Rat := s.power.effective
          let next := s.power.interval measured
          next.control = max (measured : Rat) e ∧ next.eCount = 0 ∧ next.trim = clampRat (s.power.trim + (next.control - limit) / 2) 0 (limit / 4)
            ∧ (disagrees measured e = true → next.disagreeRun = s.power.disagreeRun + 1) ∧ (disagrees measured e = false → next.disagreeRun = 0))
    ∧ (51 ≤ s.power.disagreeRun → s.power.sensorFault = false → ∃ t, exec .powerDisagreement s = .next t ∧ t.power.disagreement = true ∧ t.power.disagreeRun = 0
        ∧ (t.power.sensorFault = false → 3277 ≤ t.power.gain ∧ t.power.gain ≤ 5120) ∧ t.mem = s.mem)
    ∧ (s.power.disagreeRun < 51 ∨ s.power.sensorFault = true → exec .powerDisagreement s = .next s)
    ∧ (100 ≤ s.power.atMaxRun → s.power.unreachable = false → exec .limitUnreachable s = .next
        (({ s with power := { s.power with unreachable := true } } : State).raise { level := 4, source := 2, reg := some 0x3000C }))
    ∧ (let v := s.power.rails.getD 0 0
       let go := fun (x : Nat) => Host.Outcome.next (ρ := Refusal) (φ := Fault) { s with power := { s.power with
         rails := List.replicate 4 x ++ s.power.rails.drop 4, loopSum := 0, loopCount := 0, loopZero := true, loopBelow := true } }
       s.pins.pwrGood = true →
         (4 * s.power.loopCount < s.power.loopSum → exec .voltageLoopStep s = go (max 650 (v - 10)))
         ∧ (s.power.loopSum ≤ 4 * s.power.loopCount → s.power.loopZero = true → s.power.loopBelow = true →
           exec .voltageLoopStep s = go (min (s.cfg.ceiling.getD 900) (v + 10)))
         ∧ (s.power.loopSum ≤ 4 * s.power.loopCount → (s.power.loopZero && s.power.loopBelow) = false → exec .voltageLoopStep s = go v))
    ∧ (s.pins.pwrGood = true → ∃ t, exec .fastLimitTrip s = .next t ∧ t.power.kFast = 56 ∧ 56 ≤ t.power.applied ∧ t.power.fastAt = some s.st.now.toNat)
    ∧ (∀ at', s.power.fastAt = some at' →
        (at' + 100 * microsecond ≤ s.st.now.toNat → exec .fastLimitEnd s = .next { s with power := ({ s.power with kFast := 0, fastAt := none } : Power).apply })
        ∧ (s.st.now.toNat < at' + 100 * microsecond → exec .fastLimitEnd s = .next s))
    ∧ (s.pins.pwrbrakeN = true → s.pins.pwrGood = true → s.mesa.stage = 0xF → ∃ t, exec .pwrbrakeAssert s = .next t ∧ t.power.brake = true ∧ 48 ≤ t.power.applied
        ∧ t.pins.pwrbrakeN = false)
    ∧ (s.pins.pwrbrakeN = false ∨ s.pins.pwrGood = false ∨ s.mesa.stage ≠ 0xF → exec .pwrbrakeAssert s = .next { s with pins := { s.pins with pwrbrakeN := false } })
    ∧ exec .pwrbrakeRelease s = .next { s with pins := { s.pins with pwrbrakeN := true } }
    ∧ (∀ die, die < 4 →
        (s.pins.pwrGood = true → ∃ t, exec (.railMonitorExcursion die) s = .next t ∧ ∃ y ∈ t.rst.inProgress, (y.kind = 3 ∧ y.die = die) ∨ y.kind = 7 ∨ y.kind = 8)
        ∧ (s.pins.pwrGood = false → exec (.railMonitorExcursion die) s = .next s))
    ∧ (s.pins.pwrGood = false → (∀ raw temps, exec (.powerEvaluation raw temps) s = .next s) ∧ (∀ n, exec (.powerInterval n) s = .next s)
        ∧ exec .voltageLoopStep s = .next s ∧ exec .fastLimitTrip s = .next s)

/-! ## Supply, reset pins, boot, buses (16 R418 to R425, 18 R448 to R459, 12 R333, R334) -/

/-- Supply and pins (18 R453, R456 to R459, 15 R413, 12 R333, R334): rails come up with PWR_EN and drop with a fault or a trip, which locks the module out;
a reset pin or a function-level reset resets the module; a lost clock and a hot reset take the link down, and one that trains narrow or slow raises a warning. -/
def Obligations.SupplyAndResetPins : Prop :=
  ∀ s : State,
    let pin := fun (p : Pins) => Host.Outcome.next (ρ := Refusal) (φ := Fault) { s with pins := p }
    let off := fun (t : State) => t.pins.railsOn = false ∧ t.pins.pwrGood = false ∧ t.ctxs = [] ∧ t.host.cmds = [] ∧ t.mem = Mem.reset ∧ t.mesa.stage = 0
      ∧ t.health = s.health ∧ t.pending = s.pending
    exec .inputPowerApplied s = pin { s.pins with input48 := true }
    ∧ (s.pins.pwrEn = false → s.pins.input48 = true → s.pins.lockout = false → exec .pwrEnRise s =
        pin { s.pins with pwrEn := true, pwrGood := true, railsOn := true, smbAddr := 0x58 + s.pins.straps % 8 })
    ∧ (s.pins.pwrEn = false → s.pins.lockout = true ∨ s.pins.input48 = false → exec .pwrEnRise s = pin { s.pins with pwrEn := true })
    ∧ (s.pins.pwrEn = true → ∃ t, exec .pwrEnFall s = .next t ∧ off t ∧ t.pins.pwrEn = false ∧ t.pins.lockout = false ∧ t.pins.thermtripN = true)
    ∧ (∃ t, exec .inputVoltageFault s = .next t ∧ off t ∧ t.pins.input48 = false ∧ (s.pins.pwrEn = true → t.pins.lockout = true))
    ∧ (s.pins.railsOn = true → ∃ t, exec .thermalTrip s = .next t ∧ off t ∧ t.pins.thermtripN = false ∧ t.pins.lockout = true)
    ∧ (s.pins.modResetN = true → ∃ t, exec .modResetNAssert s = .next t ∧ t.pins.modResetN = false ∧ t.mesa.stage = 0
        ∧ (s.pins.pwrGood = true → ∃ y ∈ t.rst.inProgress, y.kind = 8))
    ∧ exec .modResetNRelease s = pin { s.pins with modResetN := true }
    ∧ (s.pins.perstN = true → s.pins.pwrGood = true → ∃ t, exec .perstNAssert s = .next t ∧ t.pins.perstN = false ∧ ∃ y ∈ t.rst.inProgress, y.kind = 8)
    ∧ (s.pins.perstN = true → s.pins.pwrGood = false → exec .perstNAssert s = pin { s.pins with perstN := false })
    ∧ exec .perstNRelease s = pin { s.pins with perstN := true }
    ∧ (s.pins.pwrGood = true → s.reachable = true → ∃ t, exec .functionLevelReset s = .next t ∧ ∃ y ∈ t.rst.inProgress, y.kind = 7 ∨ y.kind = 8)
    ∧ (s.host.linkUp = true → exec .hotReset s = .next { s with host := { s.host with
        msixTable := [], msixEnable := false, functionMask := false, pba := 0, linkUp := false, linkSpeed := 0, linkWidth := 0 } })
    ∧ (∀ speed width, s.canTrain = true → speed ∈ [16, 32, 64, 128] → width ∈ [4, 8, 16] →
        let t : State := { s with host := { s.host with linkUp := true, linkSpeed := speed, linkWidth := width } }
        (speed = 128 ∧ width = 16 → exec (.linkTrained speed width) s = .next t)
        ∧ (speed < 128 ∨ width < 16 → exec (.linkTrained speed width) s = .next (t.raise { level := 2, source := 9 })))
    ∧ exec .refclkLoss s = .next { s with pins := { s.pins with refclk := false }, host := { s.host with linkUp := false, linkSpeed := 0, linkWidth := 0 } }
    ∧ exec .refclkReturn s = pin { s.pins with refclk := true }

/-- Boot, flash and the board buses (16 R421, R422, R425, 18 R449, R453, R455): each stage of a boot ends in the next, the last in readiness, or in its failure
code; three retries of a flash transaction, then the boot fails; an accepted image is active from the next reset; the module takes SMBus transactions for its
own address; IDCODE reads 0x00045659, and a ready module refuses EXTEST. -/
def Obligations.BootAndBoardBuses : Prop :=
  ∀ s : State,
    let stage := fun (n : Nat) => s.boots = true ∧ s.mesa.stage = n ∧ (s.flash.readable = true ∨ n = 0)
    let fails := fun (code typ : Nat) => exec .boot s = .next { s with flash := { s.flash with retries := 0 }, mesa := { s.mesa with stage := 0xE, failure := code, typ := typ } }
    let reaches := fun (n : Nat) => ∃ t, exec .boot s = .next t ∧ t.mesa.stage = n
    let fault := fun (typ : Nat) (other : Bool) => s.imageFault typ (s.flash.image typ (s.health.bankB.getD (typ - 1) false != other))
    (stage 0 → exec .boot s = .next { s with flash := { s.flash with retries := 0 }, mesa := { s.mesa with stage := 1 } })
    ∧ (s.boots = true → s.mesa.stage ≠ 0 → s.flash.readable = false → fails 8 0)
    ∧ (stage 1 → (s.flash.rootOk = false → fails 1 0) ∧ (s.flash.rootOk = true → reaches 2))
    ∧ (stage 2 → (s.flash.manifestOk = false → fails 2 5) ∧ (s.flash.manifestOk = true → (s.flash.image 5 false).version < s.floor 5 → fails 3 5)
        ∧ (s.flash.manifestOk = true → s.floor 5 ≤ (s.flash.image 5 false).version → reaches 3))
    ∧ (stage 3 → (s.health.copies.contains s.health.counter = false → s.health.copies.contains (s.health.counter + 1) = false → fails 5 0)
        ∧ (s.health.copies.contains s.health.counter = true → ∃ t, exec .boot s = .next t ∧ t.mesa.stage = 4 ∧ t.health = s.health
          ∧ t.rst.outOfService = s.health.outOfService ∧ t.rst.total = s.health.total)
        ∧ (s.health.copies.contains s.health.counter = false → s.health.copies.contains (s.health.counter + 1) = true → ∃ t, exec .boot s = .next t ∧ t.mesa.stage = 4
          ∧ t.health = { s.health with counter := s.health.counter + 1 }))
    ∧ (stage 4 → (fault 1 false = 0 ∨ fault 1 true = 0 → fault 2 false = 0 ∨ fault 2 true = 0 → reaches 5)
        ∧ (fault 1 false ≠ 0 → fault 1 true ≠ 0 → ∃ t, exec .boot s = .next t ∧ t.mesa.stage = 0xE ∧ t.mesa.typ = 1
          ∧ (t.mesa.failure = fault 1 false ∨ t.mesa.failure = fault 1 true)))
    ∧ (stage 5 → (s.flash.identityOk = false → fails 6 0) ∧ (s.flash.identityOk = true → reaches 6))
    ∧ (stage 6 → (s.imageFault 6 s.flash.config = 2 ∨ s.imageFault 6 s.flash.config = 4 → fails (s.imageFault 6 s.flash.config) 6)
        ∧ (s.imageFault 6 s.flash.config ≠ 2 → s.imageFault 6 s.flash.config ≠ 4 → s.flash.configMatches = false → fails 7 6)
        ∧ (s.imageFault 6 s.flash.config ≠ 2 → s.imageFault 6 s.flash.config ≠ 4 → s.flash.configMatches = true → ∃ t, exec .boot s = .next t ∧ t.mesa.stage = 7
          ∧ t.power.setLimit = s.cfg.powerLimit.getD 4000 ∧ t.st.gmPriority = s.cfg.priority.getD 128))
    ∧ (stage 7 → fault 3 false = 0 ∨ fault 3 true = 0 → fault 4 false = 0 ∨ fault 4 true = 0 → reaches 0xF)
    ∧ (s.boots = true → s.mesa.stage ≠ 0 →
        (s.flash.retries < 3 → exec .flashTransactionTimeout s = .next { s with flash := { s.flash with retries := s.flash.retries + 1 } })
        ∧ (3 ≤ s.flash.retries → exec .flashTransactionTimeout s =
            .next { s with flash := { s.flash with retries := 0 }, mesa := { s.mesa with stage := 0xE, failure := 8, typ := 0 } }))
    ∧ (∀ (typ version : Nat) (verifies digestOk : Bool) (serial : W64),
        (s.pins.pwrGood = true → s.mesa.failed = false → 1 ≤ typ → typ ≤ 4 → ∃ t, exec (.firmwareUpdate typ version verifies digestOk serial) s = .next t
          ∧ t.mesa = s.mesa ∧ t.mem = s.mem ∧ t.ctxs = s.ctxs
          ∧ (typ ≤ s.flash.bankA.length → typ ≤ s.flash.bankB.length →
              t.flash.image typ (!s.health.bankB.getD (typ - 1) false) = ⟨version, verifies, digestOk, serial⟩)
          ∧ (s.imageFault typ ⟨version, verifies, digestOk, serial⟩ ≠ 0 → t.health = s.health)
          ∧ (s.imageFault typ ⟨version, verifies, digestOk, serial⟩ = 0 → typ - 1 < s.health.bankB.length →
              t.health.bankB.getD (typ - 1) false = !s.health.bankB.getD (typ - 1) false))
        ∧ (s.pins.pwrGood = false ∨ s.mesa.failed = true ∨ typ < 1 ∨ 4 < typ → exec (.firmwareUpdate typ version verifies digestOk serial) s = .next s))
    ∧ (∀ addr, exec (.smbusTransaction addr) s = .next (if s.pins.pwrGood = true ∧ addr = s.pins.smbAddr then
        { s with pins := { s.pins with smbBusy := some s.st.now.toNat, smbTaken := s.pins.smbTaken ++ [addr] } } else s))
    ∧ (s.pins.smbBusy.isSome = true → exec .smbusClockTimeout s = .next { s with pins := { s.pins with smbBusy := none, smbTaken := s.pins.smbTaken.dropLast } })
    ∧ (∀ ir, s.pins.railsOn = true → exec (.tapInstruction ir) s = .next { s with
        pins := { s.pins with tap := s.tapTakes ir, tapOut := if ir = 1 then some 0x00045659 else none }, mesa := { s.mesa with lifecycle := true } })
    ∧ s.tapTakes 1 = 1 ∧ s.tapTakes 2 = 2 ∧ (s.tapTakes 3 = if s.pins.pwrGood = true ∧ s.mesa.stage = 0xF then 0 else 3)
    ∧ ∀ ir, 3 < ir ∨ ir = 0 → s.tapTakes ir = 0

/-! ## The host interface (12 R335 to R342, 17 R441 to R446) -/

/-- Rings and doorbells (12 R338 to R342, R355, 17 R443, R444, R446): a doorbell moves its count, is discarded behind or to a disabled ring, held during a hub
subsystem reset, and stops the ring where it runs ahead; a write of a control register clears Error where it says so, keeps the locked fields of an enabled
ring, and enables a ring with zero indices and its shadow written, or stops one whose set-up is bad; a module that is not ready discards every one of them, and
a low half that was held is discarded first. -/
def Obligations.RingsAndDoorbells : Prop :=
  ∀ (s : State) (n : Nat), n < 64 →
    let r := ringGet s.host n
    let put := fun (x : Ring) => s.putRing n x
    let rows := fun (i : Instr) => (∃ v, i = .doorbellWrite n v ∨ i = .sqEnable n v ∨ i = .sqDisable n v ∨ i = .rqEnable n v ∨ i = .rqDisable n v
      ∨ i = .rqTailWrite n v ∨ i = .rqArmWrite n v) ∨ ∃ b v, i = .ringErrorClear n b v
    (∀ i, rows i → s.reachable = false ∨ s.writable = false → exec i s = .next s)
    ∧ (∀ i o x, rows i → s.reachable = true → s.writable = true → s.host.held = some (o, x) → regKind o = .rw64 o →
        exec i s = exec i (({ s with host := { s.host with held := none } } : State).badAccess o 6))
    ∧ (s.reachable = true → s.writable = true → s.host.held = none →
      (∀ v : W32, let behind := (r.sqDoor - v).toNat
        (s.resetting 6 = true → exec (.doorbellWrite n v) s = .next { s with host := { s.host with heldDoorbells := s.host.heldDoorbells ++ [(n, v)] } })
        ∧ (s.resetting 6 = false →
          (r.sqEnable = true → (behind = 0 ∨ 2 ^ 31 < behind) → (v - r.sqHead).toNat ≤ 2 ^ r.sqExp → s.ringTooNew n r.sqExp = false →
              exec (.doorbellWrite n v) s = .next (put { r with sqDoor := v }))
          ∧ (r.sqEnable = true → 1 ≤ behind → behind ≤ 2 ^ 31 → exec (.doorbellWrite n v) s = .next (s.badAccess (0x1000 + 0x40 * n) 5))
          ∧ (r.sqEnable = true → (behind = 0 ∨ 2 ^ 31 < behind) → 2 ^ r.sqExp < (v - r.sqHead).toNat ∨ s.ringTooNew n r.sqExp = true →
              exec (.doorbellWrite n v) s = .next (s.stopRing n false))
          ∧ (r.sqEnable = false → exec (.doorbellWrite n v) s = .next (s.badAccess (0x1000 + 0x40 * n) 4))))
      ∧ (∀ (i : Instr) (v w : W32), (i = .sqEnable n v ∧ w = v ||| 0x80000000) ∨ (i = .sqDisable n v ∧ w = v &&& 0x7FFFFFFF)
            ∨ (i = .ringErrorClear n false v ∧ w = v ||| 0x40000000) →
          let x := { r with sqError := r.sqError && !w.getLsbD 30 }
          let y := { x with sqReply := fld w 16 6, sqExp := fld w 0 5 }
          let bad := r.sqBase.toNat % 4096 ≠ 0 ∨ expOk (fld w 0 5) = false ∨ s.ringTooNew n (fld w 0 5) = true
          (r.sqEnable = true → fld w 16 6 = r.sqReply ∧ fld w 0 5 = r.sqExp → exec i s = .next (put { x with sqEnable := w.getLsbD 31 }))
          ∧ (r.sqEnable = true → ¬(fld w 16 6 = r.sqReply ∧ fld w 0 5 = r.sqExp) →
              exec i s = .next ((put { x with sqEnable := w.getLsbD 31 }).badAccess (ringAt n + 0x08) 3))
          ∧ (r.sqEnable = false → w.getLsbD 31 = false → exec i s = .next (put y))
          ∧ (r.sqEnable = false → w.getLsbD 31 = true → ¬bad → exec i s = .next (put { y with sqEnable := true, sqHead := 0, sqDoor := 0 }))
          ∧ (r.sqEnable = false → w.getLsbD 31 = true → bad → exec i s = .next ((put y).stopRing n false)))
      ∧ (∀ (i : Instr) (v w : W32), (i = .rqEnable n v ∧ w = v ||| 0x80000000) ∨ (i = .rqDisable n v ∧ w = v &&& 0x7FFFFFFF)
            ∨ (i = .ringErrorClear n true v ∧ w = v ||| 0x40000000) →
          let x := { r with rqError := r.rqError && !w.getLsbD 30 }
          let y := { x with rqExp := fld w 0 5 }
          let bad := r.rqBase.toNat % 4096 ≠ 0 ∨ r.rqShadow.toNat % 8 ≠ 0 ∨ expOk (fld w 0 5) = false ∨ s.ringTooNew n (fld w 0 5) = true
          (r.rqEnable = true → fld w 0 5 = r.rqExp → exec i s = .next (put { x with rqEnable := w.getLsbD 31 }))
          ∧ (r.rqEnable = true → fld w 0 5 ≠ r.rqExp → exec i s = .next ((put { x with rqEnable := w.getLsbD 31 }).badAccess (ringAt n + 0x18) 3))
          ∧ (r.rqEnable = false → w.getLsbD 31 = false → exec i s = .next (put y))
          ∧ (r.rqEnable = false → w.getLsbD 31 = true → ¬bad →
              exec i s = .next ((put { y with rqEnable := true, rqProduced := 0, rqTail := 0 }).writeShadow n))
          ∧ (r.rqEnable = false → w.getLsbD 31 = true → bad → exec i s = .next ((put y).stopRing n true)))
      ∧ (∀ v : W32, exec (.rqTailWrite n v) s = .next (put { r with rqTail := v })
          ∧ (v.getLsbD 0 = true → exec (.rqArmWrite n v) s = .next (put { r with armed := true })) ∧ (v.getLsbD 0 = false → exec (.rqArmWrite n v) s = .next s)))

/-- Fetches and replies (12 R339, R341, R342, R347): the next entry of a ring becomes a command with the ring's reply ring and the session's version; an error stops
the ring, and a disabled or empty ring fetches nothing; a waiting record is written where there is space, with the shadow, and an armed ring sends its MSI-X;
without space it waits. -/
def Obligations.FetchesAndReplies : Prop :=
  ∀ (s : State) (n : Nat), n < 64 →
    let r := ringGet s.host n
    (s.fetches = true → r.sqEnable = true → r.sqHead ≠ r.sqDoor →
      (∀ bytes, ∃ t, exec (.commandFetch n (.entry bytes)) s = .next t
        ∧ t.host.cmds = s.host.cmds ++ [HostCmd.mk s.host.nextCmd n r.sqReply ((bytes ++ zeros 64).take 64) s.st.now s.host.session false false 0]
        ∧ t.host.nextCmd = s.host.nextCmd + 1 ∧ ringGet t.host n = { r with sqHead := r.sqHead + 1 }
        ∧ (∀ m, m ≠ n → ringGet t.host m = ringGet s.host m) ∧ t.mem = s.mem ∧ t.ctxs = s.ctxs ∧ t.attn = s.attn)
      ∧ exec (.commandFetch n .error) s = .next (s.stopRing n false) ∧ exec (.commandFetch n .poisoned) s = .next (s.stopRing n false))
    ∧ (s.fetches = false ∨ r.sqEnable = false ∨ r.sqHead = r.sqDoor → ∀ f, exec (.commandFetch n f) s = .next s)
    ∧ (∀ (w : Reply) (rest : List Reply), s.resetting 7 = false → s.resetting 8 = false → r.waiting = w :: rest →
        (r.rqEnable = true → (r.rqProduced - r.rqTail).toNat < 2 ^ r.rqExp → ∃ t, exec (.replyWrite n) s = .next t
          ∧ ringGet t.host n = { r with waiting := rest, rqProduced := r.rqProduced + 1, armed := false }
          ∧ t.host.busWrites = s.host.busWrites ++ [(r.rqBase.toNat + 32 * (r.rqProduced.toNat % 2 ^ r.rqExp), s.replyBytes w),
              (r.rqShadow.toNat, leBytes 4 (r.rqProduced + 1).toNat ++ leBytes 4 s.attn.seq.toNat)]
          ∧ (r.armed = false ∨ s.host.msixEnable = false → t.host.msixSent = s.host.msixSent)
          ∧ (r.armed = true → s.host.msixEnable = true → s.host.vectorMasked n = false → t.host.msixSent = s.host.msixSent ++ [n])
          ∧ (r.armed = true → s.host.msixEnable = true → s.host.vectorMasked n = true →
              t.host.msixSent = s.host.msixSent ∧ t.host.pba = s.host.pba ||| BitVec.ofNat 64 (2 ^ n))
          ∧ t.mem = s.mem ∧ t.ctxs = s.ctxs ∧ t.attn = s.attn)
        ∧ (r.rqEnable = false ∨ 2 ^ r.rqExp ≤ (r.rqProduced - r.rqTail).toNat → exec (.replyWrite n) s = .next s))
    ∧ (s.resetting 7 = true ∨ s.resetting 8 = true ∨ r.waiting = [] → exec (.replyWrite n) s = .next s)

/-- Accesses of the host to registers and to device memory (12 R335, R342, 14 R392, 17 R441, R442, R444, R446, 07 R213): a low half is held until its high half
follows, and discarded where another write comes; a low half that is read latches its high half; a malformed write is counted; RESET_CTRL asks for a reset; a
module that is not ready takes nothing else; the window reads and writes device memory. -/
def Obligations.HostRegisterAndMemoryAccess : Prop :=
  ∀ s : State,
    (s.reachable = false → (∀ off v, exec (.lowHalfWrite off v) s = .next s) ∧ (∀ off width v full, exec (.registerWrite off width v full) s = .next s)
      ∧ (∀ v, exec (.winBaseWrite v) s = .next s) ∧ exec .resetRequestModule s = .next s ∧ exec .resetRequestRetrain s = .next s
      ∧ (∀ off, exec (.lowHalfRead off) s = .next s) ∧ ∀ a b, exec (.configSpaceWrite a b) s = .next s)
    ∧ (s.writable = false → (∀ off v, off ≠ 0x50000 → exec (.lowHalfWrite off v) s = .next s) ∧ (∀ v, exec (.winBaseWrite v) s = .next s)
      ∧ ∀ off width v full, off ≠ 0x50000 → exec (.registerWrite off width v full) s = .next s)
    ∧ (s.reachable = true → s.writable = true →
      (s.host.held = none → ∀ v : W64, exec (.winBaseWrite v) s = .next { s with host := { s.host with
          held := none, winBase := BitVec.ofNat 64 (v.toNat / 2 ^ 36 % 2 ^ 12 * 2 ^ 36) } })
      ∧ (s.host.held = none → ∀ (off : Nat) (v : W32), off % 4 = 0 → regKind off = .rw64 off →
          exec (.lowHalfWrite off v) s = .next { s with host := { s.host with held := some (off, v) } })
      ∧ (∀ (base : Nat) (lo hi : W32), base % 4 = 0 → regKind (base + 4) = .rw64 base → s.host.held = some (base, lo) →
          exec (.registerWrite (base + 4) 4 (hi.zeroExtend 64) true) s =
            .next (({ s with host := { s.host with held := none } } : State).write64 base (BitVec.ofNat 64 (hi.toNat * 2 ^ 32 + lo.toNat))))
      ∧ (∀ lo hi : W32, s.host.held = some (0x11000, lo) → exec (.registerWrite 0x11004 4 (hi.zeroExtend 64) true) s = .next { s with host := { s.host with
          held := none, winBase := BitVec.ofNat 64 ((hi.toNat * 2 ^ 32 + lo.toNat) / 2 ^ 36 % 2 ^ 12 * 2 ^ 36) } })
      ∧ (∀ (o : Nat) (x : W32) (off width : Nat) (v : W64) (full : Bool), s.host.held = some (o, x) → off ≠ o → off ≠ o + 4 →
          exec (.registerWrite off width v full) s =
            exec (.registerWrite off width v full) (({ s with host := { s.host with held := none } } : State).badAccess o 6))
      ∧ (s.host.held = none → ∀ (off width : Nat) (v : W64), exec (.registerWrite off width v false) s = .next (s.badAccess off 1)
          ∧ (width ≠ 4 → width ≠ 8 → exec (.registerWrite off width v true) s = .next (s.badAccess off 1))
          ∧ (off % 4 ≠ 0 → exec (.registerWrite off 4 v true) s = .next (s.badAccess off 1))
          ∧ (off % 8 ≠ 0 → exec (.registerWrite off 8 v true) s = .next (s.badAccess off 1)))
      ∧ (s.host.held = none → ∀ (off : Nat) (v : W64), off % 4 = 0 → discards off = true → exec (.registerWrite off 4 v true) s = .next (s.badAccess off 2)))
    ∧ (s.reachable = true → s.mesa.stage ≠ 0xE →
        (∃ t, exec .resetRequestModule s = .next t ∧ ∃ y ∈ t.rst.inProgress, y.kind = 7 ∨ y.kind = 8)
        ∧ (∃ t, exec .resetRequestRetrain s = .next t ∧ ∃ y ∈ t.rst.inProgress, y.kind = 8))
    ∧ (s.reachable = true → ∀ off,
        let give := fun (h : HostIf) (w : W32) => Host.Outcome.next (ρ := Refusal) (φ := Fault) { s with host := { h with lastRead := some (ReadData.mk (leBytes 4 w.toNat) false) } }
        (off % 4 ≠ 0 → exec (.lowHalfRead off) s = .next s)
        ∧ (off % 4 = 0 → (∀ base, regKind off ≠ .ro64 base ∧ regKind off ≠ .rw64 base) → exec (.lowHalfRead off) s = give s.host (s.visibleWord off))
        ∧ (off % 4 = 0 → ∀ base, regKind off = .ro64 base ∨ regKind off = .rw64 base →
          (off = base → exec (.lowHalfRead off) s = give { s.host with latch := some (s.visibleWord (off + 4)) } (s.visibleWord off))
          ∧ (off ≠ base → regKind off = .ro64 base → ∀ w, s.host.latch = some w → exec (.lowHalfRead off) s = give s.host w)
          ∧ (off ≠ base → regKind off = .rw64 base → exec (.lowHalfRead off) s = give s.host (s.visibleWord off))))
    ∧ (s.reachable = true → ∀ a b : Bool, exec (.configSpaceWrite a b) s =
        .next { s with host := ({ s.host with msixEnable := a, functionMask := b } : HostIf).releasePending })
    ∧ (∀ (off len : Nat) (g : Nat → Seen), s.bar2Ready (s.host.winBase.toNat + off) = true → off + len ≤ 2 ^ 36 →
        let a := s.host.winBase.toNat + off
        let out := fun (b : List Byte) (p : Bool) => ({ s with host := { s.host with lastRead := some (ReadData.mk b p) } } : State)
        ((∀ i, i < len → s.deviceByte (a + i) = some (g i)) →
          ((∀ i, i < len → (g i).poisoned = false) → exec (.bar2Read off len) s = .next (out ((List.range len).map (fun i => (g i).byte)) false))
          ∧ ((∃ i, i < len ∧ (g i).poisoned = true) → exec (.bar2Read off len) s =
              .next ((out ((List.range len).map (fun i => (g i).byte)) true).raise { level := 1, source := 4, count := a })))
        ∧ ((∃ i, i < len ∧ s.deviceByte (a + i) = none) → exec (.bar2Read off len) s = .next (out (List.replicate len 0xFF) false).hostBad))
    ∧ (∀ (off : Nat) (bytes : List Byte), s.bar2Ready (s.host.winBase.toNat + off) = true → off + bytes.length ≤ 2 ^ 36 → 0 < bytes.length →
        let a := s.host.winBase.toNat + off
        let last := a + bytes.length - 1
        ((a + bytes.length ≤ nearTop ∨ (farBase ≤ a ∧ a + bytes.length ≤ farTop)) → exec (.bar2Write off bytes) s = .next (s.store a bytes))
        ∧ ((¬(a < nearTop ∧ last < nearTop) ∧ ¬(farBase ≤ a ∧ a < farTop ∧ farBase ≤ last ∧ last < farTop)) → exec (.bar2Write off bytes) s = .next s.hostBad))
    ∧ (∀ off len bytes, s.bar2Ready (s.host.winBase.toNat + off) = false → exec (.bar2Read off len) s = .next s ∧ exec (.bar2Write off bytes) s = .next s)

/-! ## Commands (12 R346 to R361) -/

/-- A fetched command starts in its turn, or completes with the code of the first check it fails, in the order of R346 (12 R346, R347, R355, R361). -/
def Obligations.CommandStart : Prop :=
  ∀ (s : State) (id : Nat) (c : HostCmd), s.cmd? id = some c → c.started = false →
    let known := c.opcode < 0x14 ∧ ¬(s.host.session = 2 ∧ newOpcode c.opcode = true)
    let opened := known ∧ (s.host.session ≠ 0 ∨ c.opcode ≤ 1)
    let served := opened ∧ (s.rst.outOfService = false ∨ servedOutOfService c.opcode = true)
    let free := served ∧ s.covered c = false
    let wellFormed := free ∧ c.reserved = none
    let own := wellFormed ∧ (c.opcode = 4 ∨ s.stranger c = false)
    let closing := c.opcode ≠ 4 ∧ ∃ k x, c.named = some k ∧ s.ctx? k = some x ∧ x.status = .closing
    let replies := fun (code result : Nat) => exec (.commandStart id) s = .next (s.complete id code result [])
    (s.mayStart c = false → exec (.commandStart id) s = .next s)
    ∧ (s.mayStart c = true → (¬known → replies 0x10 0) ∧ (known → ¬opened → replies 0x14 0) ∧ (opened → ¬served → replies 0x41 0)
        ∧ (served → ¬free → replies 0x40 0) ∧ (free → ∀ o, c.reserved = some o → replies 0x11 o) ∧ (wellFormed → ¬own → replies 0x15 0)
        ∧ (own → closing → replies 0x20 0)
        ∧ (own → ¬closing → ∃ t, exec (.commandStart id) s = .next t ∧ t.cmd? id = some { c with started := true }
          ∧ t.ctxs = s.ctxs ∧ t.mem = s.mem ∧ t.attn = s.attn ∧ t.host.rings = s.host.rings))

/-- Session, program, memory and context commands (12 R354, R355, R357, R358, R464, 05 R155, 13 R362 to R365, R369): NOP answers ATTN_SEQ; OPEN_SESSION chooses the
higher shared version; MAP_MEMORY grants, revokes, and writes and removes entries, and waits for requests under an old entry; LOAD_PROGRAM fills a slot or gives
its reason; CREATE_CONTEXT answers the new epoch; each refuses with the first bad argument and changes nothing. -/
def Obligations.SessionAndContextCommands : Prop :=
  ∀ (s : State) (id : Nat) (c : HostCmd),
    let refused := fun (i : Instr) (checks : List (Option Bad)) => ∀ b, firstBad checks = some b → exec i s = .next (s.complete id b.code b.result [])
    (CmdTurn s id 0x00 c → exec (.nop id) s = .next (s.complete id 0 s.attn.seq.toNat []))
    ∧ (CmdTurn s id 0x01 c →
        let h := c.fieldAt 16 1
        let l := c.fieldAt 17 1
        let go := fun (v : Nat) => Host.Outcome.next (ρ := Refusal) (φ := Fault) (({ s with host := { s.host with session := v } } : State).complete id 0 v [])
        let fits := fun (v : Nat) => s.host.session = 0 ∨ s.host.session = v ∨ s.ctxs = []
        ((3 ≤ h ∧ h ≤ 15 ∧ 1 ≤ l ∧ l ≤ 3) → fits 3 → exec (.openSession id) s = go 3)
        ∧ ((h = 2 ∧ 1 ≤ l ∧ l ≤ 2) → fits 2 → exec (.openSession id) s = go 2)
        ∧ ((3 ≤ h ∧ h ≤ 15 ∧ 1 ≤ l ∧ l ≤ 3 ∧ ¬fits 3) ∨ (h = 2 ∧ 1 ≤ l ∧ l ≤ 2 ∧ ¬fits 2) → exec (.openSession id) s = .next (s.complete id 0x11 16 []))
        ∧ ((h = 1 ∧ l = 1 ∨ (4 ≤ l ∧ l ≤ h ∧ h ≤ 15)) → exec (.openSession id) s = .next (s.complete id 0x13 0 []))
        ∧ ((h = 0 ∨ 16 ≤ h) → exec (.openSession id) s = .next (s.complete id 0x12 16 []))
        ∧ (1 ≤ h → h ≤ 15 → (l = 0 ∨ h < l) → exec (.openSession id) s = .next (s.complete id 0x12 17 [])))
    ∧ (∀ k x, CtxCmdTurn s id 0x02 c k x →
        let a := c.fieldAt 24 8
        let n := c.fieldAt 20 4
        let bytes := s.readThrough a n
        let t := if s.loadPoison a n then s.spend else s
        (15 < c.fieldAt 16 1 → exec (.loadProgram id) s = .next (s.complete id 0x12 16 []))
        ∧ (c.fieldAt 16 1 ≤ 15 → n < 64 → exec (.loadProgram id) s = .next (s.complete id 0x12 20 []))
        ∧ (c.fieldAt 16 1 ≤ 15 → 64 ≤ n → ¬(a % 64 = 0 ∧ inMemory a n = true) → exec (.loadProgram id) s = .next (s.complete id 0x12 24 []))
        ∧ (c.fieldAt 16 1 ≤ 15 → 64 ≤ n → a % 64 = 0 → inMemory a n = true →
          (firstFail (t.loadFails x bytes) = none → exec (.loadProgram id) s =
            .next ((t.putCtx k (x.putProgram (c.fieldAt 16 1) (programOf bytes x.desc.cores))).complete id 0 0 []))
          ∧ (∀ f, firstFail (t.loadFails x bytes) = some f → exec (.loadProgram id) s =
              .next (t.complete id (loadCode f.reason) f.reason (leBytes 4 f.sec ++ leBytes 4 f.idx)))))
    ∧ (∀ k x, CtxCmdTurn s id 0x03 c k x →
        let a := c.fieldAt 24 8
        let n := c.fieldAt 32 8
        let i := c.fieldAt 20 4
        let waits := fun (t : State) => Host.Outcome.next (ρ := Refusal) (φ := Fault) (t.markCmd id (fun y => { y with begun := true, mark := s.net.nextId }))
        let put := ({ s with xlate := nset s.xlate i (entryOf c (s.xlVersion + 1)), xlVersion := s.xlVersion + 1 } : State)
        let cut := ({ s with xlate := ndel s.xlate i } : State)
        let old := (nfind s.xlate i).isSome && s.underOld i s.net.nextId
        (c.fieldAt 16 1 = 1 → refused (.mapMemory id) (s.rangeBad a n) ∧ (firstBad (s.rangeBad a n) = none → exec (.mapMemory id) s =
          .next ((s.putCtx k { x with grants := x.grants ++ [Grant.mk a n (c.fieldAt 17 1 % 8)] }).complete id 0 0 [])))
        ∧ (c.fieldAt 16 1 = 2 → (firstBad (s.rangeBad a n) = none → x.holds a n = true → exec (.mapMemory id) s =
            .next ((s.putCtx k { x with grants := x.grants.flatMap (fun g => g.without a n) }).complete id 0 0 []))
          ∧ refused (.mapMemory id) (s.rangeBad a n)
          ∧ (firstBad (s.rangeBad a n) = none → x.holds a n = false → exec (.mapMemory id) s = .next (s.complete id 0x12 24 [])))
        ∧ (c.fieldAt 16 1 = 3 → refused (.mapMemory id) (s.entryBad c k)
          ∧ (firstBad (s.entryBad c k) = none → exec (.mapMemory id) s = if old then waits put else .next (put.complete id 0 0 [])))
        ∧ (c.fieldAt 16 1 = 4 → i ≤ 4095 → (∀ o, nfind s.xlate i = some o → o.ctx = k) →
          exec (.mapMemory id) s = if old then waits cut else .next (cut.complete id 0 0 []))
        ∧ (c.fieldAt 16 1 = 4 → 4095 < i → exec (.mapMemory id) s = .next (s.complete id 0x12 20 []))
        ∧ (c.fieldAt 16 1 = 4 → i ≤ 4095 → (∃ o, nfind s.xlate i = some o ∧ o.ctx ≠ k) → exec (.mapMemory id) s = .next (s.complete id 0x11 20 [])))
    ∧ (s.cmd? id = some c → c.opcode = 3 → c.begun = true →
        exec (.mapMemory id) s = .next (if s.underOld (c.fieldAt 20 4) c.mark then s else s.complete id 0 0 []))
    ∧ (∀ k, CmdTurn s id 0x04 c → c.named = some k →
        let m := s.makeContext k (c.fieldAt 12 1) (c.fieldAt 13 1) (c.fieldAt 14 1) (descOf (s.load (c.fieldAt 24 8) 256))
        exec (.createContext id) s = .next (match s.createBad c k with
          | none => m.complete id 0 m.epochCounter.toNat []
          | some b => (if b.poison then s.raise { level := 1, source := 5, ctx := some k } else s).complete id b.code b.result []))

/-- Commands on a context's work (12 R357, R359 to R361, 13 R364, R369, R378, 10 R302, R303, R305, R308, 01 R26, 09 R261, R262): DESTROY_CONTEXT closes it; RUN and STEP
begin and take their place; PUBLISH_WEIGHTS has the version wait for its targets; CHECKPOINT begins; RESTORE takes a good copy, and fails without one; SET_SHARES
sets the weight; each refuses a bad argument. -/
def Obligations.ContextJobCommands : Prop :=
  ∀ (s : State) (id : Nat) (c : HostCmd) (k : Nat) (x : Ctx),
    let refused := fun (i : Instr) (code off : Nat) => exec i s = .next (s.complete id code off [])
    let begun := fun (t : State) => (t.cmd? id).map HostCmd.begun = some true
    (CtxCmdTurn s id 0x05 c k x → x.status ≠ .closing → ∃ t y, exec (.destroyContext id) s = .next t ∧ t.ctx? k = some y ∧ y.status = .closing ∧ y.run = none
        ∧ y.steps = [] ∧ y.closeCmd = some id)
    ∧ (CtxCmdTurn s id 0x06 c k x → let slot := c.fieldAt 16 1
        (15 < slot → refused (.run id) 0x12 16) ∧ (slot ≤ 15 → nfind x.slots slot = none → refused (.run id) 0x11 16)
        ∧ (slot ≤ 15 → (nfind x.slots slot).isSome = true → ∃ t y, exec (.run id) s = .next t ∧ t.ctx? k = some y ∧ begun t
          ∧ y.run = some (RunPhase.of id slot (BitVec.ofNat 64 (c.fieldAt 24 8))) ∧ (x.status ≠ .idle → y.status = x.status)))
    ∧ (CtxCmdTurn s id 0x07 c k x →
        let slots := (List.range 4).map (fun i => c.fieldAt (16 + i) 1)
        let loaded := fun (slot : Nat) => slot ≤ 15 ∧ (nfind x.slots slot).isSome = true
        let placed := (slots.getD 0 0 = 0xFF ∨ loaded (slots.getD 0 0)) ∧ loaded (slots.getD 1 0) ∧ loaded (slots.getD 2 0) ∧ loaded (slots.getD 3 0)
        let newer := ∀ n, x.lastDone = some n → n < c.fieldAt 24 8
        (x.desc.kind ≠ 2 → refused (.step id) 0x11 8)
        ∧ (x.desc.kind = 2 → ¬placed → ∃ code off, (code = 0x11 ∨ code = 0x12) ∧ 16 ≤ off ∧ off ≤ 19 ∧ refused (.step id) code off)
        ∧ (x.desc.kind = 2 → placed → ∀ b, firstBad (x.paramsBad (slots.getD 2 0)) = some b → refused (.step id) b.code b.result)
        ∧ (x.desc.kind = 2 → placed → firstBad (x.paramsBad (slots.getD 2 0)) = none → ¬newer → refused (.step id) 0x12 24)
        ∧ (x.desc.kind = 2 → placed → firstBad (x.paramsBad (slots.getD 2 0)) = none → newer → ∃ t y, exec (.step id) s = .next t ∧ begun t ∧ t.ctx? k = some y
          ∧ y.steps = x.steps ++ [StepRun.start id (c.fieldAt 24 8) slots (c.fieldAt 20 1 % 2 == 1)]
          ∧ (x.status ≠ .idle → y = { x with steps := y.steps } ∧ t.mem = s.mem)))
    ∧ (CtxCmdTurn s id 0x08 c k x →
        let entry := c.fieldAt 16 4
        let version := if c.fieldAt 20 2 = 0 then x.currentVersion else c.fieldAt 20 2
        let there := ∃ l b, x.learn = some l ∧ b ∈ l.buffers ∧ b.version = version ∧ version ≠ 0 ∧ (b.state = .current ∨ b.state = .held)
        let named := fun (p : Publication) => entry = 0xFFFFFFFF ∨ p.entry = entry
        (x.desc.kind ≠ 2 → refused (.publishWeights id) 0x11 8)
        ∧ (x.desc.kind = 2 → entry ≠ 0xFFFFFFFF → x.desc.pubCount ≤ entry → refused (.publishWeights id) 0x12 16)
        ∧ (x.desc.kind = 2 → entry = 0xFFFFFFFF ∨ entry < x.desc.pubCount → ¬there → refused (.publishWeights id) 0x12 20)
        ∧ (x.desc.kind = 2 → entry = 0xFFFFFFFF ∨ entry < x.desc.pubCount → there →
          ((∀ p ∈ x.pubs, ¬named p) → exec (.publishWeights id) s = .next (s.complete id 0 0 []))
          ∧ ((∃ p ∈ x.pubs, named p) → (x.pubs.map (·.entry)).Nodup → ∃ t y, exec (.publishWeights id) s = .next t ∧ begun t ∧ t.ctx? k = some y ∧ t.mem = s.mem
            ∧ t.attn = s.attn ∧ (∀ p ∈ x.pubs, named p → { p with waiting := version, next := p.next ++ [id] } ∈ y.pubs) ∧ ∀ p ∈ x.pubs, ¬named p → p ∈ y.pubs)))
    ∧ (CtxCmdTurn s id 0x09 c k x →
        let able := x.desc.kind = 2 ∧ x.desc.ckptAddr ≠ 0
        let sink := c.fieldAt 16 1 / 2 % 2 = 1
        let a := c.fieldAt 24 8
        (¬able → refused (.checkpoint id) 0x11 8)
        ∧ (able → ¬sink → exec (.checkpoint id) s = .next (s.begin' id))
        ∧ (able → sink → ¬(a % 64 = 0 ∧ s.inHostWindow k a 1 = true) → refused (.checkpoint id) 0x12 24)
        ∧ (able → sink → a % 64 = 0 → s.inHostWindow k a 1 = true → s.inHostWindow k a (c.fieldAt 32 8) = false → refused (.checkpoint id) 0x12 32)
        ∧ (able → sink → a % 64 = 0 → s.inHostWindow k a 1 = true → s.inHostWindow k a (c.fieldAt 32 8) = true → exec (.checkpoint id) s = .next (s.begin' id)))
    ∧ (CtxCmdTurn s id 0x0A c k x → ∀ host,
        let able := x.desc.kind = 2 ∧ x.desc.ckptAddr ≠ 0
        let supplied := c.fieldAt 16 1 % 2 = 1
        let a := c.fieldAt 32 8
        let ck := c.fieldAt 24 8
        let copy := if supplied then host else []
        (¬able → refused (.restore id host) 0x11 8)
        ∧ (able → supplied → ¬(a % 64 = 0 ∧ s.inHostWindow k a 1 = true) → refused (.restore id host) 0x12 32)
        ∧ (able → ¬supplied ∨ (a % 64 = 0 ∧ s.inHostWindow k a 1 = true) → ∀ l, x.learn = some l →
          let z := x.shardShape l
          let found := (s.manifestOf x l z ck copy).orElse (fun _ => if x.desc.modules ≠ 1 ∧ ¬supplied then some (s.peerManifest x l z ck) else none)
          exec (.restore id host) s = .next (match found.bind
              (fun m => (s.chunksFrom x z m copy (List.range z.chunks)).bind (fun b => s.restoreFrom k ck x l z m b)) with
            | some t => t.complete id 0 (match t.ctx? k with | none => 0 | some y => y.currentVersion) []
            | none => s.spend.complete id 0x31 0 [])))
    ∧ (CtxCmdTurn s id 0x0B c k x →
        (c.fieldAt 16 2 ≠ 0 → exec (.setShares id) s = .next ((s.putCtx k { x with weight := c.fieldAt 16 2 }).complete id 0 0 []))
        ∧ (c.fieldAt 16 2 = 0 → refused (.setShares id) 0x12 16))

/-- Commands on the module (12 R350, R353, R357, 13 R372, 14 R383, R385, R389, R399, 15 R400, 16 R428, R429, 11 R324): limits, attention, captures, resets, attestation,
the caravan table, and the expiry of a command's deadline; each refuses a bad argument. -/
def Obligations.ModuleCommands : Prop :=
  ∀ (s : State) (id : Nat) (c : HostCmd),
    let refused := fun (i : Instr) (code off : Nat) => exec i s = .next (s.complete id code off [])
    (CmdTurn s id 0x0C c →
        let n := c.fieldAt 16 4
        let a := c.fieldAt 24 8
        (n = 0 → exec (.setCaravanTable id) s =
          .next (({ s with caravan := { Caravan.reset with lastNotice := s.caravan.lastNotice } } : State).complete id 0 0 []))
        ∧ (n ≠ 0 → n < 32 → refused (.setCaravanTable id) 0x12 16)
        ∧ (32 ≤ n → ¬(a % 64 = 0 ∧ inMemory a n = true) → refused (.setCaravanTable id) 0x12 24)
        ∧ (32 ≤ n → a % 64 = 0 → inMemory a n = true → ∀ b, s.caravanBad c.fetched a n = some b → refused (.setCaravanTable id) b.code b.result)
        ∧ (32 ≤ n → a % 64 = 0 → inMemory a n = true → s.caravanBad c.fetched a n = none → exec (.setCaravanTable id) s =
          .next (({ s with caravan := { s.caravan with next := some (s.caravanAt a) } } : State).complete id 0 0 [])))
    ∧ (CmdTurn s id 0x0D c → let w := c.fieldAt 16 2
        (1500 ≤ w → w ≤ 4000 → exec (.setPowerLimit id) s = .next (({ s with power := { s.power with setLimit := w } } : State).complete id 0
          (if s.power.sensorFault then w * 85 / 100 else w) []))
        ∧ ((w < 1500 ∨ 4000 < w) → refused (.setPowerLimit id) 0x12 16))
    ∧ (CmdTurn s id 0x0E c →
        let kind := c.fieldAt 16 1
        let first := c.fieldAt 20 4
        let n := c.fieldAt 24 4
        let a := c.fieldAt 32 8
        let counted := kind = 3 ∨ (1 ≤ n ∧ n ≤ 4096)
        let tail := leBytes 4 s.attn.seq.toNat ++ leBytes 4 s.attnSummary
        let give := fun (items : List (List Byte)) => exec (.queryAttention id) s =
          .next ((if items = [] then s else s.busWrite a (items.flatMap (fun y => y))).complete id 0 items.length tail)
        (kind = 2 → 1023 < first → refused (.queryAttention id) 0x12 20)
        ∧ (kind ≠ 2 ∨ first ≤ 1023 → ¬counted → refused (.queryAttention id) 0x12 24)
        ∧ (kind ≠ 2 ∨ first ≤ 1023 → counted → a % 64 ≠ 0 → refused (.queryAttention id) 0x12 32)
        ∧ (kind ≠ 2 ∨ first ≤ 1023 → counted → a % 64 = 0 → (kind = 1 → give (((s.attn.from (BitVec.ofNat 32 first)).take n).map AttnEntry.bytes))
          ∧ (kind = 2 → give (((s.faults.from first).take n).map Suspect.bytes)) ∧ (kind = 3 → give [])))
    ∧ (CmdTurn s id 0x10 c → ∀ slot (x : Capture), s.captureOf (c.fieldAt 16 4) = some (slot, x) →
        let a := c.fieldAt 24 8
        let at' := captureArea + captureSlot * slot
        let n := min (c.fieldAt 32 4) x.bytes.length
        let t := s.busWrite a (s.readThrough at' n)
        let t := if s.loadPoison at' n then t.spend else t
        (a % 64 ≠ 0 → refused (.readCapture id) 0x12 24)
        ∧ (a % 64 = 0 → exec (.readCapture id) s = .next (({ t with captures := nset s.captures slot { x with read := true } } : State).complete id 0 n [])))
    ∧ (CmdTurn s id 0x10 c → s.captureOf (c.fieldAt 16 4) = none → refused (.readCapture id) 0x12 16)
    ∧ (CmdTurn s id 0x11 c →
        let kind := c.fieldAt 16 1
        let die := c.fieldAt 17 1
        let num := c.fieldAt 18 2
        (∀ b, firstBad (s.resetBad kind die num) = some b → refused (.resetDomain id) b.code b.result)
        ∧ (firstBad (s.resetBad kind die num) = none →
          (6 ≤ kind → exec (.resetDomain id) s = .next ((s.complete id 0 0 []).resetDomain kind 0 0 1 [] none))
          ∧ (kind = 1 ∨ kind = 3 ∨ kind = 4 ∨ kind = 5 → exec (.resetDomain id) s = .next ((s.begin' id).resetDomain kind die num 1 [id] none))
          ∧ (∀ k x, kind = 2 → c.named = some k → s.ctx? k = some x → exec (.resetDomain id) s = .next ((s.begin' id).resetDomain 2 x.die k 1 [id] (some k))))
        ∧ (kind = 3 → die ≤ 3 → firstBad (s.resetBad kind die num) = none))
    ∧ (CmdTurn s id 0x12 c → ∀ host,
        (s.rst.outOfService = false → exec (.reinstate id host) s = .next (s.complete id 0 0 []))
        ∧ (s.rst.outOfService = true → c.fieldAt 16 4 ≠ 2612 → refused (.reinstate id host) 0x12 16)
        ∧ (s.rst.outOfService = true → c.fieldAt 16 4 = 2612 → c.fieldAt 24 8 % 64 ≠ 0 → refused (.reinstate id host) 0x12 24)
        ∧ (s.rst.outOfService = true → c.fieldAt 16 4 = 2612 → c.fieldAt 24 8 % 64 = 0 → exec (.reinstate id host) s = .next
            (if s.mesa.failed = false ∧ s.reinstates ((host ++ zeros 2612).take 2612) = true then
              (({ s with health := ({ s.health with outOfService := false } : Health).written, rst := { s.rst with outOfService := false, hour := 0, day := 0 } } :
                State).complete id 0 0 []).beginReset (ResetRec.mk 7 0 0 7 false [] none 0 1)
             else s.complete id 0x42 0 [])))
    ∧ (CmdTurn s id 0x13 c →
        let kind := c.fieldAt 16 1
        let a := c.fieldAt 24 8
        let bytes := s.attestation kind ((c.bytes.drop 32).take 32)
        (a % 64 ≠ 0 → refused (.attest id) 0x12 24)
        ∧ (a % 64 = 0 → s.mesa.failed = true → refused (.attest id) 0x42 0)
        ∧ (a % 64 = 0 → s.mesa.failed = false → kind = 2 → exec (.attest id) s = .next ((s.busWrite a bytes).complete id 0 bytes.length []))
        ∧ (a % 64 = 0 → s.mesa.failed = false → kind ≠ 2 → exec (.attest id) s =
            .next ((({ s with mesa := { s.mesa with signed := s.mesa.signed + 1 } } : State).busWrite a bytes).complete id 0 bytes.length [])))
    ∧ (s.cmd? id = some c → ∀ d, s.deadline c = some d →
        (s.st.now.toNat < c.fetched.toNat + d → exec (.commandDeadlineExpiry id) s = .next s)
        ∧ (c.fetched.toNat + d ≤ s.st.now.toNat →
          (c.started = false → refused (.commandDeadlineExpiry id) 0x22 0)
          ∧ (c.started = true → c.opcode = 0x11 → exec (.commandDeadlineExpiry id) s = .next (s.expireReset c))
          ∧ (c.started = true → c.opcode ≠ 0x11 → ∀ k x, c.named = some k → s.ctx? k = some x →
            (x.hung = true → exec (.commandDeadlineExpiry id) s = .next (s.complete c.id 0x40 0 []))
            ∧ (x.hung = false → ∃ t, exec (.commandDeadlineExpiry id) s = .next t ∧ t.cmd? id = none))
          ∧ (c.started = true → c.opcode ≠ 0x11 → c.named = none → exec (.commandDeadlineExpiry id) s =
            .next ((s.restartPair (s.hostPair (servicePair c.opcode))).complete id 0x22 0 []))))

/-- ACK_ATTENTION with sequence s acknowledges every entry whose sequence is s or earlier, counting back modulo 2^32; a sequence ahead of ATTN_SEQ is OUT_OF_RANGE; out of
service does not end (12 R353). -/
def Obligations.AckAttention : Prop :=
  ∀ (s : State) (id : Nat) (c : HostCmd), CmdTurn s id 0x0F c →
    let q := BitVec.ofNat 32 (c.fieldAt 20 4)
    let reached := fun (e : AttnEntry) => decide ((q - e.seq).toNat < 2 ^ 31)
    ((q = s.attn.seq ∨ 2 ^ 31 ≤ (q - s.attn.seq).toNat) → ∃ t, exec (.ackAttention id) s = .next t
      ∧ t.attn.log = s.attn.log.map (fun e => if reached e then { e with acked := true } else e) ∧ t.attn.seq = s.attn.seq
      ∧ (q = s.attn.seq → t.attn.lost = 0 ∧ t.attn.lostLevel = 0)
      ∧ (q ≠ s.attn.seq → t.attn.lost = s.attn.lost ∧ t.attn.lostLevel = s.attn.lostLevel)
      ∧ t.rst = s.rst ∧ t = { s.complete id 0 0 [] with attn := t.attn })
    ∧ (q ≠ s.attn.seq → (q - s.attn.seq).toNat < 2 ^ 31 → exec (.ackAttention id) s = .next (s.complete id 0x12 20 []))

/-! ## The schedule, caravans, pre-emption and teardown (13 R364, R370 to R379) -/

/-- The schedule's rows (13 R364, R370 to R379): a slice boundary decides; a table waits for its frame; a window asks holders to leave at its lead time, has
its context come, and clears its marks; a context that may leave, and for whose cores no sieve or re-check waits, is Saved, every core of it in the save area;
one whose cores are free comes back; a quiet Closing context is gone, and one that is not within 100 ms has its dies reset. -/
def Obligations.ScheduleRows : Prop :=
  ∀ s : State,
    exec .sliceBoundary s = .next s.schedule
    ∧ (s.caravan.next = none → exec .caravanTableActivation s = .next s)
    ∧ (∀ t : CaravanTable, s.caravan.next = some t →
        (t.start ≤ s.st.now.toNat → exec .caravanTableActivation s =
          .next { s with caravan := { s.caravan with table := some t, next := none, armed := [], openWindows := [] } })
        ∧ (s.st.now.toNat < t.start → exec .caravanTableActivation s = .next s))
    ∧ (∀ (i : Nat) (t : CaravanTable) (w : CaravanWindow) (c : Ctx), s.window? i = some (t, w) → s.windowCtx w = some c →
        let opens := (openings t w s.st.now.toNat).2
        let near := c.runnable = true ∧ opens ≤ s.st.now.toNat + s.lead w.ctx c ∧ i ∉ s.caravan.armed
        let armed := ({ s with caravan := { s.caravan with armed := s.caravan.armed ++ [i] } } : State)
        (near → exec (.caravanLeadTime i) s =
          .next (((armed.rivals w.ctx c).filter (fun x => x.2.status == .running)).foldl (fun s x => s.clearFor w.ctx opens x) armed))
        ∧ (¬near → exec (.caravanLeadTime i) s = .next s)
        ∧ (i ∉ s.caravan.armed → exec (.caravanWindowOpen i) s = .next s)
        ∧ (∀ opened, (openings t w s.st.now.toNat).1 = some opened →
            let closes := opened + w.length * microsecond
            let isOpen := ({ s with caravan := { s.caravan with armed := s.caravan.armed.filter (· != i), openWindows := s.caravan.openWindows ++ [i] } } : State)
            let isClosed := ({ s with caravan := { s.caravan with
              armed := s.caravan.armed.filter (· != i), openWindows := s.caravan.openWindows.filter (· != i) } } : State)
            (i ∈ s.caravan.armed → s.st.now.toNat < closes →
              (c.status = .running ∨ c.runnable = false → exec (.caravanWindowOpen i) s = .next isOpen)
              ∧ (c.status ≠ .running → c.runnable = true → exec (.caravanWindowOpen i) s = .next ((isOpen.putCtx w.ctx { c with resume := true }).settleCores)))
            ∧ (closes ≤ s.st.now.toNat → exec (.caravanWindowOpen i) s = .next s)
            ∧ (s.st.now.toNat < closes → exec (.caravanWindowClose i) s = .next s)
            ∧ (closes ≤ s.st.now.toNat → i ∈ s.caravan.armed ∨ i ∈ s.caravan.openWindows →
              (c.status = .running → w.exclusive = false → exec (.caravanWindowClose i) s = .next isClosed)
              ∧ (c.status = .running → w.exclusive = true → exec (.caravanWindowClose i) s = .next (isClosed.askToLeave w.ctx s.st.now.toNat))
              ∧ (c.status ≠ .running → exec (.caravanWindowClose i) s = .next (isClosed.putCtx w.ctx { c with resume := false })))))
    ∧ (∀ (k : Nat) (c : Ctx), k < 64 → s.ctx? k = some c →
        (s.mayLeave k c = false → exec (.preemptionSaveComplete k) s = .next s)
        ∧ (∀ l x, c.core? l = some x → ∃ d y, (s.saveAll k).ctx? k = some d ∧ d.core? l = some y ∧ y.inSlot = true)
        ∧ (s.mayLeave k c = true → c.resume = false → s.faults.samples = [] → (∀ p ∈ s.faults.phys, p.2.due = none) →
            ∃ t y, exec (.preemptionSaveComplete k) s = .next t ∧ t.ctx? k = some y ∧ y.status = .saved ∧ y.preempt = false
          ∧ y.lateFrom = none ∧ y.overrun = satAdd 32 c.overrun (c.overrunUs s.st.now.toNat))
        ∧ (s.mayLeave k c = true → c.small = true → s.faults.samples = [] → s.faults.phys = [] → (∀ x ∈ s.ctxs, x.2.resume = false) →
            exec (.preemptionSaveComplete k) s = .next ((s.saveAll k).updCtx k (fun d => { d with
              status := .saved, preempt := false, lateFrom := none, overrun := satAdd 32 d.overrun (d.overrunUs s.st.now.toNat) })))
        ∧ (c.resume = true → (c.status = .waiting ∨ c.status = .saved) → s.coresFree k c = true →
            ∃ t y, exec (.restoreComplete k) s = .next t ∧ t.ctx? k = some y ∧ y.status = .running ∧ y.resume = false ∧ y.placed = s.st.now
              ∧ (c.deferred = none → t.mem = s.mem))
        ∧ (c.resume = false ∨ s.coresFree k c = false → exec (.restoreComplete k) s = .next s)
        ∧ (c.status = .closing → s.quiet k = true →
            (c.closeCmd = none → exec (.teardownQuiescence k) s = .next (s.release k))
            ∧ (∀ id, c.closeCmd = some id → exec (.teardownQuiescence k) s = .next ((s.release k).complete id 0 0 [])))
        ∧ (s.quiet k = false ∨ c.status ≠ .closing → exec (.teardownQuiescence k) s = .next s)
        ∧ (s.quiet k = true ∨ c.status ≠ .closing ∨ s.st.now.toNat < c.closedAt.toNat + 100 * millisecond → exec (.teardownTimeout k) s = .next s)
        ∧ (c.status = .closing → c.closedAt.toNat + 100 * millisecond ≤ s.st.now.toNat → s.quiet k = false →
            let mine := s.rst.inProgress.find? (fun r => r.kind == 2 && r.num == k)
            (∀ r, mine = some r → exec (.teardownTimeout k) s = .next (s.escalate r))
            ∧ (mine = none → c.hung = true → exec (.teardownTimeout k) s = .next (s.resetDies k c.dies []))
            ∧ (mine = none → c.hung = false → ∃ t, exec (.teardownTimeout k) s = .next t
              ∧ ∀ d ∈ c.dies, ∃ y ∈ t.rst.inProgress, (y.kind = 3 ∧ y.die = d) ∨ y.kind = 7 ∨ y.kind = 8)))

/-! ## Attestation over SPDM (16 R427, R432) -/

/-- The answers of the SPDM responder (16 R427, R432): version 1.2, then capabilities, algorithms, and what they open; a request out of order is unexpected (the
code: log 87), one that is not supported is answered so, and nothing is answered where no transport reaches the controller. -/
def Obligations.SpdmAnswers : Prop :=
  ∀ (s : State) (p : Nat),
    let requests := fun (i : Instr) => i = .getVersion p ∨ i = .getCapabilities p ∨ (∃ a b, i = .negotiateAlgorithms p a b) ∨ i = .getDigests p
      ∨ (∃ slot offset len, i = .getCertificate p slot offset len) ∨ (∃ slot nonce, i = .challenge p slot nonce)
      ∨ (∃ index sign nonce, i = .getMeasurements p index sign nonce) ∨ ∃ code, i = .spdmUnsupportedRequest p code
    let answers := fun (i : Instr) (m : SpdmMsg) => exec i s = .next (s.respond p m)
    (s.spdmReaches p = false → ∀ i, requests i → exec i s = .next s)
    ∧ (s.spdmReaches p = true →
      (∃ t, exec (.getVersion p) s = .next t ∧ p ∈ t.mesa.spdmVersion ∧ p ∉ t.mesa.spdmCaps ∧ p ∉ t.mesa.spdmNegotiated
        ∧ nfind t.mesa.spdmOut p = some (SpdmMsg.mk 0x84 0 [0x12] false) ∧ t.ctxs = s.ctxs ∧ t.mem = s.mem)
      ∧ (p ∈ s.mesa.spdmVersion → ∃ t, exec (.getCapabilities p) s = .next t ∧ p ∈ t.mesa.spdmCaps ∧ t.mesa.spdmVersion = s.mesa.spdmVersion
          ∧ nfind t.mesa.spdmOut p = some (SpdmMsg.mk 0xE1 0 [0x12, 0x16] false))
      ∧ (p ∈ s.mesa.spdmCaps → ∀ sha mldsa, ∃ t, exec (.negotiateAlgorithms p sha mldsa) s = .next t ∧ (p ∈ t.mesa.spdmNegotiated ↔ sha = true ∧ mldsa = true)
          ∧ nfind t.mesa.spdmOut p = some (SpdmMsg.mk 0xE3 0 [if sha then 1 else 0, if mldsa then 1 else 0] false))
      ∧ (p ∈ s.mesa.spdmNegotiated →
          answers (.getDigests p) (SpdmMsg.mk 0x81 0 (sha3 chain) false)
          ∧ (∀ slot offset len, (slot = 0 → answers (.getCertificate p slot offset len) (SpdmMsg.mk 0x82 0 ((chain.drop offset).take len) false))
            ∧ (slot ≠ 0 → answers (.getCertificate p slot offset len) (spdmError 0x82 1)))
          ∧ (∀ slot nonce, (slot = 0 → ∃ t m, exec (.challenge p slot nonce) s = .next t ∧ nfind t.mesa.spdmOut p = some m ∧ m.error = false
              ∧ m.body = sha3 chain ++ nonce ++ s.mesa.sign (sha3 chain ++ nonce) ∧ t.mesa.signed = s.mesa.signed + 1)
            ∧ (slot ≠ 0 → answers (.challenge p slot nonce) (spdmError 0x83 1)))
          ∧ (∀ index nonce, let body := s.mesa.blocks index
            (index ≤ 8 → body = BitVec.ofNat 8 index :: s.mesa.measurement index) ∧ (index = 0xFF → body = (List.range 9).flatMap (fun i => BitVec.ofNat 8 i :: s.mesa.measurement i))
            ∧ (index ≤ 8 ∨ index = 0xFF → answers (.getMeasurements p index false nonce) (SpdmMsg.mk 0xE0 0 body false)
              ∧ ∃ t m, exec (.getMeasurements p index true nonce) s = .next t ∧ nfind t.mesa.spdmOut p = some m ∧ m.error = false
                ∧ m.body = body ++ nonce ++ s.mesa.sign (body ++ nonce) ∧ t.mesa.signed = s.mesa.signed + 1)
            ∧ (8 < index → index ≠ 0xFF → ∀ sign, answers (.getMeasurements p index sign nonce) (spdmError 0xE0 1))))
      ∧ (p ∉ s.mesa.spdmVersion → answers (.getCapabilities p) (spdmError 0xE1 4))
      ∧ (p ∉ s.mesa.spdmCaps → ∀ a b, answers (.negotiateAlgorithms p a b) (spdmError 0xE3 4))
      ∧ (p ∉ s.mesa.spdmNegotiated → answers (.getDigests p) (spdmError 0x81 4) ∧ (∀ slot offset len, answers (.getCertificate p slot offset len) (spdmError 0x82 4))
          ∧ (∀ slot nonce, answers (.challenge p slot nonce) (spdmError 0x83 4)) ∧ ∀ index sign nonce, answers (.getMeasurements p index sign nonce) (spdmError 0xE0 4))
      ∧ (∀ code, answers (.spdmUnsupportedRequest p code) (SpdmMsg.mk code 0 [0x07, BitVec.ofNat 8 code] true)))


/-! ## The machine as a whole -/

/-- The instructions whose whole effect lies in the core that executes them (05 R123, R125, R147): what such a command changes is one core of its context, and the
context's record of faults and poison; nothing outside the context, no other core, no byte of device memory. What the code of the scratchpad finds in the granules that an engine's
instruction reads is the one thing counted, or reported, outside (07 R193). -/
def Obligations.CoreInstructionsStayInTheirCore : Prop :=
  ∀ (s t : State) (k l : Nat) (errs : List (Nat × Flips)),
    let stays := fun (u : State) => ∃ c d : Ctx, s.ctx? k = some c ∧ t = u.putCtx k d ∧ (∀ m, m ≠ l → d.core? m = c.core? m)
      ∧ d = { c with cores := d.cores, faults := d.faults, stopping := d.stopping, poison := d.poison }
    (∀ i : Instr,
      (i ∈ [Instr.seqNop k l, .seqLoop k l, .seqEndl k l, .seqBrlc k l, .seqFence k l, .seqLi k l, .seqLih k l, .seqAddi k l, .seqAdd k l, .seqSub k l, .seqMul k l,
          .seqAnd k l, .seqOr k l, .seqXor k l, .seqShl k l, .seqShr k l, .seqRdlc k l, .seqRdid k l, .ckRdf k l, .ckClrf k l, .ckCap k l, .ckPoison k l, .gtClr k l]
        ∨ i ∈ [Instr.vxSt k l, .vxAdd k l, .vxSub k l, .vxMul k l, .vxFma k l, .vxMin k l, .vxMax k l, .vxSel k l, .vxCvt k l, .vxRcp k l, .vxRsq k l, .vxExp2 k l,
          .vxLog2 k l, .vxSqrt k l, .vxPadd k l, .vxPmul k l, .vxPfma k l, .vxIadd k l, .vxIsub k l, .vxImul k l, .vxAnd k l, .vxOr k l, .vxXor k l, .vxShl k l,
          .vxShr k l, .vxSra k l, .vxRsum k l, .vxRmax k l, .vxNfc k l, .vxM48add k l, .vxM48fma k l, .vxM48cvt k l, .vxLi k l, .grDraw k l, .mxStat k l]
        ∨ ∃ q, i = .wqWatch k l q) →
      exec i s = .next t → t = s ∨ stays s)
    ∧ (∀ i : Instr,
      (i ∈ [Instr.vxLd k l errs, .vxCvtmx k l errs, .vxLdmx k l errs, .rowStat k l errs, .rowMerge k l errs, .rowApply k l errs, .rowBwd k l errs, .rowKeep k l errs,
          .rowFetch k l errs, .netSend k l errs, .netMcast k l errs] ∨ ∃ q, i = .wqPost k l q errs) →
      exec i s = .next t → t = s ∨ ∃ (c : Ctx) (hit : List (Nat × Flips)), s.ctx? k = some c ∧ (∀ x ∈ hit, x ∈ errs) ∧ stays (s.foundErrors k l c hit))
    ∧ (∀ (c : Ctx) (hit : List (Nat × Flips)),
        let u := s.foundErrors k l c hit
        u.ctxs = s.ctxs ∧ u.net = s.net ∧ u.mem = { s.mem with spCe := u.mem.spCe })

/-- Every step keeps the standing properties of a state: device memories in canonical form (07 R204) and an attention log of at most 4,096 entries (12 R350). -/
def Obligations.StepKeepsInv : Prop := ∀ s t : State, s.Inv → step s = .next t → t.Inv

/-- The state after reset has the standing properties, and its registers read as the Reset column gives (17 R434, R435); DEV_STEPPING, DEV_GEOMETRY, DEV_SERIAL and PWR_LIMIT come from the configuration record, which is
the model's choice (log 10). -/
def Obligations.ResetState : Prop :=
  State.reset.Inv
  ∧ (∀ p ∈ [(0x00, 0x04565800), (0x18, 0x0010180C), (0x1C, 0), (0x20, 0), (0x11000, 0), (0x11004, 0), (0x11008, 0), (0x1100C, 0), (0x11010, 0), (0x13000, 0),
      (0x20000, 0), (0x20004, 0), (0x20008, 0x00001E00), (0x30004, 0), (0x30008, 0x10000000), (0x3000C, 0), (0x30010, 0), (0x30018, 0), (0x40008, 0),
      (0x4000C, 0x00F80000), (0x40010, 0), (0x40018, 0), (0x50008, 0x03020100), (0x80000, 0x00000080), (0x80010, 0xFFFF0000)],
      State.reset.readWord p.1 = BitVec.ofNat 32 p.2)
  ∧ (∀ n, n < 64 → State.reset.readWord (0x10008 + 0x40 * n) = 0x20000000 ∧ State.reset.readWord (0x10018 + 0x40 * n) = 0x20000000
      ∧ State.reset.readWord (0x10000 + 0x40 * n) = 0 ∧ State.reset.readWord (0x1000C + 0x40 * n) = 0 ∧ State.reset.readWord (0x1001C + 0x40 * n) = 0
      ∧ State.reset.readWord (0x60000 + 4 * n) = 0 ∧ State.reset.readWord (0x60100 + 4 * n) = 0 ∧ State.reset.readWord (0x60400 + 4 * n) = 0)
  ∧ (∀ n, n < 18 → State.reset.readWord (0x70000 + 4 * n) = 0 ∧ State.reset.readWord (0x70200 + 4 * n) = 0 ∧ State.reset.readWord (0x70280 + 4 * n) = 0
      ∧ State.reset.readWord (0x70300 + 4 * n) = 0 ∧ State.reset.readWord (0x70380 + 4 * n) = 0)

/-- A new event of a full log replaces the oldest acknowledged entry; without one, an event of level 1 or 2 is lost, and one of level 3 or more replaces the oldest
unacknowledged entry of level 1 or 2, or is lost. A lost event or a replaced entry still counts in ATTN_SEQ and raises Lost and Lost level (12 R351). -/
def Obligations.AttentionLogReplacement : Prop :=
  ∀ (s : State) (e : Event), s.attn.log.length = 4096 →
    let a := s.attn
    let b := (s.raise e).attn
    let lose := fun (level : Nat) => b.lost = min 2047 (a.lost + 1) ∧ b.lostLevel = max a.lostLevel level
    b.seq = a.seq + 1
    ∧ (∀ i x, a.log[i]? = some x → x.acked = true → (∀ j y, j < i → a.log[j]? = some y → y.acked = false) →
        ∃ n, n.seq = a.seq + 1 ∧ n.level = e.level ∧ n.acked = false ∧ b.log = a.log.eraseIdx i ++ [n] ∧ b.lost = a.lost ∧ b.lostLevel = a.lostLevel)
    ∧ ((∀ x ∈ a.log, x.acked = false) →
        (e.level ≤ 2 → b.log = a.log ∧ lose e.level)
        ∧ (3 ≤ e.level → ∀ i x, a.log[i]? = some x → x.level ≤ 2 → (∀ j y, j < i → a.log[j]? = some y → 3 ≤ y.level) →
            ∃ n, n.seq = a.seq + 1 ∧ n.level = e.level ∧ n.acked = false ∧ b.log = a.log.eraseIdx i ++ [n] ∧ lose x.level)
        ∧ (3 ≤ e.level → (∀ x ∈ a.log, 3 ≤ x.level) → b.log = a.log ∧ lose e.level))

/-- A block sum whose value is zero is −0 only if every product formed is −0. In every other case it is +0, including when the block has no products (04 R103). -/
def Obligations.ZeroBlockSums : Prop :=
  ∀ (kind : OperandKind) (badPair badScale : Bool) (xs ys : List FVal) (positions : Nat) (neg : Bool) (e : Int) (cause : Nat),
    blockSum kind badPair badScale xs ys positions = (.fin neg 0 e, cause) →
      let products := ((List.zip xs ys).take positions).map (fun p => (FVal.mul p.1 p.2).1)
      (neg = true ↔ products ≠ [] ∧ ∀ p ∈ products, ∃ u, p = .fin true 0 u)

/-- Non-finite operands decide the block sum before any window is formed (04 R102): an invalid scale, then 0 × ∞, then infinities of both signs, give NaN with their
cause; a NaN element gives NaN, an infinity of one sign that infinity, without a cause. -/
def Obligations.NonFiniteBlockSums : Prop :=
  ∀ (kind : OperandKind) (badScale : Bool) (xs ys : List FVal) (positions : Nat),
    let pairs := (List.zip xs ys).take positions
    let sum := blockSum kind false badScale xs ys positions
    let zeroInf := ∃ p ∈ pairs, (p.1.isZero = true ∧ ∃ n, p.2 = .inf n) ∨ (p.2.isZero = true ∧ ∃ n, p.1 = .inf n)
    let infs := fun (n : Bool) => ∃ p ∈ pairs, (FVal.mul p.1 p.2).1 = .inf n
    let aNan := ∃ p ∈ pairs, p.1 = .nan ∨ p.2 = .nan
    (badScale = true → sum = (.nan, 3))
    ∧ (badScale = false → zeroInf → sum = (.nan, 1))
    ∧ (badScale = false → ¬ zeroInf → infs true → infs false → sum = (.nan, 2))
    ∧ (badScale = false → ¬ zeroInf → ¬ (infs true ∧ infs false) → aNan → sum = (.nan, 0))
    ∧ (∀ n, badScale = false → ¬ zeroInf → infs n → ¬ infs (!n) → ¬ aNan → sum = (.inf n, 0))

/-- The one rounding procedure (03 R82) on a grid of unit 2^u: with k whole units and a remainder, an exact value stays; RTZ keeps k, RNE goes to the nearest and on a tie
to an even k, and SR goes away from zero exactly when the draw is less than the first 16 discarded bits. -/
def Obligations.RoundingModes : Prop :=
  ∀ (m : Nat) (e u : Int) (draw : Nat),
    let x : Rat := (m : Rat) * ratPow e
    let ulp : Rat := ratPow u
    ∃ (k : Nat) (rem : Rat), x = (k : Rat) * ulp + rem ∧ 0 ≤ rem ∧ rem < ulp
      ∧ (rem = 0 → ∀ mode, roundUnits m e u mode draw = (k, false))
      ∧ (rem ≠ 0 → roundUnits m e u .rtz draw = (k, true)
          ∧ roundUnits m e u .rne draw = ((if ulp / 2 < rem ∨ (rem = ulp / 2 ∧ k % 2 = 1) then k + 1 else k), true)
          ∧ roundUnits m e u .sr draw = ((if (draw : Int) < (rem * 65536 / ulp).floor then k + 1 else k), true))
end

