-- ==== Sys2Proof/Laws/Store.lean ====
section
/-! SUPPORT. What reading a sparse map or a table of records gives after a write, and that writes keep the canonical form. -/

namespace Sys2Proof.Machine

/-! ## Tables of records -/

section
variable {α : Type}

@[simp] theorem nget_nset_same (d : α) (m : List (Nat × α)) (k : Nat) (v : α) : nget d (nset m k v) k = v := by
  induction m with
  | nil => simp [nset, nget]
  | cons c m ih =>
    unfold nset
    split
    · simp [nget]
    · split
      · simp [nget]
      · rename_i h; simp [nget, ih, Ne.symm h]

theorem nget_nset_other (d : α) (m : List (Nat × α)) (k j : Nat) (v : α) (h : j ≠ k) : nget d (nset m k v) j = nget d m j := by
  induction m with
  | nil => simp [nset, nget, Ne.symm h]
  | cons c m ih =>
    unfold nset
    split
    · simp [nget, Ne.symm h]
    · split
      · rename_i h2; simp [nget, Ne.symm h, ← h2]
      · simp [nget, ih]

@[simp] theorem nfind_nset_same (m : List (Nat × α)) (k : Nat) (v : α) : nfind (nset m k v) k = some v := by
  induction m with
  | nil => simp [nset, nfind]
  | cons c m ih =>
    unfold nset
    split
    · simp [nfind]
    · split
      · simp [nfind]
      · rename_i h; simp [nfind, ih, Ne.symm h]

theorem nfind_nset_other (m : List (Nat × α)) (k j : Nat) (v : α) (h : j ≠ k) : nfind (nset m k v) j = nfind m j := by
  induction m with
  | nil => simp [nset, nfind, Ne.symm h]
  | cons c m ih =>
    unfold nset
    split
    · simp [nfind, Ne.symm h]
    · split
      · rename_i h2; simp [nfind, Ne.symm h, ← h2]
      · simp [nfind, ih]

/-- The last write of a number stands. -/
@[simp] theorem nset_nset (m : List (Nat × α)) (k : Nat) (v w : α) : nset (nset m k v) k w = nset m k w := by
  induction m with
  | nil => simp [nset]
  | cons c m ih =>
    by_cases h1 : k < c.1
    · simp [nset, h1]
    · by_cases h2 : k = c.1
      · simp [nset, ← h2]
      · simp [nset, h1, h2, ih]

end

/-! ## Sparse maps -/

section
variable {w : Nat}

/-- A key below every listed key reads zero. -/
theorem sget_below (m : SMap w) (k : Nat) (h : ∀ c ∈ m, k < c.1) : sget m k = 0 := by
  induction m with
  | nil => rfl
  | cons c m ih =>
    have hc := h c (by simp)
    rw [sget, if_neg (by omega)]
    exact ih (fun d hd => h d (by simp [hd]))

/-- Every key of a written map is the key written or an old key. -/
theorem mem_sset (m : SMap w) (k : Nat) (v : BitVec w) (c : Nat × BitVec w) (h : c ∈ sset m k v) : (c = (k, v) ∧ v ≠ 0) ∨ c ∈ m := by
  induction m with
  | nil => unfold sset at h; split at h <;> simp_all
  | cons d m ih =>
    unfold sset at h
    split at h
    · split at h <;> simp_all
    · split at h
      · split at h
        · exact .inr (by simp [h])
        · rcases List.mem_cons.1 h with h | h
          · exact .inl ⟨h, by assumption⟩
          · exact .inr (by simp [h])
      · rcases List.mem_cons.1 h with h | h
        · exact .inr (by simp [h])
        · rcases ih h with h | h
          · exact .inl h
          · exact .inr (by simp [h])

/-- A write keeps the canonical form. -/
theorem wf_sset (m : SMap w) (k : Nat) (v : BitVec w) (h : SMap.wf m) : SMap.wf (sset m k v) := by
  refine ⟨?_, fun c hc => ?_⟩
  · induction m with
    | nil => unfold sset; split <;> simp
    | cons d m ih =>
      obtain ⟨hp, hz⟩ := h
      rw [List.pairwise_cons] at hp
      have ht : SMap.wf m := ⟨hp.2, fun c hc => hz c (by simp [hc])⟩
      unfold sset
      split
      · split
        · exact List.pairwise_cons.2 hp
        · rename_i hk _
          refine List.pairwise_cons.2 ⟨fun c hc => ?_, List.pairwise_cons.2 hp⟩
          rcases List.mem_cons.1 hc with rfl | hc
          · exact hk
          · exact Nat.lt_trans hk (hp.1 c hc)
      · split
        · split
          · exact hp.2
          · rename_i hk _
            exact List.pairwise_cons.2 ⟨fun c hc => by rw [hk]; exact hp.1 c hc, hp.2⟩
        · refine List.pairwise_cons.2 ⟨fun c hc => ?_, ih ht⟩
          rcases mem_sset m k v c hc with ⟨rfl, _⟩ | hc
          · show d.1 < k; omega
          · exact hp.1 c hc
  · rcases mem_sset m k v c hc with ⟨rfl, hv⟩ | hc
    · exact hv
    · exact h.2 c hc

/-- Writes of consecutive keys keep the canonical form. -/
theorem wf_ssetAll (m : SMap w) (k : Nat) (l : List (BitVec w)) (h : SMap.wf m) : SMap.wf (ssetAll m k l) := by
  induction l generalizing m k with
  | nil => exact h
  | cons v l ih => exact ih _ _ (wf_sset m k v h)

/-- Removing keys keeps the canonical form. -/
theorem wf_filter (m : SMap w) (p : Nat × BitVec w → Bool) (h : SMap.wf m) : SMap.wf (m.filter p) :=
  ⟨h.1.filter _, fun c hc => h.2 c (List.mem_of_mem_filter hc)⟩

theorem wf_nil : SMap.wf ([] : SMap w) := ⟨List.Pairwise.nil, fun _ h => absurd h (by simp)⟩

/-- A written key reads what was written. -/
theorem sget_sset_same (m : SMap w) (k : Nat) (v : BitVec w) (h : SMap.wf m) : sget (sset m k v) k = v := by
  induction m with
  | nil => unfold sset; split <;> simp_all [sget]
  | cons c m ih =>
    obtain ⟨hp, hz⟩ := h
    rw [List.pairwise_cons] at hp
    have below : ∀ j, j ≤ c.1 → sget m j = 0 := fun j hj => sget_below m j (fun d hd => by have := hp.1 d hd; omega)
    unfold sset
    split
    · split
      · rename_i hk hv
        rw [sget, if_neg (by omega), below k (by omega), hv]
      · simp [sget]
    · split
      · split
        · rename_i hk hv
          rw [below k (by omega), hv]
        · simp [sget]
      · rename_i h1 h2
        rw [sget, if_neg (by omega)]
        exact ih ⟨hp.2, fun d hd => hz d (by simp [hd])⟩

/-- A write leaves every other key alone. -/
theorem sget_sset_other (m : SMap w) (k j : Nat) (v : BitVec w) (h : SMap.wf m) (hj : j ≠ k) : sget (sset m k v) j = sget m j := by
  induction m with
  | nil => unfold sset; split <;> simp [sget]; omega
  | cons c m ih =>
    obtain ⟨hp, hz⟩ := h
    rw [List.pairwise_cons] at hp
    unfold sset
    split
    · split
      · rfl
      · simp [sget, Ne.symm hj]
    · split
      · rename_i hk
        split
        · by_cases hc : c.1 = j
          · omega
          · simp [sget, hc]
        · simp [sget, Ne.symm hj, ← hk]
      · by_cases hc : c.1 = j
        · simp [sget, hc]
        · simp [sget, hc, ih ⟨hp.2, fun d hd => hz d (by simp [hd])⟩]

/-- A key outside the keys written reads as before. -/
theorem sget_ssetAll_other (m : SMap w) (k j : Nat) (l : List (BitVec w)) (h : SMap.wf m) (hj : j < k ∨ k + l.length ≤ j) :
    sget (ssetAll m k l) j = sget m j := by
  induction l generalizing m k with
  | nil => rfl
  | cons v l ih =>
    rw [ssetAll, ih _ _ (wf_sset m k v h) (by simp at hj; omega), sget_sset_other m k j v h (by simp at hj; omega)]

/-- The keys written read what was written. -/
theorem sget_ssetAll (m : SMap w) (k i : Nat) (l : List (BitVec w)) (h : SMap.wf m) (hi : i < l.length) : sget (ssetAll m k l) (k + i) = l[i] := by
  induction l generalizing m k i with
  | nil => simp at hi
  | cons v l ih =>
    rw [ssetAll]
    cases i with
    | zero => rw [sget_ssetAll_other _ _ _ _ (wf_sset m k v h) (by omega)]; simpa using sget_sset_same m k v h
    | succ i =>
      have := ih (sset m k v) (k + 1) i (wf_sset m k v h) (by simpa using hi)
      rw [show k + (i + 1) = k + 1 + i by omega, this]; simp

/-- Reading back a run of keys just written. -/
theorem sgetAll_ssetAll (m : SMap w) (k : Nat) (l : List (BitVec w)) (h : SMap.wf m) : sgetAll (ssetAll m k l) k l.length = l := by
  refine List.ext_getElem (by simp [sgetAll]) (fun i h1 h2 => ?_)
  simp [sgetAll, sget_ssetAll m k i l h h2]

end

end Sys2Proof.Machine
end

