-- ==== Sys2Proof/Laws/Memory.lean ====
section
/-! SUPPORT. What a write of device memory can do: it changes memory alone, keeps its canonical form, and leaves every granule that it does not touch. -/

namespace Sys2Proof.Machine

/-! ## Only memory changes -/

theorem storePart_mem (s : State) (a : Nat) (b : List Byte) (p : Bool) : s.storePart a b p = { s with mem := (s.storePart a b p).mem } := by
  unfold State.storePart
  split
  · rfl
  · simp only
    split <;> rfl

theorem storeGo_mem (n : Nat) (s : State) (a : Nat) (b : List Byte) (p : Bool) : State.storeGo n s a b p = { s with mem := (State.storeGo n s a b p).mem } := by
  induction n generalizing s a b with
  | zero => rfl
  | succ n ih =>
    unfold State.storeGo
    split
    · rfl
    · simp only
      rw [ih, storePart_mem]

/-- A write of device memory changes memory alone (07 R204). -/
theorem store_mem (s : State) (a : Nat) (b : List Byte) : s.store a b = { s with mem := (s.store a b).mem } := storeGo_mem _ _ _ _ _

theorem storeGranules_mem (s : State) (a : Nat) (b : List Byte) (ps : List Bool) : s.storeGranules a b ps = { s with mem := (s.storeGranules a b ps).mem } := by
  induction ps generalizing s a b with
  | nil => rfl
  | cons p ps ih =>
    unfold State.storeGranules
    rw [ih, storePart_mem]

@[simp] theorem store_ctxs (s : State) (a : Nat) (b : List Byte) : (s.store a b).ctxs = s.ctxs := by rw [store_mem]
@[simp] theorem store_host (s : State) (a : Nat) (b : List Byte) : (s.store a b).host = s.host := by rw [store_mem]
@[simp] theorem store_attn (s : State) (a : Nat) (b : List Byte) : (s.store a b).attn = s.attn := by rw [store_mem]
@[simp] theorem store_st (s : State) (a : Nat) (b : List Byte) : (s.store a b).st = s.st := by rw [store_mem]
@[simp] theorem store_seif (s : State) (a : Nat) (b : List Byte) : (s.store a b).seif = s.seif := by rw [store_mem]
@[simp] theorem store_net (s : State) (a : Nat) (b : List Byte) : (s.store a b).net = s.net := by rw [store_mem]
@[simp] theorem store_rst (s : State) (a : Nat) (b : List Byte) : (s.store a b).rst = s.rst := by rw [store_mem]
@[simp] theorem store_freeCount (s : State) (a : Nat) (b : List Byte) : (s.store a b).freeCount = s.freeCount := by rw [store_mem]
@[simp] theorem store_ctx? (s : State) (a : Nat) (b : List Byte) (k : Nat) : (s.store a b).ctx? k = s.ctx? k := by simp [State.ctx?]

/-! ## The canonical form is kept -/

theorem storePart_wf (s : State) (a : Nat) (b : List Byte) (p : Bool) (h : Memory.wf s.mem) : Memory.wf (s.storePart a b p).mem := by
  obtain ⟨h1, h2, h3⟩ := h
  unfold State.storePart
  split
  · exact ⟨h1, h2, h3⟩
  · simp only
    split
    · refine ⟨?_, ?_, h3⟩ <;> dsimp only
      · apply wf_ssetAll; exact h1
      · apply wf_sset; exact h2
    · refine ⟨?_, ?_, ?_⟩ <;> dsimp only
      · apply wf_ssetAll; exact h1
      · apply wf_sset; exact h2
      · split
        · apply wf_sset; exact h3
        · exact h3

theorem storeGo_wf (n : Nat) (s : State) (a : Nat) (b : List Byte) (p : Bool) (h : Memory.wf s.mem) : Memory.wf (State.storeGo n s a b p).mem := by
  induction n generalizing s a b with
  | zero => exact h
  | succ n ih =>
    unfold State.storeGo
    split
    · exact h
    · exact ih _ _ _ (storePart_wf _ _ _ _ h)

/-- A write of device memory keeps the canonical form. -/
theorem store_wf (s : State) (a : Nat) (b : List Byte) (h : Memory.wf s.mem) : Memory.wf (s.store a b).mem := storeGo_wf _ _ _ _ _ h

theorem storeGranules_wf (s : State) (a : Nat) (b : List Byte) (ps : List Bool) (h : Memory.wf s.mem) : Memory.wf (s.storeGranules a b ps).mem := by
  induction ps generalizing s a b with
  | nil => exact h
  | cons p ps ih => exact ih _ _ _ (storePart_wf _ _ _ _ h)

theorem wf_foldl_sset {w : Nat} {α : Type} (f : α → Nat) (g : α → BitVec w) (l : List α) (m : SMap w) (h : SMap.wf m) :
    SMap.wf (l.foldl (fun m e => sset m (f e) (g e)) m) := by
  induction l generalizing m with
  | nil => exact h
  | cons e l ih => exact ih _ (wf_sset _ _ _ h)

theorem wf_splice {w : Nat} (m : SMap w) (a n : Nat) (src : SMap w) (h : SMap.wf m) : SMap.wf (splice m a n src) :=
  wf_foldl_sset (fun (e : Nat × BitVec w) => a + e.1) (fun e => e.2) _ _ (wf_filter _ _ h)

/-- A save of whole granules keeps the canonical form. -/
theorem putRange_wf (s : State) (a n : Nat) (b : SMap 8) (p : SMap 1) (h : Memory.wf s.mem) : Memory.wf (s.putRange a n b p).mem :=
  ⟨wf_splice _ _ _ _ h.1, wf_splice _ _ _ _ h.2.1, wf_foldl_sset (fun x => x / 64) (fun _ => 1) _ _ h.2.2⟩

theorem reset_memory_wf : Memory.wf Mem.reset := ⟨wf_nil, wf_nil, wf_nil⟩

/-! ## What a part of a granule reads as after a write -/

/-- Bytes of other granules stay. -/
theorem storePart_other (s : State) (a j : Nat) (b : List Byte) (p : Bool) (h : SMap.wf s.mem.bytes) (hb : a % 64 + b.length ≤ 64) (hj : j / 64 ≠ a / 64) :
    sget (s.storePart a b p).mem.bytes j = sget s.mem.bytes j := by
  unfold State.storePart
  split
  · rfl
  · simp only
    split <;> dsimp only
    · rw [sget_ssetAll_other _ _ _ _ h (by rw [List.length_replicate]; omega)]
    · rw [sget_ssetAll_other _ _ _ _ h (by omega)]

/-- Part of an unpoisoned granule that is there reads back as written. -/
theorem storePart_same (s : State) (a : Nat) (b : List Byte) (h : SMap.wf s.mem.bytes) (hw : s.withdrawn a = false) (hf : s.farOut a = false)
    (hl : s.lostAt a = false) (hp : sget s.mem.poison (a / 64) = 0) : (s.storePart a b false).load a b.length = b := by
  unfold State.storePart State.load
  rw [if_neg (by simp [hw, hf])]
  simp only [hl, hp, bne_self_eq_false, Bool.or_self, Bool.false_and]
  exact sgetAll_ssetAll _ _ _ h

end Sys2Proof.Machine
end

