-- ==== Sys2Proof/Laws/State.lean ====
section
/-! SUPPORT. What each named update of the state leaves, field by field, and what it puts where it writes. -/

namespace Sys2Proof.Machine

/-! ## putCtx -/

@[simp] theorem putCtx_pending (s : State) (k : Nat) (c : Ctx) : (s.putCtx k c).pending = s.pending := rfl
@[simp] theorem putCtx_cfg (s : State) (k : Nat) (c : Ctx) : (s.putCtx k c).cfg = s.cfg := rfl
@[simp] theorem putCtx_health (s : State) (k : Nat) (c : Ctx) : (s.putCtx k c).health = s.health := rfl
@[simp] theorem putCtx_flash (s : State) (k : Nat) (c : Ctx) : (s.putCtx k c).flash = s.flash := rfl
@[simp] theorem putCtx_mesa (s : State) (k : Nat) (c : Ctx) : (s.putCtx k c).mesa = s.mesa := rfl
@[simp] theorem putCtx_pins (s : State) (k : Nat) (c : Ctx) : (s.putCtx k c).pins = s.pins := rfl
@[simp] theorem putCtx_st (s : State) (k : Nat) (c : Ctx) : (s.putCtx k c).st = s.st := rfl
@[simp] theorem putCtx_host (s : State) (k : Nat) (c : Ctx) : (s.putCtx k c).host = s.host := rfl
@[simp] theorem putCtx_attn (s : State) (k : Nat) (c : Ctx) : (s.putCtx k c).attn = s.attn := rfl
@[simp] theorem putCtx_faults (s : State) (k : Nat) (c : Ctx) : (s.putCtx k c).faults = s.faults := rfl
@[simp] theorem putCtx_power (s : State) (k : Nat) (c : Ctx) : (s.putCtx k c).power = s.power := rfl
@[simp] theorem putCtx_rst (s : State) (k : Nat) (c : Ctx) : (s.putCtx k c).rst = s.rst := rfl
@[simp] theorem putCtx_svc (s : State) (k : Nat) (c : Ctx) : (s.putCtx k c).svc = s.svc := rfl
@[simp] theorem putCtx_captures (s : State) (k : Nat) (c : Ctx) : (s.putCtx k c).captures = s.captures := rfl
@[simp] theorem putCtx_nextCapture (s : State) (k : Nat) (c : Ctx) : (s.putCtx k c).nextCapture = s.nextCapture := rfl
@[simp] theorem putCtx_mem (s : State) (k : Nat) (c : Ctx) : (s.putCtx k c).mem = s.mem := rfl
@[simp] theorem putCtx_xlate (s : State) (k : Nat) (c : Ctx) : (s.putCtx k c).xlate = s.xlate := rfl
@[simp] theorem putCtx_xlVersion (s : State) (k : Nat) (c : Ctx) : (s.putCtx k c).xlVersion = s.xlVersion := rfl
@[simp] theorem putCtx_net (s : State) (k : Nat) (c : Ctx) : (s.putCtx k c).net = s.net := rfl
@[simp] theorem putCtx_seif (s : State) (k : Nat) (c : Ctx) : (s.putCtx k c).seif = s.seif := rfl
@[simp] theorem putCtx_colls (s : State) (k : Nat) (c : Ctx) : (s.putCtx k c).colls = s.colls := rfl
@[simp] theorem putCtx_caravan (s : State) (k : Nat) (c : Ctx) : (s.putCtx k c).caravan = s.caravan := rfl
@[simp] theorem putCtx_epochCounter (s : State) (k : Nat) (c : Ctx) : (s.putCtx k c).epochCounter = s.epochCounter := rfl
@[simp] theorem putCtx_freeCount (s : State) (k : Nat) (c : Ctx) : (s.putCtx k c).freeCount = s.freeCount := rfl

/-! ## putPort -/

@[simp] theorem putPort_pending (s : State) (p : Nat) (x : Port) : (s.putPort p x).pending = s.pending := rfl
@[simp] theorem putPort_cfg (s : State) (p : Nat) (x : Port) : (s.putPort p x).cfg = s.cfg := rfl
@[simp] theorem putPort_health (s : State) (p : Nat) (x : Port) : (s.putPort p x).health = s.health := rfl
@[simp] theorem putPort_flash (s : State) (p : Nat) (x : Port) : (s.putPort p x).flash = s.flash := rfl
@[simp] theorem putPort_mesa (s : State) (p : Nat) (x : Port) : (s.putPort p x).mesa = s.mesa := rfl
@[simp] theorem putPort_pins (s : State) (p : Nat) (x : Port) : (s.putPort p x).pins = s.pins := rfl
@[simp] theorem putPort_st (s : State) (p : Nat) (x : Port) : (s.putPort p x).st = s.st := rfl
@[simp] theorem putPort_host (s : State) (p : Nat) (x : Port) : (s.putPort p x).host = s.host := rfl
@[simp] theorem putPort_attn (s : State) (p : Nat) (x : Port) : (s.putPort p x).attn = s.attn := rfl
@[simp] theorem putPort_faults (s : State) (p : Nat) (x : Port) : (s.putPort p x).faults = s.faults := rfl
@[simp] theorem putPort_power (s : State) (p : Nat) (x : Port) : (s.putPort p x).power = s.power := rfl
@[simp] theorem putPort_rst (s : State) (p : Nat) (x : Port) : (s.putPort p x).rst = s.rst := rfl
@[simp] theorem putPort_svc (s : State) (p : Nat) (x : Port) : (s.putPort p x).svc = s.svc := rfl
@[simp] theorem putPort_captures (s : State) (p : Nat) (x : Port) : (s.putPort p x).captures = s.captures := rfl
@[simp] theorem putPort_nextCapture (s : State) (p : Nat) (x : Port) : (s.putPort p x).nextCapture = s.nextCapture := rfl
@[simp] theorem putPort_mem (s : State) (p : Nat) (x : Port) : (s.putPort p x).mem = s.mem := rfl
@[simp] theorem putPort_xlate (s : State) (p : Nat) (x : Port) : (s.putPort p x).xlate = s.xlate := rfl
@[simp] theorem putPort_xlVersion (s : State) (p : Nat) (x : Port) : (s.putPort p x).xlVersion = s.xlVersion := rfl
@[simp] theorem putPort_net (s : State) (p : Nat) (x : Port) : (s.putPort p x).net = s.net := rfl
@[simp] theorem putPort_colls (s : State) (p : Nat) (x : Port) : (s.putPort p x).colls = s.colls := rfl
@[simp] theorem putPort_ctxs (s : State) (p : Nat) (x : Port) : (s.putPort p x).ctxs = s.ctxs := rfl
@[simp] theorem putPort_caravan (s : State) (p : Nat) (x : Port) : (s.putPort p x).caravan = s.caravan := rfl
@[simp] theorem putPort_epochCounter (s : State) (p : Nat) (x : Port) : (s.putPort p x).epochCounter = s.epochCounter := rfl
@[simp] theorem putPort_freeCount (s : State) (p : Nat) (x : Port) : (s.putPort p x).freeCount = s.freeCount := rfl

/-! ## putRing -/

@[simp] theorem putRing_pending (s : State) (n : Nat) (r : Ring) : (s.putRing n r).pending = s.pending := rfl
@[simp] theorem putRing_cfg (s : State) (n : Nat) (r : Ring) : (s.putRing n r).cfg = s.cfg := rfl
@[simp] theorem putRing_health (s : State) (n : Nat) (r : Ring) : (s.putRing n r).health = s.health := rfl
@[simp] theorem putRing_flash (s : State) (n : Nat) (r : Ring) : (s.putRing n r).flash = s.flash := rfl
@[simp] theorem putRing_mesa (s : State) (n : Nat) (r : Ring) : (s.putRing n r).mesa = s.mesa := rfl
@[simp] theorem putRing_pins (s : State) (n : Nat) (r : Ring) : (s.putRing n r).pins = s.pins := rfl
@[simp] theorem putRing_st (s : State) (n : Nat) (r : Ring) : (s.putRing n r).st = s.st := rfl
@[simp] theorem putRing_attn (s : State) (n : Nat) (r : Ring) : (s.putRing n r).attn = s.attn := rfl
@[simp] theorem putRing_faults (s : State) (n : Nat) (r : Ring) : (s.putRing n r).faults = s.faults := rfl
@[simp] theorem putRing_power (s : State) (n : Nat) (r : Ring) : (s.putRing n r).power = s.power := rfl
@[simp] theorem putRing_rst (s : State) (n : Nat) (r : Ring) : (s.putRing n r).rst = s.rst := rfl
@[simp] theorem putRing_svc (s : State) (n : Nat) (r : Ring) : (s.putRing n r).svc = s.svc := rfl
@[simp] theorem putRing_captures (s : State) (n : Nat) (r : Ring) : (s.putRing n r).captures = s.captures := rfl
@[simp] theorem putRing_nextCapture (s : State) (n : Nat) (r : Ring) : (s.putRing n r).nextCapture = s.nextCapture := rfl
@[simp] theorem putRing_mem (s : State) (n : Nat) (r : Ring) : (s.putRing n r).mem = s.mem := rfl
@[simp] theorem putRing_xlate (s : State) (n : Nat) (r : Ring) : (s.putRing n r).xlate = s.xlate := rfl
@[simp] theorem putRing_xlVersion (s : State) (n : Nat) (r : Ring) : (s.putRing n r).xlVersion = s.xlVersion := rfl
@[simp] theorem putRing_net (s : State) (n : Nat) (r : Ring) : (s.putRing n r).net = s.net := rfl
@[simp] theorem putRing_seif (s : State) (n : Nat) (r : Ring) : (s.putRing n r).seif = s.seif := rfl
@[simp] theorem putRing_colls (s : State) (n : Nat) (r : Ring) : (s.putRing n r).colls = s.colls := rfl
@[simp] theorem putRing_ctxs (s : State) (n : Nat) (r : Ring) : (s.putRing n r).ctxs = s.ctxs := rfl
@[simp] theorem putRing_caravan (s : State) (n : Nat) (r : Ring) : (s.putRing n r).caravan = s.caravan := rfl
@[simp] theorem putRing_epochCounter (s : State) (n : Nat) (r : Ring) : (s.putRing n r).epochCounter = s.epochCounter := rfl
@[simp] theorem putRing_freeCount (s : State) (n : Nat) (r : Ring) : (s.putRing n r).freeCount = s.freeCount := rfl

/-! ## busWrite -/

@[simp] theorem busWrite_pending (s : State) (a : Nat) (b : List Byte) : (s.busWrite a b).pending = s.pending := rfl
@[simp] theorem busWrite_cfg (s : State) (a : Nat) (b : List Byte) : (s.busWrite a b).cfg = s.cfg := rfl
@[simp] theorem busWrite_health (s : State) (a : Nat) (b : List Byte) : (s.busWrite a b).health = s.health := rfl
@[simp] theorem busWrite_flash (s : State) (a : Nat) (b : List Byte) : (s.busWrite a b).flash = s.flash := rfl
@[simp] theorem busWrite_mesa (s : State) (a : Nat) (b : List Byte) : (s.busWrite a b).mesa = s.mesa := rfl
@[simp] theorem busWrite_pins (s : State) (a : Nat) (b : List Byte) : (s.busWrite a b).pins = s.pins := rfl
@[simp] theorem busWrite_st (s : State) (a : Nat) (b : List Byte) : (s.busWrite a b).st = s.st := rfl
@[simp] theorem busWrite_attn (s : State) (a : Nat) (b : List Byte) : (s.busWrite a b).attn = s.attn := rfl
@[simp] theorem busWrite_faults (s : State) (a : Nat) (b : List Byte) : (s.busWrite a b).faults = s.faults := rfl
@[simp] theorem busWrite_power (s : State) (a : Nat) (b : List Byte) : (s.busWrite a b).power = s.power := rfl
@[simp] theorem busWrite_rst (s : State) (a : Nat) (b : List Byte) : (s.busWrite a b).rst = s.rst := rfl
@[simp] theorem busWrite_svc (s : State) (a : Nat) (b : List Byte) : (s.busWrite a b).svc = s.svc := rfl
@[simp] theorem busWrite_captures (s : State) (a : Nat) (b : List Byte) : (s.busWrite a b).captures = s.captures := rfl
@[simp] theorem busWrite_nextCapture (s : State) (a : Nat) (b : List Byte) : (s.busWrite a b).nextCapture = s.nextCapture := rfl
@[simp] theorem busWrite_mem (s : State) (a : Nat) (b : List Byte) : (s.busWrite a b).mem = s.mem := rfl
@[simp] theorem busWrite_xlate (s : State) (a : Nat) (b : List Byte) : (s.busWrite a b).xlate = s.xlate := rfl
@[simp] theorem busWrite_xlVersion (s : State) (a : Nat) (b : List Byte) : (s.busWrite a b).xlVersion = s.xlVersion := rfl
@[simp] theorem busWrite_net (s : State) (a : Nat) (b : List Byte) : (s.busWrite a b).net = s.net := rfl
@[simp] theorem busWrite_seif (s : State) (a : Nat) (b : List Byte) : (s.busWrite a b).seif = s.seif := rfl
@[simp] theorem busWrite_colls (s : State) (a : Nat) (b : List Byte) : (s.busWrite a b).colls = s.colls := rfl
@[simp] theorem busWrite_ctxs (s : State) (a : Nat) (b : List Byte) : (s.busWrite a b).ctxs = s.ctxs := rfl
@[simp] theorem busWrite_caravan (s : State) (a : Nat) (b : List Byte) : (s.busWrite a b).caravan = s.caravan := rfl
@[simp] theorem busWrite_epochCounter (s : State) (a : Nat) (b : List Byte) : (s.busWrite a b).epochCounter = s.epochCounter := rfl
@[simp] theorem busWrite_freeCount (s : State) (a : Nat) (b : List Byte) : (s.busWrite a b).freeCount = s.freeCount := rfl

/-! ## badAccess -/

@[simp] theorem badAccess_pending (s : State) (off kind : Nat) : (s.badAccess off kind).pending = s.pending := rfl
@[simp] theorem badAccess_cfg (s : State) (off kind : Nat) : (s.badAccess off kind).cfg = s.cfg := rfl
@[simp] theorem badAccess_health (s : State) (off kind : Nat) : (s.badAccess off kind).health = s.health := rfl
@[simp] theorem badAccess_flash (s : State) (off kind : Nat) : (s.badAccess off kind).flash = s.flash := rfl
@[simp] theorem badAccess_mesa (s : State) (off kind : Nat) : (s.badAccess off kind).mesa = s.mesa := rfl
@[simp] theorem badAccess_pins (s : State) (off kind : Nat) : (s.badAccess off kind).pins = s.pins := rfl
@[simp] theorem badAccess_st (s : State) (off kind : Nat) : (s.badAccess off kind).st = s.st := rfl
@[simp] theorem badAccess_attn (s : State) (off kind : Nat) : (s.badAccess off kind).attn = s.attn := rfl
@[simp] theorem badAccess_faults (s : State) (off kind : Nat) : (s.badAccess off kind).faults = s.faults := rfl
@[simp] theorem badAccess_power (s : State) (off kind : Nat) : (s.badAccess off kind).power = s.power := rfl
@[simp] theorem badAccess_rst (s : State) (off kind : Nat) : (s.badAccess off kind).rst = s.rst := rfl
@[simp] theorem badAccess_svc (s : State) (off kind : Nat) : (s.badAccess off kind).svc = s.svc := rfl
@[simp] theorem badAccess_captures (s : State) (off kind : Nat) : (s.badAccess off kind).captures = s.captures := rfl
@[simp] theorem badAccess_nextCapture (s : State) (off kind : Nat) : (s.badAccess off kind).nextCapture = s.nextCapture := rfl
@[simp] theorem badAccess_mem (s : State) (off kind : Nat) : (s.badAccess off kind).mem = s.mem := rfl
@[simp] theorem badAccess_xlate (s : State) (off kind : Nat) : (s.badAccess off kind).xlate = s.xlate := rfl
@[simp] theorem badAccess_xlVersion (s : State) (off kind : Nat) : (s.badAccess off kind).xlVersion = s.xlVersion := rfl
@[simp] theorem badAccess_net (s : State) (off kind : Nat) : (s.badAccess off kind).net = s.net := rfl
@[simp] theorem badAccess_seif (s : State) (off kind : Nat) : (s.badAccess off kind).seif = s.seif := rfl
@[simp] theorem badAccess_colls (s : State) (off kind : Nat) : (s.badAccess off kind).colls = s.colls := rfl
@[simp] theorem badAccess_ctxs (s : State) (off kind : Nat) : (s.badAccess off kind).ctxs = s.ctxs := rfl
@[simp] theorem badAccess_caravan (s : State) (off kind : Nat) : (s.badAccess off kind).caravan = s.caravan := rfl
@[simp] theorem badAccess_epochCounter (s : State) (off kind : Nat) : (s.badAccess off kind).epochCounter = s.epochCounter := rfl
@[simp] theorem badAccess_freeCount (s : State) (off kind : Nat) : (s.badAccess off kind).freeCount = s.freeCount := rfl

/-! ## setSuspect -/

@[simp] theorem setSuspect_pending (s : State) (i : Nat) (x : Suspect) : (s.setSuspect i x).pending = s.pending := rfl
@[simp] theorem setSuspect_cfg (s : State) (i : Nat) (x : Suspect) : (s.setSuspect i x).cfg = s.cfg := rfl
@[simp] theorem setSuspect_health (s : State) (i : Nat) (x : Suspect) : (s.setSuspect i x).health = s.health := rfl
@[simp] theorem setSuspect_flash (s : State) (i : Nat) (x : Suspect) : (s.setSuspect i x).flash = s.flash := rfl
@[simp] theorem setSuspect_mesa (s : State) (i : Nat) (x : Suspect) : (s.setSuspect i x).mesa = s.mesa := rfl
@[simp] theorem setSuspect_pins (s : State) (i : Nat) (x : Suspect) : (s.setSuspect i x).pins = s.pins := rfl
@[simp] theorem setSuspect_st (s : State) (i : Nat) (x : Suspect) : (s.setSuspect i x).st = s.st := rfl
@[simp] theorem setSuspect_host (s : State) (i : Nat) (x : Suspect) : (s.setSuspect i x).host = s.host := rfl
@[simp] theorem setSuspect_attn (s : State) (i : Nat) (x : Suspect) : (s.setSuspect i x).attn = s.attn := rfl
@[simp] theorem setSuspect_power (s : State) (i : Nat) (x : Suspect) : (s.setSuspect i x).power = s.power := rfl
@[simp] theorem setSuspect_rst (s : State) (i : Nat) (x : Suspect) : (s.setSuspect i x).rst = s.rst := rfl
@[simp] theorem setSuspect_svc (s : State) (i : Nat) (x : Suspect) : (s.setSuspect i x).svc = s.svc := rfl
@[simp] theorem setSuspect_captures (s : State) (i : Nat) (x : Suspect) : (s.setSuspect i x).captures = s.captures := rfl
@[simp] theorem setSuspect_nextCapture (s : State) (i : Nat) (x : Suspect) : (s.setSuspect i x).nextCapture = s.nextCapture := rfl
@[simp] theorem setSuspect_mem (s : State) (i : Nat) (x : Suspect) : (s.setSuspect i x).mem = s.mem := rfl
@[simp] theorem setSuspect_xlate (s : State) (i : Nat) (x : Suspect) : (s.setSuspect i x).xlate = s.xlate := rfl
@[simp] theorem setSuspect_xlVersion (s : State) (i : Nat) (x : Suspect) : (s.setSuspect i x).xlVersion = s.xlVersion := rfl
@[simp] theorem setSuspect_net (s : State) (i : Nat) (x : Suspect) : (s.setSuspect i x).net = s.net := rfl
@[simp] theorem setSuspect_seif (s : State) (i : Nat) (x : Suspect) : (s.setSuspect i x).seif = s.seif := rfl
@[simp] theorem setSuspect_colls (s : State) (i : Nat) (x : Suspect) : (s.setSuspect i x).colls = s.colls := rfl
@[simp] theorem setSuspect_ctxs (s : State) (i : Nat) (x : Suspect) : (s.setSuspect i x).ctxs = s.ctxs := rfl
@[simp] theorem setSuspect_caravan (s : State) (i : Nat) (x : Suspect) : (s.setSuspect i x).caravan = s.caravan := rfl
@[simp] theorem setSuspect_epochCounter (s : State) (i : Nat) (x : Suspect) : (s.setSuspect i x).epochCounter = s.epochCounter := rfl
@[simp] theorem setSuspect_freeCount (s : State) (i : Nat) (x : Suspect) : (s.setSuspect i x).freeCount = s.freeCount := rfl

/-! ## setPhys -/

@[simp] theorem setPhys_pending (s : State) (die p : Nat) (x : Phys) : (s.setPhys die p x).pending = s.pending := rfl
@[simp] theorem setPhys_cfg (s : State) (die p : Nat) (x : Phys) : (s.setPhys die p x).cfg = s.cfg := rfl
@[simp] theorem setPhys_health (s : State) (die p : Nat) (x : Phys) : (s.setPhys die p x).health = s.health := rfl
@[simp] theorem setPhys_flash (s : State) (die p : Nat) (x : Phys) : (s.setPhys die p x).flash = s.flash := rfl
@[simp] theorem setPhys_mesa (s : State) (die p : Nat) (x : Phys) : (s.setPhys die p x).mesa = s.mesa := rfl
@[simp] theorem setPhys_pins (s : State) (die p : Nat) (x : Phys) : (s.setPhys die p x).pins = s.pins := rfl
@[simp] theorem setPhys_st (s : State) (die p : Nat) (x : Phys) : (s.setPhys die p x).st = s.st := rfl
@[simp] theorem setPhys_host (s : State) (die p : Nat) (x : Phys) : (s.setPhys die p x).host = s.host := rfl
@[simp] theorem setPhys_attn (s : State) (die p : Nat) (x : Phys) : (s.setPhys die p x).attn = s.attn := rfl
@[simp] theorem setPhys_power (s : State) (die p : Nat) (x : Phys) : (s.setPhys die p x).power = s.power := rfl
@[simp] theorem setPhys_rst (s : State) (die p : Nat) (x : Phys) : (s.setPhys die p x).rst = s.rst := rfl
@[simp] theorem setPhys_svc (s : State) (die p : Nat) (x : Phys) : (s.setPhys die p x).svc = s.svc := rfl
@[simp] theorem setPhys_captures (s : State) (die p : Nat) (x : Phys) : (s.setPhys die p x).captures = s.captures := rfl
@[simp] theorem setPhys_nextCapture (s : State) (die p : Nat) (x : Phys) : (s.setPhys die p x).nextCapture = s.nextCapture := rfl
@[simp] theorem setPhys_mem (s : State) (die p : Nat) (x : Phys) : (s.setPhys die p x).mem = s.mem := rfl
@[simp] theorem setPhys_xlate (s : State) (die p : Nat) (x : Phys) : (s.setPhys die p x).xlate = s.xlate := rfl
@[simp] theorem setPhys_xlVersion (s : State) (die p : Nat) (x : Phys) : (s.setPhys die p x).xlVersion = s.xlVersion := rfl
@[simp] theorem setPhys_net (s : State) (die p : Nat) (x : Phys) : (s.setPhys die p x).net = s.net := rfl
@[simp] theorem setPhys_seif (s : State) (die p : Nat) (x : Phys) : (s.setPhys die p x).seif = s.seif := rfl
@[simp] theorem setPhys_colls (s : State) (die p : Nat) (x : Phys) : (s.setPhys die p x).colls = s.colls := rfl
@[simp] theorem setPhys_ctxs (s : State) (die p : Nat) (x : Phys) : (s.setPhys die p x).ctxs = s.ctxs := rfl
@[simp] theorem setPhys_caravan (s : State) (die p : Nat) (x : Phys) : (s.setPhys die p x).caravan = s.caravan := rfl
@[simp] theorem setPhys_epochCounter (s : State) (die p : Nat) (x : Phys) : (s.setPhys die p x).epochCounter = s.epochCounter := rfl
@[simp] theorem setPhys_freeCount (s : State) (die p : Nat) (x : Phys) : (s.setPhys die p x).freeCount = s.freeCount := rfl

/-! ## setMirage -/

@[simp] theorem setMirage_pending (s : State) (die : Nat) (m : MirageUnit) : (s.setMirage die m).pending = s.pending := rfl
@[simp] theorem setMirage_cfg (s : State) (die : Nat) (m : MirageUnit) : (s.setMirage die m).cfg = s.cfg := rfl
@[simp] theorem setMirage_health (s : State) (die : Nat) (m : MirageUnit) : (s.setMirage die m).health = s.health := rfl
@[simp] theorem setMirage_flash (s : State) (die : Nat) (m : MirageUnit) : (s.setMirage die m).flash = s.flash := rfl
@[simp] theorem setMirage_mesa (s : State) (die : Nat) (m : MirageUnit) : (s.setMirage die m).mesa = s.mesa := rfl
@[simp] theorem setMirage_pins (s : State) (die : Nat) (m : MirageUnit) : (s.setMirage die m).pins = s.pins := rfl
@[simp] theorem setMirage_st (s : State) (die : Nat) (m : MirageUnit) : (s.setMirage die m).st = s.st := rfl
@[simp] theorem setMirage_host (s : State) (die : Nat) (m : MirageUnit) : (s.setMirage die m).host = s.host := rfl
@[simp] theorem setMirage_attn (s : State) (die : Nat) (m : MirageUnit) : (s.setMirage die m).attn = s.attn := rfl
@[simp] theorem setMirage_power (s : State) (die : Nat) (m : MirageUnit) : (s.setMirage die m).power = s.power := rfl
@[simp] theorem setMirage_rst (s : State) (die : Nat) (m : MirageUnit) : (s.setMirage die m).rst = s.rst := rfl
@[simp] theorem setMirage_svc (s : State) (die : Nat) (m : MirageUnit) : (s.setMirage die m).svc = s.svc := rfl
@[simp] theorem setMirage_captures (s : State) (die : Nat) (m : MirageUnit) : (s.setMirage die m).captures = s.captures := rfl
@[simp] theorem setMirage_nextCapture (s : State) (die : Nat) (m : MirageUnit) : (s.setMirage die m).nextCapture = s.nextCapture := rfl
@[simp] theorem setMirage_mem (s : State) (die : Nat) (m : MirageUnit) : (s.setMirage die m).mem = s.mem := rfl
@[simp] theorem setMirage_xlate (s : State) (die : Nat) (m : MirageUnit) : (s.setMirage die m).xlate = s.xlate := rfl
@[simp] theorem setMirage_xlVersion (s : State) (die : Nat) (m : MirageUnit) : (s.setMirage die m).xlVersion = s.xlVersion := rfl
@[simp] theorem setMirage_net (s : State) (die : Nat) (m : MirageUnit) : (s.setMirage die m).net = s.net := rfl
@[simp] theorem setMirage_seif (s : State) (die : Nat) (m : MirageUnit) : (s.setMirage die m).seif = s.seif := rfl
@[simp] theorem setMirage_colls (s : State) (die : Nat) (m : MirageUnit) : (s.setMirage die m).colls = s.colls := rfl
@[simp] theorem setMirage_ctxs (s : State) (die : Nat) (m : MirageUnit) : (s.setMirage die m).ctxs = s.ctxs := rfl
@[simp] theorem setMirage_caravan (s : State) (die : Nat) (m : MirageUnit) : (s.setMirage die m).caravan = s.caravan := rfl
@[simp] theorem setMirage_epochCounter (s : State) (die : Nat) (m : MirageUnit) : (s.setMirage die m).epochCounter = s.epochCounter := rfl
@[simp] theorem setMirage_freeCount (s : State) (die : Nat) (m : MirageUnit) : (s.setMirage die m).freeCount = s.freeCount := rfl

/-! ## degrade -/

@[simp] theorem degrade_pending (s : State) (n : Nat) : (s.degrade n).pending = s.pending := rfl
@[simp] theorem degrade_cfg (s : State) (n : Nat) : (s.degrade n).cfg = s.cfg := rfl
@[simp] theorem degrade_health (s : State) (n : Nat) : (s.degrade n).health = s.health := rfl
@[simp] theorem degrade_flash (s : State) (n : Nat) : (s.degrade n).flash = s.flash := rfl
@[simp] theorem degrade_mesa (s : State) (n : Nat) : (s.degrade n).mesa = s.mesa := rfl
@[simp] theorem degrade_pins (s : State) (n : Nat) : (s.degrade n).pins = s.pins := rfl
@[simp] theorem degrade_st (s : State) (n : Nat) : (s.degrade n).st = s.st := rfl
@[simp] theorem degrade_host (s : State) (n : Nat) : (s.degrade n).host = s.host := rfl
@[simp] theorem degrade_attn (s : State) (n : Nat) : (s.degrade n).attn = s.attn := rfl
@[simp] theorem degrade_faults (s : State) (n : Nat) : (s.degrade n).faults = s.faults := rfl
@[simp] theorem degrade_power (s : State) (n : Nat) : (s.degrade n).power = s.power := rfl
@[simp] theorem degrade_svc (s : State) (n : Nat) : (s.degrade n).svc = s.svc := rfl
@[simp] theorem degrade_captures (s : State) (n : Nat) : (s.degrade n).captures = s.captures := rfl
@[simp] theorem degrade_nextCapture (s : State) (n : Nat) : (s.degrade n).nextCapture = s.nextCapture := rfl
@[simp] theorem degrade_mem (s : State) (n : Nat) : (s.degrade n).mem = s.mem := rfl
@[simp] theorem degrade_xlate (s : State) (n : Nat) : (s.degrade n).xlate = s.xlate := rfl
@[simp] theorem degrade_xlVersion (s : State) (n : Nat) : (s.degrade n).xlVersion = s.xlVersion := rfl
@[simp] theorem degrade_net (s : State) (n : Nat) : (s.degrade n).net = s.net := rfl
@[simp] theorem degrade_seif (s : State) (n : Nat) : (s.degrade n).seif = s.seif := rfl
@[simp] theorem degrade_colls (s : State) (n : Nat) : (s.degrade n).colls = s.colls := rfl
@[simp] theorem degrade_ctxs (s : State) (n : Nat) : (s.degrade n).ctxs = s.ctxs := rfl
@[simp] theorem degrade_caravan (s : State) (n : Nat) : (s.degrade n).caravan = s.caravan := rfl
@[simp] theorem degrade_epochCounter (s : State) (n : Nat) : (s.degrade n).epochCounter = s.epochCounter := rfl
@[simp] theorem degrade_freeCount (s : State) (n : Nat) : (s.degrade n).freeCount = s.freeCount := rfl

/-! ## undegrade -/

@[simp] theorem undegrade_pending (s : State) (n : Nat) : (s.undegrade n).pending = s.pending := rfl
@[simp] theorem undegrade_cfg (s : State) (n : Nat) : (s.undegrade n).cfg = s.cfg := rfl
@[simp] theorem undegrade_health (s : State) (n : Nat) : (s.undegrade n).health = s.health := rfl
@[simp] theorem undegrade_flash (s : State) (n : Nat) : (s.undegrade n).flash = s.flash := rfl
@[simp] theorem undegrade_mesa (s : State) (n : Nat) : (s.undegrade n).mesa = s.mesa := rfl
@[simp] theorem undegrade_pins (s : State) (n : Nat) : (s.undegrade n).pins = s.pins := rfl
@[simp] theorem undegrade_st (s : State) (n : Nat) : (s.undegrade n).st = s.st := rfl
@[simp] theorem undegrade_host (s : State) (n : Nat) : (s.undegrade n).host = s.host := rfl
@[simp] theorem undegrade_attn (s : State) (n : Nat) : (s.undegrade n).attn = s.attn := rfl
@[simp] theorem undegrade_faults (s : State) (n : Nat) : (s.undegrade n).faults = s.faults := rfl
@[simp] theorem undegrade_power (s : State) (n : Nat) : (s.undegrade n).power = s.power := rfl
@[simp] theorem undegrade_svc (s : State) (n : Nat) : (s.undegrade n).svc = s.svc := rfl
@[simp] theorem undegrade_captures (s : State) (n : Nat) : (s.undegrade n).captures = s.captures := rfl
@[simp] theorem undegrade_nextCapture (s : State) (n : Nat) : (s.undegrade n).nextCapture = s.nextCapture := rfl
@[simp] theorem undegrade_mem (s : State) (n : Nat) : (s.undegrade n).mem = s.mem := rfl
@[simp] theorem undegrade_xlate (s : State) (n : Nat) : (s.undegrade n).xlate = s.xlate := rfl
@[simp] theorem undegrade_xlVersion (s : State) (n : Nat) : (s.undegrade n).xlVersion = s.xlVersion := rfl
@[simp] theorem undegrade_net (s : State) (n : Nat) : (s.undegrade n).net = s.net := rfl
@[simp] theorem undegrade_seif (s : State) (n : Nat) : (s.undegrade n).seif = s.seif := rfl
@[simp] theorem undegrade_colls (s : State) (n : Nat) : (s.undegrade n).colls = s.colls := rfl
@[simp] theorem undegrade_ctxs (s : State) (n : Nat) : (s.undegrade n).ctxs = s.ctxs := rfl
@[simp] theorem undegrade_caravan (s : State) (n : Nat) : (s.undegrade n).caravan = s.caravan := rfl
@[simp] theorem undegrade_epochCounter (s : State) (n : Nat) : (s.undegrade n).epochCounter = s.epochCounter := rfl
@[simp] theorem undegrade_freeCount (s : State) (n : Nat) : (s.undegrade n).freeCount = s.freeCount := rfl

/-! ## raise -/

@[simp] theorem raise_pending (s : State) (e : Event) : (s.raise e).pending = s.pending := rfl
@[simp] theorem raise_cfg (s : State) (e : Event) : (s.raise e).cfg = s.cfg := rfl
@[simp] theorem raise_health (s : State) (e : Event) : (s.raise e).health = s.health := rfl
@[simp] theorem raise_flash (s : State) (e : Event) : (s.raise e).flash = s.flash := rfl
@[simp] theorem raise_mesa (s : State) (e : Event) : (s.raise e).mesa = s.mesa := rfl
@[simp] theorem raise_pins (s : State) (e : Event) : (s.raise e).pins = s.pins := rfl
@[simp] theorem raise_st (s : State) (e : Event) : (s.raise e).st = s.st := rfl
@[simp] theorem raise_host (s : State) (e : Event) : (s.raise e).host = s.host := rfl
@[simp] theorem raise_faults (s : State) (e : Event) : (s.raise e).faults = s.faults := rfl
@[simp] theorem raise_power (s : State) (e : Event) : (s.raise e).power = s.power := rfl
@[simp] theorem raise_rst (s : State) (e : Event) : (s.raise e).rst = s.rst := rfl
@[simp] theorem raise_svc (s : State) (e : Event) : (s.raise e).svc = s.svc := rfl
@[simp] theorem raise_captures (s : State) (e : Event) : (s.raise e).captures = s.captures := rfl
@[simp] theorem raise_nextCapture (s : State) (e : Event) : (s.raise e).nextCapture = s.nextCapture := rfl
@[simp] theorem raise_mem (s : State) (e : Event) : (s.raise e).mem = s.mem := rfl
@[simp] theorem raise_xlate (s : State) (e : Event) : (s.raise e).xlate = s.xlate := rfl
@[simp] theorem raise_xlVersion (s : State) (e : Event) : (s.raise e).xlVersion = s.xlVersion := rfl
@[simp] theorem raise_net (s : State) (e : Event) : (s.raise e).net = s.net := rfl
@[simp] theorem raise_seif (s : State) (e : Event) : (s.raise e).seif = s.seif := rfl
@[simp] theorem raise_colls (s : State) (e : Event) : (s.raise e).colls = s.colls := rfl
@[simp] theorem raise_ctxs (s : State) (e : Event) : (s.raise e).ctxs = s.ctxs := rfl
@[simp] theorem raise_caravan (s : State) (e : Event) : (s.raise e).caravan = s.caravan := rfl
@[simp] theorem raise_epochCounter (s : State) (e : Event) : (s.raise e).epochCounter = s.epochCounter := rfl
@[simp] theorem raise_freeCount (s : State) (e : Event) : (s.raise e).freeCount = s.freeCount := rfl

/-! ## spend -/

@[simp] theorem spend_pending (s : State) : (s.spend).pending = s.pending := rfl
@[simp] theorem spend_cfg (s : State) : (s.spend).cfg = s.cfg := rfl
@[simp] theorem spend_health (s : State) : (s.spend).health = s.health := rfl
@[simp] theorem spend_flash (s : State) : (s.spend).flash = s.flash := rfl
@[simp] theorem spend_mesa (s : State) : (s.spend).mesa = s.mesa := rfl
@[simp] theorem spend_pins (s : State) : (s.spend).pins = s.pins := rfl
@[simp] theorem spend_st (s : State) : (s.spend).st = s.st := rfl
@[simp] theorem spend_host (s : State) : (s.spend).host = s.host := rfl
@[simp] theorem spend_attn (s : State) : (s.spend).attn = s.attn := rfl
@[simp] theorem spend_faults (s : State) : (s.spend).faults = s.faults := rfl
@[simp] theorem spend_power (s : State) : (s.spend).power = s.power := rfl
@[simp] theorem spend_rst (s : State) : (s.spend).rst = s.rst := rfl
@[simp] theorem spend_svc (s : State) : (s.spend).svc = s.svc := rfl
@[simp] theorem spend_captures (s : State) : (s.spend).captures = s.captures := rfl
@[simp] theorem spend_nextCapture (s : State) : (s.spend).nextCapture = s.nextCapture := rfl
@[simp] theorem spend_mem (s : State) : (s.spend).mem = s.mem := rfl
@[simp] theorem spend_xlate (s : State) : (s.spend).xlate = s.xlate := rfl
@[simp] theorem spend_xlVersion (s : State) : (s.spend).xlVersion = s.xlVersion := rfl
@[simp] theorem spend_net (s : State) : (s.spend).net = s.net := rfl
@[simp] theorem spend_seif (s : State) : (s.spend).seif = s.seif := rfl
@[simp] theorem spend_colls (s : State) : (s.spend).colls = s.colls := rfl
@[simp] theorem spend_ctxs (s : State) : (s.spend).ctxs = s.ctxs := rfl
@[simp] theorem spend_caravan (s : State) : (s.spend).caravan = s.caravan := rfl
@[simp] theorem spend_epochCounter (s : State) : (s.spend).epochCounter = s.epochCounter := rfl

/-! ## putRequest -/

@[simp] theorem putRequest_pending (s : State) (r : Request) : (s.putRequest r).pending = s.pending := rfl
@[simp] theorem putRequest_cfg (s : State) (r : Request) : (s.putRequest r).cfg = s.cfg := rfl
@[simp] theorem putRequest_health (s : State) (r : Request) : (s.putRequest r).health = s.health := rfl
@[simp] theorem putRequest_flash (s : State) (r : Request) : (s.putRequest r).flash = s.flash := rfl
@[simp] theorem putRequest_mesa (s : State) (r : Request) : (s.putRequest r).mesa = s.mesa := rfl
@[simp] theorem putRequest_pins (s : State) (r : Request) : (s.putRequest r).pins = s.pins := rfl
@[simp] theorem putRequest_st (s : State) (r : Request) : (s.putRequest r).st = s.st := rfl
@[simp] theorem putRequest_host (s : State) (r : Request) : (s.putRequest r).host = s.host := rfl
@[simp] theorem putRequest_attn (s : State) (r : Request) : (s.putRequest r).attn = s.attn := rfl
@[simp] theorem putRequest_faults (s : State) (r : Request) : (s.putRequest r).faults = s.faults := rfl
@[simp] theorem putRequest_power (s : State) (r : Request) : (s.putRequest r).power = s.power := rfl
@[simp] theorem putRequest_rst (s : State) (r : Request) : (s.putRequest r).rst = s.rst := rfl
@[simp] theorem putRequest_svc (s : State) (r : Request) : (s.putRequest r).svc = s.svc := rfl
@[simp] theorem putRequest_captures (s : State) (r : Request) : (s.putRequest r).captures = s.captures := rfl
@[simp] theorem putRequest_nextCapture (s : State) (r : Request) : (s.putRequest r).nextCapture = s.nextCapture := rfl
@[simp] theorem putRequest_mem (s : State) (r : Request) : (s.putRequest r).mem = s.mem := rfl
@[simp] theorem putRequest_xlate (s : State) (r : Request) : (s.putRequest r).xlate = s.xlate := rfl
@[simp] theorem putRequest_xlVersion (s : State) (r : Request) : (s.putRequest r).xlVersion = s.xlVersion := rfl
@[simp] theorem putRequest_seif (s : State) (r : Request) : (s.putRequest r).seif = s.seif := rfl
@[simp] theorem putRequest_colls (s : State) (r : Request) : (s.putRequest r).colls = s.colls := rfl
@[simp] theorem putRequest_ctxs (s : State) (r : Request) : (s.putRequest r).ctxs = s.ctxs := rfl
@[simp] theorem putRequest_caravan (s : State) (r : Request) : (s.putRequest r).caravan = s.caravan := rfl
@[simp] theorem putRequest_epochCounter (s : State) (r : Request) : (s.putRequest r).epochCounter = s.epochCounter := rfl
@[simp] theorem putRequest_freeCount (s : State) (r : Request) : (s.putRequest r).freeCount = s.freeCount := rfl

/-! ## dropRequest -/

@[simp] theorem dropRequest_pending (s : State) (id : Nat) : (s.dropRequest id).pending = s.pending := rfl
@[simp] theorem dropRequest_cfg (s : State) (id : Nat) : (s.dropRequest id).cfg = s.cfg := rfl
@[simp] theorem dropRequest_health (s : State) (id : Nat) : (s.dropRequest id).health = s.health := rfl
@[simp] theorem dropRequest_flash (s : State) (id : Nat) : (s.dropRequest id).flash = s.flash := rfl
@[simp] theorem dropRequest_mesa (s : State) (id : Nat) : (s.dropRequest id).mesa = s.mesa := rfl
@[simp] theorem dropRequest_pins (s : State) (id : Nat) : (s.dropRequest id).pins = s.pins := rfl
@[simp] theorem dropRequest_st (s : State) (id : Nat) : (s.dropRequest id).st = s.st := rfl
@[simp] theorem dropRequest_host (s : State) (id : Nat) : (s.dropRequest id).host = s.host := rfl
@[simp] theorem dropRequest_attn (s : State) (id : Nat) : (s.dropRequest id).attn = s.attn := rfl
@[simp] theorem dropRequest_faults (s : State) (id : Nat) : (s.dropRequest id).faults = s.faults := rfl
@[simp] theorem dropRequest_power (s : State) (id : Nat) : (s.dropRequest id).power = s.power := rfl
@[simp] theorem dropRequest_rst (s : State) (id : Nat) : (s.dropRequest id).rst = s.rst := rfl
@[simp] theorem dropRequest_svc (s : State) (id : Nat) : (s.dropRequest id).svc = s.svc := rfl
@[simp] theorem dropRequest_captures (s : State) (id : Nat) : (s.dropRequest id).captures = s.captures := rfl
@[simp] theorem dropRequest_nextCapture (s : State) (id : Nat) : (s.dropRequest id).nextCapture = s.nextCapture := rfl
@[simp] theorem dropRequest_mem (s : State) (id : Nat) : (s.dropRequest id).mem = s.mem := rfl
@[simp] theorem dropRequest_xlate (s : State) (id : Nat) : (s.dropRequest id).xlate = s.xlate := rfl
@[simp] theorem dropRequest_xlVersion (s : State) (id : Nat) : (s.dropRequest id).xlVersion = s.xlVersion := rfl
@[simp] theorem dropRequest_colls (s : State) (id : Nat) : (s.dropRequest id).colls = s.colls := rfl
@[simp] theorem dropRequest_ctxs (s : State) (id : Nat) : (s.dropRequest id).ctxs = s.ctxs := rfl
@[simp] theorem dropRequest_caravan (s : State) (id : Nat) : (s.dropRequest id).caravan = s.caravan := rfl
@[simp] theorem dropRequest_epochCounter (s : State) (id : Nat) : (s.dropRequest id).epochCounter = s.epochCounter := rfl
@[simp] theorem dropRequest_freeCount (s : State) (id : Nat) : (s.dropRequest id).freeCount = s.freeCount := rfl

/-! ## dropCount -/

@[simp] theorem dropCount_pending (s : State) (die : Nat) : (s.dropCount die).pending = s.pending := rfl
@[simp] theorem dropCount_cfg (s : State) (die : Nat) : (s.dropCount die).cfg = s.cfg := rfl
@[simp] theorem dropCount_health (s : State) (die : Nat) : (s.dropCount die).health = s.health := rfl
@[simp] theorem dropCount_flash (s : State) (die : Nat) : (s.dropCount die).flash = s.flash := rfl
@[simp] theorem dropCount_mesa (s : State) (die : Nat) : (s.dropCount die).mesa = s.mesa := rfl
@[simp] theorem dropCount_pins (s : State) (die : Nat) : (s.dropCount die).pins = s.pins := rfl
@[simp] theorem dropCount_st (s : State) (die : Nat) : (s.dropCount die).st = s.st := rfl
@[simp] theorem dropCount_host (s : State) (die : Nat) : (s.dropCount die).host = s.host := rfl
@[simp] theorem dropCount_attn (s : State) (die : Nat) : (s.dropCount die).attn = s.attn := rfl
@[simp] theorem dropCount_faults (s : State) (die : Nat) : (s.dropCount die).faults = s.faults := rfl
@[simp] theorem dropCount_power (s : State) (die : Nat) : (s.dropCount die).power = s.power := rfl
@[simp] theorem dropCount_rst (s : State) (die : Nat) : (s.dropCount die).rst = s.rst := rfl
@[simp] theorem dropCount_svc (s : State) (die : Nat) : (s.dropCount die).svc = s.svc := rfl
@[simp] theorem dropCount_captures (s : State) (die : Nat) : (s.dropCount die).captures = s.captures := rfl
@[simp] theorem dropCount_nextCapture (s : State) (die : Nat) : (s.dropCount die).nextCapture = s.nextCapture := rfl
@[simp] theorem dropCount_xlate (s : State) (die : Nat) : (s.dropCount die).xlate = s.xlate := rfl
@[simp] theorem dropCount_xlVersion (s : State) (die : Nat) : (s.dropCount die).xlVersion = s.xlVersion := rfl
@[simp] theorem dropCount_net (s : State) (die : Nat) : (s.dropCount die).net = s.net := rfl
@[simp] theorem dropCount_seif (s : State) (die : Nat) : (s.dropCount die).seif = s.seif := rfl
@[simp] theorem dropCount_colls (s : State) (die : Nat) : (s.dropCount die).colls = s.colls := rfl
@[simp] theorem dropCount_ctxs (s : State) (die : Nat) : (s.dropCount die).ctxs = s.ctxs := rfl
@[simp] theorem dropCount_caravan (s : State) (die : Nat) : (s.dropCount die).caravan = s.caravan := rfl
@[simp] theorem dropCount_epochCounter (s : State) (die : Nat) : (s.dropCount die).epochCounter = s.epochCounter := rfl
@[simp] theorem dropCount_freeCount (s : State) (die : Nat) : (s.dropCount die).freeCount = s.freeCount := rfl

/-! ## setColl -/

@[simp] theorem setColl_pending (s : State) (x : Coll) : (s.setColl x).pending = s.pending := rfl
@[simp] theorem setColl_cfg (s : State) (x : Coll) : (s.setColl x).cfg = s.cfg := rfl
@[simp] theorem setColl_health (s : State) (x : Coll) : (s.setColl x).health = s.health := rfl
@[simp] theorem setColl_flash (s : State) (x : Coll) : (s.setColl x).flash = s.flash := rfl
@[simp] theorem setColl_mesa (s : State) (x : Coll) : (s.setColl x).mesa = s.mesa := rfl
@[simp] theorem setColl_pins (s : State) (x : Coll) : (s.setColl x).pins = s.pins := rfl
@[simp] theorem setColl_st (s : State) (x : Coll) : (s.setColl x).st = s.st := rfl
@[simp] theorem setColl_host (s : State) (x : Coll) : (s.setColl x).host = s.host := rfl
@[simp] theorem setColl_attn (s : State) (x : Coll) : (s.setColl x).attn = s.attn := rfl
@[simp] theorem setColl_faults (s : State) (x : Coll) : (s.setColl x).faults = s.faults := rfl
@[simp] theorem setColl_power (s : State) (x : Coll) : (s.setColl x).power = s.power := rfl
@[simp] theorem setColl_rst (s : State) (x : Coll) : (s.setColl x).rst = s.rst := rfl
@[simp] theorem setColl_svc (s : State) (x : Coll) : (s.setColl x).svc = s.svc := rfl
@[simp] theorem setColl_captures (s : State) (x : Coll) : (s.setColl x).captures = s.captures := rfl
@[simp] theorem setColl_nextCapture (s : State) (x : Coll) : (s.setColl x).nextCapture = s.nextCapture := rfl
@[simp] theorem setColl_mem (s : State) (x : Coll) : (s.setColl x).mem = s.mem := rfl
@[simp] theorem setColl_xlate (s : State) (x : Coll) : (s.setColl x).xlate = s.xlate := rfl
@[simp] theorem setColl_xlVersion (s : State) (x : Coll) : (s.setColl x).xlVersion = s.xlVersion := rfl
@[simp] theorem setColl_net (s : State) (x : Coll) : (s.setColl x).net = s.net := rfl
@[simp] theorem setColl_seif (s : State) (x : Coll) : (s.setColl x).seif = s.seif := rfl
@[simp] theorem setColl_ctxs (s : State) (x : Coll) : (s.setColl x).ctxs = s.ctxs := rfl
@[simp] theorem setColl_caravan (s : State) (x : Coll) : (s.setColl x).caravan = s.caravan := rfl
@[simp] theorem setColl_epochCounter (s : State) (x : Coll) : (s.setColl x).epochCounter = s.epochCounter := rfl
@[simp] theorem setColl_freeCount (s : State) (x : Coll) : (s.setColl x).freeCount = s.freeCount := rfl

/-! ## setPacing -/

@[simp] theorem setPacing_pending (s : State) (p : Pacing) : (s.setPacing p).pending = s.pending := rfl
@[simp] theorem setPacing_cfg (s : State) (p : Pacing) : (s.setPacing p).cfg = s.cfg := rfl
@[simp] theorem setPacing_health (s : State) (p : Pacing) : (s.setPacing p).health = s.health := rfl
@[simp] theorem setPacing_flash (s : State) (p : Pacing) : (s.setPacing p).flash = s.flash := rfl
@[simp] theorem setPacing_mesa (s : State) (p : Pacing) : (s.setPacing p).mesa = s.mesa := rfl
@[simp] theorem setPacing_pins (s : State) (p : Pacing) : (s.setPacing p).pins = s.pins := rfl
@[simp] theorem setPacing_st (s : State) (p : Pacing) : (s.setPacing p).st = s.st := rfl
@[simp] theorem setPacing_host (s : State) (p : Pacing) : (s.setPacing p).host = s.host := rfl
@[simp] theorem setPacing_attn (s : State) (p : Pacing) : (s.setPacing p).attn = s.attn := rfl
@[simp] theorem setPacing_faults (s : State) (p : Pacing) : (s.setPacing p).faults = s.faults := rfl
@[simp] theorem setPacing_power (s : State) (p : Pacing) : (s.setPacing p).power = s.power := rfl
@[simp] theorem setPacing_rst (s : State) (p : Pacing) : (s.setPacing p).rst = s.rst := rfl
@[simp] theorem setPacing_svc (s : State) (p : Pacing) : (s.setPacing p).svc = s.svc := rfl
@[simp] theorem setPacing_captures (s : State) (p : Pacing) : (s.setPacing p).captures = s.captures := rfl
@[simp] theorem setPacing_nextCapture (s : State) (p : Pacing) : (s.setPacing p).nextCapture = s.nextCapture := rfl
@[simp] theorem setPacing_mem (s : State) (p : Pacing) : (s.setPacing p).mem = s.mem := rfl
@[simp] theorem setPacing_xlate (s : State) (p : Pacing) : (s.setPacing p).xlate = s.xlate := rfl
@[simp] theorem setPacing_xlVersion (s : State) (p : Pacing) : (s.setPacing p).xlVersion = s.xlVersion := rfl
@[simp] theorem setPacing_net (s : State) (p : Pacing) : (s.setPacing p).net = s.net := rfl
@[simp] theorem setPacing_colls (s : State) (p : Pacing) : (s.setPacing p).colls = s.colls := rfl
@[simp] theorem setPacing_ctxs (s : State) (p : Pacing) : (s.setPacing p).ctxs = s.ctxs := rfl
@[simp] theorem setPacing_caravan (s : State) (p : Pacing) : (s.setPacing p).caravan = s.caravan := rfl
@[simp] theorem setPacing_epochCounter (s : State) (p : Pacing) : (s.setPacing p).epochCounter = s.epochCounter := rfl
@[simp] theorem setPacing_freeCount (s : State) (p : Pacing) : (s.setPacing p).freeCount = s.freeCount := rfl

/-! ## setSample -/

@[simp] theorem setSample_pending (s : State) (i : Nat) (f : Sample → Sample) : (s.setSample i f).pending = s.pending := rfl
@[simp] theorem setSample_cfg (s : State) (i : Nat) (f : Sample → Sample) : (s.setSample i f).cfg = s.cfg := rfl
@[simp] theorem setSample_health (s : State) (i : Nat) (f : Sample → Sample) : (s.setSample i f).health = s.health := rfl
@[simp] theorem setSample_flash (s : State) (i : Nat) (f : Sample → Sample) : (s.setSample i f).flash = s.flash := rfl
@[simp] theorem setSample_mesa (s : State) (i : Nat) (f : Sample → Sample) : (s.setSample i f).mesa = s.mesa := rfl
@[simp] theorem setSample_pins (s : State) (i : Nat) (f : Sample → Sample) : (s.setSample i f).pins = s.pins := rfl
@[simp] theorem setSample_st (s : State) (i : Nat) (f : Sample → Sample) : (s.setSample i f).st = s.st := rfl
@[simp] theorem setSample_host (s : State) (i : Nat) (f : Sample → Sample) : (s.setSample i f).host = s.host := rfl
@[simp] theorem setSample_attn (s : State) (i : Nat) (f : Sample → Sample) : (s.setSample i f).attn = s.attn := rfl
@[simp] theorem setSample_power (s : State) (i : Nat) (f : Sample → Sample) : (s.setSample i f).power = s.power := rfl
@[simp] theorem setSample_rst (s : State) (i : Nat) (f : Sample → Sample) : (s.setSample i f).rst = s.rst := rfl
@[simp] theorem setSample_svc (s : State) (i : Nat) (f : Sample → Sample) : (s.setSample i f).svc = s.svc := rfl
@[simp] theorem setSample_captures (s : State) (i : Nat) (f : Sample → Sample) : (s.setSample i f).captures = s.captures := rfl
@[simp] theorem setSample_nextCapture (s : State) (i : Nat) (f : Sample → Sample) : (s.setSample i f).nextCapture = s.nextCapture := rfl
@[simp] theorem setSample_mem (s : State) (i : Nat) (f : Sample → Sample) : (s.setSample i f).mem = s.mem := rfl
@[simp] theorem setSample_xlate (s : State) (i : Nat) (f : Sample → Sample) : (s.setSample i f).xlate = s.xlate := rfl
@[simp] theorem setSample_xlVersion (s : State) (i : Nat) (f : Sample → Sample) : (s.setSample i f).xlVersion = s.xlVersion := rfl
@[simp] theorem setSample_net (s : State) (i : Nat) (f : Sample → Sample) : (s.setSample i f).net = s.net := rfl
@[simp] theorem setSample_seif (s : State) (i : Nat) (f : Sample → Sample) : (s.setSample i f).seif = s.seif := rfl
@[simp] theorem setSample_colls (s : State) (i : Nat) (f : Sample → Sample) : (s.setSample i f).colls = s.colls := rfl
@[simp] theorem setSample_ctxs (s : State) (i : Nat) (f : Sample → Sample) : (s.setSample i f).ctxs = s.ctxs := rfl
@[simp] theorem setSample_caravan (s : State) (i : Nat) (f : Sample → Sample) : (s.setSample i f).caravan = s.caravan := rfl
@[simp] theorem setSample_epochCounter (s : State) (i : Nat) (f : Sample → Sample) : (s.setSample i f).epochCounter = s.epochCounter := rfl
@[simp] theorem setSample_freeCount (s : State) (i : Nat) (f : Sample → Sample) : (s.setSample i f).freeCount = s.freeCount := rfl

/-! ## A change of a context, a completed command -/

theorem updCtx_eq (s : State) (k : Nat) (f : Ctx → Ctx) : s.updCtx k f = { s with ctxs := (s.updCtx k f).ctxs } := by
  unfold State.updCtx; split <;> rfl

theorem complete_eq (s : State) (id code result : Nat) (tail : List Byte) : s.complete id code result tail = { s with host := (s.complete id code result tail).host } := by
  unfold State.complete; split <;> rfl

@[simp] theorem updCtx_pending (s : State) (k : Nat) (f : Ctx → Ctx) : (s.updCtx k f).pending = s.pending := by rw [updCtx_eq]
@[simp] theorem updCtx_cfg (s : State) (k : Nat) (f : Ctx → Ctx) : (s.updCtx k f).cfg = s.cfg := by rw [updCtx_eq]
@[simp] theorem updCtx_health (s : State) (k : Nat) (f : Ctx → Ctx) : (s.updCtx k f).health = s.health := by rw [updCtx_eq]
@[simp] theorem updCtx_flash (s : State) (k : Nat) (f : Ctx → Ctx) : (s.updCtx k f).flash = s.flash := by rw [updCtx_eq]
@[simp] theorem updCtx_mesa (s : State) (k : Nat) (f : Ctx → Ctx) : (s.updCtx k f).mesa = s.mesa := by rw [updCtx_eq]
@[simp] theorem updCtx_pins (s : State) (k : Nat) (f : Ctx → Ctx) : (s.updCtx k f).pins = s.pins := by rw [updCtx_eq]
@[simp] theorem updCtx_st (s : State) (k : Nat) (f : Ctx → Ctx) : (s.updCtx k f).st = s.st := by rw [updCtx_eq]
@[simp] theorem updCtx_host (s : State) (k : Nat) (f : Ctx → Ctx) : (s.updCtx k f).host = s.host := by rw [updCtx_eq]
@[simp] theorem updCtx_attn (s : State) (k : Nat) (f : Ctx → Ctx) : (s.updCtx k f).attn = s.attn := by rw [updCtx_eq]
@[simp] theorem updCtx_faults (s : State) (k : Nat) (f : Ctx → Ctx) : (s.updCtx k f).faults = s.faults := by rw [updCtx_eq]
@[simp] theorem updCtx_power (s : State) (k : Nat) (f : Ctx → Ctx) : (s.updCtx k f).power = s.power := by rw [updCtx_eq]
@[simp] theorem updCtx_rst (s : State) (k : Nat) (f : Ctx → Ctx) : (s.updCtx k f).rst = s.rst := by rw [updCtx_eq]
@[simp] theorem updCtx_svc (s : State) (k : Nat) (f : Ctx → Ctx) : (s.updCtx k f).svc = s.svc := by rw [updCtx_eq]
@[simp] theorem updCtx_captures (s : State) (k : Nat) (f : Ctx → Ctx) : (s.updCtx k f).captures = s.captures := by rw [updCtx_eq]
@[simp] theorem updCtx_nextCapture (s : State) (k : Nat) (f : Ctx → Ctx) : (s.updCtx k f).nextCapture = s.nextCapture := by rw [updCtx_eq]
@[simp] theorem updCtx_mem (s : State) (k : Nat) (f : Ctx → Ctx) : (s.updCtx k f).mem = s.mem := by rw [updCtx_eq]
@[simp] theorem updCtx_xlate (s : State) (k : Nat) (f : Ctx → Ctx) : (s.updCtx k f).xlate = s.xlate := by rw [updCtx_eq]
@[simp] theorem updCtx_xlVersion (s : State) (k : Nat) (f : Ctx → Ctx) : (s.updCtx k f).xlVersion = s.xlVersion := by rw [updCtx_eq]
@[simp] theorem updCtx_net (s : State) (k : Nat) (f : Ctx → Ctx) : (s.updCtx k f).net = s.net := by rw [updCtx_eq]
@[simp] theorem updCtx_seif (s : State) (k : Nat) (f : Ctx → Ctx) : (s.updCtx k f).seif = s.seif := by rw [updCtx_eq]
@[simp] theorem updCtx_colls (s : State) (k : Nat) (f : Ctx → Ctx) : (s.updCtx k f).colls = s.colls := by rw [updCtx_eq]
@[simp] theorem updCtx_caravan (s : State) (k : Nat) (f : Ctx → Ctx) : (s.updCtx k f).caravan = s.caravan := by rw [updCtx_eq]
@[simp] theorem updCtx_epochCounter (s : State) (k : Nat) (f : Ctx → Ctx) : (s.updCtx k f).epochCounter = s.epochCounter := by rw [updCtx_eq]
@[simp] theorem updCtx_freeCount (s : State) (k : Nat) (f : Ctx → Ctx) : (s.updCtx k f).freeCount = s.freeCount := by rw [updCtx_eq]
@[simp] theorem complete_pending (s : State) (id code result : Nat) (tail : List Byte) : (s.complete id code result tail).pending = s.pending := by rw [complete_eq]
@[simp] theorem complete_cfg (s : State) (id code result : Nat) (tail : List Byte) : (s.complete id code result tail).cfg = s.cfg := by rw [complete_eq]
@[simp] theorem complete_health (s : State) (id code result : Nat) (tail : List Byte) : (s.complete id code result tail).health = s.health := by rw [complete_eq]
@[simp] theorem complete_flash (s : State) (id code result : Nat) (tail : List Byte) : (s.complete id code result tail).flash = s.flash := by rw [complete_eq]
@[simp] theorem complete_mesa (s : State) (id code result : Nat) (tail : List Byte) : (s.complete id code result tail).mesa = s.mesa := by rw [complete_eq]
@[simp] theorem complete_pins (s : State) (id code result : Nat) (tail : List Byte) : (s.complete id code result tail).pins = s.pins := by rw [complete_eq]
@[simp] theorem complete_st (s : State) (id code result : Nat) (tail : List Byte) : (s.complete id code result tail).st = s.st := by rw [complete_eq]
@[simp] theorem complete_attn (s : State) (id code result : Nat) (tail : List Byte) : (s.complete id code result tail).attn = s.attn := by rw [complete_eq]
@[simp] theorem complete_faults (s : State) (id code result : Nat) (tail : List Byte) : (s.complete id code result tail).faults = s.faults := by rw [complete_eq]
@[simp] theorem complete_power (s : State) (id code result : Nat) (tail : List Byte) : (s.complete id code result tail).power = s.power := by rw [complete_eq]
@[simp] theorem complete_rst (s : State) (id code result : Nat) (tail : List Byte) : (s.complete id code result tail).rst = s.rst := by rw [complete_eq]
@[simp] theorem complete_svc (s : State) (id code result : Nat) (tail : List Byte) : (s.complete id code result tail).svc = s.svc := by rw [complete_eq]
@[simp] theorem complete_captures (s : State) (id code result : Nat) (tail : List Byte) : (s.complete id code result tail).captures = s.captures := by rw [complete_eq]
@[simp] theorem complete_nextCapture (s : State) (id code result : Nat) (tail : List Byte) : (s.complete id code result tail).nextCapture = s.nextCapture := by rw [complete_eq]
@[simp] theorem complete_mem (s : State) (id code result : Nat) (tail : List Byte) : (s.complete id code result tail).mem = s.mem := by rw [complete_eq]
@[simp] theorem complete_xlate (s : State) (id code result : Nat) (tail : List Byte) : (s.complete id code result tail).xlate = s.xlate := by rw [complete_eq]
@[simp] theorem complete_xlVersion (s : State) (id code result : Nat) (tail : List Byte) : (s.complete id code result tail).xlVersion = s.xlVersion := by rw [complete_eq]
@[simp] theorem complete_net (s : State) (id code result : Nat) (tail : List Byte) : (s.complete id code result tail).net = s.net := by rw [complete_eq]
@[simp] theorem complete_seif (s : State) (id code result : Nat) (tail : List Byte) : (s.complete id code result tail).seif = s.seif := by rw [complete_eq]
@[simp] theorem complete_colls (s : State) (id code result : Nat) (tail : List Byte) : (s.complete id code result tail).colls = s.colls := by rw [complete_eq]
@[simp] theorem complete_ctxs (s : State) (id code result : Nat) (tail : List Byte) : (s.complete id code result tail).ctxs = s.ctxs := by rw [complete_eq]
@[simp] theorem complete_caravan (s : State) (id code result : Nat) (tail : List Byte) : (s.complete id code result tail).caravan = s.caravan := by rw [complete_eq]
@[simp] theorem complete_epochCounter (s : State) (id code result : Nat) (tail : List Byte) : (s.complete id code result tail).epochCounter = s.epochCounter := by rw [complete_eq]
@[simp] theorem complete_freeCount (s : State) (id code result : Nat) (tail : List Byte) : (s.complete id code result tail).freeCount = s.freeCount := by rw [complete_eq]

/-! ## Reading back -/

@[simp] theorem ctx?_putCtx (s : State) (k : Nat) (c : Ctx) : (s.putCtx k c).ctx? k = some c := nfind_nset_same _ _ _
theorem ctx?_putCtx_other (s : State) (k j : Nat) (c : Ctx) (h : j ≠ k) : (s.putCtx k c).ctx? j = s.ctx? j := nfind_nset_other _ _ _ _ h
theorem ctx?_updCtx (s : State) (k : Nat) (f : Ctx → Ctx) (c : Ctx) (h : s.ctx? k = some c) : (s.updCtx k f).ctx? k = some (f c) := by
  unfold State.updCtx; rw [h]; exact ctx?_putCtx _ _ _
theorem updCtx_some (s : State) (k : Nat) (f : Ctx → Ctx) (c : Ctx) (h : s.ctx? k = some c) : s.updCtx k f = s.putCtx k (f c) := by
  unfold State.updCtx; rw [h]
@[simp] theorem putCtx_putCtx (s : State) (k : Nat) (c d : Ctx) : (s.putCtx k c).putCtx k d = s.putCtx k d := by simp [State.putCtx]
@[simp] theorem core?_putCore (c : Ctx) (l : Nat) (x : Core) : (c.putCore l x).core? l = some x := nfind_nset_same _ _ _
theorem core?_putCore_other (c : Ctx) (l m : Nat) (x : Core) (h : m ≠ l) : (c.putCore l x).core? m = c.core? m := nfind_nset_other _ _ _ _ h
@[simp] theorem portGet_putPort (s : State) (p : Nat) (x : Port) : portGet (s.putPort p x).seif p = x := nget_nset_same _ _ _ _
theorem portGet_putPort_other (s : State) (p q : Nat) (x : Port) (h : q ≠ p) : portGet (s.putPort p x).seif q = portGet s.seif q := nget_nset_other _ _ _ _ _ h
@[simp] theorem putPort_putPort (s : State) (p : Nat) (x y : Port) : (s.putPort p x).putPort p y = s.putPort p y := by simp [State.putPort]
@[simp] theorem ringGet_putRing (s : State) (n : Nat) (r : Ring) : ringGet (s.putRing n r).host n = r := nget_nset_same _ _ _ _
theorem ringGet_putRing_other (s : State) (n m : Nat) (r : Ring) (h : m ≠ n) : ringGet (s.putRing n r).host m = ringGet s.host m := nget_nset_other _ _ _ _ _ h

/-! ## The attention log -/

/-- An entry leaves at most 4,096 entries (12 R351). -/
theorem add_bounded (a : Attention) (e : AttnEntry) (h : a.bounded) : (a.add e).bounded := by
  unfold Attention.bounded at h ⊢
  have erase : ∀ (p : AttnEntry → Bool) (i : Nat), a.log.findIdx? p = some i → (a.log.eraseIdx i ++ [e]).length ≤ 4096 := fun p i hi => by
    obtain ⟨hl, -⟩ := List.findIdx?_eq_some_iff_getElem.1 hi
    rw [List.length_append, List.length_eraseIdx]
    simp only [hl, if_true, List.length_singleton]
    omega
  unfold Attention.add
  simp only
  split
  · simp only [List.length_append, List.length_singleton]; omega
  · split
    · exact erase _ _ (by assumption)
    · split
      · exact h
      · split
        · exact erase _ _ (by assumption)
        · exact h

theorem raise_bounded (s : State) (e : Event) (h : s.attn.bounded) : (s.raise e).attn.bounded := add_bounded _ _ h

end Sys2Proof.Machine
end

