-- ==== Sys2Proof/Laws/Turns.lean ====
section
/-! SUPPORT. What a turn of a sequencer, of an engine and of a command does: the lemmas behind every statement about one command. -/

namespace Sys2Proof.Machine

/-! ## Rows of a context, a core, a port, a ring, a command -/

theorem withCtx_some {k : Nat} {s : State} {c : Ctx} (hk : k < 64) (h : s.ctx? k = some c) (f : Ctx → State) : withCtx k s f = .next (f c) := by
  unfold withCtx; rw [if_neg (by omega), h]

theorem withCore_turn {s : State} {k l : Nat} {c : Ctx} {x : Core} (h : CoreTurn s k l c x) (f : Ctx → Core → State) : withCore k l s f = .next (f c x) := by
  unfold withCore
  rw [if_neg (by have := h.context; omega), if_neg (by have := h.logical; omega), h.hasCtx]; simp [h.hasCore]

theorem withPort_ok {p : Nat} (s : State) (hp : p < 18) (f : Port → State) : withPort p s f = .next (f (portGet s.seif p)) := by
  unfold withPort; rw [if_neg (by omega)]

theorem withRing_ok {n : Nat} (s : State) (hn : n < 64) (f : Ring → State) : withRing n s f = .next (f (ringGet s.host n)) := by
  unfold withRing; rw [if_neg (by omega)]

theorem withUnit_ok {n bound : Nat} (hn : n < bound) (f : State) : withUnit n bound f = .next f := by
  unfold withUnit; rw [if_neg (by omega)]

theorem withCmd_turn {s : State} {id op : Nat} {c : HostCmd} (h : CmdTurn s id op c) (f : HostCmd → State) : withCmd id op s f = .next (f c) := by
  unfold withCmd; rw [h.fetched]; simp [h.started, h.isOp, h.fresh]

theorem withCtxCmd_turn {s : State} {id op : Nat} {c : HostCmd} {k : Nat} {x : Ctx} (h : CtxCmdTurn s id op c k x) (f : HostCmd → Nat → Ctx → State) :
    withCtxCmd id op s f = .next (f c k x) := by
  unfold withCtxCmd; rw [withCmd_turn h.toCmdTurn]; simp [h.names, h.hasCtx]

/-! ## A core that has begun an instruction -/

theorem takeToken_eq (x : Core) (w : W64) : x.takeToken w = { x with t := (x.takeToken w).t } := by
  unfold Core.takeToken; split <;> rfl

theorem begun_eq (x : Core) (w : W64) : x.begun w = { x with t := (x.begun w).t, tileBeats := (x.begun w).tileBeats, beats := (x.begun w).beats } := by
  unfold Core.begun; rw [takeToken_eq]; rfl

theorem token_congr {x y : Core} (h : x.t = y.t) (i : Nat) : x.token i = y.token i := by unfold Core.token; rw [h]

@[simp] theorem begun_t (x : Core) (w : W64) : (x.begun w).t = (x.takeToken w).t := rfl
@[simp] theorem begun_s (x : Core) (w : W64) : (x.begun w).s = x.s := by rw [begun_eq]
@[simp] theorem begun_seq (x : Core) (w : W64) : (x.begun w).seq = x.seq := by rw [begun_eq]
@[simp] theorem begun_sreg (x : Core) (w : W64) (r : Nat) : (x.begun w).sreg r = x.sreg r := by simp [Core.sreg]
@[simp] theorem begun_queue (x : Core) (w : W64) (r : Nat) : (x.begun w).queue r = x.queue r := by simp only [Core.queue]; rw [begun_eq]
@[simp] theorem begun_fm (x : Core) (w : W64) : (x.begun w).fm = x.fm := by rw [begun_eq]
@[simp] theorem begun_fv (x : Core) (w : W64) : (x.begun w).fv = x.fv := by rw [begun_eq]
@[simp] theorem begun_fr (x : Core) (w : W64) : (x.begun w).fr = x.fr := by rw [begun_eq]
@[simp] theorem begun_tileIndex (x : Core) (w : W64) : (x.begun w).tileIndex = x.tileIndex := by rw [begun_eq]
@[simp] theorem begun_tiles (x : Core) (w : W64) : (x.begun w).tiles = x.tiles := by rw [begun_eq]
@[simp] theorem begun_wadi (x : Core) (w : W64) : (x.begun w).wadi = x.wadi := by rw [begun_eq]
@[simp] theorem begun_spPoison (x : Core) (w : W64) : (x.begun w).spPoison = x.spPoison := by rw [begun_eq]
@[simp] theorem begun_engineIdle (x : Core) (w : W64) (r : Nat) : (x.begun w).engineIdle r = x.engineIdle r := by simp [Core.engineIdle]
@[simp] theorem begun_quiescent (x : Core) (w : W64) : (x.begun w).quiescent = x.quiescent := by
  have : (x.begun w).engineIdle = x.engineIdle := by funext; simp
  simp [Core.quiescent, this]
@[simp] theorem begun_flagsOf (x : Core) (w : W64) (r : Nat) : (x.begun w).flagsOf r = x.flagsOf r := by unfold Core.flagsOf; split <;> simp
@[simp] theorem begun_spPoisoned (x : Core) (w : W64) (a n : Nat) : (x.begun w).spPoisoned a n = x.spPoisoned a n := by simp [Core.spPoisoned]

@[simp] theorem takeToken_spRead (x : Core) (w : W64) (a n : Nat) : (x.takeToken w).spRead a n = x.spRead a n := by rw [takeToken_eq]; rfl
@[simp] theorem takeToken_spPoisoned (x : Core) (w : W64) (a n : Nat) : (x.takeToken w).spPoisoned a n = x.spPoisoned a n := by rw [takeToken_eq]; rfl
@[simp] theorem takeToken_key (x : Core) (w : W64) : (x.takeToken w).key = x.key := by rw [takeToken_eq]
@[simp] theorem takeToken_lanes (x : Core) (w : W64) (r : Nat) : (x.takeToken w).lanes r = (List.range 64).map (fun i => x.lane r i) := by
  rw [takeToken_eq]; simp [Core.lanes, sgetAll, Core.lane]
@[simp] theorem takeToken_vPoisoned (x : Core) (w : W64) (r : Nat) : (x.takeToken w).vPoisoned r = x.vPoisoned r := by
  rw [takeToken_eq]; simp [Core.vPoisoned]

/-- A signal that fits is given. -/
theorem signal_room {y : Core} {w : W64} (h : opCs w = 0 ∨ y.token (opTs w) + opCs w < 2 ^ 32) : y.signal w = some (y.signalled w) := by
  unfold Core.signal Core.signalled Core.addToken
  split
  · rfl
  · rename_i h0; rw [if_neg]; omega

/-! ## Sequencer instructions (05 R123, R125, R147) -/

theorem seqStep_turn {s : State} {k l : Nat} {c : Ctx} {x : Core} {w : W64} {cls op : Nat} (h : SeqTurn s k l c x w cls op) (f : W64 → Core → CRes) :
    x.seqStep (s.env c l x) cls op f = some (match f w (x.begun w) with
      | .ok y => (match y.signal w with | none => .fault 0x01 | some z => .ok z)
      | r => r) := by
  unfold Core.seqStep
  rw [h.word]
  simp only []
  rw [if_pos ⟨h.isClass, h.isOp, by simp [Core.tokenReady, h.ready], h.notStopped, h.notEnded, h.notFolded⟩]
  rfl

/-- An instruction that succeeds takes its wait, has its effect and signals. -/
theorem seqRowWith_ok {s : State} {k l : Nat} {c : Ctx} {x : Core} {w : W64} {cls op : Nat} (h : SeqTurn s k l c x w cls op)
    (f : State → Ctx → Env → W64 → Core → CRes) (after : State → Nat → Nat → Core → Ctx → State) (y : Core)
    (hf : f s c (s.env c l x) w (x.begun w) = .ok y) (ht : y.t = (x.begun w).t) :
    seqRowWith cls op f after k l s = .next (after s k l x (c.putCore l (y.signalled w))) := by
  unfold seqRowWith
  rw [withCore_turn h.toCoreTurn, if_pos (by simp [h.live, h.calm])]
  simp only []
  rw [seqStep_turn h, hf]
  have : y.signal w = some (y.signalled w) := signal_room (by
    have := h.room; rwa [token_congr (show y.t = (x.takeToken w).t from ht)])
  simp [this, h.going, Ctx.absorb]

theorem seqRow_ok {s : State} {k l : Nat} {c : Ctx} {x : Core} {w : W64} {cls op : Nat} (h : SeqTurn s k l c x w cls op)
    (f : State → Ctx → Env → W64 → Core → CRes) (y : Core) (hf : f s c (s.env c l x) w (x.begun w) = .ok y) (ht : y.t = (x.begun w).t) :
    seqRow cls op f k l s = .next (s.seqDone k l c w y) := seqRowWith_ok h f _ y hf ht

/-- An instruction that faults leaves its core as it was, and the context records the fault. -/
theorem seqRow_fault {s : State} {k l : Nat} {c : Ctx} {x : Core} {w : W64} {cls op : Nat} (h : SeqTurn s k l c x w cls op)
    (f : State → Ctx → Env → W64 → Core → CRes) (after : State → Nat → Nat → Core → Ctx → State) (n : Nat) (hf : f s c (s.env c l x) w (x.begun w) = .fault n) :
    seqRowWith cls op f after k l s = .next (s.putCtx k (c.raiseFault s.st.now l 0 n x.seq.pos)) := by
  unfold seqRowWith
  rw [withCore_turn h.toCoreTurn, if_pos (by simp [h.live, h.calm])]
  simp only []
  rw [seqStep_turn h, hf]
  simp [Ctx.absorb]

/-! ## Scratchpad errors (07 R193) -/

theorem strike_eq (n : Nat) (hit : List (Nat × Flips)) (x : Core) :
    x.strike n hit = { x with sp := (x.strike n hit).sp, spPoison := (x.strike n hit).spPoison } := by
  unfold Core.strike
  induction hit generalizing x with
  | nil => rfl
  | cons a r ih =>
    rw [List.foldl_cons, ih]
    unfold Core.strikeOne; split <;> rfl

section
variable (x : Core) (s : State) (eng : Nat) (errs : List (Nat × Flips)) (stop : Option Nat)

theorem met_eq : x.met s eng errs stop = { x with sp := (x.met s eng errs stop).sp, spPoison := (x.met s eng errs stop).spPoison } := strike_eq _ _ x

@[simp] theorem met_none : x.met s eng [] stop = x := rfl
@[simp] theorem state_met_none (k l : Nat) (c : Ctx) : s.met k l c x eng [] stop = s := rfl

@[simp] theorem met_queue (i : Nat) : (x.met s eng errs stop).queue i = x.queue i := by rw [met_eq]; rfl
@[simp] theorem met_midBlock (i : Nat) : (x.met s eng errs stop).midBlock i = x.midBlock i := by rw [met_eq]; rfl
@[simp] theorem met_tokenReady (w : W64) : (x.met s eng errs stop).tokenReady w = x.tokenReady w := by rw [met_eq]; rfl
@[simp] theorem met_seq : (x.met s eng errs stop).seq = x.seq := by rw [met_eq]
@[simp] theorem met_folded : (x.met s eng errs stop).folded = x.folded := by rw [met_eq]
@[simp] theorem met_s : (x.met s eng errs stop).s = x.s := by rw [met_eq]
@[simp] theorem met_v : (x.met s eng errs stop).v = x.v := by rw [met_eq]
@[simp] theorem met_acc : (x.met s eng errs stop).acc = x.acc := by rw [met_eq]
@[simp] theorem met_tiles : (x.met s eng errs stop).tiles = x.tiles := by rw [met_eq]
@[simp] theorem met_stats : (x.met s eng errs stop).stats = x.stats := by rw [met_eq]
@[simp] theorem met_side : (x.met s eng errs stop).side = x.side := by rw [met_eq]
@[simp] theorem met_sends : (x.met s eng errs stop).sends = x.sends := by rw [met_eq]
@[simp] theorem met_wadi : (x.met s eng errs stop).wadi = x.wadi := by rw [met_eq]

end

/-! ## Engine instructions (05 R124, R125, R147) -/

theorem engineStep_turn {s : State} {k l : Nat} {c : Ctx} {x : Core} {eng : Nat} {e : QEntry} {rest : List QEntry} {cls op : Nat}
    (h : EngineTurn s k l c x eng e rest cls op) (errs : List (Nat × Flips)) (stop : Option Nat) (f : QEntry → Core → CRes) :
    (x.met s eng errs stop).engineStep eng cls op f = some (e.idx, match f e ((x.met s eng errs stop).takeToken e.word) with
      | .ok y => .ok (y.setQueue eng ({ e with executed := !y.midBlock eng } :: rest))
      | r => r) := by
  unfold Core.engineStep
  rw [met_queue, h.head]
  simp only [met_midBlock, met_tokenReady, met_seq, met_folded, h.whole]
  rw [if_pos ⟨h.isClass, h.isOp, h.fresh, by simp [Core.tokenReady, h.ready], h.notStopped, h.notFolded⟩]
  simp only [Bool.false_eq_true, if_false]
  all_goals
    generalize f e _ = r
    cases r <;> rfl

/-- The head of a queue that succeeds has executed and waits for its completion. -/
theorem engineRowWith_ok {s : State} {k l : Nat} {c : Ctx} {x : Core} {eng : Nat} {e : QEntry} {rest : List QEntry} {cls op : Nat}
    (h : EngineTurn s k l c x eng e rest cls op) (use : Nat) (stop : Option Nat) (errs : List (Nat × Flips)) (f : State → Ctx → Env → QEntry → Core → CRes)
    (after : State → Nat → Nat → Core → Ctx → State) (y : Core)
    (hf : f s c (s.env c l x) e ((x.met s eng errs stop).takeToken e.word) = .ok y) (hm : y.midBlock eng = false) :
    engineRowWith eng cls op use stop errs f after k l s =
      .next (after (s.met k l c x eng errs stop) k l (x.met s eng errs stop) (c.putCore l (y.executedHead c.desc.twin eng e rest (x.met s eng errs stop)))) := by
  unfold engineRowWith
  rw [withCore_turn h.toCoreTurn, if_pos (by simp [h.live, h.calm])]
  have step := engineStep_turn h errs stop (f s c (s.env c l x))
  unfold Core.met at step hf
  simp only [step, hf, hm]
  simp only [h.going, Ctx.absorb, CRes.noteTwin, Core.executedHead, State.met, Core.met]
  cases c.desc.twin <;> simp

/-- An engine instruction that does nothing outside its core. -/
theorem engineRow_ok {s : State} {k l : Nat} {c : Ctx} {x : Core} {eng : Nat} {e : QEntry} {rest : List QEntry} {cls op : Nat}
    (h : EngineTurn s k l c x eng e rest cls op) (use : Nat) (errs : List (Nat × Flips)) (f : State → Ctx → Env → QEntry → Core → CRes) (y : Core)
    (hf : f s c (s.env c l x) e ((x.met s eng errs).takeToken e.word) = .ok y) (hm : y.midBlock eng = false) :
    engineRow eng cls op use errs f k l s = .next (s.engineDone k l c x eng errs e rest y) := engineRowWith_ok h use none errs f _ y hf hm

theorem engineRow_fault {s : State} {k l : Nat} {c : Ctx} {x : Core} {eng : Nat} {e : QEntry} {rest : List QEntry} {cls op : Nat}
    (h : EngineTurn s k l c x eng e rest cls op) (use : Nat) (stop : Option Nat) (errs : List (Nat × Flips)) (f : State → Ctx → Env → QEntry → Core → CRes)
    (after : State → Nat → Nat → Core → Ctx → State) (n : Nat) (hf : f s c (s.env c l x) e ((x.met s eng errs stop).takeToken e.word) = .fault n) :
    engineRowWith eng cls op use stop errs f after k l s = .next (s.putCtx k (c.raiseFault s.st.now l eng n e.idx)) := by
  unfold engineRowWith
  rw [withCore_turn h.toCoreTurn, if_pos (by simp [h.live, h.calm])]
  have step := engineStep_turn h errs stop (f s c (s.env c l x))
  unfold Core.met at step hf
  simp only [step, hf]
  simp [Ctx.absorb, CRes.noteTwin]

/-! ## Lanes -/

theorem zipWith_range {α β γ : Type} (f : α → β → γ) (g : Nat → α) (h : Nat → β) (n : Nat) :
    List.zipWith f ((List.range n).map g) ((List.range n).map h) = (List.range n).map (fun i => f (g i) (h i)) := by
  apply List.ext_getElem <;> simp

theorem vectorResult_range (x : Core) (e : QEntry) (p : Bool) (beats : Nat) (f : Nat → FRes) :
    vectorResult e (opVd e.word) p noTensor id beats ((List.range 64).map f) x = x.laneDone e p beats f := by
  have events : List.mapIdx (fun i r => ElemEv.mk (id i) noBlock r.2) ((List.range 64).map f) = (List.range 64).map (fun i => ElemEv.mk i noBlock (f i).2) := by
    apply List.ext_getElem <;> simp
  unfold vectorResult Core.laneDone
  simp only [events, List.map_map]
  rfl

end Sys2Proof.Machine
end

