-- ==== Sys2Proof/Machine/Optimiser.lean ====
section
/-! DEFINITION. Per-element arithmetic that the specification lays down line by line for the learner's programs (09 R264 to R266, 10 R301). The programs
themselves run instruction by instruction on the vector units; these functions say what a conforming program must have computed. -/

namespace Sys2Proof.Machine

def stepSub (a b : W32) : W32 := (f32Sub .rne false a b).1
def stepSqrt (a : W32) : W32 := (f32Sqrt .rne a).1
/-- vx.m48add in RNE. -/
def stepM48Add (m : W32 × W32) (d : W32) : W32 × W32 := (m48Round .rne false (FVal.add (m48Val m.1 m.2) (f32 d))).1

/-- The update u, scaled by the group's ρ under S3 pre-scaling (R266). -/
def GroupEntry.scale (g : GroupEntry) (u : W32) : W32 := if g.flags % 2 = 1 then stepMul u g.rho else u

/-- One element of AdamW (R264): word, tail, first and second moment, and the gradient. -/
def adamw (grp : GroupEntry) (sc : GroupScalars) (w t m v g : W32) : W32 × W32 × W32 × W32 :=
  let m' := stepFma g sc.omb1 (stepMul m grp.b1)
  let v' := stepFma (stepMul g g) sc.omb2 (stepMul v grp.b2)
  let d := stepFma (stepSqrt v') sc.k2 grp.eps
  let u := grp.scale (stepMul (stepMul m' sc.k1) (rcpRef d).1)
  let dl := stepFma u sc.nlr (stepMul w sc.nlrwd)
  let r := stepM48Add (w, t) dl
  (r.1, r.2, m', v')

/-- One element of SGD with momentum (R265); μ lies in the place of β1, and flag [1] is Nesterov. -/
def sgd (grp : GroupEntry) (sc : GroupScalars) (w t b g : W32) : W32 × W32 × W32 :=
  let gd := stepFma w grp.lambda g
  let b' := stepFma b grp.b1 gd
  let u := grp.scale (if grp.flags / 2 % 2 = 1 then stepFma b' grp.b1 gd else b')
  let r := stepM48Add (w, t) (stepMul u sc.nlr)
  (r.1, r.2, b')

/-- The reward of a rollout from the reward model's score and the host's reward, each +0 where there is none (R301). -/
def LearnerTable.reward (t : LearnerTable) (score host : W32) : W32 := stepFma t.wRm score host

/-- Advantages of a group in ascending sample number (R301). -/
def LearnerTable.advantages (t : LearnerTable) (r : List W32) : List W32 :=
  if t.mode = 0 then r
  else
    let inv := (rcpRef (f32OfInt r.length)).1
    let mean := stepMul (canonicalTree 0 (fun _ => stepAdd) r) inv
    let d := r.map (fun x => stepSub x mean)
    if t.mode = 1 then d
    else
      let var := stepMul (canonicalTree 0 (fun _ => stepAdd) (d.map (fun x => stepMul x x))) inv
      let q := (rcpRef (stepAdd (stepSqrt var) t.eps)).1
      d.map (fun x => stepMul x q)

/-! ## Attention across stretches (10 R288) -/

/-- The partial of one query row against one key stretch: maximum, sum, and the unnormalised row of the product. -/
structure Partial where
  m : W32
  s : W32
  o : List W32
  deriving DecidableEq, Repr

/-- The larger of two values, exactly. -/
def stepMax (a b : W32) : W32 := if (f32 a).lt (f32 b) then b else a

/-- exp2_ref of a coefficient times a difference. -/
def stretchFactor (c a b : W32) : W32 := (exp2Ref (stepMul (stepSub a b) c)).1

/-- One further key stretch enters the chain (R288). -/
def Partial.merge (c : W32) (a b : Partial) : Partial :=
  let m := stepMax a.m b.m
  let fa := stretchFactor c a.m m
  let fb := stretchFactor c b.m m
  { m := m, s := stepFma a.s fa (stepMul b.s fb), o := (a.o.zip b.o).map (fun x => stepFma x.1 fa (stepMul x.2 fb)) }

/-- merge_attention (R288): the partials of key stretches 0 to q in ascending order. -/
def mergeAttention (c : W32) : List Partial → List W32
  | [] => []
  | p :: ps =>
    let r := ps.foldl (Partial.merge c) p
    r.o.map (fun x => stepMul x (rcpRef r.s).1)

end Sys2Proof.Machine
end

