-- ==== Sys2Proof/Tests/Slice0.lean ====
section
/-! SUPPORT. Small tests of the model: ill-formed commands are refused, one step of many commands against values worked out by hand from the specification, and
for each statement with hypotheses states and operands that meet them. -/

namespace Sys2Proof.Tests
open Sys2Proof.Machine
set_option Elab.async false

/-! ## Well-formedness: each check refuses -/

theorem test_wf_context : Instr.wf (.contextFaultStop 64) = false ∧ Instr.wf (.contextFaultStop 63) = true := by decide
theorem test_wf_core : Instr.wf (.seqAdd 0 512) = false ∧ Instr.wf (.seqAdd 64 0) = false ∧ Instr.wf (.seqAdd 63 511) = true := by decide
theorem test_wf_queue : Instr.wf (.wqPost 0 0 16 []) = false ∧ Instr.wf (.wqPost 0 0 15 []) = true := by decide
theorem test_wf_engine : Instr.wf (.instructionCompletion 0 0 5 0) = false ∧ Instr.wf (.instructionCompletion 0 0 32 0) = false ∧ Instr.wf (.instructionCompletion 0 0 31 0) = true := by decide
theorem test_wf_waiting_engine : Instr.wf (.waitLimitExpiry 0 0 15 false) = false ∧ Instr.wf (.waitLimitExpiry 0 0 0 false) = true := by decide
theorem test_wf_port : Instr.wf (.portTraining 18) = false ∧ Instr.wf (.portTraining 17) = true := by decide
theorem test_wf_ring : Instr.wf (.doorbellWrite 64 0) = false ∧ Instr.wf (.doorbellWrite 63 0) = true := by decide
theorem test_wf_physical_core : Instr.wf (.sieveDue 4 0) = false ∧ Instr.wf (.sieveDue 0 136) = false ∧ Instr.wf (.sieveDue 3 135) = true := by decide
theorem test_wf_refresh : Instr.wf (.memoryRefresh true 16 0) = false ∧ Instr.wf (.memoryRefresh false 512 0) = false ∧ Instr.wf (.memoryRefresh false 511 0) = true := by decide
theorem test_wf_die : Instr.wf (.dataMoveComplete 4) = false ∧ Instr.wf (.rowRepair 4 0 0) = false ∧ Instr.wf (.mirageCheck 4 0) = false := by decide
theorem test_wf_stack : Instr.wf (.stackTemperatureRead 16 0) = false ∧ Instr.wf (.stackTemperatureRead 15 0) = true := by decide
theorem test_wf_suspect : Instr.wf (.suspectClearTimeout 1024) = false ∧ Instr.wf (.suspectClearTimeout 1023) = true := by decide
theorem test_wf_pair : Instr.wf (.oasisPairFailure 4) = false ∧ Instr.wf (.serviceRestartComplete 4) = false ∧ Instr.wf (.oasisPairFailure 3) = true := by decide
theorem test_wf_rail : Instr.wf (.regulatorPhaseLoss 8) = false ∧ Instr.wf (.regulatorPhaseLoss 7) = true := by decide
/-- The fault of a command from reset. -/
def faultOf (i : Instr) : Option Fault :=
  match exec i State.reset with
  | .fault f => some f
  | _ => none
theorem test_ill_formed_faults : [Instr.seqAdd 64 0, .seqAdd 0 512, .instructionCompletion 0 0 5 0, .portTraining 18, .doorbellWrite 64 0, .dataMoveComplete 4].map faultOf
    = [some .noContext, some .noCore, some .noEngine, some .noPort, some .noRing, some .noUnit] := by decide

/-! ## States for tests -/

/-- An instruction word from its fields (05 R133). -/
def word (cls op tw cw ts cs operands : Nat) : W64 :=
  BitVec.ofNat 64 (cls * 2 ^ 60 + op * 2 ^ 54 + tw * 2 ^ 48 + cw * 2 ^ 45 + ts * 2 ^ 40 + cs * 2 ^ 37 + operands)

/-- A tensor of 64 by 64 FP32 elements. -/
def tensor7 : TensorEntry := { id := 7, format := 0, flags := 0, rank := 2, dims := [64, 64] }

/-- A program of one image on one core. -/
def prog (ws : List W64) : Program :=
  { cores := 1, modules := 1, bound := 0, waitLimit := 1000, liveSize := 0, usesGate := false, images := [ws], coreMap := [0], tensors := [tensor7], invocations := [],
    slotMap := ⟨1, [], []⟩, tokenPlan := [], preloads := [], scalars := [], digest := [] }

/-- A core at the first instruction. -/
def core0 : Core := { Core.fresh with seq := Sequencer.start }

/-- Context 0, Running a program in slot 0 on one core. -/
def ctx0 (ws : List W64) (x : Core) : Ctx :=
  { Ctx.fresh 1 0 0 0 { CtxDesc.zero with cores := 1 } with status := .running, slots := [(0, prog ws)], cores := [(0, x)], run := some (RunPhase.of 0 0 7) }

/-- The state after reset, with context 0. -/
def with0 (c : Ctx) : State := { State.reset with ctxs := [(0, c)] }

/-- A command's next state, seen through a function. -/
def after {α : Type} (i : Instr) (s : State) (f : State → α) : Option α :=
  match exec i s with
  | .next t => some (f t)
  | _ => none

/-- Context 0, and its core 0, after a command. -/
def ctxAfter (i : Instr) (s : State) : Option Ctx := (after i s (fun t => t.ctx? 0)).bind id
def coreAfter (i : Instr) (s : State) : Option Core := (ctxAfter i s).bind (fun c => c.core? 0)

/-- A context whose core 0 stands at one sequencer-class word. -/
def seqOn (w : W64) (x : Core) : State := with0 (ctx0 [w] x)
/-- A context whose core 0 has one instruction at the head of an engine's queue. -/
def engOn (eng : Nat) (e : QEntry) (x : Core) : State := with0 (ctx0 [] (x.setQueue eng [e]))
/-- A queue entry with copied scalars. -/
def entry (w : W64) (scal : SMap 64) : QEntry := ⟨w, 0, scal, .apply, false, none⟩

/-- Such a core has its turn. -/
theorem seqTurn_on (w : W64) (x : Core) (cls op : Nat) (h1 : x.seq.pos = 0 ∧ x.seq.stopped = false ∧ x.seq.ended = false) (h2 : x.folded = false ∧ x.image = 0)
    (h3 : opClass w = cls ∧ opCode w = op ∧ opCw w = 0 ∧ opCs w = 0) : SeqTurn (seqOn w x) 0 0 (ctx0 [w] x) x w cls op := by
  obtain ⟨a, b, c⟩ := h1
  obtain ⟨d, e⟩ := h2
  obtain ⟨f, g, i, j⟩ := h3
  refine ⟨⟨by decide, by decide, rfl, rfl, rfl, rfl, b, d⟩, ?_, f, g, rfl, ?_, c, .inl j⟩
  · simp only [Env.wordAt, State.env, e, a]; rfl
  · rw [i]; exact Nat.zero_le _

theorem engTurn_on (eng : Nat) (e : QEntry) (x : Core) (cls op : Nat) (h1 : x.seq.stopped = false ∧ x.folded = false ∧ x.queues = [] ∧ x.atBlock = none)
    (h2 : opClass e.word = cls ∧ opCode e.word = op ∧ opCw e.word = 0 ∧ e.executed = false) :
    EngineTurn (engOn eng e x) 0 0 (ctx0 [] (x.setQueue eng [e])) (x.setQueue eng [e]) eng e [] cls op := by
  obtain ⟨a, b, q, m⟩ := h1
  have m : (x.setQueue eng [e]).midBlock eng = false := by simp [Core.midBlock, Core.setQueue, m]
  obtain ⟨f, g, i, j⟩ := h2
  refine ⟨⟨by decide, by decide, rfl, rfl, rfl, rfl, a, b⟩, ?_, f, g, rfl, ?_, j, m⟩
  · simp [Core.queue, Core.setQueue, q, nset, nget]
  · rw [i]; exact Nat.zero_le _

/-- The fields of a word are what it was made of. -/
theorem word_fields (cls op imm : Nat) (h1 : cls < 16) (h2 : op < 64) (h3 : imm < 2 ^ 37) :
    opClass (word cls op 0 0 0 0 imm) = cls ∧ opCode (word cls op 0 0 0 0 imm) = op ∧ opCw (word cls op 0 0 0 0 imm) = 0 ∧ opCs (word cls op 0 0 0 0 imm) = 0 := by
  simp only [opClass, opCode, opCw, opCs, fld, word, BitVec.toNat_ofNat]
  omega

theorem coreTurn_on (ws : List W64) (x : Core) (h : x.seq.stopped = false ∧ x.folded = false) : CoreTurn (with0 (ctx0 ws x)) 0 0 (ctx0 ws x) x :=
  ⟨by decide, by decide, rfl, rfl, rfl, rfl, h.1, h.2⟩

theorem coreTurn_mk {s : State} {c : Ctx} {x : Core} (hc : s.ctx? 0 = some c ∧ c.core? 0 = some x) (hl : c.live = true ∧ c.stopping = false)
    (hx : x.seq.stopped = false ∧ x.folded = false) : CoreTurn s 0 0 c x := ⟨by decide, by decide, hc.1, hc.2, hl.1, hl.2, hx.1, hx.2⟩
theorem seqTurn_mk {s : State} {c : Ctx} {x : Core} {w : W64} {cls op : Nat} (hc : s.ctx? 0 = some c ∧ c.core? 0 = some x) (hl : c.live = true ∧ c.stopping = false)
    (hx : x.seq.stopped = false ∧ x.folded = false ∧ x.seq.ended = false) (hw : (s.env c 0 x).wordAt x = some w)
    (h : opClass w = cls ∧ opCode w = op ∧ opCw w = 0 ∧ opCs w = 0) (hn : s.net.calm = false := by rfl) : SeqTurn s 0 0 c x w cls op :=
  ⟨coreTurn_mk hc hl ⟨hx.1, hx.2.1⟩, hw, h.1, h.2.1, hn, by rw [h.2.2.1]; exact Nat.zero_le _, hx.2.2, .inl h.2.2.2⟩

/-! ## The queue and the sequencer -/

theorem witness_StepRunsFront : State.reset.pending = [] := rfl
theorem witness_CommandsComplete : Instr.wf .boot = true ∧ Instr.wf (.seqNop 64 0) = false := by decide

theorem witness_SequencerArithmetic : ∀ op ∈ [0x00, 0x08, 0x09, 0x0A, 0x0B, 0x0C, 0x0D, 0x0E, 0x0F, 0x10, 0x11, 0x12],
    ∃ s k l c x w, SeqTurn s k l c x w 0 op := fun op h => by
  have h2 : op < 64 := by revert op; decide
  exact ⟨_, _, _, _, core0, word 0 op 0 0 0 0 0, seqTurn_on _ _ _ _ (by decide) (by decide) (word_fields 0 op 0 (by decide) h2 (by decide))⟩

/-- sd is s3, sa s1, sb s2. -/
def r3 (imm : Nat) : Nat := 3 * 2 ^ 32 + 1 * 2 ^ 27 + 2 * 2 ^ 22 + imm
/-- A sequencer word on registers s1 = `a` and s2 = `b`: s3, the position and the signalled token 5 afterwards. -/
def seqRun (i : Instr) (op operands : Nat) (a b : W64) : Option (W64 × Nat × Nat) :=
  (coreAfter i (seqOn (word 0 op 4 2 5 3 operands) { core0 with s := sset (sset [(3, 9)] 1 a) 2 b, t := [(4, 2)] })).map (fun x => (x.sreg 3, x.seq.pos, x.token 5 + x.token 4))

theorem test_seqNop : seqRun (.seqNop 0 0) 0x00 0 0 0 = some (9, 1, 3) := by decide
theorem test_seqLi : seqRun (.seqLi 0 0) 0x08 (3 * 2 ^ 32 + 0xFFFFFFFF) 0 0 = some (0xFFFFFFFF, 1, 3) := by decide
theorem test_seqLih : seqRun (.seqLih 0 0) 0x09 (3 * 2 ^ 32 + 0x12345678) 0 0 = some (0x1234567800000009, 1, 3) := by decide
theorem test_seqAddi_signed : seqRun (.seqAddi 0 0) 0x0A (3 * 2 ^ 32 + 1 * 2 ^ 27 + 0x3FFFFF) 5 0 = some (4, 1, 3) := by decide
theorem test_seqAdd_wraps : seqRun (.seqAdd 0 0) 0x0B (r3 0) 0xFFFFFFFFFFFFFFFF 3 = some (2, 1, 3) := by decide
theorem test_seqSub_wraps : seqRun (.seqSub 0 0) 0x0C (r3 0) 5 7 = some (0xFFFFFFFFFFFFFFFE, 1, 3) := by decide
theorem test_seqMul_low : seqRun (.seqMul 0 0) 0x0D (r3 0) 0x100000001 0x100000003 = some (0x0000000400000003, 1, 3) := by decide
theorem test_seqAnd : seqRun (.seqAnd 0 0) 0x0E (r3 0) 0xC 0xA = some (8, 1, 3) := by decide
theorem test_seqOr : seqRun (.seqOr 0 0) 0x0F (r3 0) 0xC 0xA = some (0xE, 1, 3) := by decide
theorem test_seqXor : seqRun (.seqXor 0 0) 0x10 (r3 0) 0xC 0xA = some (6, 1, 3) := by decide
theorem test_seqShl_63 : seqRun (.seqShl 0 0) 0x11 (3 * 2 ^ 32 + 1 * 2 ^ 27 + 63) 3 0 = some (0x8000000000000000, 1, 3) := by decide
theorem test_seqShr_63 : seqRun (.seqShr 0 0) 0x12 (3 * 2 ^ 32 + 1 * 2 ^ 27 + 63) 0x8000000000000000 0 = some (1, 1, 3) := by decide
/-- A satisfied wait is needed: with one token fewer nothing happens. -/
theorem test_seqNop_waits : (coreAfter (.seqNop 0 0) (seqOn (word 0 0 4 2 5 3 0) { core0 with t := [(4, 1)] })).map (fun x => x.seq.pos) = some 0 := by decide

def inLoop : Core := { core0 with seq := { Sequencer.start with loops := [⟨0, 3, 2⟩, ⟨0, 9, 4⟩] } }
theorem witness_SequencerReads :
    (SeqTurn (seqOn (word 0 0x13 0 0 0 0 (1 * 2 ^ 30)) inLoop) 0 0 (ctx0 [word 0 0x13 0 0 0 0 (1 * 2 ^ 30)] inLoop) inLoop (word 0 0x13 0 0 0 0 (1 * 2 ^ 30)) 0 0x13
      ∧ inLoop.seq.loops.reverse[1]? = some ⟨0, 3, 2⟩)
    ∧ ∀ n ∈ [0, 1, 2, 3, 4, 5, 6, 7], ∃ s k l c x w, SeqTurn s k l c x w 0 0x14 ∧ fld w 28 4 = n :=
  ⟨⟨seqTurn_on _ _ _ _ (by decide) (by decide) (by decide), by decide⟩, fun n h =>
    ⟨_, _, _, _, core0, word 0 0x14 0 0 0 0 (n * 2 ^ 28), seqTurn_on _ _ _ _ (by decide) (by decide) (by revert n; decide), by revert n; decide⟩⟩
/-- Level 0 is the outermost. -/
theorem test_seqRdlc_outermost : (coreAfter (.seqRdlc 0 0) (seqOn (word 0 0x13 0 0 0 0 (3 * 2 ^ 32)) inLoop)).map (fun x => x.sreg 3) = some 4 := by decide
/-- Item 4 is the step counter; 7 here. -/
theorem test_seqRdid_step : (coreAfter (.seqRdid 0 0) (seqOn (word 0 0x14 0 0 0 0 (3 * 2 ^ 32 + 4 * 2 ^ 28)) core0)).map (fun x => x.sreg 3) = some 7 := by decide

/-- seq.loop with an immediate count. -/
def loopImm (n : Nat) : W64 := word 0 0x01 0 0 0 0 n
/-- seq.loop with the count in s1. -/
def loopReg : W64 := word 0 0x01 0 0 0 0 (2 ^ 36 + 1 * 2 ^ 31)
def many : Core := { core0 with s := [(1, 0x1000000)] }
theorem witness_SequencerLoops :
    (SeqTurn (seqOn (loopImm 0xFFFFFF) core0) 0 0 (ctx0 [loopImm 0xFFFFFF] core0) core0 (loopImm 0xFFFFFF) 0 1 ∧ (loopImm 0xFFFFFF).toNat % 2 ^ 24 ≠ 0)
    ∧ (SeqTurn (seqOn (loopImm 0) core0) 0 0 (ctx0 [loopImm 0] core0) core0 (loopImm 0) 0 1 ∧ (loopImm 0).toNat % 2 ^ 24 = 0)
    ∧ (SeqTurn (seqOn loopReg many) 0 0 (ctx0 [loopReg] many) many loopReg 0 1 ∧ 2 ^ 24 ≤ (many.sreg (fld loopReg 31 5)).toNat % 2 ^ 32)
    ∧ (∀ lc ∈ [1, 2], ∃ x : Core, SeqTurn (seqOn (word 0 2 0 0 0 0 0) x) 0 0 (ctx0 [word 0 2 0 0 0 0 0] x) x (word 0 2 0 0 0 0 0) 0 2 ∧ x.seq.loops = [⟨0, 3, lc⟩])
    ∧ (SeqTurn (seqOn (word 0 3 0 0 0 0 0) inLoop) 0 0 (ctx0 [word 0 3 0 0 0 0 0] inLoop) inLoop (word 0 3 0 0 0 0 0) 0 3 ∧ inLoop.seq.loops.reverse[0]? = some ⟨0, 9, 4⟩) :=
  ⟨⟨seqTurn_on _ _ _ _ (by decide) (by decide) (by decide), by decide⟩, ⟨seqTurn_on _ _ _ _ (by decide) (by decide) (by decide), by decide⟩,
   ⟨seqTurn_on _ _ _ _ (by decide) (by decide) (by decide), by decide⟩,
   fun lc h => ⟨{ core0 with seq := { Sequencer.start with loops := [⟨0, 3, lc⟩] } }, seqTurn_on _ _ _ _ ⟨rfl, rfl, rfl⟩ ⟨rfl, rfl⟩ (by decide), rfl⟩,
   ⟨seqTurn_on _ _ _ _ (by decide) (by decide) (by decide), by decide⟩⟩

/-- A loop program: seq.loop 2, seq.nop, seq.endl, seq.nop. -/
def loopProg (n : Nat) : List W64 := [loopImm n, word 0 0 0 0 0 0 0, word 0 2 0 0 0 0 0, word 0 0 0 0 0 0 0]
def posLoops (o : Option Core) : Option (Nat × List LoopLevel) := o.map (fun x => (x.seq.pos, x.seq.loops))
theorem test_seqLoop_opens : posLoops (coreAfter (.seqLoop 0 0) (with0 (ctx0 (loopProg 2) core0))) = some (1, [⟨1, 2, 0⟩]) := by decide
/-- A count of zero skips the body. -/
theorem test_seqLoop_zero : posLoops (coreAfter (.seqLoop 0 0) (with0 (ctx0 (loopProg 0) core0))) = some (3, []) := by decide
def atEndl (lc : Nat) : Core := { core0 with seq := { Sequencer.start with pos := 2, loops := [⟨1, 2, lc⟩] } }
theorem test_seqEndl_repeats : posLoops (coreAfter (.seqEndl 0 0) (with0 (ctx0 (loopProg 2) (atEndl 0)))) = some (1, [⟨1, 2, 1⟩]) := by decide
theorem test_seqEndl_leaves : posLoops (coreAfter (.seqEndl 0 0) (with0 (ctx0 (loopProg 2) (atEndl 1)))) = some (3, []) := by decide
/-- Condition 3 (lc ≥ value) on level 1 with lc = 2: the next five instructions are skipped. -/
theorem test_seqBrlc_taken : posLoops (coreAfter (.seqBrlc 0 0) (seqOn (word 0 3 0 0 0 0 (1 * 2 ^ 35 + 3 * 2 ^ 32 + 5 * 2 ^ 18 + 2)) inLoop)) = some (6, inLoop.seq.loops) := by decide

def wTb : W64 := word 0 5 0 0 0 0 0
def wEnd : W64 := word 0 7 0 0 0 0 0
def wFence : W64 := word 0 6 0 0 0 0 0x1FFFFE0000
/-- A core with an instruction of the vector unit waiting, and one with an open tile. -/
def busy0 : Core := core0.setQueue engVector [entry (word 2 2 0 0 0 0 0) []]
/-- A context that is asked to leave its cores. -/
def leaving0 : Ctx := { ctx0 [wTb] core0 with preempt := true, size := 5 }
def open0 : Core := { core0 with tiles := [Tile.ofDescriptor 0 0 0] }
theorem seqTurn_word (w : W64) (cls op : Nat) (h : opClass w = cls ∧ opCode w = op ∧ opCw w = 0 ∧ opCs w = 0) (x : Core) (hx : x.seq = Sequencer.start ∧ x.folded = false ∧ x.image = 0) :
    SeqTurn (seqOn w x) 0 0 (ctx0 [w] x) x w cls op := seqTurn_on _ _ _ _ (by rw [hx.1]; decide) hx.2 h
theorem witness_SequencerBoundaries :
    (∀ x ∈ [core0, busy0, open0], SeqTurn (seqOn wFence x) 0 0 (ctx0 [wFence] x) x wFence 0 6 ∧ SeqTurn (seqOn wTb x) 0 0 (ctx0 [wTb] x) x wTb 0 5
      ∧ SeqTurn (seqOn wEnd x) 0 0 (ctx0 [wEnd] x) x wEnd 0 7)
    ∧ (∀ g ∈ fenceEngines wFence, core0.queue g = []) ∧ (∃ g ∈ fenceEngines wFence, busy0.queue g ≠ [])
    ∧ core0.quiescent = true ∧ busy0.quiescent = false ∧ (open0.quiescent = true ∧ open0.tiles ≠ []) ∧ (ctx0 [wTb] core0).preempt = false
    ∧ (SeqTurn (with0 leaving0) 0 0 leaving0 core0 wTb 0 5 ∧ leaving0.preempt = true ∧ (with0 leaving0).inStretch 0 leaving0 = false) := by
  refine ⟨fun x h => ⟨seqTurn_word _ _ _ (by decide) _ ?_, seqTurn_word _ _ _ (by decide) _ ?_, seqTurn_word _ _ _ (by decide) _ ?_⟩, by decide, by decide, by decide, by decide, by decide, rfl,
    seqTurn_mk ⟨rfl, rfl⟩ ⟨rfl, rfl⟩ ⟨rfl, rfl, rfl⟩ rfl (by decide), rfl, by decide⟩
  all_goals revert x; decide


/-! ## Timed launch -/

/-- seq.wait.st on s1. -/
def wWait : W64 := word 0 4 0 0 0 0 (1 * 2 ^ 32)
/-- Context 0 at seq.wait.st with a target, a margin in µs, at a System Time. -/
def waitCtx (target : W64) (margin : Nat) : Ctx :=
  { ctx0 [wWait] { core0 with s := [(1, target)] } with desc := { CtxDesc.zero with cores := 1, margin := margin } }
def waitState (target : W64) (margin now : Nat) : State := { with0 (waitCtx target margin) with st := { State.reset.st with now := BitVec.ofNat 64 now } }
theorem waitTurn (target : W64) (margin now : Nat) :
    SeqTurn (waitState target margin now) 0 0 (waitCtx target margin) { core0 with s := [(1, target)] } wWait 0 4 :=
  seqTurn_mk ⟨rfl, rfl⟩ ⟨rfl, rfl⟩ ⟨rfl, rfl, rfl⟩ rfl (by decide)
theorem observed_bounds (target : W64) (margin now : Nat) (h : now < 2 ^ 64) :
    (waitState target margin now).observed ≤ now ∧ now ≤ (waitState target margin now).observed + 16 := by
  have e : (waitState target margin now).st.now.toNat = now := by simp only [waitState, BitVec.toNat_ofNat]; omega
  have m : min 16 (Config.observedLag (waitState target margin now).freeCount) ≤ 16 := Nat.min_le_left _ _
  simp only [State.observed, e]
  omega

theorem witness_TimedLaunch :
    (SeqTurn (waitState 0 10 16) 0 0 (waitCtx 0 10) { core0 with s := [(1, 0)] } wWait 0 4 ∧ (0 : W64).toNat ≤ (waitState 0 10 16).observed
      ∧ ¬ (0 < (waitState 0 10 16).observed ∧ 16 * 10 < (waitState 0 10 16).observed - 0))
    ∧ (SeqTurn (waitState 0 10 1000) 0 0 (waitCtx 0 10) { core0 with s := [(1, 0)] } wWait 0 4
      ∧ 0 < (waitState 0 10 1000).observed ∧ 16 * 10 < (waitState 0 10 1000).observed - 0)
    ∧ (SeqTurn (waitState 1000 10 16) 0 0 (waitCtx 1000 10) { core0 with s := [(1, 1000)] } wWait 0 4 ∧ (waitState 1000 10 16).observed < 1000
      ∧ 1000 ≤ (waitState 1000 10 16).observed + (waitCtx 1000 10).waitLimit)
    ∧ (SeqTurn (waitState 0xFFFFFFFFFFFFFFFF 10 16) 0 0 (waitCtx 0xFFFFFFFFFFFFFFFF 10) { core0 with s := [(1, 0xFFFFFFFFFFFFFFFF)] } wWait 0 4
      ∧ (waitState 0xFFFFFFFFFFFFFFFF 10 16).observed + (waitCtx 0xFFFFFFFFFFFFFFFF 10).waitLimit < 0xFFFFFFFFFFFFFFFF) := by
  have a := observed_bounds 0 10 16 (by decide)
  have b := observed_bounds 0 10 1000 (by decide)
  have c := observed_bounds 1000 10 16 (by decide)
  have d := observed_bounds 0xFFFFFFFFFFFFFFFF 10 16 (by decide)
  have e : (waitCtx 1000 10).waitLimit = 16000000 := by decide
  have f : (waitCtx 0xFFFFFFFFFFFFFFFF 10).waitLimit = 16000000 := by decide
  refine ⟨⟨waitTurn _ _ _, Nat.zero_le _, by omega⟩, ⟨waitTurn _ _ _, by omega, by omega⟩, ⟨waitTurn _ _ _, by omega, by omega⟩, ⟨waitTurn _ _ _, by omega⟩⟩
/-- A wait that has started and whose target is reached. -/
def waiting0 : Core := { core0 with seq := { Sequencer.start with waitTarget := some 0 } }
theorem witness_TimedLaunch_reached : CoreTurn (with0 (ctx0 [wWait] waiting0)) 0 0 (ctx0 [wWait] waiting0) waiting0 ∧ waiting0.seq.waitTarget = some 0
    ∧ ((with0 (ctx0 [wWait] waiting0)).env (ctx0 [wWait] waiting0) 0 waiting0).wordAt waiting0 = some wWait ∧ (0 : W64).toNat ≤ (with0 (ctx0 [wWait] waiting0)).observed
    ∧ opCs wWait = 0 ∧ ¬ (0 < (with0 (ctx0 [wWait] waiting0)).observed ∧ 16 * 0 < (with0 (ctx0 [wWait] waiting0)).observed - 0) :=
  ⟨coreTurn_on _ _ ⟨rfl, rfl⟩, rfl, rfl, Nat.zero_le _, by decide, by
    have h : (with0 (ctx0 [wWait] waiting0)).observed = 0 := Nat.zero_sub _
    rw [h]; decide⟩

/-! ## Checks, the gate, dispatch -/

/-- Context 0 with a STEP of command 0 in progress. -/
def stepCtx (w : W64) (x : Core) (st : StepRun) : Ctx := { ctx0 [w] x with steps := [st] }
def step0 : StepRun := StepRun.start 0 7 [0xFF, 0, 0, 0] false
def wCk (op imm : Nat) : W64 := word 7 op 0 0 0 0 imm
/-- ck.poison from s0 over s1 granules. -/
def wPoison : W64 := wCk 3 (1 * 2 ^ 25)
/-- s0 names the last granule of the scratchpad, s1 a length. -/
def lastGranule (n : W64) : Core := { core0 with s := [(0, 49151), (1, n)] }
def poisonedLast : Core := { lastGranule 1 with spPoison := [(49151, 1)] }
/-- A vx.st of the last granule waits (its base register is s0, the immediate offset 0). -/
def storing : Core := (lastGranule 1).setQueue engVector [entry (word 2 1 0 0 0 0 0) [(0, 49151)]]
theorem turn7 (op : Nat) (x : Core) (h : opClass (wCk op (1 * 2 ^ 25)) = 7 ∧ opCode (wCk op (1 * 2 ^ 25)) = op ∧ opCw (wCk op (1 * 2 ^ 25)) = 0 ∧ opCs (wCk op (1 * 2 ^ 25)) = 0)
    (hx : x.seq = Sequencer.start ∧ x.folded = false ∧ x.image = 0) : SeqTurn (seqOn (wCk op (1 * 2 ^ 25)) x) 0 0 (ctx0 [wCk op (1 * 2 ^ 25)] x) x (wCk op (1 * 2 ^ 25)) 7 op :=
  seqTurn_word _ _ _ h _ hx
theorem witness_CheckAndGateInstructions_checks :
    (∀ op ∈ [0, 1, 2], SeqTurn (seqOn (wCk op (1 * 2 ^ 25)) core0) 0 0 (ctx0 [wCk op (1 * 2 ^ 25)] core0) core0 (wCk op (1 * 2 ^ 25)) 7 op)
    ∧ (core0.queue 1 = [] ∧ (lastGranule 1).queue 1 = [] ∧ ((lastGranule 1).sreg 0).toNat < spGranules ∧ spGranules ≤ (({ core0 with s := [(0, 49152)] } : Core).sreg 0).toNat)
    ∧ (∀ x ∈ [lastGranule 0, lastGranule 1, lastGranule 2, poisonedLast, storing], SeqTurn (seqOn wPoison x) 0 0 (ctx0 [wPoison] x) x wPoison 7 3 ∧ (x.sreg (opR0 wPoison)).toNat = 49151)
    ∧ ([lastGranule 0, lastGranule 1, lastGranule 2, poisonedLast, storing].map (fun x => ((x.sreg (fld wPoison 25 5)).toNat, (x.begun wPoison).writesInto 49151 1, x.spPoisoned (64 * 49151) 64))
        = [(0, false, false), (1, false, false), (2, false, false), (1, false, true), (1, true, false)]) := by
  refine ⟨fun op h => turn7 op _ ?_ ⟨rfl, rfl, rfl⟩, by decide, fun x h => ⟨turn7 3 _ (by decide) ?_, ?_⟩, by decide⟩
  · revert op; decide
  all_goals revert x; decide

/-- A core at gt.vote, gt.wait or gt.clr in a STEP. -/
def wGt (op : Nat) : W64 := word 8 op 0 0 0 0 0
def twinned (c : Ctx) : Ctx := { c with desc := { c.desc with twin := true } }
theorem witness_CheckAndGateInstructions_gate :
    (∀ st ∈ [step0, { step0 with votes := [(0, true)] }, { step0 with waited := [0] }], SeqTurn (with0 (stepCtx (wGt 0) core0 st)) 0 0 (stepCtx (wGt 0) core0 st) core0 (wGt 0) 8 0
        ∧ (stepCtx (wGt 0) core0 st).stepOf = some st ∧ (stepCtx (wGt 0) core0 st).desc.twin = false)
    ∧ [step0, { step0 with votes := [(0, true)] }, { step0 with waited := [0] }].map (fun st => (nmem st.votes 0, decide (0 ∈ st.waited))) = [(false, false), (true, false), (false, true)]
    ∧ (SeqTurn (with0 (twinned (ctx0 [wGt 0] core0))) 0 0 (twinned (ctx0 [wGt 0] core0)) core0 (wGt 0) 8 0 ∧ (twinned (ctx0 [wGt 0] core0)).stepOf = none
        ∧ voteDigest (core0.vote (wGt 0)) ≠ 0 ∧ voteDigest (core0.vote (wGt 0)) = voteDigest true)
    ∧ (∀ apply : Bool, SeqTurn (with0 (stepCtx (wGt 1) core0 { step0 with decision := some apply })) 0 0 (stepCtx (wGt 1) core0 { step0 with decision := some apply }) core0 (wGt 1) 8 1
        ∧ (stepCtx (wGt 1) core0 { step0 with decision := some apply }).stepOf = some { step0 with decision := some apply })
    ∧ (SeqTurn (seqOn (wGt 2) core0) 0 0 (ctx0 [wGt 2] core0) core0 (wGt 2) 8 2 ∧ core0.queue engVector = []) := by
  refine ⟨fun st h => ⟨seqTurn_mk ⟨rfl, rfl⟩ ⟨rfl, rfl⟩ ⟨rfl, rfl, rfl⟩ rfl (by decide), ?_, rfl⟩, by decide,
    ⟨seqTurn_mk ⟨rfl, rfl⟩ ⟨rfl, rfl⟩ ⟨rfl, rfl, rfl⟩ rfl (by decide), rfl, by decide⟩,
    fun a => ⟨seqTurn_mk ⟨rfl, rfl⟩ ⟨rfl, rfl⟩ ⟨rfl, rfl, rfl⟩ rfl (by decide), rfl⟩, ⟨seqTurn_word _ _ _ (by decide) _ ⟨rfl, rfl, rfl⟩, by decide⟩⟩
  revert st; decide

def flagged : Core := { core0 with fv := { EngineFlags.clear with ov := true, iv := true } }
/-- Flags in bits 3 to 0: overflow and invalid read as 9. -/
theorem test_ckRdf : (coreAfter (.ckRdf 0 0) (seqOn (wCk 0 (3 * 2 ^ 32 + 1 * 2 ^ 30)) flagged)).map (fun x => x.sreg 3) = some 9 := by decide
theorem test_ckClrf : (coreAfter (.ckClrf 0 0) (seqOn (wCk 1 (1 * 2 ^ 30)) flagged)).map (fun x => (x.fv, x.fm.ov)) = some (.clear, false) := by decide
theorem test_gtClr : (coreAfter (.gtClr 0 0) (seqOn (word 8 2 0 0 0 0 0) { core0 with gateCount := 5 })).map (fun x => x.gateCount) = some 0 := by decide
theorem test_gtWait_skip : (coreAfter (.gtWait 0 0) (with0 (stepCtx (word 8 1 0 0 0 0 0) core0 { step0 with decision := some false }))).map (fun x => x.g) = some .skip := by decide

def eAdd : QEntry := entry (word 2 2 0 0 0 0 0) []
def done1 (w : W64) : QEntry := { entry w [] with executed := true }
/-- A core with an executed vx.add that signals, whose output a twin may hold, and one with an executed wq.watch. -/
def executed1 (v : Option W64) : Core := core0.setQueue engVector [{ done1 (word 2 2 0 0 6 7 0) with twin := v }]
def posted1 : Core := core0.setQueue 16 [done1 (word 4 1 0 0 6 7 0)]
def watched (count : Nat) : Core := { core0 with wadi := [(0, { WadiQueue.empty with c := 4, watches := [⟨4, 3, count, 0, 0⟩] })] }
theorem witness_DispatchAndCompletion :
    (∀ p ∈ [0, 1], ∃ w, CoreTurn (with0 (ctx0 [w] core0)) 0 0 (ctx0 [w] core0) core0 ∧ ((with0 (ctx0 [w] core0)).env (ctx0 [w] core0) 0 core0).wordAt core0 = some w
        ∧ engineOf w = some engVector ∧ opP w = (p == 1) ∧ core0.g = .undecided)
    ∧ (∀ x ∈ [executed1 none, executed1 (some 9), posted1, watched 0, watched 7], CoreTurn (with0 (ctx0 [] x)) 0 0 (ctx0 [] x) x)
    ∧ engineCode engVector = true ∧ engineCode 31 = true ∧ ((executed1 none).queue engVector).map (fun e => (e.executed, e.twin)) = [(true, none)]
    ∧ ((executed1 (some 9)).queue engVector).map QEntry.twin = [some 9] ∧ (posted1.queue 16).map (fun e => (opClass e.word, opCode e.word, e.twin)) = [(4, 1, none)]
    ∧ core0.token 6 + opCs (word 2 2 0 0 6 7 0) < 2 ^ 32 ∧ ((watched 0).wq 0).watches[0]? = some ⟨4, 3, 0, 0, 0⟩ ∧ (((watched 7).wq 0).c - 4).toNat < 2 ^ 31
    ∧ (watched 7).token 3 + 7 < 2 ^ 32 := by
  refine ⟨fun p h => ⟨word 2 0 0 0 0 0 (p * 2 ^ 53), coreTurn_on _ _ ⟨rfl, rfl⟩, rfl, ?_, ?_, rfl⟩, fun x h => coreTurn_on _ _ ?_, by decide⟩
  · revert p; decide
  · revert p; decide
  · revert x; decide
theorem test_dispatch : (coreAfter (.sequencerDispatch 0 0) (seqOn (word 2 2 0 0 0 0 0) core0)).map (fun x => ((x.queue 2).length, x.seq.pos)) = some (1, 1) := by decide
/-- A predicated store before the decision is GATE_UNDECIDED. -/
theorem test_dispatch_undecided : (ctxAfter (.sequencerDispatch 0 0) (seqOn (word 2 1 0 0 0 0 (2 ^ 53)) core0)).map (fun c => c.faults.map FaultRec.code) = some [9] := by decide
theorem test_completion : (coreAfter (.instructionCompletion 0 0 2 0) (with0 (ctx0 [] (core0.setQueue 2 [done1 (word 2 2 0 0 6 7 0), eAdd])))).map (fun x => ((x.queue 2).length, x.token 6))
    = some (1, 7) := by decide
theorem test_watchFire : (coreAfter (.watchFire 0 0 0 0) (with0 (ctx0 [] (watched 7)))).map (fun x => ((x.wq 0).watches.length, x.token 3)) = some (0, 7) := by decide

def needsToken : W64 := word 0 0 4 1 0 0 0
def stopped (poisoned : Bool) : Ctx := { ctx0 [] core0 with stopping := true, poison := if poisoned then some (0, 3) else none }
/-- A wait of an engine that has lasted one unit longer than the limit of 1,000 µs. -/
def waitedOn (eng f : Nat) (x : Core) : Core := { x with waits := [⟨eng, f, 0, 0, 16000001⟩] }
/-- Waits: of the sequencer for a token, for the gate decision and for a queue with room; of a vector op for a token, of a send for a buffer, of a watch and a post for room. -/
def full4 : Core := { core0 with sends := List.replicate 4 ⟨0, false, 0, 0, 0, false, 0, [], [], none⟩ }
def seqWaits : List (W64 × Core × Nat) := [(needsToken, core0, 2), (wGt 1, core0, 5), (word 2 2 0 0 0 0 0, core0.setQueue 2 (List.replicate 32 eAdd), 6)]
def headWaits : List (Nat × QEntry × Core × Nat) :=
  [(2, entry (word 2 2 4 1 0 0 0) [], core0, 2), (4, entry (word 5 0 0 0 0 0 0) [], full4, 4),
   (16, entry (word 4 1 0 0 0 0 0) [], { core0 with wadi := [(0, { WadiQueue.empty with watches := List.replicate 8 ⟨4, 3, 0, 0, 0⟩ })] }, 6)]
def lateWatch : Core := { core0 with wadi := [(0, { WadiQueue.empty with watches := [⟨4, 3, 0, 0, 0⟩, ⟨5, 3, 0, 0, 16000001⟩] })] }
theorem witness_WaitLimitsAndStops :
    (∀ y ∈ seqWaits, CoreTurn (seqOn y.1 (waitedOn 0 y.2.2 y.2.1)) 0 0 (ctx0 [y.1] (waitedOn 0 y.2.2 y.2.1)) (waitedOn 0 y.2.2 y.2.1))
    ∧ (∀ y ∈ headWaits, CoreTurn (engOn y.1 y.2.1 (waitedOn y.1 y.2.2.2 y.2.2.1)) 0 0 (ctx0 [] ((waitedOn y.1 y.2.2.2 y.2.2.1).setQueue y.1 [y.2.1])) ((waitedOn y.1 y.2.2.2 y.2.2.1).setQueue y.1 [y.2.1]))
    ∧ (CoreTurn (with0 (ctx0 [] lateWatch)) 0 0 (ctx0 [] lateWatch) lateWatch ∧ (lateWatch.wq 0).watches[1]? = some ⟨5, 3, 0, 0, 16000001⟩ ∧ watchReached (lateWatch.wq 0).c 5 = false)
    ∧ (ctx0 [] core0).waitLimit = 16000000
    ∧ (∀ p : Bool, (with0 (stopped p)).ctx? 0 = some (stopped p) ∧ (stopped p).stopping = true ∧ (stopped p).status ≠ .closing ∧ ((stopped p).poison ≠ none ↔ p = true)) := by
  refine ⟨fun y h => coreTurn_on _ _ ?_, fun y h => coreTurn_on _ _ ?_, ⟨coreTurn_on _ _ ⟨rfl, rfl⟩, by decide⟩, by decide, by decide⟩ <;> (revert y; decide)
/-- Each of them is its fault after the limit, and none before. -/
def expired (eng : Nat) (watch : Bool) (s : State) : Option (List Nat) := (ctxAfter (.waitLimitExpiry 0 0 eng watch) s).map (fun c => c.faults.map FaultRec.code)
theorem test_waits : seqWaits.map (fun y => expired 0 false (seqOn y.1 (waitedOn 0 y.2.2 y.2.1))) = [some [2], some [5], some [6]]
    ∧ headWaits.map (fun y => expired y.1 false (engOn y.1 y.2.1 (waitedOn y.1 y.2.2.2 y.2.2.1))) = [some [2], some [4], some [6]]
    ∧ expired 16 true (with0 (ctx0 [] lateWatch)) = some [3] ∧ expired 0 false (seqOn needsToken core0) = some [] := by decide
theorem test_contextFaultStop : (ctxAfter (.contextFaultStop 0) (with0 (stopped true))).map (fun c => c.status) = some .closing := by decide +kernel


/-! ## The vector unit -/

/-- v1 from v2, v3 and v4, with a rounding code and register s5. -/
def vecWord (cls op rnd : Nat) : W64 := word cls op 0 0 0 0 (1 * 2 ^ 31 + 2 * 2 ^ 25 + 3 * 2 ^ 19 + 4 * 2 ^ 13 + rnd * 2 ^ 6 + 5)
/-- A core with a value in lane 0 of v2, v3 and v4. -/
def lanes3 (a b c : W32) : Core := { core0 with v := sset (sset (sset [] 128 a) 192 b) 256 c }
/-- Lane 0 of v1 after a vector command, and the beats of the vector unit. -/
def vecRun (i : Instr) (op rnd : Nat) (a b c : W32) : Option (W32 × Nat) :=
  (coreAfter i (engOn 2 (entry (vecWord 2 op rnd) [(5, 0xFFFFFFFF3F800000)]) (lanes3 a b c))).map (fun x => (x.lane 1 0, (sget x.beats 2).toNat))

theorem vecTurn (op : Nat) (h : op < 64) (x : Core) (scal : SMap 64) (hx : x.seq.stopped = false ∧ x.folded = false ∧ x.queues = [] ∧ x.atBlock = none) :
    EngineTurn (engOn 2 (entry (word 2 op 0 0 0 0 0) scal) x) 0 0 (ctx0 [] (x.setQueue 2 [entry (word 2 op 0 0 0 0 0) scal])) (x.setQueue 2 [entry (word 2 op 0 0 0 0 0) scal]) engVector
      (entry (word 2 op 0 0 0 0 0) scal) [] 2 op :=
  engTurn_on _ _ _ _ _ hx ⟨(word_fields 2 op 0 (by decide) h (by decide)).1, (word_fields 2 op 0 (by decide) h (by decide)).2.1, (word_fields 2 op 0 (by decide) h (by decide)).2.2.1, rfl⟩

theorem witness_VectorFloatLanes : ∀ op < 64, ∃ s k l c x e rest, EngineTurn s k l c x engVector e rest 2 op :=
  fun op h => ⟨_, _, _, _, _, _, _, vecTurn op h core0 [] ⟨rfl, rfl, rfl, rfl⟩⟩
theorem witness_VectorIntegerLanes : ∀ op < 64, ∃ s k l c x e rest, EngineTurn s k l c x engVector e rest 2 op := witness_VectorFloatLanes

/-- 1.5 + 2.25 = 3.75. -/
theorem test_vxAdd : vecRun (.vxAdd 0 0) 0x02 0 0x3FC00000 0x40100000 0 = some (0x40700000, 1) := by decide +kernel
/-- 1 - 3 = -2. -/
theorem test_vxSub : vecRun (.vxSub 0 0) 0x03 0 0x3F800000 0x40400000 0 = some (0xC0000000, 1) := by decide +kernel
/-- 1.5 × 2 = 3. -/
theorem test_vxMul : vecRun (.vxMul 0 0) 0x04 0 0x3FC00000 0x40000000 0 = some (0x40400000, 1) := by decide +kernel
/-- 2 × 3 + 1 = 7. -/
theorem test_vxFma : vecRun (.vxFma 0 0) 0x05 0 0x40000000 0x40400000 0x3F800000 = some (0x40E00000, 1) := by decide +kernel
theorem test_vxMin : vecRun (.vxMin 0 0) 0x06 0 0x40000000 0xBF800000 0 = some (0xBF800000, 1) := by decide +kernel
theorem test_vxMax : vecRun (.vxMax 0 0) 0x07 0 0x40000000 0xBF800000 0 = some (0x40000000, 1) := by decide +kernel
/-- A zero selector takes the second source. -/
theorem test_vxSel : vecRun (.vxSel 0 0) 0x08 0 0x11111111 0x22222222 0 = some (0x22222222, 1) ∧ vecRun (.vxSel 0 0) 0x08 0 0x11111111 0x22222222 1 = some (0x11111111, 1) := by decide +kernel
/-- Powers of two are exact in the reference functions: 1/4, 1/sqrt 4, 2^3, log2 8; sqrt 9 = 3. -/
theorem test_vxRcp : vecRun (.vxRcp 0 0) 0x0C 0 0x40800000 0 0 = some (0x3E800000, 3) := by decide +kernel
theorem test_vxRsq : vecRun (.vxRsq 0 0) 0x0D 0 0x40800000 0 0 = some (0x3F000000, 3) := by decide +kernel
theorem test_vxExp2 : vecRun (.vxExp2 0 0) 0x0E 0 0x40400000 0 0 = some (0x41000000, 3) := by decide +kernel
theorem test_vxLog2 : vecRun (.vxLog2 0 0) 0x0F 0 0x41000000 0 0 = some (0x40400000, 3) := by decide +kernel
theorem test_vxSqrt : vecRun (.vxSqrt 0 0) 0x10 0 0x41100000 0 0 = some (0x40400000, 6) := by decide +kernel
/-- Packed BF16: both halves, 1 + 1 and 2 + 1. -/
theorem test_vxPadd : vecRun (.vxPadd 0 0) 0x11 0 0x3F804000 0x3F803F80 0 = some (0x40004040, 1) := by decide +kernel
theorem test_vxPmul : vecRun (.vxPmul 0 0) 0x12 0 0x40004040 0x40004000 0 = some (0x408040C0, 1) := by decide +kernel
theorem test_vxPfma : vecRun (.vxPfma 0 0) 0x13 0 0x40003F80 0x40003F80 0x3F803F80 = some (0x40A04000, 1) := by decide +kernel
theorem test_vxIadd : vecRun (.vxIadd 0 0) 0x14 0 0xFFFFFFFF 2 0 = some (1, 1) := by decide +kernel
theorem test_vxIsub : vecRun (.vxIsub 0 0) 0x15 0 1 2 0 = some (0xFFFFFFFF, 1) := by decide +kernel
theorem test_vxImul : vecRun (.vxImul 0 0) 0x16 0 0x10001 0x10001 0 = some (0x00020001, 1) := by decide +kernel
theorem test_vxAnd : vecRun (.vxAnd 0 0) 0x17 0 0xC 0xA 0 = some (8, 1) := by decide +kernel
theorem test_vxOr : vecRun (.vxOr 0 0) 0x18 0 0xC 0xA 0 = some (0xE, 1) := by decide +kernel
theorem test_vxXor : vecRun (.vxXor 0 0) 0x19 0 0xC 0xA 0 = some (6, 1) := by decide +kernel
/-- Shift amounts count modulo 32. -/
theorem test_vxShl : vecRun (.vxShl 0 0) 0x1A 0 3 33 0 = some (6, 1) := by decide +kernel
theorem test_vxShr : vecRun (.vxShr 0 0) 0x1B 0 0x80000000 31 0 = some (1, 1) := by decide +kernel
theorem test_vxSra : vecRun (.vxSra 0 0) 0x1C 0 0x80000000 31 0 = some (0xFFFFFFFF, 1) := by decide +kernel
theorem test_vxRsum : vecRun (.vxRsum 0 0) 0x1D 0 0x40400000 0 0 = some (0x40400000, 6) := by decide +kernel
theorem test_vxRmax : vecRun (.vxRmax 0 0) 0x1E 0 0x40400000 0 0 = some (0x40400000, 6) := by decide +kernel
theorem test_vxLi : vecRun (.vxLi 0 0) 0x23 0 0 0 0 = some (0x3F800000, 1) := by decide +kernel
/-- A NaN and an infinity count; the rest of the lanes are zero. -/
theorem test_vxNfc : (coreAfter (.vxNfc 0 0) (engOn 2 (entry (vecWord 2 0x1F 0) []) { lanes3 0x7FC00000 0 0 with v := [(128, 0x7FC00000), (130, 0xFF800000)] })).map (fun x => x.gateCount)
    = some 2 := by decide +kernel
/-- The scratchpad word 0x04030201 of granule 0 arrives in lane 0, 4 beats. -/
theorem test_vxLd : (coreAfter (.vxLd 0 0 []) (engOn 2 (entry (vecWord 2 0 0) [(5, 0)]) { core0 with sp := [(0, 1), (1, 2), (2, 3), (3, 4)] })).map (fun x => (x.lane 1 0, (sget x.beats 2).toNat))
    = some (0x04030201, 4) := by decide +kernel
/-- An address of 49,149 reaches past the last granule: SP_RANGE. -/
theorem test_vxLd_range : (ctxAfter (.vxLd 0 0 []) (engOn 2 (entry (vecWord 2 0 0) [(5, 49149)]) core0)).map (fun c => c.faults.map FaultRec.code) = some [0x0A] := by decide +kernel
theorem test_vxSt : (coreAfter (.vxSt 0 0) (engOn 2 (entry (vecWord 2 1 0) [(5, 1)]) (lanes3 0x04030201 0 0))).map (fun x => (sget x.sp 64, sget x.sp 67, x.sp.length)) = some (1, 4, 4) := by decide +kernel
/-- A predicated store that is skipped writes nothing and takes its beats. -/
theorem test_vxSt_skipped : (coreAfter (.vxSt 0 0) (engOn 2 { entry (vecWord 2 1 0 ||| 0x20000000000000) [(5, 1)] with g := .skip } (lanes3 1 0 0))).map (fun x => (x.sp.length, (sget x.beats 2).toNat))
    = some (0, 4) := by decide +kernel

/-- Turn of an entry at the head of the vector unit's queue, by its word. -/
theorem vecTurn' (w : W64) (scal : SMap 64) (g : Gate) (cls op : Nat) (h : opClass w = cls ∧ opCode w = op ∧ opCw w = 0) :
    EngineTurn (engOn 2 { entry w scal with g := g } core0) 0 0 (ctx0 [] (core0.setQueue 2 [{ entry w scal with g := g }])) (core0.setQueue 2 [{ entry w scal with g := g }]) engVector
      { entry w scal with g := g } [] cls op :=
  engTurn_on _ _ _ _ _ ⟨rfl, rfl, rfl, rfl⟩ ⟨h.1, h.2.1, h.2.2, rfl⟩
def wSt : W64 := word 2 1 0 0 0 0 (2 ^ 53)
/-- gr.draw to v1 for the tensor in s1 from the element in s2, use s3, of a width. -/
def wDraw (width : Nat) : W64 := word 6 0 0 0 0 0 (1 * 2 ^ 31 + 1 * 2 ^ 26 + 2 * 2 ^ 21 + 3 * 2 ^ 16 + width * 2 ^ 14)
def keyRegs (tensor elem use : W64) : SMap 64 := [(1, tensor), (2, elem), (3, use)]
theorem drawTurn (width : Nat) (h : opClass (wDraw width) = 6 ∧ opCode (wDraw width) = 0 ∧ opCw (wDraw width) = 0) (scal : SMap 64) :
    EngineTurn (engOn 2 { entry (wDraw width) scal with g := .apply } core0) 0 0 (ctx0 [] (core0.setQueue 2 [{ entry (wDraw width) scal with g := .apply }]))
      (core0.setQueue 2 [{ entry (wDraw width) scal with g := .apply }]) engVector { entry (wDraw width) scal with g := .apply } [] 6 0 := vecTurn' _ _ _ _ _ h
/-- The last element and use that a draw has, and the operands that none has. -/
def drawable (scal : SMap 64) : Bool × Bool × Bool :=
  let e := entry (wDraw 0) scal
  ((((with0 (ctx0 [] core0)).env (ctx0 [] core0) 0 core0).tensor (BitVec.truncate 32 (e.reg 1))).isSome, decide ((e.reg 3).toNat < 2 ^ 30), decide ((e.reg 2).toNat + 63 < 2 ^ 64))
theorem witness_VectorMovesAndReductions :
    (∀ op ∈ [0, 1, 0x23, 0x1D, 0x1E, 0x1F], ∃ s k l c x e rest, EngineTurn s k l c x engVector e rest 2 op ∧ (e.reg (opSx e.word)).toNat + 4 = spGranules ∧ e.skips = false)
    ∧ (∀ op ∈ [0, 1], ∃ s k l c x e rest, EngineTurn s k l c x engVector e rest 2 op ∧ spGranules < (e.reg (opSx e.word)).toNat + 4)
    ∧ (∃ s k l c x e rest, EngineTurn s k l c x engVector e rest 2 1 ∧ (e.reg (opSx e.word)).toNat + 4 ≤ spGranules ∧ e.skips = true)
    ∧ (∀ width ∈ [0, 1, 2], fld (wDraw width) 14 2 = width ∧ opClass (wDraw width) = 6 ∧ opCode (wDraw width) = 0 ∧ opCw (wDraw width) = 0)
    ∧ [keyRegs 7 0xFFFFFFFFFFFFFFC0 0x3FFFFFFF, keyRegs 8 0 0, keyRegs 7 0xFFFFFFFFFFFFFFC1 0, keyRegs 7 0 0x40000000].map drawable
        = [(true, true, true), (false, true, true), (true, true, false), (true, false, true)] := by
  refine ⟨fun op h => ?_, fun op h => ⟨_, _, _, _, _, _, _, vecTurn' (word 2 op 0 0 0 0 0) [(0, 49149)] .apply 2 op ?_, ?_⟩,
    ⟨_, _, _, _, _, _, _, vecTurn' wSt [] .skip 2 1 (by decide), by decide, by decide⟩, by decide, by decide⟩
  · have h2 : op < 64 := by revert op; decide
    exact ⟨_, _, _, _, _, _, _, vecTurn op h2 core0 [(0, 49148)] ⟨rfl, rfl, rfl, rfl⟩, by revert op; decide, by revert op; decide⟩
  all_goals revert op; decide

/-- The scalars of a key block from s1: granule 0, scale address or pair, tensor 7, element 0, row step 64. -/
def keyBlock : SMap 64 := [(1, 0), (2, 4096), (3, 7), (4, 0), (5, 64)]
/-- The same with an absent tensor, and with an ordinal that no draw has. -/
def keyAbsent : SMap 64 := [(1, 0), (2, 4096), (3, 8), (4, 0), (5, 64)]
def keyBeyond : SMap 64 := [(1, 0), (2, 4096), (3, 0x4000000000000007), (4, 0), (5, 64)]
def cvtWord (op fmt src : Nat) : W64 := word 2 op 0 0 0 0 (20 * 2 ^ 31 + 2 * 2 ^ 25 + 3 * 2 ^ 19 + src * 2 ^ 13 + fmt * 2 ^ 8 + 1)
/-- The same with stochastic rounding. -/
def srWord (op fmt : Nat) : W64 := cvtWord op fmt 0 ||| 0x80
theorem witness_VectorConversions :
    (∀ key ∈ [keyBlock, keyAbsent, keyBeyond], ∀ op ∈ [0x09, 0x22], ∀ w ∈ [cvtWord op 1 0, srWord op 1],
      EngineTurn (engOn 2 { entry w key with g := .apply } core0) 0 0 (ctx0 [] (core0.setQueue 2 [{ entry w key with g := .apply }])) (core0.setQueue 2 [{ entry w key with g := .apply }])
        engVector { entry w key with g := .apply } [] 2 op)
    ∧ (cvtFormat (opFmt (cvtWord 9 1 0)) = some .bf16 ∧ cvtFormat (opVc (cvtWord 9 1 0) % 32) = some .fp32 ∧ opMode (cvtWord 9 1 0) = .rne ∧ opMode (srWord 9 1) = .sr)
    ∧ ([keyBlock, keyAbsent, keyBeyond].map (fun key => let r := (entry (cvtWord 9 1 0) key).reg 3
        ((((with0 (ctx0 [] core0)).env (ctx0 [] core0) 0 core0).tensor (BitVec.truncate 32 r)).map TensorEntry.gradient, fld r 62 2))
        = [(some false, 0), (none, 0), (some false, 1)])
    ∧ (∀ op ∈ [0x20, 0x21], ∃ s k l c x e rest, EngineTurn s k l c x engVector e rest 2 op) := by
  refine ⟨fun key hk op h w hw => vecTurn' w key .apply 2 op ?_, by decide, by decide, fun op h => witness_VectorFloatLanes op (by revert op; decide)⟩
  rcases List.mem_cons.1 hw with rfl | hw
  · revert op; decide
  · rcases List.mem_singleton.1 hw with rfl; revert op; decide
/-- 1 + 2^-8 lies halfway between two BF16 values and goes to the even one, 1. -/
theorem test_vxCvt_tie : (coreAfter (.vxCvt 0 0) (engOn 2 (entry (cvtWord 9 1 0) keyBlock) { core0 with v := [(128, 0x3F808000)] })).map (fun x => (x.lane 20 0, x.fv.ix)) = some (0x3F80, true) := by
  decide +kernel
/-- The Master48 pair 1.0 plus 2^-30 keeps the addend in the tail, whose unit is 2^-39 here. -/
theorem test_vxM48add : (coreAfter (.vxM48add 0 0) (engOn 2 (entry (word 2 0x20 0 0 0 0 (10 * 2 ^ 31 + 2 * 2 ^ 25 + 5 * 2 ^ 19)) []) { core0 with v := [(128, 0x3F800000), (320, 0x30800000)] })).map
    (fun x => (x.lane 10 0, x.lane 11 0)) = some (0x3F800000, 0x200) := by decide +kernel

/-- vx.cvtmx or vx.ldmx on v20 to v35 with the key block from s1; MXFP8 E4M3 is code 8. -/
def sqWord (op fmt : Nat) : W64 := word 2 op 0 0 0 0 (20 * 2 ^ 31 + 2 * 2 ^ 25 + fmt * 2 ^ 8 + 1)
/-- The scale pair or the scales in the last granule, and one byte further. -/
def sqKey (scale : W64) : SMap 64 := [(1, 0), (2, scale), (3, 7), (4, 0), (5, 64)]
theorem sqTurn (op fmt : Nat) (scal : SMap 64) (h : opClass (sqWord op fmt) = 2 ∧ opCode (sqWord op fmt) = op ∧ opCw (sqWord op fmt) = 0) :
    EngineTurn (engOn 2 { entry (sqWord op fmt) scal with g := .apply } core0) 0 0 (ctx0 [] (core0.setQueue 2 [{ entry (sqWord op fmt) scal with g := .apply }]))
      (core0.setQueue 2 [{ entry (sqWord op fmt) scal with g := .apply }]) engVector { entry (sqWord op fmt) scal with g := .apply } [] 2 op := vecTurn' _ _ _ _ _ h
theorem witness_VectorSquares :
    (∀ op ∈ [0x0A, 0x0B], ∀ fmt ∈ [8, 16, 6], opClass (sqWord op fmt) = 2 ∧ opCode (sqWord op fmt) = op ∧ opCw (sqWord op fmt) = 0 ∧ opMode (sqWord op fmt) = .rne)
    ∧ (mxFormat (opFmt (sqWord 0x0A 8)) = some (.flt Fmts.e4m3, false) ∧ mxFormat (opFmt (sqWord 0x0A 16)) = some (.flt Fmts.e4m3, true)
        ∧ Format.ofCode (opFmt (sqWord 0x0B 6)) = some (.scaled Fmts.e4m3) ∧ Format.ofCode (opFmt (sqWord 0x0B 8)) = some (.mx (.flt Fmts.e4m3) false))
    ∧ ((entry (sqWord 0x0A 8) (sqKey 3145696)).reg 2).toNat + 32 = 64 * spGranules ∧ 64 * spGranules < ((entry (sqWord 0x0A 8) (sqKey 3145697)).reg 2).toNat + 32
    ∧ ((entry (sqWord 0x0B 6) (sqKey 3145720)).reg 2).toNat + 8 = 64 * spGranules ∧ (entry (sqWord 0x0A 8) keyBlock).skips = false
    ∧ ((with0 (ctx0 [] core0)).env (ctx0 [] core0) 0 core0).tensor 7 = some tensor7 ∧ ((with0 (ctx0 [] core0)).env (ctx0 [] core0) 0 core0).tensor 8 = none
    ∧ roundingFor tensor7 .rne = .rne ∧ roundingFor tensor7 .sr = .sr := by decide
/-- A group of 32 ones in MXFP8 E4M3: the scale 2^-8 (code 0x77) and the code of 256, 0x78; read back it is 1. -/
def group1 : MxOut := mxEncode (.flt Fmts.e4m3) .rne (fun _ => 0) (List.replicate 32 (f32 0x3F800000))
theorem test_mx_group : (group1.scale, group1.codes) = (0x77, List.replicate 32 0x78) := by decide +kernel
theorem test_mx_value : (f32Round .rne false (mxValue (.flt Fmts.e4m3) 0x77 0x78, 0)).1 = 0x3F800000 := by decide +kernel


/-! ## The matrix array -/

/-- A view of BF16 squares from a granule: K stride 32, free stride 32. -/
def viewReg (granule code : Nat) : W64 := BitVec.ofNat 64 (granule * 2 ^ 48 + 32 * 2 ^ 16 + 32 * 2 ^ 6 + code)
/-- mx.mm: views in s1 and s2, descriptor in s3 to s5, blocks in s6, `open` in bit 11. -/
def mmWord (opens : Nat) : W64 := word 1 0 0 0 0 0 (1 * 2 ^ 32 + 2 * 2 ^ 27 + 3 * 2 ^ 22 + 6 * 2 ^ 17 + opens * 2 ^ 11)
/-- Descriptor of a 32 by 32 tile (shape 2, region 0, slot 0) of tensor 7, one block of 32, one part. -/
def desc1 : W64 := BitVec.ofNat 64 (2 * 2 ^ 11)
def mmScal : SMap 64 := [(1, viewReg 0 1), (2, viewReg 64 1), (3, 0x0000000700000000), (4, desc1), (5, BitVec.ofNat 64 (1 * 2 ^ 32 + 1 * 2 ^ 16 + 32)), (6, 1)]
def tile7 : Tile := { Tile.ofDescriptor 0x0000000700000000 desc1 (BitVec.ofNat 64 (1 * 2 ^ 32 + 1 * 2 ^ 16 + 32)) with poisoned := false }
def withTile : Core := { core0 with tiles := [tile7] }

theorem mxTurn (w : W64) (scal : SMap 64) (g : Gate) (x : Core) (op : Nat) (hx : x.seq.stopped = false ∧ x.folded = false ∧ x.queues = [] ∧ x.atBlock = none)
    (h : opClass w = 1 ∧ opCode w = op ∧ opCw w = 0) :
    EngineTurn (engOn 1 { entry w scal with g := g } x) 0 0 (ctx0 [] (x.setQueue 1 [{ entry w scal with g := g }])) (x.setQueue 1 [{ entry w scal with g := g }]) engMatrix
      { entry w scal with g := g } [] 1 op :=
  engTurn_on _ _ _ _ _ hx ⟨h.1, h.2.1, h.2.2, rfl⟩

/-- The premises of mx.mm but for the tile. -/
theorem witness_MatrixMultiply :
    (EngineTurn (engOn 1 { entry (mmWord 0) mmScal with g := .apply } withTile) 0 0 (ctx0 [] (withTile.setQueue 1 [{ entry (mmWord 0) mmScal with g := .apply }]))
        (withTile.setQueue 1 [{ entry (mmWord 0) mmScal with g := .apply }]) engMatrix { entry (mmWord 0) mmScal with g := .apply } [] 1 0
      ∧ (entry (mmWord 0) mmScal).reg 4 = desc1 ∧ (withTile.tileNamed desc1).toOption = some tile7)
    ∧ (openTile ((with0 (ctx0 [] core0)).env (ctx0 [] core0) 0 core0) core0 false 0x0000000700000000 desc1 (BitVec.ofNat 64 (1 * 2 ^ 32 + 1 * 2 ^ 16 + 32))).toOption = some tile7
    ∧ ((with0 (ctx0 [] core0)).env (ctx0 [] core0) 0 core0).tensor tile7.tensor = some tensor7 ∧ Format.ofCode (View.ofReg (viewReg 0 1)).code = some .bf16
    ∧ operandKind 1 = some (.float Fmts.bf16) ∧ pairBeats (.float Fmts.bf16) (.float Fmts.bf16) = some 32 ∧ tile7.nb = 1
    ∧ badView (View.ofReg (viewReg 0 1)) .bf16 tile7.m = false ∧ badView (View.ofReg (viewReg 64 1)) .bf16 tile7.n = false
    ∧ ((View.ofReg (viewReg 0 1)).reach .bf16 tile7.m 1).1 ≤ spGranules ∧ ((View.ofReg (viewReg 64 1)).reach .bf16 tile7.n 1).1 ≤ spGranules
    ∧ ((View.ofReg (viewReg 0 1)).reach .bf16 tile7.m 1).2 ≤ 64 * spGranules ∧ ((View.ofReg (viewReg 64 1)).reach .bf16 tile7.n 1).2 ≤ 64 * spGranules
    ∧ (mmWord 0).getLsbD 10 = false ∧ (mmWord 0).getLsbD 11 = false ∧ (mmWord 1).getLsbD 11 = true ∧ fld desc1 13 2 = 0 :=
  ⟨⟨mxTurn _ _ _ _ _ ⟨rfl, rfl, rfl, rfl⟩ (by decide), by decide⟩, by decide⟩

/-- The fault of a tile that is refused. -/
def refused (r : Except Nat Tile) : Option Nat := match r with | .error f => some f | .ok _ => none
def env0 (x : Core) : Env := (with0 (ctx0 [] x)).env (ctx0 [] x) 0 x
/-- An mx.mm that stands before its block 1. -/
def between : Core := { withTile.setQueue 1 [entry (mmWord 0) mmScal] with atBlock := some ⟨1, []⟩ }
/-- A tile that loads a partial from granule 49,088 (4,096 bytes of values) in s7. -/
def loadDesc : W64 := desc1 ||| 0x2000
theorem witness_MatrixMultiply_forms :
    (refused (core0.tileNamed desc1) = some 0x21 ∧ refused (openTile (env0 withTile) withTile false 0x0000000700000000 desc1 (BitVec.ofNat 64 (1 * 2 ^ 32 + 1 * 2 ^ 16 + 32))) = some 0x20
      ∧ refused (openTile (env0 core0) core0 false 0x0000000800000000 desc1 (BitVec.ofNat 64 (1 * 2 ^ 32 + 1 * 2 ^ 16 + 32))) = some 0x0B)
    ∧ (CoreTurn (with0 (ctx0 [] between)) 0 0 (ctx0 [] between) between ∧ between.atBlock = some ⟨1, []⟩ ∧ between.queue engMatrix = [entry (mmWord 0) mmScal]
      ∧ (between.tileNamed desc1).toOption = some tile7 ∧ opClass (mmWord 0) = 1 ∧ opCode (mmWord 0) = 0)
    ∧ (fld loadDesc 13 2 = 1 ∧ (openTile (env0 core0) core0 false 0x0000000700000000 loadDesc (BitVec.ofNat 64 (1 * 2 ^ 32 + 1 * 2 ^ 16 + 32))).toOption.isSome = true
      ∧ 64 * 49086 + tile7.planes.1 + tile7.planes.2.1 ≤ 64 * spGranules)
    ∧ (View.ofReg (viewReg 0 6)).scale + 64 ≤ 64 * spGranules ∧ operandKind 6 = some (.scaled Fmts.e4m3) ∧ (ctx0 [] core0).small = true := by
  refine ⟨⟨by decide, by decide, by decide⟩, ⟨coreTurn_on _ _ ⟨rfl, rfl⟩, rfl, ?_⟩, by decide, by decide, by decide, by decide⟩
  decide

/-- One product of 1.0 and 2.0 in cell (0, 0). -/
theorem test_block_sum : (f32Round .rne false (blockSum (.float Fmts.bf16) false false [Fmts.bf16.decode 0x3F80] [Fmts.bf16.decode 0x4000] 32)).1 = 0x40000000 := by decide +kernel
/-- 0 × ∞ is invalid, cause 1; ∞ and −∞ among the products, cause 2. -/
theorem test_block_zero_inf : blockSum (.float Fmts.bf16) false false [Fmts.bf16.decode 0] [Fmts.bf16.decode 0x7F80] 32 = (.nan, 1) := by decide +kernel
theorem test_block_inf_inf : blockSum (.float Fmts.bf16) false false [Fmts.bf16.decode 0x7F80, Fmts.bf16.decode 0xFF80] [Fmts.bf16.decode 0x3F80, Fmts.bf16.decode 0x3F80] 32 = (.nan, 2) := by
  decide +kernel
theorem test_block_negative_zero : (f32Round .rne false (blockSum (.float Fmts.bf16) false false [Fmts.bf16.decode 0x8000] [Fmts.bf16.decode 0x3F80] 32)).1 = 0x80000000 := by decide +kernel

/-- A word on the tile of the descriptor in s3 to s5, s0 zero. -/
def tileWord (op imm : Nat) : W64 := word 1 op 0 0 0 0 (3 * 2 ^ 22 + imm)
def drainScal : SMap 64 := [(0, BitVec.ofNat 64 (64 * 2 ^ 16 + 64 * 2 ^ 6)), (4, desc1)]
theorem witness_MatrixTiles :
    (∀ op ∈ [1, 2, 3, 5], EngineTurn (engOn 1 { entry (tileWord op 0) mmScal with g := .apply } withTile) 0 0 (ctx0 [] (withTile.setQueue 1 [{ entry (tileWord op 0) mmScal with g := .apply }]))
        (withTile.setQueue 1 [{ entry (tileWord op 0) mmScal with g := .apply }]) engMatrix { entry (tileWord op 0) mmScal with g := .apply } [] 1 op)
    ∧ (withTile.tileNamed ((entry (tileWord 2 0) mmScal).reg (opR2 (tileWord 2 0) + 1))).toOption = some tile7
    ∧ tile7.planes.1 + tile7.planes.2.1 + tile7.planes.2.2 ≤ 64 * spGranules ∧ (entry (tileWord 2 0) mmScal).skips = false
    ∧ fld desc1 18 2 = tile7.accFormat
    ∧ (∃ s k l c x e rest, EngineTurn s k l c x engMatrix e rest 1 4 ∧ e.word.getLsbD 26 = true ∧ (e.reg (opR0 e.word)).toNat + 1 = spGranules)
    ∧ (let d := View.ofReg (BitVec.ofNat 64 (64 * 2 ^ 16 + 64 * 2 ^ 6))
       drainFormat d.code = some .fp32 ∧ d.column = false ∧ badView d .fp32 tile7.m = false ∧ (withTile.stat tile7.statSlot).valid = false
       ∧ d.elem + Format.fp32.granules ≤ spGranules ∧ d.scale + 64 ≤ 64 * spGranules) := by
  have mk : ∀ op ∈ [1, 2, 3, 5], opClass (tileWord op 0) = 1 ∧ opCode (tileWord op 0) = op ∧ opCw (tileWord op 0) = 0 := by decide
  refine ⟨fun op h => mxTurn _ _ _ _ _ ⟨rfl, rfl, rfl, rfl⟩ (mk op h), by decide, by decide, by decide, by decide, ?_, by decide⟩
  exact ⟨_, _, _, _, _, _, _, mxTurn (tileWord 4 (2 ^ 26)) [(0, 49151)] .apply withTile 4 ⟨rfl, rfl, rfl, rfl⟩ (by decide), by decide, by decide⟩
/-- What stops them: no tile, a place past the scratchpad, accumulators of another format or of none, a reserved format, a column view, another tensor's entry. -/
theorem witness_MatrixTiles_faults :
    refused (core0.tileNamed desc1) = some 0x21 ∧ 64 * spGranules < 64 * 49151 + (tile7.planes.1 + tile7.planes.2.1 + tile7.planes.2.2)
    ∧ (fld (desc1 + 0x40000) 18 2 = 1 ∧ fld (desc1 + 0x80000) 18 2 = 2 ∧ (withTile.tileNamed (desc1 + 0x40000)).toOption = some tile7)
    ∧ drainFormat 4 = none ∧ (View.ofReg 0x20).column = true ∧ badView (View.ofReg 0) .fp32 tile7.m = true
    ∧ ({ StatEntry.clear with valid := true, tensor := 8 } : StatEntry).tensor ≠ tile7.tensor ∧ (env0 withTile).tensor tile7.tensor = some tensor7 := by decide
theorem test_mxClose : (coreAfter (.mxClose 0 0) (engOn 1 (entry (tileWord 5 0) mmScal) withTile)).map (fun x => (x.tiles.length, (sget x.beats 1).toNat)) = some (0, 1) := by decide +kernel
/-- A statistics entry that is written as it stands and then cleared: 4 beats. -/
theorem test_mxStat : (coreAfter (.mxStat 0 0) (engOn 1 (entry (tileWord 4 (2 ^ 26 + 2 ^ 27)) [(0, 1)]) { core0 with stats := [(0, { StatEntry.clear with valid := true, tiles := 3 })] })).map
    (fun x => ((x.stat 0).tiles, x.sp.length != 0, (sget x.beats 1).toNat)) = some (0, true, 4) := by decide +kernel
/-- mx.mm on a tile that is not open: ACC_NOT_OPEN. -/
theorem test_mxMm_closed : (ctxAfter (.mxMm 0 0 none []) (engOn 1 (entry (mmWord 0) mmScal) core0)).map (fun c => c.faults.map FaultRec.code) = some [0x21] := by decide +kernel
/-- A skipped spill closes its tile and writes nothing: 40 beats. -/
theorem test_mxSpill_skipped : (coreAfter (.mxSpill 0 0) (engOn 1 { entry (tileWord 2 (2 ^ 53)) mmScal with g := .skip } withTile)).map (fun x => (x.tiles.length, x.sp.length, (sget x.beats 1).toNat))
    = some (0, 0, 40) := by decide +kernel

/-! ## The row engine -/

/-- Row word: sources s1, destination s2, sizes s3, side and coefficient s4. -/
def rowWord (op mode : Nat) : W64 := word 3 op 0 0 0 0 (1 * 2 ^ 32 + 2 * 2 ^ 27 + 3 * 2 ^ 22 + mode * 2 ^ 18 + 4 * 2 ^ 13)
/-- FP32 rows at granule 0, secondary at 512, results at 1,024, two rows of 32, side memory from byte 0. -/
def rowScal : SMap 64 := [(1, BitVec.ofNat 64 (2 ^ 42 + 512 * 2 ^ 21)), (2, 1024), (3, 0x0000000200000020), (4, 0)]
theorem rowTurn (op mode : Nat) (h : opClass (rowWord op mode) = 3 ∧ opCode (rowWord op mode) = op ∧ opCw (rowWord op mode) = 0) :
    EngineTurn (engOn 3 (entry (rowWord op mode) rowScal) core0) 0 0 (ctx0 [] (core0.setQueue 3 [entry (rowWord op mode) rowScal])) (core0.setQueue 3 [entry (rowWord op mode) rowScal]) engRow
      (entry (rowWord op mode) rowScal) [] 3 op := engTurn_on _ _ _ _ _ ⟨rfl, rfl, rfl, rfl⟩ ⟨h.1, h.2.1, h.2.2, rfl⟩
theorem witness_RowEngine : (∀ op ∈ [0, 1, 2, 3, 4, 5], ∃ s k l c x e rest, EngineTurn s k l c x engRow e rest 3 op ∧ (RowOps.of e).mode = 0 ∧ (RowOps.of e).rows = 2 ∧ (RowOps.of e).n = 32
      ∧ rowFormat (RowOps.of e).priFormat = some .fp32 ∧ rowFormat (RowOps.of e).secFormat = some .fp32 ∧ (RowOps.of e).secondary = true ∧ badSide (RowOps.of e) = false
      ∧ (Region.mk (RowOps.of e).priAddr .fp32 32).last 2 ≤ 64 * spGranules ∧ (Region.mk (RowOps.of e).secAddr .fp32 32).last 2 ≤ 64 * spGranules
      ∧ (Region.mk (RowOps.of e).out .fp32 32).last 2 ≤ 64 * spGranules ∧ 64 * (RowOps.of e).out + 32 * 2 ≤ 64 * spGranules) := by
  have mk : ∀ op ∈ [0, 1, 2, 3, 4, 5], opClass (rowWord op 0) = 3 ∧ opCode (rowWord op 0) = op ∧ opCw (rowWord op 0) = 0 := by decide
  intro op h
  exact ⟨_, _, _, _, _, _, _, rowTurn op 0 (mk op h), by revert op; decide⟩
/-- The dot modes of row.stat and the modes with a gain are forms of the same operands, as are two regions past the scratchpad and the side memory. -/
def rowOf (mode : Nat) (scal : SMap 64) : RowOps := RowOps.of (entry (rowWord 0 mode) scal)
theorem witness_RowEngine_forms : (rowOf 3 rowScal).mode = 3 ∧ (rowOf 4 [(2, 2 ^ 32)]).gain = true ∧ rowFormat (rowOf 4 [(2, 2 ^ 32)]).gainFormat = some .fp32
    ∧ 64 * spGranules < 64 * (rowOf 0 [(2, 49151), (3, 0x0000000300000020)]).out + 32 * 3
    ∧ badSide (rowOf 0 [(3, 0x0000000100000020), (4, 0x3FFE0)]) = false ∧ badSide (rowOf 0 [(3, 0x0000000200000020), (4, 0x3FFE0)]) = true := by decide
/-- row.keep copies the records of two rows into side memory: 64 bytes, ceil(64 ÷ 256) + 8 beats. -/
theorem test_rowKeep : (coreAfter (.rowKeep 0 0 []) (engOn 3 (entry (rowWord 4 0) rowScal) { core0 with sp := [(0, 5), (63, 6)] })).map (fun x => (sget x.side 0, sget x.side 63, (sget x.beats 3).toNat))
    = some (5, 6, 9) := by decide +kernel
theorem test_rowFetch : (coreAfter (.rowFetch 0 0 []) (engOn 3 (entry (rowWord 5 0) rowScal) { core0 with side := [(0, 5), (63, 6)] })).map (fun x => (sget x.sp 65536, sget x.sp 65599, (sget x.beats 3).toNat))
    = some (5, 6, 9) := by decide +kernel
/-- A side address that is no multiple of 32 is a fault. -/
theorem test_rowKeep_misaligned : (ctxAfter (.rowKeep 0 0 []) (engOn 3 (entry (rowWord 4 0) [(3, 0x0000000200000020), (4, 1)]) core0)).map (fun c => c.faults.length) = some 1 := by decide +kernel


/-! ## Wadi queues, the ripple plane, memory -/

/-- A descriptor granule: op 1 (read into the scratchpad), one row of one granule from far memory to granule 8. -/
def descBytes (op : Nat) : List Byte := [BitVec.ofNat 8 op] ++ List.replicate 15 0 ++ leBytes 8 farBase ++ leBytes 4 0 ++ leBytes 4 1 ++ leBytes 2 8 ++ leBytes 2 0 ++ leBytes 4 1 ++ List.replicate 24 0
def withDesc (op : Nat) : Core := core0.spWrite 0 (descBytes op) false
/-- The same context with far memory granted for reads and writes. -/
def granted (c : Ctx) : Ctx := { c with grants := [⟨farBase, 65536, 7⟩] }
def wPost : W64 := word 4 0 0 0 0 0 0
def wWatch : W64 := word 4 1 0 0 5 2 (1 * 2 ^ 28)
def postCore (w : W64) (op : Nat) : Core := (withDesc op).setQueue 16 [entry w [(1, 9)]]
def postState (w : W64) (op : Nat) : State := with0 (granted (ctx0 [] (postCore w op)))
/-- A program with one slot from core 0 to core 0: granules 8 to 11, four granules. -/
def slotProg : Program := { prog [] with slotMap := ⟨1, [⟨0, false, 0, 0, 4, 8, 4⟩, ⟨0, true, 0, 0, 4, 8, 4⟩], [[0]]⟩ }
def sendScal (len : Nat) : SMap 64 := [(1, BitVec.ofNat 64 (len * 2 ^ 16)), (2, BitVec.ofNat 64 (8 * 2 ^ 10))]
def wSend (group : Bool) : W64 := word 5 (if group then 1 else 0) 0 0 0 0 (1 * 2 ^ 32 + 2 * 2 ^ 27 + (if group then 1 else 0))
def sendCore (group : Bool) : Core := core0.setQueue 4 [entry (wSend group) (sendScal 4)]
def sendCtx (group : Bool) : Ctx := { ctx0 [] (sendCore group) with slots := [(0, slotProg)] }
theorem witness_PostsWatchesAndSends :
    (EngineTurn (postState wPost 2) 0 0 (granted (ctx0 [] (postCore wPost 2))) (postCore wPost 2) (engWadi 0) (entry wPost [(1, 9)]) [] 4 0
      ∧ ((entry wPost [(1, 9)]).reg (fld wPost 28 5)).toNat = 0 ∧ (postCore wPost 2).outstanding < 120 ∧ (postCore wPost 2).spPoisoned 0 64 = false
      ∧ (RawDesc.ofBytes ((postCore wPost 2).spRead 0 64)).malformed = false ∧ (RawDesc.ofBytes ((postCore wPost 2).spRead 0 64)).listCount = 0
      ∧ (RawDesc.ofBytes ((postCore wPost 2).spRead 0 64)).inline'.check ((postState wPost 2).remoteOk 0 (granted (ctx0 [] (postCore wPost 2))) true) = none)
    ∧ (EngineTurn (postState wWatch 2) 0 0 (granted (ctx0 [] (postCore wWatch 2))) (postCore wWatch 2) (engWadi 0) (entry wWatch [(1, 9)]) [] 4 1 ∧ ((postCore wWatch 2).wq 0).watches.length < 8)
    ∧ (∀ group : Bool, EngineTurn (with0 (sendCtx group)) 0 0 (sendCtx group) (sendCore group) engRipple (entry (wSend group) (sendScal 4)) [] 5 (if group then 1 else 0)
      ∧ sendCheck ((with0 (sendCtx group)).env (sendCtx group) 0 (sendCore group)) group (SendOps.of (entry (wSend group) (sendScal 4))) = none ∧ (sendCore group).sends.length < 4) := by
  refine ⟨⟨⟨coreTurn_mk ⟨rfl, rfl⟩ ⟨rfl, rfl⟩ ⟨rfl, rfl⟩, by decide, by decide, by decide, rfl, by decide, rfl, rfl⟩, by decide, by decide, by decide, by decide, by decide, by decide⟩,
    ⟨⟨coreTurn_mk ⟨rfl, rfl⟩ ⟨rfl, rfl⟩ ⟨rfl, rfl⟩, by decide, by decide, by decide, rfl, by decide, rfl, rfl⟩, by decide⟩, fun g => ⟨?_, by revert g; decide, by revert g; decide⟩⟩
  cases g <;> exact ⟨coreTurn_mk ⟨rfl, rfl⟩ ⟨rfl, rfl⟩ ⟨rfl, rfl⟩, by decide, by decide, by decide, rfl, by decide, rfl, rfl⟩
/-- What stops them: granule 49,152, a reserved op, a poisoned descriptor, 120 outstanding descriptors, 8 watches, 4 send buffers, each with its operands. -/
def crowd : Core := { core0 with wadi := [(0, { WadiQueue.empty with descs := List.replicate 120 ⟨0, 0, false, false, 0, 0, ⟨farBase, 0, 1, 8, 0, 1, 0⟩, false, .accepted, [], 0, []⟩,
                                                                     watches := List.replicate 8 ⟨4, 3, 0, 0, 0⟩ })] }
theorem witness_PostsWatchesAndSends_faults :
    spGranules ≤ ((entry wPost [(0, 49152)]).reg (fld wPost 28 5)).toNat ∧ (RawDesc.ofBytes ((withDesc 3).spRead 0 64)).malformed = true
    ∧ ({ withDesc 1 with spPoison := [(0, 1)] } : Core).spPoisoned 0 64 = true ∧ 120 ≤ crowd.outstanding ∧ 8 ≤ (crowd.wq 0).watches.length ∧ 4 ≤ full4.sends.length
    ∧ (RawDesc.ofBytes ((withDesc 1).spRead 0 64)).inline'.check ((with0 (ctx0 [] core0)).remoteOk 0 (ctx0 [] core0) false) = some 0x31
    ∧ ([false, true].map (fun g => sendCheck ((with0 (sendCtx g)).env (sendCtx g) 0 (sendCore g)) g (SendOps.of (entry (wSend g) (sendScal 5))))) = [some 0x40, some 0x40] := by decide +kernel
theorem test_wqPost : (coreAfter (.wqPost 0 0 0 []) (postState wPost 1)).map (fun x => ((x.wq 0).descs.length, (x.wq 0).descs.map Desc.write, (sget x.beats 16).toNat)) = some (1, [false], 2) := by decide +kernel
/-- A range outside the granted memory: WQ_ADDRESS. -/
theorem test_wqPost_ungranted : (ctxAfter (.wqPost 0 0 0 []) (with0 (ctx0 [] (postCore wPost 1)))).map (fun c => c.faults.map FaultRec.code) = some [0x31] := by decide +kernel
theorem test_wqWatch : (coreAfter (.wqWatch 0 0 0) (postState wWatch 1)).map (fun x => (x.wq 0).watches) = some [⟨9, 5, 2, 0, 0⟩] := by decide +kernel
theorem test_netSend : (coreAfter (.netSend 0 0 []) (with0 (sendCtx false))).map (fun x => x.sends.map (fun b => (b.granule, b.len, b.group))) = some [(8, 4, false)] := by decide +kernel
theorem test_netMcast : (coreAfter (.netMcast 0 0 []) (with0 (sendCtx true))).map (fun x => x.sends.map (fun b => (b.granule, b.len, b.group))) = some [(8, 4, true)] := by decide +kernel
/-- Five granules reach past the window of a slot of four: NET_SLOT. -/
theorem test_netSend_long : (ctxAfter (.netSend 0 0 []) (with0 { sendCtx false with cores := [(0, core0.setQueue 4 [entry (wSend false) (sendScal 5)])] })).map (fun c => c.faults.length) = some 1 := by decide +kernel

/-- A descriptor of one read span, in a phase. -/
def desc0 (phase : DescPhase) (spans : List Span) : Desc :=
  { id := 0, idx := 0, write := false, ordered := false, listCount := 0, listAddr := 0, inline' := ⟨farBase, 0, 1, 8, 0, 1, 0⟩, skipped := false, phase := phase, spans := spans, inFlight := 0,
    entryVersions := [] }
def wadiCore (phase : DescPhase) (spans : List Span) : Core := { core0 with wadi := [(0, { WadiQueue.empty with descs := [desc0 phase spans] })] }
def wadiCtx (phase : DescPhase) (spans : List Span) : Ctx := granted (ctx0 [] (wadiCore phase spans))
def spanF : Span := ⟨farBase, 8, 1⟩
theorem witness_DescriptorsRun :
    (CoreTurn (with0 (wadiCtx .accepted [])) 0 0 (wadiCtx .accepted []) (wadiCore .accepted []) ∧ ((wadiCore .accepted []).wq 0).descs.find? (fun y => y.phase == .accepted) = some (desc0 .accepted [])
      ∧ ((wadiCore .accepted []).wq 0).descs.takeWhile (fun y => y.id != (desc0 .accepted []).id) = [])
    ∧ (CoreTurn (with0 (wadiCtx .started [spanF])) 0 0 (wadiCtx .started [spanF]) (wadiCore .started [spanF])
      ∧ ((wadiCore .started [spanF]).wq 0).descs.find? (fun d => d.phase == .started && !d.spans.isEmpty) = some (desc0 .started [spanF]) ∧ regionOf spanF.remote = .far)
    ∧ (CoreTurn (with0 (wadiCtx .started [])) 0 0 (wadiCtx .started []) (wadiCore .started [])
      ∧ ((wadiCore .started []).wq 0).descs.find? (fun d => d.phase == .started && d.spans.isEmpty && d.inFlight == 0) = some (desc0 .started [])) :=
  ⟨⟨coreTurn_mk ⟨rfl, rfl⟩ ⟨rfl, rfl⟩ ⟨rfl, rfl⟩, by decide, by decide⟩, ⟨coreTurn_mk ⟨rfl, rfl⟩ ⟨rfl, rfl⟩ ⟨rfl, rfl⟩, by decide, by decide⟩,
   ⟨coreTurn_mk ⟨rfl, rfl⟩ ⟨rfl, rfl⟩ ⟨rfl, rfl⟩, by decide⟩⟩
/-- A descriptor with a list at the last granules, one whose list does not fit, an ordered one behind another, a skipped write and one that a twin holds. -/
def listed (a : Nat) : Desc := { desc0 .accepted [] with listCount := 2, listAddr := a }
def ordered1 : Core := { core0 with wadi := [(0, { WadiQueue.empty with descs := [desc0 .started [], { desc0 .accepted [] with id := 1, ordered := true }] })] }
theorem witness_DescriptorsRun_forms :
    64 * (listed 49151).listAddr + 32 * (listed 49151).listCount = 64 * spGranules ∧ 64 * spGranules < 64 * (listed 49152).listAddr + 32 * (listed 49152).listCount
    ∧ (core0.listRects (listed 49151)).findSome? (Rect.check ((with0 (ctx0 [] core0)).remoteOk 0 (ctx0 [] core0) false)) ≠ none
    ∧ ((ordered1.wq 0).descs.find? (fun y => y.phase == .accepted)).map (fun d => (d.id, d.ordered)) = some (1, true)
    ∧ (∃ y ∈ (ordered1.wq 0).descs.takeWhile (fun y => y.id != 1), y.phase ≠ .completed)
    ∧ core0.holdsWrite { desc0 .started [spanF] with write := true } spanF 0 = true ∧ core0.holdsWrite { desc0 .started [spanF] with write := true, skipped := true } spanF 0 = false
    ∧ (spanRequests (with0 (wadiCtx .started [spanF])) 0 0 0 (wadiCtx .started [spanF]) (wadiCore .started [spanF]) (desc0 .started [spanF]) spanF).map (fun r => (r.target, r.offsets))
        = [(.far, [0])] := by decide +kernel
theorem test_wadiDescriptorStart : (coreAfter (.wadiDescriptorStart 0 0 0 []) (with0 (wadiCtx .accepted []))).map (fun x => (x.wq 0).descs.map Desc.spans) = some [[spanF]] := by decide +kernel
theorem test_wadiRequestIssue : after (.wadiRequestIssue 0 0 0 [] 0) (with0 (wadiCtx .started [spanF])) (fun t => t.net.requests.map (fun r => (r.addr, r.offsets, r.write))) = some [(farBase, [0], false)] := by
  decide +kernel
theorem test_wadiDescriptorCompletion : (coreAfter (.wadiDescriptorCompletion 0 0 0) (with0 (wadiCtx .started []))).map (fun x => ((x.wq 0).descs.length, (x.wq 0).c)) = some (0, 1) := by decide +kernel

def req (write served : Bool) (t : Target) (bytes : List Byte) : Request := ⟨5, 0, 1, 0, 0, 0, write, farBase, 8, [0], t, bytes, [false], served, [], false, none, 0, 0⟩
def reqState (r : Request) : State := { with0 (ctx0 [] core0) with net := { State.reset.net with requests := [r] }, st := { State.reset.st with now := 0x100000000 } }
def found (r : Request) : Prop := (reqState r).net.requests.find? (fun y => y.id == 5) = some r
theorem witness_TransferRequests :
    (∀ w : Bool, found (req w false .far []) ∧ (reqState (req w false .far [])).memWaits (req w false .far []) = false) ∧ found (req false true .far (List.replicate 64 1))
    ∧ (found (req false false (.near 3) []) ∧ (reqState (req false false (.near 3) [])).rst.inProgress = []
        ∧ (req false false (.near 3) []).issued + 100 * millisecond ≤ (reqState (req false false (.near 3) [])).st.now.toNat)
    ∧ (found (req false false (.host 4095 0) []) ∧ (List.replicate 64 (1 : Byte)).length = 64 * (req false false (.host 4095 0) []).offsets.length) :=
  ⟨by unfold found; decide, by unfold found; decide, by unfold found; decide, by unfold found; decide⟩
/-- A write request stores its granule with poison and ends. -/
theorem test_memoryRequest_write : after (.memoryRequest 5 []) (reqState (req true false .far (List.replicate 64 0xAB))) (fun t => (t.load (farBase + 63) 1, t.poisonAt farBase, t.net.requests.length))
    = some ([0xAB], false, 0) := by decide +kernel
theorem test_wadiDataArrival : (coreAfter (.wadiDataArrival 5) (reqState (req false true .far (List.replicate 64 0xCD)))).map (fun x => sget x.sp 575) = some 0xCD := by decide +kernel

/-- A packet on its one hop from core 0 to core 1, and the route plan's hop. -/
def hop0 : PlanHop := ⟨(0, 0, 0), 1, 0, 1, [0]⟩
def packet0 : Packet :=
  { id := 1, ctx := 0, epoch := 1, src := 0, dest := 0, granule := 3, slot := 0, token := 0, signal := false, bytes := List.replicate 64 7, poison := [false], base := 8, hops := [hop0],
    hop := 0, moving := true, left := [], lost := false }
def rippleState (ripple : Nat) (applied : Nat) (ps : List Packet) (cs : List (Nat × Ctx)) : State :=
  { State.reset with net := { State.reset.net with ripple := BitVec.ofNat 48 ripple, packets := ps }, power := { State.reset.power with applied := applied }, ctxs := cs }
def carried (p : Packet) : State := rippleState 9 0 [p] [(0, ctx0 [] core0)]
/-- What the receiver reads of a header: as it was sent, nothing after two changed bits of a word, and a range past the scratchpad. -/
theorem witness_RipplesAndPackets :
    (rippleState 9 0 [packet0] []).net.inFlight = true
    ∧ ((rippleState 8 64 [] []).net.inFlight = false
        ∧ (let s := rippleState 8 64 [] []; let q := (s.net.calmPhase + 1) % 64; q * s.power.applied / 64 < (q + 1) * s.power.applied / 64)
        ∧ (let s := rippleState 8 0 [] []; let q := (s.net.calmPhase + 1) % 64; (q + 1) * s.power.applied / 64 ≤ q * s.power.applied / 64 ∧ (s.net.requests.map (·.id)).Nodup))
    ∧ (∀ lost : Bool, let p := { packet0 with lost := lost }; (carried p).net.packets.find? (fun y => y.id == 1 && y.moving) = some p)
    ∧ (carried packet0).carrier packet0.header = some (ctx0 [] core0) ∧ (carried packet0).carrier { packet0.header with epoch := 2 } = none := by decide +kernel
theorem witness_RipplesAndPackets_headers :
    (receivedHeader (packet0.header.bytes 1) [] []).map (fun b => (badPacket b, (Header.read b).map Header.granule)) = some (false, some 3)
    ∧ receivedHeader (packet0.header.bytes 1) [0, 1] [] = none ∧ badPacket ({ packet0.header with granule := 49152 }.bytes 1) = true
    ∧ badPacket ({ packet0.header with granule := 49151 }.bytes 1) = false := by decide +kernel
/-- A request on its last hop. -/
def moving0 : Request := { req false false .far [] with route := [(0, 1)], moving := true }
theorem witness_RipplesAndPackets_memory : (reqState moving0).net.requests.find? (fun y => y.id == 5 && y.moving) = some moving0 ∧ moving0.route = [(0, 1)]
    ∧ (reqState moving0).carrier moving0.header = some (ctx0 [] core0) ∧ badPacket (moving0.header.bytes 1) = false := by decide +kernel
theorem test_rippleBoundary : after (.rippleBoundary []) (rippleState 8 0 [] []) (fun t => t.net.ripple) = some 9 ∧ after (.rippleBoundary []) (carried packet0) (fun t => t.net.ripple) = some 9 := by
  decide +kernel
/-- A calm leaves the ripple number: at a ratio of 48/64 the first period after phase 0 has none, the second one. -/
theorem test_rippleBoundary_calm : after (.rippleBoundary []) (rippleState 8 48 [] []) (fun t => (t.net.ripple, t.power.calmCount)) = some (8, 1) := by decide +kernel
theorem test_packetArrival : (coreAfter (.onDiePacketArrival false 1 .none) (carried packet0)).map (fun x => (sget x.sp 192, sget x.sp 255, x.sp.length)) = some (7, 7, 64) := by decide +kernel

def row0 : RowErr := { die := 3, pc := 127, row := 9, corrected := [], bad := true }
def memState (rows : List RowErr) : State := { State.reset with mem := { State.reset.mem with rows := rows } }
theorem witness_MemoryUpkeep :
    regionOf (farTop - 64) = .far ∧ State.reset.poisonAt (farBase / 64 * 64) = false
    ∧ ((memState [row0]).mem.rows.find? (fun y => y.die == 3 && y.pc == 127 && y.row == 9) = some row0 ∧ row0.needsRepair (memState [row0]).st.now.toNat = true
      ∧ (memState [row0]).mem.moving.getD 3 false = false) := by decide
theorem witness_FarMemoryReadsBack : Memory.wf State.reset.mem ∧ regionOf (farTop - 64) = .far ∧ (farTop - 64) % 64 = 0 ∧ (List.replicate 64 (1 : Byte)).length = 64 ∧ State.reset.farOut (farTop - 64) = false :=
  by decide
theorem test_memoryRefresh : after (.memoryRefresh false 511 3) State.reset (fun t => (t.mem.refresh, t.mem.bytes)) = some (some (false, 511, 3), []) := by decide +kernel
theorem test_patrolScrub_clean : after (.patrolScrub farBase []) State.reset (fun t => (t.mem.ueFar, t.poisonAt farBase)) = some (0, false) := by decide +kernel
/-- An uncorrectable error in far memory is counted and poisons its granule alone. -/
theorem test_patrolScrub_uncorrectable : after (.patrolScrub farBase [0, 1]) State.reset (fun t => (t.mem.ueFar, t.poisonAt farBase, t.poisonAt (farBase + 64))) = some (1, true, false) := by
  decide +kernel
theorem test_dataMoveComplete : after (.dataMoveComplete 2) { State.reset with mem := { State.reset.mem with moving := [true, true, true, true] } } (fun t => t.mem.moving) = some [true, true, false, true] := by
  decide +kernel
/-- Above 85 °C a stack is refreshed at twice the rate; at 85 °C it is not. -/
theorem test_stackTemperature : after (.stackTemperatureRead 15 86) State.reset (fun t => (t.power.stackTemps.getD 15 0, t.power.stackDoubled.getD 15 false, t.power.stackDoubled.getD 14 false))
    = some (86, true, false) ∧ after (.stackTemperatureRead 15 85) State.reset (fun t => t.power.stackDoubled.getD 15 true) = some false := by decide +kernel
/-- What was stored reads back; the neighbours do not change. -/
theorem test_store_load : (State.reset.store (farBase + 64) (List.replicate 64 9)).load (farBase + 63) 66 = 0 :: List.replicate 64 9 ++ [0] := by decide +kernel


/-! ## Seif ports -/

/-- Port 17 of the reset state, replaced. -/
def portState (x : Port) : State := State.reset.putPort 17 x
def upPort : Port := { Port.down with state := 3, version := 4, fast := true }
theorem portGet_portState (x : Port) : portGet (portState x).seif 17 = x := rfl

theorem test_lanes : badLanes 0 = [] ∧ badLanes 0x100 = [8] ∧ badLanes 0x101 = [0, 8] := by decide
/-- A lane swap message for lane 7 at a data frame. -/
def swapMsg (n : Nat) : List Byte := message ([0x03, 7] ++ leBytes 2 n) ++ leBytes 8 0
theorem witness_PortTrainingAndLanes :
    (portGet (portState Port.down).seif 17 = Port.down ∧ Port.down.state ≤ 1)
    ∧ (portGet (portState { Port.down with state := 1, fast := true }).seif 17 = { Port.down with state := 1, fast := true })
    ∧ badLanes 0 = [] ∧ badLanes 0x100 = [8] ∧ 2 ≤ (badLanes 0x101).length ∧ Port.down.attempts + 1 < 3 ∧ 3 ≤ ({ Port.down with attempts := 2 } : Port).attempts + 1
    ∧ (upPort.state = 3 ∧ upPort.spare = false ∧ upPort.replaced ≠ 8 ∧ upPort.swapTx = none ∧ upPort.swapRx = none) ∧ ({ upPort with spare := true } : Port).spare = true
    ∧ ({ upPort with inbox := [swapMsg 0] } : Port).message? 3 = some (0, swapMsg 0) ∧ msgNat (swapMsg 0) 1 1 = 7
    ∧ [0xFFF, 0].map (fun n => (upPort.rxNext - BitVec.ofNat 12 (msgNat (swapMsg n) 2 2) - 1).toNat) = [0, 4095]
    ∧ (({ upPort with buffer := [Port.down.frame 1 []] } : Port).buffer ≠ [] ∧ upPort.ackTime.toNat + 100 * microsecond ≤ ({ State.reset.st with now := 0x1000000 } : SysTime).now.toNat) := by
  decide +kernel
theorem test_portTraining : after (.portTraining 17) State.reset (fun t => ((portGet t.seif 17).state, (portGet t.seif 17).fast)) = some (1, true) := by decide +kernel
theorem test_trainingRateFallback : after (.trainingRateFallback 17) (portState { Port.down with state := 1, fast := true }) (fun t => (portGet t.seif 17).fast) = some false := by decide +kernel
/-- Lane 8 is the spare: the port comes up without one. -/
theorem test_laneQualification : after (.laneQualification 17 0x100) (portState { Port.down with state := 1, fast := true }) (fun t => ((portGet t.seif 17).state, (portGet t.seif 17).spare)) = some (2, false)
    ∧ after (.laneQualification 17 0x003) (portState { Port.down with state := 1, attempts := 2 }) (fun t => (portGet t.seif 17).state) = some 5 := by decide +kernel
/-- A bad lane is named in a message, and replaced at the frame that it names. -/
theorem test_laneErrorThreshold : after (.laneErrorThreshold 17 5) (portState upPort) (fun t => ((portGet t.seif 17).spare, (portGet t.seif 17).swapTx)) = some (false, some (5, 0))
    ∧ (portGet ((portState { upPort with swapTx := some (5, 0) }).sendFrame 17 1 []).seif 17).replaced = 5 := by decide +kernel
/-- The partner's swap waits for its frame, or is made at once where the frame has come. -/
theorem test_laneSwap : [0xFFF, 0].map (fun n => after (.laneSwap 17) (portState { upPort with inbox := [swapMsg n] }) (fun t => ((portGet t.seif 17).spare, (portGet t.seif 17).swapRx)))
    = [some (true, none), some (false, some (7, 0))] := by decide +kernel

/-- A data frame in sequence, a control frame of one message, an idle frame and a discovery frame, as the partner sends them. -/
def dataF : Frame := Port.down.frame 1 [1, 2, 3]
def controlF : Frame := Port.down.frame 2 (message [0x05, 0])
def idleF : Frame := Port.down.frame 3 []
def record1 : Discovery := { State.reset.ownRecord 3 with serial := 2, identity := [] }
def discF : Frame := Port.down.frame 4 (discoveryBytes record1)
theorem crcBits_lt (w poly : Nat) (hp : poly < 2 ^ w) : ∀ n r, r < 2 ^ w → crcBits w poly n r < 2 ^ w
  | 0, _, h => h
  | n + 1, r, _ => by
    have h2 : r * 2 % 2 ^ w < 2 ^ w := Nat.mod_lt _ (Nat.two_pow_pos w)
    unfold crcBits
    split
    · exact crcBits_lt w poly hp n _ (Nat.xor_lt_two_pow h2 hp)
    · exact crcBits_lt w poly hp n _ h2
theorem crc64_lt (l : List Byte) : crc64 l < 2 ^ 64 := by
  have go : ∀ (l : List Byte) (r : Nat), r < 2 ^ 64 → l.foldl (fun r b => crcBits 64 0x42F0E1EBA9EA3693 8 (r ^^^ (b.toNat * 2 ^ (64 - 8)))) r < 2 ^ 64 := by
    intro l
    induction l with
    | nil => exact fun r h => h
    | cons b l ih =>
      intro r h
      have hb : b.toNat * 2 ^ (64 - 8) < 2 ^ 64 := by have := b.isLt; omega
      exact ih _ (crcBits_lt 64 _ (by decide) 8 _ (Nat.xor_lt_two_pow h hb))
  exact go l _ (by decide)
/-- A frame as a port sends it holds its check, and no other check. -/
theorem frameOk_frame (x : Port) (typ : Nat) (payload : List Byte) (h : typ < 256) : frameOk (x.frame typ payload) = true := by
  have e1 : typ % 2 ^ 8 = typ := Nat.mod_eq_of_lt h
  have e2 : ∀ n : Nat, n = (if typ = 1 then x.txSeq.toNat else 0) → n % 2 ^ 12 = n := by
    intro n hn
    have := x.txSeq.isLt
    subst hn
    split <;> omega
  simp only [frameOk, Port.frame, BitVec.toNat_ofNat, e1, e2 _ rfl, beq_iff_eq]
  exact (Nat.mod_eq_of_lt (crc64_lt _)).symm
theorem frameOk_wrong (x : Port) (typ : Nat) (payload : List Byte) (h : typ < 256) : frameOk { x.frame typ payload with crc := (x.frame typ payload).crc + 1 } = false := by
  have a := frameOk_frame x typ payload h
  simp only [frameOk, beq_iff_eq, beq_eq_false_iff_ne] at a ⊢
  have e : ∀ c : BitVec 64, c.toNat ≠ (c + 1).toNat := by intro c; simp only [BitVec.toNat_add]; have := c.isLt; change c.toNat ≠ (c.toNat + 1) % 2 ^ 64; omega
  intro h2
  exact e (x.frame typ payload).crc (a.symm.trans h2)

theorem witness_PortFrames :
    (upPort.state = 3 ∧ frameOk dataF = true ∧ frameOk { dataF with crc := dataF.crc + 1 } = false ∧ dataF.nak = false ∧ dataF.typ = 1 ∧ dataF.seq = upPort.rxNext ∧ ({ dataF with seq := 4095 } : Frame).seq ≠ upPort.rxNext)
    ∧ (frameOk controlF = true ∧ controlF.typ = 2) ∧ (frameOk idleF = true ∧ idleF.typ = 3)
    ∧ (frameOk discF = true ∧ discF.typ = 4 ∧ recordOk discF.payload = true ∧ ({ upPort with state := 2 } : Port).partner = none ∧ ∀ c ∈ (portState { upPort with state := 2 }).seif.claims, c.serial = 2 → 17 ∉ c.ports) :=
  ⟨⟨rfl, frameOk_frame _ _ _ (by decide), frameOk_wrong _ _ _ (by decide), rfl, rfl, rfl, by decide⟩, ⟨frameOk_frame _ _ _ (by decide), rfl⟩, ⟨frameOk_frame _ _ _ (by decide), rfl⟩,
   ⟨frameOk_frame _ _ _ (by decide), rfl, by decide +kernel, rfl, by decide⟩⟩
/-- A resend is asked for by a NAK that names a frame of the replay buffer. -/
def nakF : Frame := Port.frame { Port.down with nak := true } 3 []
theorem witness_PortFrames_resend : frameOk nakF = true ∧ nakF.ackValid = true ∧ nakF.nak = true ∧ ({ upPort with buffer := [dataF] } : Port).unacked nakF.ack = [dataF]
    ∧ (if upPort.resentSeq = nakF.ack then upPort.resent + 1 else 1) < 8 := ⟨frameOk_frame _ _ _ (by decide), rfl, rfl, rfl, by decide⟩
/-- A frame at which the partner's lane swap takes effect; a partner that has version 4 on a port at 112 Gb/s, before and after one more training. -/
theorem witness_PortFrames_forms : ({ upPort with swapRx := some (7, dataF.seq) } : Port).swapRx = some (7, dataF.seq) ∧ (parseDiscovery discF.payload).versions.getLsbD 1 = true
    ∧ ({ upPort with state := 2, fast := false } : Port).retried = false ∧ ({ upPort with resent := 7 } : Port).resent + 1 = 8 ∧ upPort.resentSeq = nakF.ack := by decide +kernel
/-- A frame that cannot be corrected is counted and answered with a NAK. -/
theorem test_dataFrame_uncorrectable : after (.dataFrameReceive 17 none dataF) (portState upPort) (fun t => ((portGet t.seif 17).stream, (portGet t.seif 17).nak, (portGet t.seif 17).fecUncorr)) = some ([], true, 1) := by
  decide +kernel
theorem witness_PortSends : upPort.talks = true ∧ Port.down.talks = false ∧ ({ State.reset.st with gm := 1, mode := 2 } : SysTime).gm ≠ 0 ∧ ({ State.reset.st with gm := 1, mode := 2 } : SysTime).mode ≠ 3 := by decide
theorem test_discoveryFrameSend : after (.discoveryFrameSend 17) (portState upPort) (fun t => (t.seif.out.length, (t.seif.out.drop 90).map (fun x => (x.1, x.2.typ, x.2.payload.take 8)))) = some (91, [(17, 4, ascii "VXSEIFDS")]) := by decide +kernel
/-- Behind 90 idle frames; the first message of a control frame is the timestamp, type 1. -/
theorem test_controlFrameSend : after (.controlFrameSend 17) (portState upPort) (fun t => (t.seif.out.drop 89).map (fun x => (x.2.typ, x.2.payload.head?))) = some [(3, none), (2, some 1)] := by decide +kernel

/-- A partner last heard at time 0, seen 100 µs later. -/
def partnered : Port := { upPort with partner := some record1 }
def later : State := { portState partnered with st := { State.reset.st with now := BitVec.ofNat 64 (100 * microsecond) } }
def relayMsg : List Byte := message ([0x06, 1, 0, 1] ++ leBytes 8 5) ++ leBytes 8 0
def routes1 : State := { later with seif := { later.seif with routes := [⟨5, 1, none, 0, false⟩] }, st := { State.reset.st with now := BitVec.ofNat 64 (2 * second) } }
theorem witness_PartnersDepart :
    (partnered.partner = some record1 ∧ partnered.lastRx.toNat + 100 * microsecond ≤ later.st.now.toNat)
    ∧ (({ partnered with inbox := [message [0x07] ++ leBytes 8 0] } : Port).message? 7 = some (0, message [0x07] ++ leBytes 8 0) ∧ ∀ c ∈ (portState partnered).seif.claims, c.serial = record1.serial → 17 ∉ c.ports)
    ∧ (routes1.route? 5 1 = some ⟨5, 1, none, 0, false⟩ ∧ 0 + 3 * second / 2 < routes1.st.now.toNat ∧ ∀ c ∈ routes1.ctxs, c.2.desc.job ≠ 5)
    ∧ (({ upPort with inbox := [relayMsg] } : Port).message? 6 = some (0, relayMsg) ∧ msgNat relayMsg 1 1 = 1 ∧ (portState upPort).ownRank 5 ≠ some 0
        ∧ (with0 { ctx0 [] core0 with desc := { CtxDesc.zero with job := 5 } }).ownRank 5 = some 0) := by decide +kernel
theorem test_partnerSilence : after (.partnerSilenceTimeout 17) later (fun t => ((portGet t.seif 17).state, (portGet t.seif 17).partner.isNone)) = some (2, true) := by decide +kernel
/-- One unit short of 100 µs nothing happens. -/
theorem test_partnerSilence_early : after (.partnerSilenceTimeout 17) { later with st := { State.reset.st with now := BitVec.ofNat 64 (100 * microsecond - 1) } } (fun t => (portGet t.seif 17).state) = some 3 := by
  decide +kernel
theorem test_departureNotice : after (.departureNotice 17) (portState { partnered with inbox := [message [0x07] ++ leBytes 8 0] }) (fun t => (portGet t.seif 17).partner.isNone) = some true := by decide +kernel
theorem test_routeAbsence : after (.routeAbsenceTimeout 5 1) routes1 (fun t => t.seif.routes.map (·.departed)) = some [true] := by decide +kernel


/-! ## System Time and the grandmaster -/

/-- The example of R229: A's view of B, t1 = 1,000,000,000, t2 = 1,000,000,556, t3 = 1,000,007,100, t4 = 1,000,007,544. -/
def stampMsg : List Byte := message ([0x01] ++ List.replicate 7 0 ++ leBytes 8 1000007100 ++ leBytes 8 1000000000 ++ leBytes 8 1000000556) ++ leBytes 8 1000007544
def stampPort : Port := { upPort with inbox := [stampMsg] }
/-- Port 17 is the parent, and the module is locked. -/
def child : State := { portState stampPort with st := { State.reset.st with parent := some 17, mode := 2, gm := 2, locked := true } }
/-- The same before initial lock, and a module whose grandmaster was last heard 1 ms ago. -/
def unlocked : State := { portState stampPort with st := { State.reset.st with parent := some 17, mode := 1, gm := 2 } }
def unheard : State := { child with st := { child.st with now := BitVec.ofNat 64 millisecond } }
def announceMsg : List Byte := message ([0x02, 0, 1, 0] ++ List.replicate 4 0 ++ leBytes 8 9) ++ leBytes 8 0
def heldOver : State := { State.reset with st := { State.reset.st with gm := 2, mode := 3, holdover := some 0, now := BitVec.ofNat 64 (10 * millisecond + 1) } }
/-- A grandmaster with a number of good pulses, the last at time 0. -/
def pulsed (good now : Nat) : State := { State.reset with st := { State.reset.st with
  ppsValid := decide (8 ≤ good), tenValid := true, capable := true, gm := State.reset.cfg.serial, ppsGood := good, ppsLast := some 0, now := BitVec.ofNat 64 now } }
theorem witness_SystemTimeFollowsItsParent :
    (portGet child.seif 17 = stampPort ∧ stampPort.message? 1 = some (0, stampMsg) ∧ msgNat stampMsg 16 8 ≠ 0 ∧ child.st.parent = some 17 ∧ child.st.mode = 2 ∧ child.st.locked = true
      ∧ unlocked.st.locked = false ∧ unlocked.resident = [] ∧ 0 ≤ meanOf [56])
    ∧ (portState stampPort).st.parent ≠ some 17
    ∧ (unheard.st.gm ≠ 0 ∧ unheard.st.gm ≠ unheard.cfg.serial ∧ unheard.st.mode ≠ 3 ∧ unheard.st.gmHeard + millisecond ≤ unheard.st.now.toNat)
    ∧ (heldOver.st.holdover = some 0 ∧ heldOver.st.mode = 3 ∧ 0 + 10 * millisecond < heldOver.st.now.toNat ∧ heldOver.st.holdoverWarned = false)
    ∧ (pulsed 8 second).st.inPlace = true ∧ (pulsed 8 second).st.ppsValid = true ∧ (pulsed 7 second).st.ppsGood + 1 = 8 ∧ secondError (second - 0) ≤ microsecond
    ∧ State.reset.resetting 7 = false ∧ State.reset.resetting 8 = false ∧ (pulsed 8 7).st.capable = true ∧ (pulsed 8 7).st.gm = (pulsed 8 7).cfg.serial ∧ (pulsed 8 7).st.now.toNat % second ≠ 0 := by decide +kernel
/-- θ = 56 units and δ = 500 units, the values of R229's example; the one step of initial lock adds the mean. -/
theorem test_timestamp : after (.timestamp 17) child (fun t => (t.st.thetas, (portGet t.seif 17).delay)) = some ([56], 500)
    ∧ after (.timestamp 17) unlocked (fun t => (t.st.now, t.st.locked)) = some (56, true) := by decide +kernel
theorem test_holdoverEntry : after .holdoverEntry unheard (fun t => (t.st.mode, t.st.parent, t.attn.log.map AttnEntry.level)) = some (3, none, [1]) := by decide +kernel
theorem test_holdoverLimit : after .holdoverLimit heldOver (fun t => t.attn.log.map AttnEntry.level) = some [2] := by decide +kernel
/-- A pulse shorter than 20 ns is none; one of 20 to 100 ns is rejected and counted. -/
theorem test_trefPpsEdge : after (.trefPpsEdge 19) State.reset (fun t => t.st.ppsReject) = some 0 ∧ after (.trefPpsEdge 20) State.reset (fun t => t.st.ppsReject) = some 1 := by decide +kernel
theorem test_tref10m : after .tref10mDeviation { State.reset with st := { State.reset.st with tenValid := true } } (fun t => t.st.tenValid) = some false
    ∧ after .tref10mAmplitudeLoss { State.reset with st := { State.reset.st with tenValid := true } } (fun t => (t.st.tenValid, t.pins.tenMAmplitude)) = some (false, false)
    ∧ after .tref10mRecovery State.reset (fun t => t.st.tenValid) = some true := by decide +kernel

def heardOne : Port := { upPort with inbox := [announceMsg] }
theorem witness_GrandmasterIsTheBest : portGet (portState heardOne).seif 17 = heardOne ∧ heardOne.message? 2 = some (0, announceMsg) := by decide +kernel
/-- A grandmaster of class 0 is better than this module without a reference. -/
theorem test_grandmaster : after (.grandmasterAnnouncement 17) (portState heardOne) (fun t => (t.st.gm, t.st.parent)) = some (9, some 17) := by decide +kernel

/-! ## Packets, windows, collectives -/

/-- A write of one granule of far memory, job 5, from rank 1 to rank 0. -/
def pkt : SeifPacket :=
  { job := 5, srcRank := 1, dstRank := 0, kind := 1, len := 1, flow := 0, target := BitVec.ofNat 64 farBase, tag := 3, segment := 0, poison := 0, reserved := 0, digest := 0
    crc := 0, payload := List.replicate 64 0xEE }
def pktBytes : List Byte := packetBytes pkt
def jobCtx5 (g : List Grant) : Ctx := { ctx0 [] core0 with desc := { CtxDesc.zero with cores := 1, job := 5 }, grants := g }
def peerState (g : List Grant) : State := { with0 (jobCtx5 g) with seif := { State.reset.seif with ports := [(17, { upPort with stream := pktBytes })] } }
def xfer (r : Option Nat) : PeerXfer := ⟨3, r, 0, 1, true, 0⟩
def ackMsg : List Byte := message (ackMessage 5 0 3) ++ leBytes 8 0
def ackState : State := { peerState [] with
  seif := { State.reset.seif with ports := [(17, { upPort with inbox := [ackMsg] })], peers := [xfer (some 5)] }, net := { State.reset.net with requests := [req true true (.peer 0 1 0 0) []] } }
/-- A link window table of one entry at the bottom of near memory: starts at 0, frame of 2^20 units of 256 ns. -/
def winState : State := ({ with0 { ctx0 [] core0 with desc := { CtxDesc.zero with cores := 1, windows := 4096 } } with st := { State.reset.st with now := 4096 } } : State).store 4096
  (leBytes 8 0 ++ leBytes 8 0 ++ leBytes 4 1048576 ++ leBytes 4 1 ++ List.replicate 8 0 ++ [17, 0, 3, 0] ++ leBytes 4 0 ++ leBytes 4 1000)
def winOpen : OpenWindow := ⟨0, 0, 17, 3, 0, 0, false, 0, 0, none, false⟩
theorem witness_PeerPacketsAndWindows :
    (let s := peerState [⟨farBase, 65536, 7⟩]; let b := ({ upPort with stream := pktBytes } : Port).stream; let y := parsePacket b
     64 ≤ b.length ∧ wireLen b ≤ b.length ∧ crc32 (b.take 60) = y.crc.toNat ∧ badHeader y = false ∧ s.refusedFrom 17 y = false ∧ s.jobCtx y.job = some (0, jobCtx5 [⟨farBase, 65536, 7⟩])
       ∧ y.dstRank.toNat = 0 ∧ y.kind = 1 ∧ y.target.toNat % 64 = 0 ∧ (jobCtx5 [⟨farBase, 65536, 7⟩]).granted 2 y.target.toNat (64 * y.len.toNat) = true ∧ regionOf y.target.toNat = .far
       ∧ (jobCtx5 []).granted 2 y.target.toNat (64 * y.len.toNat) = false ∧ (peerState []).jobCtx y.job = some (0, jobCtx5 []) ∧ (peerState []).refusedFrom 17 y = false)
    ∧ (({ upPort with inbox := [ackMsg] } : Port).message? 8 = some (0, ackMsg) ∧ ackState.ownRank (BitVec.ofNat 64 (msgNat ackMsg 4 8)) = some (msgNat ackMsg 2 2)
        ∧ ackState.seif.peers.find? (fun y => y.tag == msgNat ackMsg 12 4 && y.write) = some (xfer (some 5)) ∧ ackState.net.requests.find? (fun y => y.id == 5) = some (req true true (.peer 0 1 0 0) []))
    ∧ (let s : State := { State.reset with seif := { State.reset.seif with peers := [xfer none] }, st := { State.reset.st with now := 0x100000000 } }
       s.seif.peers.find? (fun y => y.tag == 3 && y.write) = some (xfer none) ∧ (xfer none).issued.toNat + 100 * millisecond ≤ s.st.now.toNat)
    ∧ (0 < winState.loadNat (4096 + 20) 4 ∧ winState.windowNow 4096 (winState.linkEntry 4096 0) = some (0, 4096000))
    ∧ (let s : State := { winState with seif := { State.reset.seif with windows := [winOpen] } }
       s.seif.windows.find? (fun y => y.ctx == 0 && y.entry == 0) = some winOpen ∧ winOpen.closes.toNat ≤ s.st.now.toNat) := by decide +kernel
/-- Packets of other kinds, for other ranks and jobs, and one that supplies a collective. -/
def kinded (k : Byte) : SeifPacket := { pkt with kind := k, target := BitVec.ofNat 64 farBase }
def supplier : Ctx := { jobCtx5 [] with desc := { CtxDesc.zero with cores := 1, job := 5, standIns := 1, collAddr := farBase, collLen := 4096 } }
theorem witness_PeerPacketsAndWindows_kinds :
    (∀ k ∈ [2, 3, 4, 5], badHeader (kinded k) = false) ∧ badHeader (kinded 0) = true ∧ (peerState []).refusedFrom 17 { pkt with dstRank := 1 } = false
    ∧ suppliesColl supplier { pkt with payload := headerBytes (kinded 4) } = true ∧ suppliesColl (jobCtx5 []) pkt = false
    ∧ (peerState []).route? 5 3 = none ∧ routes1.route? 5 1 = some ⟨5, 1, none, 0, false⟩ ∧ State.reset.jobCtx 5 = none
    ∧ crc32 (({ pkt with crc := 1 } : SeifPacket) |> packetBytes |>.take 60) ≠ 1 := by decide +kernel
theorem test_seifPacket_write : after (.seifPacketArrival 17) (peerState [⟨farBase, 65536, 7⟩]) (fun t => (t.load (farBase + 63) 1, (portGet t.seif 17).stream.length)) = some ([0xEE], 0) := by decide +kernel
/-- Outside granted memory the write is discarded and counted. -/
theorem test_seifPacket_ungranted : after (.seifPacketArrival 17) (peerState []) (fun t => (t.load (farBase + 63) 1, (portGet t.seif 17).drop)) = some ([0], 1) := by decide +kernel
theorem test_writeAck : after (.writeAcknowledgement 17) ackState (fun t => (t.seif.peers.length, t.net.requests.length)) = some (0, 0) := by decide +kernel
theorem test_linkWindow : after (.linkWindowOpen 0 0) winState (fun t => t.seif.windows.map (fun w => (w.port, w.flow, w.closes))) = some [(17, 3, 4096000)] := by decide +kernel

/-- An all-gather of 64 FP32 elements, collective 6. -/
def collBytes : List Byte := leBytes 4 6 ++ [2, 0, 0, 0] ++ leBytes 2 0 ++ leBytes 2 0 ++ leBytes 2 1 ++ leBytes 2 0 ++ leBytes 8 64 ++ leBytes 8 farBase ++ leBytes 8 (farBase + 4096) ++ List.replicate 24 0
def coll6 (h k : BitVec 128) (packets : List SeifPacket) : Coll :=
  { ctx := 0, step := 7, started := 0, desc := parseColl collBytes, h := h, k := k, leaves := [], done := [], mismatches := [], inbox := packets, flags := 0, nonFinite := 0 }
def collPkt (digest : BitVec 128) : SeifPacket := { pkt with kind := 5, target := 0, digest := digest, segment := 0xFFFFFFFF }
def goodDigest : BitVec 128 := (coll6 1 1 []).digest (jobCtx5 []).digestJob 0 1 0xFFFFFFFF pkt.payload
def collState (x : Coll) (now : Nat) : State := { with0 (jobCtx5 []) with colls := [x], st := { State.reset.st with now := BitVec.ofNat 64 now } }
def resendMsg : List Byte := message (resendMessage 5 0 6 0 0 1) ++ leBytes 8 0
def abortMsg : List Byte := message ([0x09, 0] ++ leBytes 2 0 ++ leBytes 8 5 ++ leBytes 4 6) ++ leBytes 8 0
def poisonedState : State := { with0 (jobCtx5 []) with mem := { State.reset.mem with poison := [(farBase / 64, 1)] } }
theorem witness_CollectivesRun :
    (Format.ofCode (parseColl collBytes).format = some .fp32 ∧ (parseColl collBytes).bad = none ∧ (jobCtx5 []).status = .running ∧ (jobCtx5 []).stopping = false
      ∧ (with0 (jobCtx5 [])).coll? 0 (parseColl collBytes).id = none ∧ (with0 (jobCtx5 [])).inputPoison (jobCtx5 []) (parseColl collBytes) .fp32 = none
      ∧ poisonedState.inputPoison (jobCtx5 []) (parseColl collBytes) .fp32 = some farBase)
    ∧ ((collState (coll6 1 1 [collPkt goodDigest]) 0).colls.find? (fun y => y.ctx == 0 && !y.inbox.isEmpty) = some (coll6 1 1 [collPkt goodDigest])
      ∧ (collPkt goodDigest).kind = 5 ∧ (coll6 1 1 [collPkt goodDigest]).digest (jobCtx5 []).digestJob 0 1 0xFFFFFFFF (collPkt goodDigest).payload = goodDigest
      ∧ (coll6 1 1 []).digest (jobCtx5 []).digestJob 0 1 0xFFFFFFFF (collPkt (goodDigest + 1)).payload ≠ goodDigest + 1)
    ∧ (({ upPort with inbox := [resendMsg] } : Port).message? 4 = some (0, resendMsg) ∧ (collState (coll6 1 1 []) 0).ownRank (BitVec.ofNat 64 (msgNat resendMsg 4 8)) = some (msgNat resendMsg 2 2)
      ∧ (collState (coll6 1 1 []) 0).jobCtx (BitVec.ofNat 64 (msgNat resendMsg 4 8)) = some (0, jobCtx5 []) ∧ (collState (coll6 1 1 []) 0).coll? 0 (BitVec.ofNat 32 (msgNat resendMsg 12 4)) = some (coll6 1 1 [])
      ∧ (parseColl collBytes).reduces = false)
    ∧ ((∀ j ∈ (parseColl collBytes).needs 1 [0], j ∈ [0]) ∧ (coll6 1 1 []).started.toNat + 2 * second ≤ (collState (coll6 1 1 []) (2 * second)).st.now.toNat)
    ∧ (({ upPort with inbox := [abortMsg] } : Port).message? 9 = some (0, abortMsg) ∧ (collState (coll6 1 1 []) 0).ownRank (BitVec.ofNat 64 (msgNat abortMsg 4 8)) = some (msgNat abortMsg 2 2)) := by
  decide +kernel
theorem test_collectiveCompletion : after (.collectiveCompletion 0 6) (collState { coll6 1 1 [] with done := [0] } 0) (fun t => t.colls.length) = some 0 := by decide +kernel
theorem test_collectiveDeadline : after (.collectiveDeadlineExpiry 0 6) (collState (coll6 1 1 []) (2 * second)) (fun t => t.colls.length) = some 0
    ∧ after (.collectiveDeadlineExpiry 0 6) (collState (coll6 1 1 []) (2 * second - 1)) (fun t => t.colls.length) = some 1 := by decide +kernel
/-- A result whose digest holds ends its chunk. -/
theorem test_contribution : after (.contributionArrival 0) (collState (coll6 1 1 [collPkt goodDigest]) 0) (fun t => t.colls.map Coll.done) = some [[0]] := by decide +kernel

def pacingMsg : List Byte := message ([0x05, 1] ++ leBytes 2 0 ++ leBytes 8 5 ++ leBytes 8 77 ++ [48]) ++ leBytes 8 0
def pacing0 : Pacing := ⟨0, 0, [], [], [], [], []⟩
def pacedState : State := { with0 (jobCtx5 []) with seif := { State.reset.seif with ports := [(17, { upPort with inbox := [pacingMsg] })], pacing := [pacing0] } }
theorem witness_PacingPeriods : State.reset.paced = [] ∧ ({ upPort with inbox := [pacingMsg] } : Port).message? 5 = some (0, pacingMsg)
    ∧ pacedState.jobCtx (BitVec.ofNat 64 (msgNat pacingMsg 4 8)) = some (0, jobCtx5 []) ∧ pacedState.pacing? 0 = some pacing0 ∧ msgNat pacingMsg 1 1 ≠ 0 := by decide +kernel
theorem test_pacing : after (.pacing 17) pacedState (fun t => t.seif.pacing.map Pacing.maxima) = some [[(77, 48)]] := by decide +kernel


/-! ## The learner step -/

/-- A tracked entry of kind 1 with no history yet. -/
def tracked0 : TrackedEntry := ⟨7, 1, 4, 0, 0, 0, 0, 0x3F800000, 0x3F800000, [0, 0, 0, 0]⟩
/-- A learner of one tensor: version 1 is current, one buffer is free; of the own areas the first holds version 1. -/
def learner0 : Learner :=
  { algorithm := 0, buffers := [⟨0x1000000, .current, 1, [], [], none⟩, ⟨0x2000000, .free, 0, [], [], none⟩], stepFlow := 0, commitLead := 100, stepCount := 4,
    statsArea := 0, controlArea := 0, params := [7], groups := [], tracked := [tracked0], patches := [], own := [⟨0x3000000, 1⟩, ⟨0x4000000, 0⟩], buddy := [],
    lastStep := none, lastTime := 0, discarded := 0, decisionLog := [], lastGroup := none, hashing := [], committed := [] }
/-- The STEP of command 9, step counter 5. -/
def newStep : StepRun := StepRun.start 9 5 [0xFF, 0xFF, 0, 0] false
/-- The same learner with version 2 pending. -/
def pending0 : Learner := learner0.pend 2

/-- A context of rank `rank` in a job of `m` modules, with one STEP. -/
def moduleCtx (m rank : Nat) (l : Learner) (st : StepRun) : Ctx :=
  { ctx0 [] core0 with desc := { CtxDesc.zero with cores := 1, job := 5, modules := m, rank := rank, kind := 2 }, learn := some l, steps := [st], run := none }
theorem stepTurn_on (s : State) (c : Ctx) (st : StepRun) (later : List StepRun) (h : s.ctx? 0 = some c) (hs : c.steps = st :: later) (hd : ∀ x ∈ later, x.cmd ≠ st.cmd) :
    StepTurn s 0 c st later := ⟨by decide, h, hs, hd⟩

/-- Statistics of one tracked entry. -/
def stat0 : StepStat := ⟨7, 0, 0, 0, 0, 0⟩
/-- A step control record of the step, from a rank. -/
def rec0 (kind source flags : Nat) (time : W64) : StepRec :=
  { tagOk := true, job := 5, stepCounter := 5, source := BitVec.ofNat 16 source, kind := BitVec.ofNat 8 kind, attempt := BitVec.ofNat 8 newStep.attempt, pendingVersion := 0,
    ranks := 1, flags := BitVec.ofNat 32 flags, commitTime := time, stats := if kind < 3 then [stat0] else [], reserved := 0 }

def learnEnd : StepRun := { newStep with phase := .learner, progDone := true }
def heardStep : StepRun := { newStep with phase := .optimise, heard := true }
def optimised : StepRun := { newStep with phase := .optimise, heard := true, allocated := true, progDone := true, pending := 2 }
def prepared (sent : Nat) : StepRun := { optimised with phase := .prepared, sentAt := some sent }
def at2s (c : Ctx) (n : Nat) : State := { with0 c with st := { State.reset.st with now := BitVec.ofNat 64 n } }

def doubtStep : StepRun := { prepared 0 with inDoubt := true }
theorem witness_StepPhasesAndReports :
    (StepTurn (with0 (moduleCtx 2 0 learner0 learnEnd)) 0 (moduleCtx 2 0 learner0 learnEnd) learnEnd [] ∧ learnEnd.phase = .learner ∧ learnEnd.progDone = true)
    ∧ (let c := moduleCtx 2 0 learner0 newStep
       c.recordStep (rec0 1 1 1 0) = some newStep ∧ c.fromChild (rec0 1 1 1 0) = true ∧ newStep.shardCopied = false
        ∧ c.recordStep (rec0 3 1 7 0) = some newStep ∧ newStep.phase ≠ .optimise)
    ∧ (let c := moduleCtx 2 1 learner0 newStep
       StepTurn (with0 c) 0 c newStep [] ∧ c.recordStep (rec0 2 0 0 0) = some newStep ∧ c.fromParent (rec0 2 0 0 0) = true ∧ recFlag (rec0 2 0 0 0) 0 = false ∧ newStep.decision = none
        ∧ newStep.progDone = false)
    ∧ (let c := moduleCtx 1 0 learner0 heardStep
       StepTurn (with0 c) 0 c heardStep [] ∧ heardStep.heard = true ∧ heardStep.allocated = false ∧ heardStep.outcome = none ∧ c.canAllocate learner0 = true)
    ∧ (let c := moduleCtx 1 0 pending0 optimised
       StepTurn (with0 c) 0 c optimised [] ∧ c.desc.modules = 1 ∧ optimised.allocated = true ∧ (∃ x ∈ c.cores, nmem optimised.results x.1 = false)
        ∧ c.pendingArea pending0.own = 0x4000000)
    ∧ (let c := moduleCtx 2 1 pending0 (prepared 0)
       StepTurn (at2s c (2 * second)) 0 c (prepared 0) [] ∧ c.desc.rank ≠ 0 ∧ (prepared 0).phase = .prepared ∧ (prepared 0).sentAt = some 0 ∧ 0 + 2 * second ≤ (at2s c (2 * second)).st.now.toNat) := by
  refine ⟨⟨stepTurn_on _ _ _ _ rfl rfl (by decide), by decide, by decide⟩, by decide +kernel, ⟨stepTurn_on _ _ _ _ rfl rfl (by decide), by decide +kernel⟩,
    ⟨stepTurn_on _ _ _ _ rfl rfl (by decide), by decide +kernel⟩, ⟨stepTurn_on _ _ _ _ rfl rfl (by decide), by decide, by decide, ?_, by decide +kernel⟩,
    ⟨stepTurn_on _ _ _ _ rfl rfl (by decide), by decide +kernel⟩⟩
  exact ⟨(0, core0), by simp [moduleCtx, ctx0], by decide⟩

/-- Steps at the other phases: without a reward program, scored, with two micro-batches, at the exchange, at the gate, with every part of a prepare report. -/
def unscored : StepRun := { newStep with slots := [0xFF, 0xFF, 0, 0] }
def scoredStep : StepRun := { newStep with slots := [0, 0, 0, 0], phase := .scoring, progDone := true }
def advanced : StepRun := { newStep with phase := .advantage, progDone := true }
def ofTwo : StepRun := { learnEnd with batches := 2 }
def gated : StepRun := { newStep with phase := .gate, votes := [(0, true)], shardCopied := true }
def results0 (poisoned : Bool) : StepRun := { optimised with results := [(0, true)], ownDigest := some (zeros 32), poisoned := poisoned }
def awaited (phase : StepPhase) (doubt : Bool) : StepRun := { newStep with phase := phase, sentAt := some 0, inDoubt := doubt }
theorem witness_StepPhasesAndReports_phases :
    (let c := moduleCtx 1 0 learner0 scoredStep
     nfind c.slots (scoredStep.slots.getD 0 0xFF) = some (prog []) ∧ c.run = none ∧ (with0 c).someRoll c = true ∧ (with0 c).rollsReady c = true ∧ (with0 c).rewarded c = true)
    ∧ ({ scoredStep with phase := .accepted } : StepRun).slots.getD 0 0xFF ≠ 0xFF ∧ unscored.slots.getD 0 0xFF = 0xFF ∧ unscored.phase = .accepted ∧ scoredStep.phase = .scoring
    ∧ (let c := moduleCtx 1 0 learner0 advanced
       (with0 c).doubtful = false ∧ ((with0 c).takeRolls 0 c advanced).isSome = true ∧ advanced.phase = .advantage)
    ∧ (let st : StepRun := { advanced with supplied := true }
       let c : Ctx := { moduleCtx 1 0 learner0 st with rollouts := some ⟨0, 8192, 0, 0, 0, 0, 0x5000000, 0, 0x6000000⟩ }
       (with0 c).rollsReady c = true ∧ (((with0 c).store 0x6000024 [1, 0, 0, 0]).takeRolls 0 c st).isNone = true)
    ∧ (ofTwo.batch + 1 < ofTwo.batches ∧ learnEnd.batches ≤ learnEnd.batch + 1) ∧ (with0 (moduleCtx 2 1 pending0 doubtStep)).doubtful = true
    ∧ (∀ r ∈ [0, 1], let c := moduleCtx 2 r learner0 gated
       c.gateOwn gated [] 0 = true ∧ (r = 1 → gated.gate.full 2 r = true) ∧ ({ gated with gate := { gated.gate with children := [1] } } : StepRun).gate.full 2 0 = true)
    ∧ (∀ p ∈ [true, false], let c := moduleCtx 1 0 pending0 (results0 p)
       c.prepOwn (results0 p) [] 0 = true ∧ (results0 p).prep.full 1 0 = true ∧ (with0 c).verdictPending 0 c = false ∧ (with0 c).pendingPoison c pending0 (results0 p) = none)
    ∧ (∀ ph ∈ [StepPhase.gate, .optimise, .prepared], ∀ d ∈ [true, false], (awaited ph d).sentAt = some 0 ∧ (awaited ph d).logAck = none ∧ (awaited ph d).phase = ph ∧ (awaited ph d).inDoubt = d) := by
  decide +kernel

/-- The first STEP of context 0 after a command. -/
def stepAfter {α : Type} (i : Instr) (s : State) (f : StepRun → α) : Option α := ((ctxAfter i s).bind (fun c => c.steps.head?)).map f
def learnAfter {α : Type} (i : Instr) (s : State) (f : Learner → α) : Option α := ((ctxAfter i s).bind (fun c => c.learn)).map f

theorem test_stepPhaseStart : stepAfter (.stepPhaseStart 0 4) (with0 (moduleCtx 2 0 learner0 learnEnd)) StepRun.phase = some .exchange := by decide +kernel
theorem test_gateReport : stepAfter (.gateReport 0 (rec0 1 1 1 0)) (with0 (moduleCtx 2 0 learner0 newStep)) (fun x => (x.gate.children, x.gate.finite, x.gate.ranks)) = some ([1], true, 1)
    ∧ stepAfter (.gateReport 0 (rec0 1 1 0 0)) (with0 (moduleCtx 2 0 learner0 newStep)) (fun x => x.gate.finite) = some false := by decide +kernel
/-- A record of another attempt is discarded and counted. -/
theorem test_gateReport_stale : learnAfter (.gateReport 0 { rec0 1 1 1 0 with attempt := 9 }) (with0 (moduleCtx 2 0 learner0 newStep)) Learner.discarded = some 1 := by decide +kernel
theorem test_gateDecision_skip : stepAfter (.gateDecision 0 (rec0 2 0 0 0)) (with0 (moduleCtx 2 1 pending0 newStep)) (fun x => (x.outcome, x.pending)) = some (some .skippedVote, 0)
    ∧ learnAfter (.gateDecision 0 (rec0 2 0 0 0)) (with0 (moduleCtx 2 1 pending0 newStep)) (fun l => l.buffers.map VersionBuf.state) = some [.current, .free] := by decide +kernel
theorem test_pendingVersion : learnAfter (.pendingVersionAllocation 0) (with0 (moduleCtx 1 0 learner0 heardStep)) (fun l => l.buffers.map (fun b => (b.state, b.version))) =
    some [(.current, 1), (.pending, 2)] := by decide +kernel
theorem test_prepareReport : stepAfter (.prepareReport 0 (rec0 3 1 8 0)) (with0 (moduleCtx 2 0 learner0 newStep)) (fun x => (x.prep.mismatch, x.prep.ranks)) = some (true, 1) := by decide +kernel
theorem test_exchangeDeadline : stepAfter (.exchangeDeadlineExpiry 0) (at2s (moduleCtx 2 1 pending0 (prepared 0)) (2 * second)) StepRun.inDoubt = some true
    ∧ stepAfter (.exchangeDeadlineExpiry 0) (at2s (moduleCtx 2 1 pending0 (prepared 0)) (2 * second - 1)) StepRun.inDoubt = some false := by decide +kernel

/-! ## Commit and abort -/

def acked : StepRun := { prepared 0 with logAck := some 0 }
def decidedStep : StepRun := { prepared 0 with phase := .decided, commitTime := some 4096 }
theorem witness_CommitAndAbort :
    (let c := moduleCtx 1 0 pending0 acked
     StepTurn (with0 c) 0 c acked [] ∧ c.learn = some pending0 ∧ acked.logAck = some 0 ∧ acked.logged = false ∧ (with0 c).st.now.toNat + pending0.commitLead * microsecond + 4096 < 2 ^ 64)
    ∧ (let c := moduleCtx 2 1 pending0 (prepared 0)
       StepTurn (with0 c) 0 c (prepared 0) [] ∧ c.recordStep (rec0 4 0 1 0) = some (prepared 0) ∧ c.fromParent (rec0 4 0 1 0) = true ∧ (prepared 0).phase = .prepared
        ∧ c.recordStep (rec0 5 0 32 0) = some (prepared 0) ∧ recFlag (rec0 5 0 32 0) 5 = true ∧ recFlag (rec0 5 0 0 0) 5 = false ∧ (prepared 0).attempt < 2 ∧ (prepared 0).outcome = none
        ∧ (prepared 0).commitTime = none)
    ∧ (let c := moduleCtx 2 1 pending0 doubtStep
       StepTurn (with0 c) 0 c doubtStep [] ∧ c.recordStep (rec0 9 0 1 0) = some doubtStep ∧ doubtStep.inDoubt = true ∧ recFlag (rec0 9 0 1 0) 0 = true)
    ∧ (let c := moduleCtx 2 0 pending0 optimised
       StepTurn (with0 c) 0 c optimised [] ∧ c.recordStep (rec0 6 1 32 0) = some optimised ∧ optimised.open' = true ∧ recFlag (rec0 6 1 32 0) 5 = true)
    ∧ (let c := moduleCtx 1 0 pending0 decidedStep
       StepTurn (at2s c 4096) 0 c decidedStep [] ∧ c.learn = some pending0 ∧ decidedStep.outcome = none ∧ decidedStep.commitTime = some 4096 ∧ (4096 : W64).toNat ≤ (at2s c 4096).st.now.toNat
        ∧ (∃ b ∈ pending0.buffers, b.state = .pending) ∧ (∀ b ∈ pending0.buffers, b.state = .pending → b.version = decidedStep.pending))
    ∧ (let c := moduleCtx 2 0 pending0 decidedStep
       c.knows pending0 (rec0 8 1 0 0).stepCounter.toNat (rec0 8 1 0 0).attempt.toNat = .commit 4096 ∧ (rec0 8 1 0 0).kind = 8 ∧ (rec0 8 1 0 0).job = c.desc.job) := by
  refine ⟨⟨stepTurn_on _ _ _ _ rfl rfl (by decide), by decide +kernel⟩, ⟨stepTurn_on _ _ _ _ rfl rfl (by decide), by decide +kernel⟩,
    ⟨stepTurn_on _ _ _ _ rfl rfl (by decide), by decide +kernel⟩, ⟨stepTurn_on _ _ _ _ rfl rfl (by decide), by decide +kernel⟩,
    ⟨stepTurn_on _ _ _ _ rfl rfl (by decide), by decide +kernel⟩, by decide +kernel⟩

/-- 100 us are 1,600,000 units; the next multiple of 4,096 is 1,601,536. -/
theorem test_decisionLog : stepAfter (.decisionLog 0) (with0 (moduleCtx 1 0 pending0 acked)) (fun x => (x.phase, x.commitTime)) = some (.decided, some 1601536) := by decide +kernel
theorem test_commit : stepAfter (.commit 0 (rec0 4 0 1 8192)) (with0 (moduleCtx 2 1 pending0 (prepared 0))) (fun x => (x.phase, x.commitTime)) = some (.decided, some 8192) := by decide +kernel
theorem test_commitTimeReached : learnAfter (.commitTimeReached 0) (at2s (moduleCtx 1 0 pending0 decidedStep) 4096) (fun l => (l.buffers.map (fun b => (b.state, b.version)), l.stepCount)) =
      some ([(.free, 0), (.current, 2)], 5)
    ∧ learnAfter (.commitTimeReached 0) (at2s (moduleCtx 1 0 pending0 decidedStep) 4095) (fun l => l.stepCount) = some 4 := by decide +kernel
theorem test_abort : stepAfter (.abort 0 (rec0 5 0 32 0)) (with0 (moduleCtx 2 1 pending0 (prepared 0))) (fun x => (x.attempt, x.phase)) = some (newStep.attempt + 1, .learner)
    ∧ (ctxAfter (.abort 0 (rec0 5 0 0 0)) (with0 (moduleCtx 2 1 pending0 (prepared 0)))).map (fun c => c.steps.length) = some 0 := by decide +kernel
theorem test_failureReport : stepAfter (.failureReport 0 (rec0 6 1 32 0)) (with0 (moduleCtx 2 0 pending0 optimised)) StepRun.attempt = some (newStep.attempt + 1) := by decide +kernel
theorem test_decisionReply : stepAfter (.decisionReply 0 (rec0 9 0 1 8192)) (with0 (moduleCtx 2 1 pending0 doubtStep)) (fun x => (x.inDoubt, x.commitTime)) = some (false, some 8192) := by decide +kernel


/-! ## Versions, digests, rings, rollouts -/

/-- Version 1 is current, version 3 is held by the learner program of a step that is gone. -/
def heldLearner : Learner := { learner0 with buffers := [⟨0x1000000, .current, 1, [], [], none⟩, ⟨0x2000000, .held, 3, [.microBatch 9 0], [], none⟩] }
/-- A tensor in the selection, and one that is signed too. -/
def cairnTensors : List TensorEntry := [{ tensor7 with flags := 4 }, { tensor7 with id := 8, flags := 12 }]
def cairnProg : Program := { prog [] with tensors := cairnTensors }
def ring0 : DataRing := ⟨0x5000000, 128, 4, 0, 0, []⟩
/-- A plain context that writes cairns into a ring of four entries. -/
def cairnCtx : Ctx := { ctx0 [] core0 with
  slots := [(0, cairnProg)], desc := { CtxDesc.zero with cores := 1, audit := 1, sigAddr := 0x6000000, sigLen := 9728 }, rings := [(0, ring0)], drained := [(7, 64 * 64), (8, 64 * 64)] }
/-- Where the tensors lie, and one poisoned granule of the first. -/
def places0 : Places := [(7, 0x7000000), (8, 0x7004000)]
def poison7 : State := (with0 cairnCtx).storeGranules 0x7000000 (zeros 64) [true]
/-- A version whose digest is ready. -/
def hashed0 : Learner := { learner0 with hashing := [(1, zeros 32)] }
def plainCtx (l : Learner) : Ctx := { moduleCtx 1 0 l newStep with steps := [] }
def signState : State := { with0 cairnCtx with mesa := { State.reset.mesa with signQueue := [(0, zeros 128)] } }
theorem witness_VersionsDigestsAndRings :
    (let c : Ctx := { moduleCtx 1 0 heldLearner newStep with steps := [] }
     c.steps = [] ∧ heldLearner.bufferOf 3 = some ⟨0x2000000, .held, 3, [.microBatch 9 0], [], none⟩ ∧ [Holder.microBatch 9 0].find? (c.releasable 0 3) = some (.microBatch 9 0)
      ∧ hashed0.hashing = [(1, zeros 32)] ∧ learner0.hashing = [] ∧ learner0.buffers.find? (fun y => y.state == .current && y.digest.isNone) = some ⟨0x1000000, .current, 1, [], [], none⟩)
    ∧ (cairnCtx.program = some cairnProg ∧ (∀ t ∈ cairnTensors, cairnProg.tensors.find? (fun y => y.id == t.id) = some t) ∧ cairnCtx.consumedDigest = some (zeros 32)
        ∧ cairnCtx.desc.audit % 2 = 1 ∧ cairnTensors.map (fun t => (t.flags / 4 % 2, t.flags / 8 % 2)) = [(1, 0), (1, 1)] ∧ cairnCtx.stopping = false
        ∧ (∀ t ∈ cairnTensors, cairnCtx.cairnDue cairnProg t places0 = true ∧ (with0 cairnCtx).tensorPoison places0 (t :: cairnProg.stepInputs) = none)
        ∧ (poison7.tensorPoison places0 cairnTensors).isSome = true ∧ cairnCtx.desc.sigAddr ≠ 0 ∧ (with0 cairnCtx).mesa.signQueue.length < 1024)
    ∧ (signState.mesa.signQueue = [(0, zeros 128)] ∧ signState.mesa.failed = false)
    ∧ (nfind cairnCtx.rings 0 = some ring0 ∧ ring0.waiting = [] ∧ cairnCtx.steps = []) := by decide +kernel
/-- The other clauses: no signature space, with and without the warning, and a full queue at Mesa. -/
def unsignedCtx (warned : Bool) : Ctx := { cairnCtx with desc := { cairnCtx.desc with sigAddr := 0 }, unsignedWarned := warned }
theorem witness_VersionsDigestsAndRings_unsigned : (∀ w ∈ [true, false], ∀ t ∈ cairnTensors, (unsignedCtx w).cairnDue cairnProg t places0 = true ∧ (unsignedCtx w).desc.sigAddr = 0
      ∧ (unsignedCtx w).consumedDigest = some (zeros 32) ∧ (unsignedCtx w).unsignedWarned = w)
    ∧ (List.replicate 1024 ((0 : Nat), ([] : List Byte))).length = 1024 := by decide +kernel
theorem test_tensorDigest_unsigned : (ctxAfter (.tensorDigestComplete 0 8 places0) (with0 (unsignedCtx false))).map (fun c => (c.unsignedWarned, c.rings.map (fun r => r.2.producer))) =
    some (true, [1]) := by decide +kernel
theorem test_fenceRelease : learnAfter (.fenceRelease 0 3 0) (with0 { moduleCtx 1 0 heldLearner newStep with steps := [] }) (fun l => l.buffers.map (fun b => (b.state, b.holders))) =
    some [(.current, []), (.free, [])] := by decide +kernel
theorem test_weightDigest_committed : learnAfter (.weightDigestComplete 0) (with0 (plainCtx hashed0)) (fun l => (l.buffers.map (fun b => b.digest), l.hashing)) =
    some ([some (zeros 32), none], []) := by decide +kernel
theorem test_weightDigest : learnAfter (.weightDigestComplete 0) (with0 { moduleCtx 1 0 { learner0 with params := [] } newStep with steps := [] }) (fun l => l.buffers.map (fun b => b.digest.isSome)) =
    some [true, false] := by decide +kernel
def cairnRing (i : Instr) (s : State) : Option (List (W64 × W64)) := (ctxAfter i s).map (fun c => c.rings.map (fun r => (r.2.producer, r.2.consumer)))
def cairnCount (i : Instr) (s : State) : Option (List W64) := (ctxAfter i s).map (fun c => c.rings.map (fun r => r.2.producer))
theorem test_tensorDigest : cairnCount (.tensorDigestComplete 0 7 places0) (with0 cairnCtx) = some [1] ∧ cairnCount (.tensorDigestComplete 0 8 places0) (with0 cairnCtx) = some [0]
    ∧ after (.tensorDigestComplete 0 8 places0) (with0 cairnCtx) (fun t => t.mesa.signQueue.length) = some 1 := by decide +kernel
theorem test_tensorDigest_poison : (ctxAfter (.tensorDigestComplete 0 7 places0) poison7).map (fun c => (c.rings.map (fun r => r.2.producer), c.poison.isSome)) = some ([0], true) := by decide +kernel
theorem test_cairnSignature : cairnCount (.cairnSignatureComplete 0) signState = some [1] ∧ after (.cairnSignatureComplete 0) signState (fun t => (t.mesa.signQueue.length, t.mesa.signed)) = some (0, 1) := by
  decide +kernel
theorem test_ringSpaceFreed : cairnRing (.ringSpaceFreed 0 0 3) (with0 cairnCtx) = some [(0, 3)]
    ∧ after (.ringSpaceFreed 0 0 3) (with0 cairnCtx) (fun t => t.loadNat 0x5000010 8) = some 3 := by decide +kernel

def gen0 : GenTable := ⟨4, 0, 0, 0x3F800000, 2, 7, [2], 0, 2, 1, 0, 4, 3 * 8192⟩
def roll0 : RolloutRun := ⟨0, 0x5000000, 8193, 77, 1, 0, false, [], [], 0, 0, [], 0, false⟩
def rollOn : RolloutRun := { roll0 with admitted := true, slotsSpill := 2, kvSlots := [(true, 0), (true, 1)] }
def round0 (x : RolloutRun) (aborting : Bool) : RoundRun := ⟨0, 0, 1, 0, [x], aborting, true⟩
/-- A rollout context with one round, or none. -/
def genCtx (rs : List RoundRun) (returned : List PromptEntry) : Ctx := { ctx0 [] core0 with
  desc := { CtxDesc.zero with cores := 1, kind := 3, job := 5 }, learn := some learner0, gen := some gen0, rounds := rs, returned := returned, spillUsed := 2 }
def prompt0 : PromptEntry := ⟨0x5000000, 8193, 2, 77⟩
theorem witness_RolloutsRun_context (rs : List RoundRun) (ps : List PromptEntry) : (with0 (genCtx rs ps)).ctx? 0 = some (genCtx rs ps) ∧ (genCtx rs ps).gen = some gen0 := ⟨rfl, rfl⟩
def genAfter {α : Type} (i : Instr) (c : Ctx) (f : RolloutRun → α) : Option (List α) := (ctxAfter i (with0 c)).map (fun c => c.rounds.flatMap (fun r => r.rollouts.map f))
theorem witness_RolloutsRun :
    (let c := genCtx [] [prompt0]
     (c.returned ++ (with0 c).promptsIn c).take gen0.perRound = [prompt0] ∧ c.rounds.length < gen0.roundLimit ∧ (with0 c).doubtful = false
      ∧ c.run.isSome = true ∧ c.status ≠ .idle)
    ∧ (let c := genCtx [round0 roll0 false] []
       c.rounds.find? (fun y => y.number == 0) = some (round0 roll0 false) ∧ (round0 roll0 false).rollouts.find? (fun y => y.index == 0) = some roll0 ∧ roll0.admitted = false
        ∧ roll0.ended = 0 ∧ c.reserved gen0 + gen0.maxSlots roll0 ≤ gen0.spillSlots
        ∧ (let g := { gen0 with spill := 8192 }; g.spillSlots < c.reserved g + g.maxSlots roll0))
    ∧ (rollOn.admitted = true ∧ rollOn.ended = 0 ∧ (round0 rollOn true).aborting = true ∧ (([0, 0x7F800000, 0, 0] : List W32).any (fun y => finite32 y == false)) = true
        ∧ ([0, 0x3F800000, 0x3F800000, 0] : List W32).all finite32 = true ∧ ([0, 0x3F800000, 0x3F800000, 0] : List W32).length = gen0.vocab ∧ gen0.temperature = 0)
    ∧ (({ rollOn with ended := 1 } : RolloutRun).recorded = false ∧ ({ rollOn with ended := 1 } : RolloutRun).ended ≠ 0) := by decide +kernel
/-- A round that waits for the cores, and a module in doubt. -/
theorem witness_RolloutsRun_start : (let c := { genCtx [{ round0 roll0 false with started := false }] [] with run := none }
      (c.rounds.find? (fun y => !y.started)).isSome = true ∧ c.run = none)
    ∧ (with0 { genCtx [] [prompt0] with steps := [doubtStep] }).doubtful = true := by decide +kernel
/-- Two samples of one prompt. -/
theorem test_roundStart : genAfter (.roundStart 0) (genCtx [] [prompt0]) (fun x => (x.index, x.sample, x.promptId)) = some [(0, 0, 77), (1, 1, 77)] := by decide +kernel
/-- 8,193 tokens may need two stretches: a spill area of one slot turns the rollout away. -/
theorem test_rolloutAdmission_full : genAfter (.rolloutAdmission 0 0 0) { genCtx [round0 roll0 false] [] with gen := some { gen0 with spill := 8192 } }
    (fun x => (x.admitted, x.slotsNear, x.slotsSpill)) = some [(false, 0, 0)] := by decide +kernel
/-- The lowest index of the largest logit; index 2 is a stop token, two tokens are the limit. -/
theorem test_tokenChoice : genAfter (.tokenChoice 0 0 0 [0, 0x3F800000, 0x3F800000, 0xBF800000]) (genCtx [round0 rollOn false] []) (fun x => (x.tokens, x.ended)) = some [([1], 0)]
    ∧ genAfter (.tokenChoice 0 0 0 [0, 0, 0x3F800000, 0]) (genCtx [round0 rollOn false] []) (fun x => (x.tokens, x.ended)) = some [([2], 1)] := by decide +kernel
theorem test_tokenChoice_ends : genAfter (.tokenChoice 0 0 0 [0, 0x7F800000, 0, 0]) (genCtx [round0 rollOn false] []) (fun x => x.ended) = some [3]
    ∧ genAfter (.tokenChoice 0 0 0 [0, 0, 0, 0]) (genCtx [round0 rollOn true] []) (fun x => (x.tokens, x.ended)) = some [([], 4)] := by decide +kernel
/-- The one rollout of the round is recorded: the round is over and its slots are free. -/
theorem test_rolloutEnd : (ctxAfter (.rolloutEnd 0 0 0) (with0 (genCtx [round0 { rollOn with promptLen := 0, promptAddr := viewBase, ended := 1 } false] []))).map (fun c => (c.rounds.length, c.spillUsed)) = some (0, 0) := by
  decide +kernel


/-! ## Publication and checkpoints -/

/-- The digest of a version of no tensor. -/
def digest0 : List Byte := setDigest []
/-- Version 1 is current, with its digest and one publication of entry 0 waiting for it. -/
def pubLearner : Learner := { learner0 with buffers := [⟨0x1000000, .current, 1, [.publication], [], some digest0⟩, ⟨0x2000000, .free, 0, [], [], none⟩], params := [], lastStep := some 5 }
/-- The same with another digest. -/
def badLearner : Learner := { pubLearner with buffers := pubLearner.buffers.map (fun b => { b with digest := b.digest.map (fun _ => zeros 32) }) }
def pubCtx (flight waiting : Nat) (l : Learner) : Ctx := { moduleCtx 1 0 l newStep with steps := [], pubs := [⟨0, flight, 1, waiting, [], []⟩] }
/-- A rollout context of job 0 with two buffers. -/
def target (l : Learner) : Ctx := { ctx0 [] core0 with desc := { CtxDesc.zero with cores := 1, kind := 3 }, learn := some l }
def twoCtx (c : Ctx) (t : Option Ctx) : State := { State.reset with ctxs := [(0, c)] ++ (t.map (fun y => (1, y))).toList }
def emptyLearner : Learner := { learner0 with buffers := [⟨0x8000000, .free, 0, [], [], none⟩] }
def ckpt0 : Checkpoint := ⟨5, 1, true, 0, 0, 0, none, false, [], [], [], [], 4, 0, none, 0⟩
def ckptCtx (ck : Option Checkpoint) : Ctx := { pubCtx 0 0 { pubLearner with buffers := [⟨0x1000000, .current, 1, [.checkpoint], [], some digest0⟩] } with
  ckptNow := ck, ckptDue := true, ckpts := [ckpt0], desc := { CtxDesc.zero with cores := 1, kind := 2, ckptAddr := 64, ckptLen := 4096 } }
theorem witness_PublicationAndCheckpoints_contexts (c t : Ctx) : (twoCtx c (some t)).ctx? 0 = some c ∧ (twoCtx c (some t)).ctx? 1 = some t ∧ (twoCtx c none).ctx? 0 = some c := ⟨rfl, rfl, rfl⟩
theorem witness_PublicationAndCheckpoints :
    ((pubCtx 0 1 pubLearner).pubs.find? (fun y => y.waiting != 0 && y.flight == 0) = some ⟨0, 0, 1, 1, [], []⟩ ∧ (pubLearner.bufferOf 1).map (fun b => b.digest.isSome) = some true
      ∧ ((twoCtx (pubCtx 0 1 pubLearner) none).pubTarget (pubCtx 0 1 pubLearner) 0).isNone = true
      ∧ ((twoCtx (pubCtx 0 1 pubLearner) (some (target emptyLearner))).pubTarget (pubCtx 0 1 pubLearner) 0).map (fun y => y.1) = some 1
      ∧ (emptyLearner.buffers.find? (fun y => y.state == .free)).isSome = true)
    ∧ ((pubCtx 1 0 pubLearner).desc.kind ≠ 3 ∧ (pubCtx 1 0 pubLearner).pubs.find? (fun y => y.entry == 0 && y.flight != 0) = some ⟨0, 1, 1, 0, [], []⟩
      ∧ (pubLearner.bufferOf 1).bind (fun b => b.digest) = some digest0 ∧ (pubCtx 1 0 pubLearner).steps = []
      ∧ (emptyLearner.pend 1).buffers.all (fun y => y.state == .pending && y.version == 1) = true
      ∧ State.reset.arrived (emptyLearner.pend 1).pendingBuf ((pubCtx 1 0 pubLearner).weightTensors pubLearner) digest0 = .same
      ∧ State.reset.arrived (emptyLearner.pend 1).pendingBuf ((pubCtx 1 0 badLearner).weightTensors badLearner) (zeros 32) = .differs)
    ∧ ((target emptyLearner).desc.kind = 3 ∧ emptyLearner.buffers.all (fun y => y.state != .pending) = true ∧ State.reset.arrived 0x8000000 [] (State.reset.load 64 32) = .differs
      ∧ (State.reset.store 96 digest0).arrived 0x8000000 [] ((State.reset.store 96 digest0).load (64 + 32) 32) = .same)
    ∧ ((ckptCtx none).ckptDue = true ∧ (ckptCtx none).ckptNow = none ∧ ((ckptCtx none).learn.bind (fun l => l.buffers.find? (fun y => y.state == .current))).isSome = true)
    ∧ ((ckptCtx (some ckpt0)).ckptNow = some ckpt0 ∧ (ckptCtx (some ckpt0)).steps = [] ∧ ckpt0.cmd = none
      ∧ ckpt0.started + 60 * second ≤ (at2s (ckptCtx (some ckpt0)) (60 * second)).st.now.toNat) := by decide +kernel
def buffersAt (k : Nat) (i : Instr) (s : State) : Option (List (BufState × Nat)) := (after i s (fun t => (t.ctx? k).bind (fun c => c.learn.map (fun l => l.buffers.map (fun b => (b.state, b.version)))))).bind id
theorem test_weightPublication : buffersAt 1 (.weightPublication 0) (twoCtx (pubCtx 0 1 pubLearner) (some (target emptyLearner))) = some [(.pending, 1)]
    ∧ (ctxAfter (.weightPublication 0) (twoCtx (pubCtx 0 1 pubLearner) none)).map (fun c => c.pubs.map (fun p => (p.flight, p.waiting))) = some [(1, 0)] := by decide +kernel
theorem test_publicationDigest : buffersAt 1 (.publicationDigestCheck 0 0 true) (twoCtx (pubCtx 1 0 pubLearner) (some (target (emptyLearner.pend 1)))) = some [(.current, 1)] := by decide +kernel
/-- A second digest that differs ends the publication; the target keeps its old version. -/
theorem test_publicationDigest_fails : buffersAt 1 (.publicationDigestCheck 0 0 false) (twoCtx { pubCtx 1 0 badLearner with pubs := [⟨0, 1, 2, 0, [], []⟩] } (some (target (emptyLearner.pend 1)))) = some [(.free, 0)] := by
  decide +kernel
theorem test_checkpointComplete : (ctxAfter (.checkpointComplete 0) (with0 (ckptCtx (some { ckpt0 with id := 6 })))).map (fun c => (c.ckptNow.isNone, c.ckpts.map Checkpoint.id)) = some (true, [6])
    ∧ (ctxAfter (.checkpointComplete 0) (with0 (ckptCtx (some { ckpt0 with id := 6, full := false })))).map (fun c => c.ckpts.map Checkpoint.id) = some [5, 6] := by decide +kernel
theorem test_checkpointDeadline : (ctxAfter (.checkpointDeadlineExpiry 0) (at2s (ckptCtx (some ckpt0)) (60 * second))).map (fun c => c.ckptNow.isNone) = some true
    ∧ (ctxAfter (.checkpointDeadlineExpiry 0) (at2s (ckptCtx (some ckpt0)) (60 * second - 1))).map (fun c => c.ckptNow.isNone) = some false := by decide +kernel

/-! ## Faults -/

/-- One product 1 × 1, which the core gave as 1. -/
def elem1 : MirageElem := ⟨0, 0, [(.fin false 1 0, .fin false 1 0)], [], false, 1, 0x3F800000, true⟩
def sample1 (state : Nat) (el : MirageElem) : Sample :=
  { die := 1, phys := 5, ctx := 0, core := 0, tile := (0, 0, 0), tensor := 7, step := 0, rowOrigin := 0, colOrigin := 0, depth := 1, acc := 0, mode := 0, floatPair := false, rows := 1
    cols := 1, slices := 1, slice := 0, blocks := [0], elements := [el], bytes := 0, state := state, attempts := 0, other := some (1, 6), freed := true, alive := false }
def sampled (x : Sample) : State := { State.reset with faults := { State.reset.faults with samples := [x] } }
def testing1 : State := State.reset.setMirage 1 { State.reset.mirageUnit 1 with testing := true }
def twinCtx : Ctx := { ctx0 [word 8 0 0 0 0 0 0] core0 with desc := { CtxDesc.zero with cores := 1, twin := true } }
def timed (s : State) (n : Nat) : State := { s with st := { s.st with now := BitVec.ofNat 64 n } }
def suspect1 : Suspect := ⟨coreKey 1 5, 2, 1, 1, 0, 0, 0, [], 1, 0, 0, 0, 0, 0⟩
def sieved : State := State.reset.setPhys 1 5 { Phys.fresh with state := .sieve }
def retired15 : State := { sieved with health := { State.reset.health with retiredCores := [(1, 5)] } }
theorem witness_FaultChecks :
    ((sampled (sample1 1 elem1)).closedSample 1 0 = some 0 ∧ (sampled (sample1 1 elem1)).faults.samples[0]? = some (sample1 1 elem1) ∧ ((sampled (sample1 1 elem1)).mirageUnit 1).inService = true
      ∧ ((sampled (sample1 1 elem1)).mirageUnit 1).testing = false ∧ (sample1 1 elem1).elements.all (fun el => (sample1 1 elem1).disagrees el == false) = true ∧ (sample1 1 elem1).alive = false)
    ∧ ((sampled (sample1 2 elem1)).pendingRecheck 0 = some 0 ∧ (sample1 2 elem1).other.isSome = true ∧ (sample1 2 elem1).verdict [0x3F800001] [0x3F800000] = .permanent
      ∧ ∀ x ∈ [sample1 2 elem1, { sample1 2 elem1 with other := none }, { sample1 2 elem1 with freed := false }],
          (sampled x).hostsRun x.die x.phys = false ∧ (sampled x).hostsRun 1 6 = false ∧ ((sampled x).freeIdle 0 x).faults.samples.length = 1)
    ∧ (testing1.mirageUnit 1).testing = true ∧ 1 < testing1.faults.mirage.length
    ∧ (twinCtx.desc.twin = true ∧ ((with0 twinCtx).coreAt twinCtx 0).isSome = true ∧ ((with0 twinCtx).twinOutput twinCtx 0 core0 0).isSome = true)
    ∧ (let s := timed State.reset (24 * hourUnits)
       s.dueAt 1 135 ≤ s.st.now.toNat ∧ s.idleForSieve 1 0 = true ∧ s.sieving 1 = false ∧ s.firstDue 1 0 = true)
    ∧ (let s := timed (({ with0 (ctx0 [] core0) with mesa := State.reset.mesa } : State).setPhys 0 0 { Phys.fresh with state := .assigned, due := some 0 }) (72 * hourUnits)
       (s.rawPhys 0 0).due = some 0 ∧ s.inUse 0 0 = true ∧ 0 + 72 * hourUnits ≤ s.st.now.toNat)
    ∧ ((retired15.rawPhys 1 5).state = .sieve ∧ (1, 5) ∈ retired15.health.retiredCores ∧ (sieved.rawPhys 1 5).state = .sieve ∧ (1, 5) ∉ sieved.health.retiredCores)
    ∧ (let s := timed (State.reset.setSuspect 1023 suspect1) dayUnits
       nfind s.faults.suspects 1023 = some suspect1 ∧ (suspect1.state = 1 ∨ suspect1.state = 2) ∧ suspect1.lastTime.toNat + dayUnits ≤ s.st.now.toNat) := by decide +kernel
theorem witness_FaultChecks_twin : CoreTurn (with0 twinCtx) 0 0 twinCtx core0 := ⟨by decide, by decide, rfl, rfl, rfl, rfl, rfl, rfl⟩
theorem test_mirageCheck : after (.mirageCheck 1 0) (sampled (sample1 1 elem1)) (fun t => (t.faults.samples.length, (t.mirageUnit 1).checked, (t.mirageUnit 1).disagree)) = some (0, 1, 0) := by decide +kernel
/-- A value two units in the last place away is outside the bound of one rounding; the core becomes a suspect. -/
theorem test_mirageCheck_disagrees : after (.mirageCheck 1 0) (sampled (sample1 1 { elem1 with core := 0x3F800002 })) (fun t => ((t.mirageUnit 1).disagree, t.faults.suspects.map (fun x => x.2.key))) =
    some (1, [coreKey 1 5]) := by decide +kernel
theorem test_recheckVerdict : after (.recheckVerdict 0 [0x3F800001] [0x3F800000]) (sampled (sample1 2 elem1)) (fun t => t.health.retiredCores) = some [(1, 5)] := by decide +kernel
theorem test_mirageSelfTest : after (.mirageSelfTest 1 false) testing1 (fun t => ((t.mirageUnit 1).inService, t.rst.degraded)) = some (false, [501]) := by decide +kernel
/-- A digest that is not the primary's, and the one that is. -/
def shadow0 : W64 := voteDigest (core0.vote (word 8 0 0 0 0 0 0)) + 1
theorem test_twinMismatch_same : (ctxAfter (.twinMismatch 0 0 0 0 (shadow0 - 1)) (with0 twinCtx)).map Ctx.status = some .running := by decide +kernel
theorem test_twinMismatch : (ctxAfter (.twinMismatch 0 0 0 0 shadow0) (with0 twinCtx)).map Ctx.status = some .closing := by decide +kernel
theorem test_sieveDue : after (.sieveDue 1 0) (timed State.reset (24 * hourUnits)) (fun t => (t.rawPhys 1 0).state) = some .sieve
    ∧ after (.sieveDue 1 0) (timed State.reset (24 * hourUnits - 1)) (fun t => (t.rawPhys 1 0).state) = some .spare := by decide +kernel
theorem test_sieveComplete : after (.sieveComplete 1 5 false) sieved (fun t => t.health.retiredCores) = some [(1, 5)]
    ∧ after (.sieveComplete 1 5 true) sieved (fun t => ((t.rawPhys 1 5).state, t.health.retiredCores)) = some (.spare, []) := by decide +kernel
theorem test_suspectClear : after (.suspectClearTimeout 1023) (timed (State.reset.setSuspect 1023 suspect1) dayUnits) (fun t => t.faults.suspects.map (fun x => x.2.state)) = some [5]
    ∧ after (.suspectClearTimeout 1023) (timed (State.reset.setSuspect 1023 suspect1) (dayUnits - 1)) (fun t => t.faults.suspects.map (fun x => x.2.state)) = some [2] := by decide +kernel


/-! ## Resets and services -/

def reset8 : ResetRec := ⟨8, 0, 0, 6, true, [], none, 0, 1⟩
def resetIn (r : ResetRec) (stage : Nat) : State := { State.reset with
  rst := { State.reset.rst with inProgress := [r], state := 2 }, mesa := { State.reset.mesa with stage := stage } }
def lostPhases (n : Nat) : State := { State.reset with power := { State.reset.power with lost := [n, 0, 0, 0, 0, 0, 0, 0] } }
theorem witness_ResetsAndServices :
    ((resetIn reset8 0xF).findReset 8 0 0 = some reset8 ∧ reset8.counted = true)
    ∧ (let r : ResetRec := ⟨4, 0, 17, 6, false, [], none, 0, 1⟩
       let s : State := { resetIn r 0xF with seif := { State.reset.seif with ports := [(17, upPort)] } }
       s.findReset 4 0 17 = some r ∧ 2 ≤ (portGet s.seif 17).state)
    ∧ (let r : ResetRec := ⟨5, 0, 3, 1, false, [], none, 0, 2⟩
       (timed (resetIn r 0xF) (500 * millisecond)).findReset 5 0 3 = some r ∧ r.tries < 3 ∧ r.started + resetTime 5 ≤ (timed (resetIn r 0xF) (500 * millisecond)).st.now.toNat)
    ∧ (let r : ResetRec := ⟨3, 2, 0, 1, true, [], none, 0, 1⟩
       (timed (resetIn r 0xF) (3 * second)).findReset 3 2 0 = some r ∧ r.started + resetTime 3 ≤ (timed (resetIn r 0xF) (3 * second)).st.now.toNat)
    ∧ (∀ kn ∈ [(1, 0), (2, 0), (4, 17), (5, 3), (6, 0), (7, 0), (8, 0)], ∀ tries ∈ [2, 3],
        let r : ResetRec := ⟨kn.1, 0, kn.2, 1, false, [], none, 0, tries⟩
        let s := timed { resetIn r 0xF with ctxs := [(0, ctx0 [] core0)] } (8 * second)
        s.findReset kn.1 0 kn.2 = some r ∧ r.started + resetTime kn.1 ≤ s.st.now.toNat ∧ (s.ctx? 0).map Ctx.dies = some [0])
    ∧ (∀ n ∈ [0, 1, 2, 3], (lostPhases n).power.lost.getD 0 0 = n ∧ (lostPhases n).power.lost.getD 0 0 < (lostPhases n).power.fitted.getD 0 0)
    ∧ (State.reset.svc.length = 4 ∧ (State.reset.svc.getD 3 ⟨0, 3⟩).state ≠ 1 ∧ (State.reset.svc.getD 0 ⟨0, 0⟩).state = 0)
    ∧ (let s : State := { State.reset with svc := [⟨0, 0⟩, ⟨0, 1⟩, ⟨0, 2⟩, ⟨2, 0⟩] }
       s.svc.length = 4 ∧ (s.svc.getD 3 ⟨0, 3⟩).state = 2)
    ∧ State.reset.rst.outOfService = false := by decide +kernel
/-- The reset is counted and leaves the history; before stage 0xF it is not complete. -/
theorem test_resetCompletion : after (.resetCompletion 8 0 0 []) (resetIn reset8 0xF) (fun t => (t.rst.inProgress.length, t.rst.state, t.rst.lastKind, t.rst.lastCause, t.rst.hour, t.rst.total)) =
      some (0, 0, 8, 6, 1, 1)
    ∧ after (.resetCompletion 8 0 0 []) (resetIn reset8 0xE) (fun t => t.rst.inProgress.length) = some 1 := by decide +kernel
/-- The third counted reset within the hour takes the module out of service. -/
theorem test_resetCompletion_third : after (.resetCompletion 8 0 0 []) ({ resetIn reset8 0xF with rst := { (resetIn reset8 0xF).rst with hour := 2 } }) (fun t => (t.rst.outOfService, t.health.outOfService)) =
    some (true, true) := by decide +kernel
/-- A channel's fourth try takes it out. -/
theorem test_resetTimeout_channel : after (.resetCompletionTimeout 5 0 3) (timed (resetIn ⟨5, 0, 3, 1, false, [], none, 0, 3⟩ 0xF) second) (fun t => (t.mem.farIn.toNat, t.rst.inProgress.length)) =
    some (0xFFF7, 0) := by decide +kernel
/-- A die whose reset fails takes the module with it. -/
theorem test_resetTimeout : after (.resetCompletionTimeout 3 2 0) (timed (resetIn ⟨3, 2, 0, 1, true, [], none, 0, 1⟩ 0xF) (3 * second)) (fun t => t.rst.inProgress.map (fun r => (r.kind, r.cause))) = some [(7, 4)]
    ∧ after (.resetCompletionTimeout 3 2 0) (timed (resetIn ⟨3, 2, 0, 1, true, [], none, 0, 1⟩ 0xF) (3 * second - 1)) (fun t => t.rst.inProgress.map ResetRec.kind) = some [3] := by decide +kernel
theorem test_resetCountWindow : after (.resetCountWindowExpiry false) { State.reset with rst := { State.reset.rst with hour := 2, day := 3 } } (fun t => (t.rst.hour, t.rst.day)) = some (1, 3)
    ∧ after (.resetCountWindowExpiry true) { State.reset with rst := { State.reset.rst with hour := 2, day := 3 } } (fun t => (t.rst.hour, t.rst.day)) = some (2, 2) := by decide +kernel
theorem test_phaseLoss : after (.regulatorPhaseLoss 0) (lostPhases 0) (fun t => t.attn.log.map AttnEntry.level) = some [2] ∧ after (.regulatorPhaseLoss 0) (lostPhases 1) (fun t => t.rst.degraded) = some [400]
    ∧ after (.regulatorPhaseLoss 0) (lostPhases 2) (fun t => t.rst.outOfService) = some true := by decide +kernel
/-- The services of pair 3 move to pair 0. -/
theorem test_pairFailure : after (.oasisPairFailure 3) State.reset (fun t => t.svc.map (fun x => (x.state, x.host))) = some [(0, 0), (0, 1), (0, 2), (1, 0)]
    ∧ after (.serviceRestartComplete 3) { State.reset with svc := [⟨0, 0⟩, ⟨0, 1⟩, ⟨0, 2⟩, ⟨2, 0⟩] } (fun t => t.svc.map (fun x => (x.state, x.host))) = some [(0, 0), (0, 1), (0, 2), (0, 0)] := by decide +kernel
theorem test_mesaFailure : after .mesaFailure (with0 (ctx0 [] core0)) (fun t => (t.mesa.failed, t.rst.outOfService, t.ctxs.length)) = some (true, true, 0) := by decide +kernel

/-! ## Power -/

def ready : State := { State.reset with mesa := { State.reset.mesa with stage := 0xF } }
def withPower (p : Power) : State := { ready with power := p }
theorem witness_PowerControl :
    State.reset.pins.pwrGood = true ∧ hottest [100, 1700] = some (1700, 1)
    ∧ (let s := withPower { ready.power with disagreeRun := 51 }; 51 ≤ s.power.disagreeRun ∧ s.power.sensorFault = false ∧ s.pins.pwrGood = true)
    ∧ (let s := withPower { ready.power with atMaxRun := 100 }; 100 ≤ s.power.atMaxRun ∧ s.power.unreachable = false)
    ∧ (let s := withPower { ready.power with loopCount := 1, loopSum := 5 }; 4 * s.power.loopCount < s.power.loopSum)
    ∧ (let s := withPower { ready.power with loopCount := 1, loopSum := 4 }; s.power.loopSum ≤ 4 * s.power.loopCount ∧ s.power.loopZero = true ∧ s.power.loopBelow = true)
    ∧ (let s := withPower { ready.power with loopCount := 1, loopSum := 4, loopZero := false }; s.power.loopSum ≤ 4 * s.power.loopCount ∧ (s.power.loopZero && s.power.loopBelow) = false)
    ∧ (let s := timed (withPower { ready.power with fastAt := some 0 }) (100 * microsecond); s.power.fastAt = some 0 ∧ 0 + 100 * microsecond ≤ s.st.now.toNat)
    ∧ ready.pins.pwrbrakeN = true ∧ ready.mesa.stage = 0xF ∧ State.reset.mesa.stage ≠ 0xF := by decide +kernel
/-- 4,100 W against a limit of 4,000 W: 256 × 100 / 4,000 rounded up is 7; 106.25 °C is one sixteenth's worth of 50 above 100 °C. -/
theorem test_powerEvaluation : after (.powerEvaluation 4100 [100, 1700]) ready (fun t => (t.power.kPower, t.power.kThermal, t.power.applied, t.power.site, t.power.thermWarning)) = some (7, 50, 50, 1, true) := by
  decide +kernel
theorem test_powerEvaluation_max : after (.powerEvaluation 8000 []) ready (fun t => (t.power.kPower, t.power.applied)) = some (56, 56) := by decide +kernel
/-- 4,200 W measured over a limit of 4,000 W trims 100 W. -/
theorem test_powerInterval : after (.powerInterval 4200) (withPower { ready.power with lastE := 4150 }) (fun t => (t.power.control, t.power.trim, t.power.disagreeRun)) = some (4200, 100, 0)
    ∧ after (.powerInterval 4000) (withPower { ready.power with lastE := 3519 }) (fun t => t.power.disagreeRun) = some 1 := by decide +kernel
/-- Sums of 110 measured over 100 estimated: a gain of 4,505.6 is 4,506. -/
theorem test_powerDisagreement : after .powerDisagreement (withPower { ready.power with disagreeRun := 51, sumM := 110, sumE := 100 }) (fun t => (t.power.gain, t.power.sensorFault)) = some (4506, false)
    ∧ after .powerDisagreement (withPower { ready.power with disagreeRun := 51, sumM := 200, sumE := 100 }) (fun t => (t.power.gain, t.power.sensorFault)) = some (4096, true) := by decide +kernel
theorem test_limitUnreachable : after .limitUnreachable (withPower { ready.power with atMaxRun := 100 }) (fun t => t.attn.log.map AttnEntry.level) = some [4]
    ∧ after .limitUnreachable (withPower { ready.power with atMaxRun := 99 }) (fun t => t.attn.log.length) = some 0 := by decide +kernel
theorem test_voltageLoop : after .voltageLoopStep (withPower { ready.power with loopCount := 1, loopSum := 5 }) (fun t => t.power.rails) = some [790, 790, 790, 790, 800, 800, 800, 800]
    ∧ after .voltageLoopStep (withPower { ready.power with loopCount := 1, loopSum := 4 }) (fun t => t.power.rails.take 4) = some [810, 810, 810, 810] := by decide +kernel
theorem test_fastLimit : after .fastLimitTrip ready (fun t => (t.power.applied, t.power.fastAt)) = some (56, some 0)
    ∧ after .fastLimitEnd (timed (withPower { ready.power with kFast := 56, applied := 56, fastAt := some 0 }) (100 * microsecond)) (fun t => (t.power.applied, t.power.fastAt)) = some (0, none) := by decide +kernel
theorem test_pwrbrake : after .pwrbrakeAssert ready (fun t => (t.power.applied, t.pins.pwrbrakeN)) = some (48, false) ∧ after .pwrbrakeAssert State.reset (fun t => t.power.applied) = some 0
    ∧ after .pwrbrakeRelease ready (fun t => t.pins.pwrbrakeN) = some true := by decide +kernel
theorem test_railExcursion : after (.railMonitorExcursion 3) ready (fun t => t.rst.inProgress.map (fun r => (r.kind, r.die))) = some [(3, 3)] := by decide +kernel

/-! ## Supply, reset pins, boot, board buses -/

def dark (lockout : Bool) : State := { State.reset with pins := { State.reset.pins with pwrEn := false, pwrGood := false, railsOn := false, lockout := lockout, straps := 5 } }
def linked : State := { ready with host := { ready.host with linkUp := true, linkSpeed := 128, linkWidth := 16 } }
theorem witness_SupplyAndResetPins :
    ((dark false).pins.pwrEn = false ∧ (dark false).pins.input48 = true ∧ (dark false).pins.lockout = false ∧ (dark true).pins.lockout = true)
    ∧ (State.reset.pins.pwrEn = true ∧ State.reset.pins.railsOn = true ∧ State.reset.pins.modResetN = true ∧ State.reset.pins.pwrGood = true ∧ State.reset.pins.perstN = true)
    ∧ (linked.pins.pwrGood = true ∧ linked.reachable = true ∧ linked.host.linkUp = true) ∧ ready.canTrain = true := by decide +kernel
/-- Straps of 5 give address 0x5D. -/
theorem test_pwrEnRise : after .pwrEnRise (dark false) (fun t => (t.pins.railsOn, t.pins.pwrGood, t.pins.smbAddr)) = some (true, true, 0x5D) ∧ after .pwrEnRise (dark true) (fun t => t.pins.railsOn) = some false := by decide +kernel
theorem test_pwrEnFall : after .pwrEnFall (with0 (ctx0 [] core0)) (fun t => (t.pins.railsOn, t.ctxs.length)) = some (false, 0) ∧ after .inputPowerApplied State.reset (fun t => t.pins.input48) = some true := by decide +kernel
theorem test_inputVoltageFault : after .inputVoltageFault ready (fun t => (t.pins.railsOn, t.pins.lockout)) = some (false, true) ∧ after .thermalTrip ready (fun t => (t.pins.railsOn, t.pins.thermtripN)) = some (false, false) := by
  decide +kernel
theorem test_resetPins : after .modResetNAssert ready (fun t => (t.mesa.stage, t.rst.inProgress.map (fun r => (r.kind, r.cause)))) = some (0, [(8, 6)])
    ∧ after .perstNAssert ready (fun t => t.rst.inProgress.map ResetRec.kind) = some [8] ∧ after .functionLevelReset linked (fun t => t.rst.inProgress.map ResetRec.kind) = some [7] := by decide +kernel
theorem test_resetPins_release : after .modResetNRelease { ready with pins := { ready.pins with modResetN := false } } (fun t => t.pins.modResetN) = some true
    ∧ after .perstNRelease { ready with pins := { ready.pins with perstN := false } } (fun t => t.pins.perstN) = some true := by decide +kernel
theorem test_hotReset : after .hotReset linked (fun t => (t.host.linkUp, t.mesa.stage)) = some (false, 0xF) ∧ after .refclkLoss linked (fun t => t.host.linkUp) = some false
    ∧ after .refclkReturn { linked with pins := { linked.pins with refclk := false } } (fun t => t.pins.refclk) = some true := by decide +kernel
/-- A link of x8 trains with a warning. -/
theorem test_linkTrained : after (.linkTrained 128 16) ready (fun t => (t.host.linkUp, t.attn.log.length)) = some (true, 0) ∧ after (.linkTrained 128 8) ready (fun t => t.attn.log.map AttnEntry.level) = some [2] := by decide +kernel

def stageAt (n : Nat) : State := { State.reset with mesa := { State.reset.mesa with stage := n } }
theorem witness_BootAndBoardBuses :
    (State.reset.boots = true ∧ State.reset.mesa.stage = 0)
    ∧ (let s : State := { stageAt 1 with flash := { State.reset.flash with rootOk := false } }; s.boots = true ∧ s.mesa.stage = 1 ∧ s.flash.readable = true ∧ s.flash.rootOk = false)
    ∧ (let s : State := { stageAt 3 with health := { State.reset.health with counter := 5, copies := [4, 4] } }
       s.boots = true ∧ s.mesa.stage = 3 ∧ s.health.copies.contains s.health.counter = false ∧ s.health.copies.contains (s.health.counter + 1) = false)
    ∧ ((stageAt 1).boots = true ∧ (stageAt 1).mesa.stage ≠ 0 ∧ (stageAt 1).flash.retries < 3 ∧ 3 ≤ ({ State.reset.flash with retries := 3 } : Flash).retries)
    ∧ (State.reset.mesa.failed = false ∧ State.reset.imageFault 4 ⟨0, true, true, 0⟩ = 0 ∧ State.reset.imageFault 4 ⟨0, true, true, 9⟩ ≠ 0 ∧ 4 - 1 < State.reset.health.bankB.length)
    ∧ (State.reset.pins.smbAddr = 0x5F ∧ ({ State.reset.pins with smbBusy := some 0 } : Pins).smbBusy.isSome = true ∧ State.reset.pins.railsOn = true) := by decide +kernel
/-- Nine stages lead to readiness. -/
theorem test_boot : after .boot State.reset (fun t => t.mesa.stage) = some 1 ∧ after .boot (stageAt 3) (fun t => t.mesa.stage) = some 4 ∧ after .boot (stageAt 7) (fun t => t.mesa.stage) = some 0xF := by decide +kernel
theorem test_boot_fails : after .boot { stageAt 1 with flash := { State.reset.flash with rootOk := false } } (fun t => (t.mesa.stage, t.mesa.failure)) = some (0xE, 1)
    ∧ after .boot { stageAt 5 with flash := { State.reset.flash with identityOk := false } } (fun t => (t.mesa.stage, t.mesa.failure)) = some (0xE, 6) := by decide +kernel
theorem test_flashTimeout : after .flashTransactionTimeout (stageAt 1) (fun t => (t.flash.retries, t.mesa.stage)) = some (1, 1)
    ∧ after .flashTransactionTimeout { stageAt 1 with flash := { State.reset.flash with retries := 3 } } (fun t => (t.mesa.stage, t.mesa.failure)) = some (0xE, 8) := by decide +kernel
theorem test_firmwareUpdate : after (.firmwareUpdate 4 0 true true 0) State.reset (fun t => t.health.bankB) = some [false, false, false, true, false, false, false, false]
    ∧ after (.firmwareUpdate 4 0 true true 9) State.reset (fun t => t.health.bankB.getD 3 false) = some false := by decide +kernel
theorem test_smbus : after (.smbusTransaction 0x5F) State.reset (fun t => (t.pins.smbBusy, t.pins.smbTaken)) = some (some 0, [0x5F]) ∧ after (.smbusTransaction 0x58) State.reset (fun t => t.pins.smbTaken) = some []
    ∧ after .smbusClockTimeout { State.reset with pins := { State.reset.pins with smbBusy := some 0, smbTaken := [0x5F] } } (fun t => (t.pins.smbBusy, t.pins.smbTaken)) = some (none, []) := by decide +kernel
theorem test_tap : after (.tapInstruction 1) State.reset (fun t => (t.pins.tapOut, t.mesa.lifecycle)) = some (some 0x00045659, true) ∧ after (.tapInstruction 3) ready (fun t => (t.pins.tap, t.pins.tapOut)) = some (0, none) := by
  decide +kernel


/-! ## The host interface -/

def ringOff : Ring := { Ring.reset with sqBase := 0x10000, rqBase := 0x20000, rqShadow := 0x30000 }
/-- A ring of 64 entries with ten of them written, the last at count 2^32 − 6. -/
def ringOn : Ring := { ringOff with sqEnable := true, sqExp := 6, sqHead := 0xFFFFFFF0, sqDoor := 0xFFFFFFFA, sqReply := 63, rqEnable := true, rqExp := 6 }
def hostWith (r : Ring) : State := { linked with host := { linked.host with rings := [(63, r)], session := 3 } }
theorem witness_RingsAndDoorbells :
    (let s := hostWith ringOn; let r := ringGet s.host 63
     s.reachable = true ∧ s.writable = true ∧ s.host.held = none ∧ s.resetting 6 = false ∧ r.sqEnable = true
      ∧ (let v : W32 := 0x30; 2 ^ 31 < (r.sqDoor - v).toNat ∧ (v - r.sqHead).toNat = 64 ∧ s.ringTooNew 63 r.sqExp = false)
      ∧ (let v : W32 := 0xFFFFFFF9; (r.sqDoor - v).toNat = 1) ∧ (let v : W32 := 0x7FFFFFFA; (r.sqDoor - v).toNat = 2 ^ 31)
      ∧ (let v : W32 := 0x31; 2 ^ r.sqExp < (v - r.sqHead).toNat))
    ∧ (let s := hostWith ringOff; let r := ringGet s.host 63
       r.sqEnable = false ∧ r.sqBase.toNat % 4096 = 0 ∧ [(6 : W32), 16].all (fun v => expOk (fld (v ||| 0x80000000) 0 5) && !s.ringTooNew 63 (fld (v ||| 0x80000000) 0 5)) = true
        ∧ r.rqEnable = false ∧ r.rqBase.toNat % 4096 = 0 ∧ r.rqShadow.toNat % 8 = 0)
    ∧ (let v : W32 := 63 * 2 ^ 16 + 6; let w := v &&& 0x7FFFFFFF; fld w 16 6 = ringOn.sqReply ∧ fld w 0 5 = ringOn.sqExp ∧ fld w 0 5 = ringOn.rqExp ∧ v.getLsbD 31 = false)
    ∧ ((1 : W32).getLsbD 0 = true ∧ (2 : W32).getLsbD 0 = false) := by decide +kernel
def ringAfter {α : Type} (i : Instr) (s : State) (f : Ring → α) : Option α := after i s (fun t => f (ringGet t.host 63))
theorem test_doorbell : ringAfter (.doorbellWrite 63 0x30) (hostWith ringOn) Ring.sqDoor = some 0x30 ∧ ringAfter (.doorbellWrite 63 0x31) (hostWith ringOn) (fun r => (r.sqEnable, r.sqError)) = some (false, true) := by
  decide +kernel
/-- Behind, and to a disabled ring: discarded and counted by kind. -/
theorem test_doorbell_discarded : after (.doorbellWrite 63 0xFFFFFFF9) (hostWith ringOn) (fun t => (t.host.csCount, t.host.csKind, t.host.csOffset)) = some (1, 5, 0x1FC0)
    ∧ after (.doorbellWrite 63 1) (hostWith ringOff) (fun t => (t.host.csKind, t.host.csOffset)) = some (4, 0x1FC0) := by decide +kernel
theorem test_sqEnable : ringAfter (.sqEnable 63 (7 * 2 ^ 16 + 16)) (hostWith ringOff) (fun r => (r.sqEnable, r.sqReply, r.sqExp)) = some (true, 7, 16)
    ∧ ringAfter (.sqEnable 63 5) (hostWith ringOff) (fun r => (r.sqEnable, r.sqError)) = some (false, true) := by decide +kernel
theorem test_sqDisable : ringAfter (.sqDisable 63 (63 * 2 ^ 16 + 6)) (hostWith ringOn) (fun r => (r.sqEnable, r.sqHead)) = some (false, 0xFFFFFFF0) := by decide +kernel
/-- Enabling a reply ring writes its shadow. -/
theorem test_rqEnable : after (.rqEnable 63 6) (hostWith ringOff) (fun t => ((ringGet t.host 63).rqEnable, t.host.busWrites)) = some (true, [(0x30000, zeros 8)])
    ∧ ringAfter (.rqDisable 63 6) (hostWith ringOn) Ring.rqEnable = some false := by decide +kernel
theorem test_ringErrorClear : ringAfter (.ringErrorClear 63 false 0) (hostWith { ringOff with sqError := true, rqError := true }) (fun r => (r.sqError, r.rqError)) = some (false, true)
    ∧ ringAfter (.ringErrorClear 63 true 0) (hostWith { ringOff with sqError := true, rqError := true }) (fun r => (r.sqError, r.rqError)) = some (true, false) := by decide +kernel
theorem test_rqTail : ringAfter (.rqTailWrite 63 5) (hostWith ringOn) Ring.rqTail = some 5 ∧ ringAfter (.rqArmWrite 63 1) (hostWith ringOn) Ring.armed = some true
    ∧ ringAfter (.rqArmWrite 63 2) (hostWith ringOn) Ring.armed = some false := by decide +kernel

def reply0 : Reply := ⟨0, 63, 63, 0x1234, 0, 7, 16, zeros 16⟩
/-- A reply ring of 64 entries at count 2^32 − 1, armed, one record waiting; its vector is not masked, or is. -/
def replying (tail : W32) (mask : W32) : State := { hostWith { ringOn with waiting := [reply0], rqProduced := 0xFFFFFFFF, rqTail := tail, armed := true } with
  host := { (hostWith { ringOn with waiting := [reply0], rqProduced := 0xFFFFFFFF, rqTail := tail, armed := true }).host with msixEnable := true, msixTable := [(1020, mask)] } }
theorem witness_FetchesAndReplies :
    ((hostWith ringOn).fetches = true ∧ ringOn.sqEnable = true ∧ ringOn.sqHead ≠ ringOn.sqDoor)
    ∧ (let s := replying 0xFFFFFFC0 0; let r := ringGet s.host 63
       s.resetting 7 = false ∧ s.resetting 8 = false ∧ r.waiting = [reply0] ∧ r.rqEnable = true ∧ (r.rqProduced - r.rqTail).toNat = 63 ∧ r.armed = true ∧ s.host.msixEnable = true
        ∧ s.host.vectorMasked 63 = false)
    ∧ (replying 0xFFFFFFC0 1).host.vectorMasked 63 = true
    ∧ (let r := ringGet (replying 0xFFFFFFBF 0).host 63; 2 ^ r.rqExp ≤ (r.rqProduced - r.rqTail).toNat) := by decide +kernel
theorem test_commandFetch : after (.commandFetch 63 (.entry [0x34, 0x12, 0x0E])) (hostWith ringOn) (fun t => ((ringGet t.host 63).sqHead, t.host.cmds.map (fun c => (c.tag, c.opcode, c.ring, c.version)))) =
    some (0xFFFFFFF1, [(0x1234, 0x0E, 63, 3)]) := by decide +kernel
theorem test_commandFetch_error : ringAfter (.commandFetch 63 .poisoned) (hostWith ringOn) (fun r => (r.sqEnable, r.sqError)) = some (false, true) := by decide +kernel
/-- Record 2^32 − 1 goes to slot 63; the shadow shows count 0. -/
theorem test_replyWrite : after (.replyWrite 63) (replying 0xFFFFFFC0 0) (fun t => (t.host.busWrites, t.host.msixSent)) =
    some ([(0x20000 + 32 * 63, [0x34, 0x12, 0, 0, 7, 0, 0, 0, 16, 0, 0, 0, 0, 0, 0, 0] ++ zeros 16), (0x30000, zeros 8)], [63]) := by decide +kernel
theorem test_replyWrite_full : after (.replyWrite 63) (replying 0xFFFFFFBF 0) (fun t => (t.host.busWrites, (ringGet t.host 63).waiting.length)) = some ([], 1) := by decide +kernel

def heldLow : State := { linked with host := { linked.host with held := some (0x11000, 0x80000000) } }
def farSeen (i : Nat) : Seen := ⟨if i = 1 then 0xEE else 0, false⟩
def farWindow : State := { (linked.store (farBase + 1) [0xEE]) with host := { linked.host with winBase := BitVec.ofNat 64 farBase } }
theorem witness_HostRegisterAndMemoryAccess :
    (linked.reachable = true ∧ linked.writable = true ∧ linked.host.held = none ∧ regKind 0x10FC0 = .rw64 0x10FC0 ∧ heldLow.host.held = some (0x11000, 0x80000000))
    ∧ (∀ o ∈ [0x24, 0x0, 0x13000, 0x7FFFC], o % 4 = 0 ∧ discards o = true) ∧ linked.mesa.stage ≠ 0xE
    ∧ (regKind 0x40000 = .ro64 0x40000 ∧ regKind 0x40004 = .ro64 0x40000)
    ∧ (farWindow.bar2Ready (farWindow.host.winBase.toNat + (2 ^ 36 - 2)) = true ∧ farWindow.bar2Ready (farWindow.host.winBase.toNat + 0) = true) := by decide +kernel
theorem test_winBase : after (.winBaseWrite 0xFFFFFFFFFFFFFFFF) linked (fun t => t.host.winBase) = some 0x0000FFF000000000 := by decide +kernel
theorem test_lowHalfWrite : after (.lowHalfWrite 0x10000 7) linked (fun t => t.host.held) = some (some (0x10000, 7))
    ∧ after (.registerWrite 0x11004 4 0x1F true) heldLow (fun t => (t.host.held, t.host.winBase)) = some (none, 0x1000000000) := by decide +kernel
theorem test_registerWrite_bad : after (.registerWrite 0x10002 4 0 true) linked (fun t => t.host.csKind) = some 1 ∧ after (.registerWrite 0 4 0 true) linked (fun t => t.host.csKind) = some 2 := by decide +kernel
theorem test_resetRequests : after .resetRequestModule linked (fun t => t.rst.inProgress.map (fun r => (r.kind, r.cause))) = some [(7, 5)]
    ∧ after .resetRequestRetrain linked (fun t => t.rst.inProgress.map ResetRec.kind) = some [8] := by decide +kernel
/-- System Time is read in two halves of one moment. -/
theorem test_lowHalfRead : after (.lowHalfRead 0x40000) (timed linked 0x100000002) (fun t => (t.host.latch, t.host.lastRead)) = some (some 1, some ⟨[2, 0, 0, 0], false⟩) := by decide +kernel
theorem test_configSpaceWrite : after (.configSpaceWrite true false) { linked with host := { linked.host with msixEnable := false, pba := 2, msixTable := [(28, 0)] } } (fun t => (t.host.msixSent, t.host.pba)) = some ([1], 0) := by
  decide +kernel
theorem test_bar2 : after (.bar2Read 0 2) farWindow (fun t => t.host.lastRead) = some (some ⟨[0, 0xEE], false⟩) ∧ after (.bar2Write 5 [1, 2]) farWindow (fun t => t.load (farBase + 5) 2) = some [1, 2] := by decide +kernel

/-! ## Commands of the host -/

/-- A command of ring 63 with an opcode, a context number, and argument bytes from byte 16 on. -/
def hostCmd (op ctx : Nat) (args : List Byte) : HostCmd :=
  ⟨4, 63, 63, [0x34, 0x12, BitVec.ofNat 8 op, 0, 0, 0, 0, 0, BitVec.ofNat 8 ctx, 0, 0, 0, 0, 0, 0, 0] ++ args ++ zeros (48 - args.length), 0, 3, false, false, 0⟩
/-- The state in which a command has been fetched, or has started. -/
def commanded (c : HostCmd) (x : Option Ctx) : State :=
  { hostWith ringOn with host := { (hostWith ringOn).host with cmds := [c], nextCmd := 5 }, ctxs := (x.map (fun y => (63, y))).toList }
theorem witness_CommandStart :
    (let c := hostCmd 0x00 0 []; (commanded c none).cmd? 4 = some c ∧ c.started = false ∧ (commanded c none).mayStart c = true ∧ (commanded c none).refusal c = none)
    ∧ (let c := { hostCmd 0x00 0 [] with bytes := [0, 0, 0, 1] ++ zeros 60 }
       let s : State := { commanded c none with host := { (commanded c none).host with cmds := [{ hostCmd 0 0 [] with id := 3 }, c] } }
       s.cmd? 4 = some c ∧ s.mayStart c = false)
    ∧ (∀ op ∈ [0x14, 0x07], let c := hostCmd op 0 []
        let s : State := { commanded c none with host := { (commanded c none).host with session := if op = 7 then 2 else 3 } }
        s.mayStart c = true ∧ (0x14 ≤ c.opcode ∨ (s.host.session = 2 ∧ newOpcode c.opcode = true)))
    ∧ (let c := hostCmd 0x0E 0 [3]; let s : State := { commanded c none with host := { (commanded c none).host with session := 0 } }; c.opcode < 0x14 ∧ s.host.session = 0 ∧ 2 ≤ c.opcode)
    ∧ (let c := hostCmd 0x0D 0 []; let s : State := { commanded c none with rst := { State.reset.rst with outOfService := true } }
       s.host.session = 3 ∧ servedOutOfService c.opcode = false ∧ s.mayStart c = true)
    ∧ (let c := hostCmd 0x0D 0 []; let s : State := { commanded c none with rst := { State.reset.rst with inProgress := [⟨6, 0, 0, 1, true, [], none, 0, 1⟩] } }; s.covered c = true ∧ s.mayStart c = true)
    ∧ (let c := hostCmd 0x00 0 [1]; c.reserved = some 16 ∧ (commanded c none).covered c = false)
    ∧ (let c := hostCmd 0x06 63 []; c.reserved = none ∧ c.opcode ≠ 4 ∧ (commanded c none).stranger c = true) := by decide +kernel
def codeOf (i : Instr) (s : State) : Option (List (Byte × W32)) := ringAfter i s (fun r => r.waiting.map (fun w => (w.code, w.result)))
theorem test_commandStart : after (.commandStart 4) (commanded (hostCmd 0x00 0 []) none) (fun t => t.host.cmds.map HostCmd.started) = some [true] := by decide +kernel
/-- BAD_OPCODE, BAD_FIELD with the byte, NO_CONTEXT. -/
theorem test_commandStart_refusals : codeOf (.commandStart 4) (commanded (hostCmd 0x14 0 []) none) = some [(0x10, 0)] ∧ codeOf (.commandStart 4) (commanded (hostCmd 0x00 0 [0, 1]) none) = some [(0x11, 17)]
    ∧ codeOf (.commandStart 4) (commanded (hostCmd 0x06 63 []) none) = some [(0x15, 0)] := by decide +kernel


/-! ## Session, program, memory and context commands -/

def started (op ctx : Nat) (args : List Byte) : HostCmd := { hostCmd op ctx args with started := true }
theorem cmdTurn_on (op ctx : Nat) (args : List Byte) (s : State) (hs : s.host.cmds = [started op ctx args]) (ho : (started op ctx args).opcode = op) : CmdTurn s 4 op (started op ctx args) :=
  ⟨by simp [State.cmd?, hs]; rfl, rfl, ho, rfl⟩
theorem ctxTurn_on (op : Nat) (args : List Byte) (s : State) (x : Ctx) (hs : s.host.cmds = [started op 63 args]) (ho : (started op 63 args).opcode = op)
    (hn : (started op 63 args).named = some 63) (hc : s.ctx? 63 = some x) : CtxCmdTurn s 4 op (started op 63 args) 63 x := ⟨cmdTurn_on _ _ _ _ hs ho, hn, hc⟩
/-- A context with a program in slot 15. -/
def plain : Ctx := { ctx0 [] core0 with slots := [(15, prog [])], run := none }
def cmdState (op : Nat) (args : List Byte) : State := commanded (started op 63 args) (some plain)
/-- A command without a context, as it has started. -/
def bareState (op : Nat) (args : List Byte) : State := commanded (started op 0 args) none

/-- A container of one image, which ends at once, for one core. -/
def container : List Byte := ascii "VXPROGRM" ++ leBytes 2 4 ++ leBytes 2 64 ++ leBytes 4 3 ++ leBytes 2 1 ++ leBytes 2 1 ++ leBytes 2 1 ++ leBytes 2 0 ++ leBytes 4 100 ++ zeros 36
  ++ (leBytes 4 1 ++ leBytes 4 1 ++ leBytes 4 112 ++ leBytes 4 8) ++ (leBytes 4 6 ++ leBytes 4 1 ++ leBytes 4 120 ++ leBytes 4 32) ++ (leBytes 4 8 ++ leBytes 4 1 ++ leBytes 4 152 ++ leBytes 4 256)
  ++ leBytes 8 wEnd.toNat ++ List.replicate 32 0xFF ++ zeros 256
def loadArgs : List Byte := [3, 0, 0, 0] ++ leBytes 4 408 ++ leBytes 8 0x100000
def loading (bytes : List Byte) : State := (cmdState 0x02 loadArgs).store 0x100000 bytes
def mapArgs (op : Nat) (i : Nat) : List Byte := [BitVec.ofNat 8 op, 7, 0, 0] ++ leBytes 4 i ++ leBytes 8 farBase ++ leBytes 8 65536
def entryArgs : List Byte := [3, 0, 0, 0] ++ leBytes 4 4095 ++ [1, 63, 0, 0] ++ leBytes 4 1 ++ leBytes 8 windowBase ++ leBytes 8 4096 ++ leBytes 8 0
def revoking : State := commanded (started 0x03 63 (mapArgs 2 0)) (some { plain with grants := [⟨farBase, 131072, 7⟩] })
def entry0 : XlateEntry := ⟨1, 63, 1, windowBase, 4096, 0, 4096, 0, 0, 1⟩
def mapped : State := { cmdState 0x03 (mapArgs 4 4095) with xlate := [(4095, entry0)] }
/-- A descriptor of a plain context of 8 cores whose save area lies 16 MiB into die 0. -/
def descriptor : List Byte := ascii "VXCTXDSC" ++ leBytes 8 5 ++ leBytes 2 0 ++ leBytes 2 1 ++ leBytes 2 8 ++ [1, 0, 0xFF, 0] ++ leBytes 2 1 ++ leBytes 4 0 ++ leBytes 8 0x1000000 ++ leBytes 8 29360128 ++ zeros 208
def createArgs : List Byte := leBytes 4 256 ++ zeros 4 ++ leBytes 8 0x100000
def creating (bytes : List Byte) : State := (bareState 0x04 createArgs).store 0x100000 bytes

theorem witness_SessionAndContextCommands :
    (CmdTurn (bareState 0 []) 4 0 (started 0 0 []))
    ∧ (let c := started 1 0 [3, 1]; CmdTurn (bareState 1 [3, 1]) 4 1 c ∧ c.fieldAt 16 1 = 3 ∧ c.fieldAt 17 1 = 1 ∧ (bareState 1 [3, 1]).ctxs = [])
    ∧ (∀ p ∈ [(2, 2), (1, 1), (15, 4), (0, 0), (16, 1)], let c := started 1 0 [BitVec.ofNat 8 p.1, BitVec.ofNat 8 p.2]; c.fieldAt 16 1 = p.1 ∧ c.fieldAt 17 1 = p.2)
    ∧ (CtxCmdTurn (loading container) 4 2 (started 2 63 loadArgs) 63 plain ∧ (started 2 63 loadArgs).fieldAt 24 8 = 0x100000 ∧ (started 2 63 loadArgs).fieldAt 20 4 = 408 ∧ inMemory 0x100000 408 = true
        ∧ (loading container).loadPoison 0x100000 408 = false)
    ∧ (CtxCmdTurn (cmdState 3 (mapArgs 1 0)) 4 3 (started 3 63 (mapArgs 1 0)) 63 plain ∧ (∀ b ∈ (cmdState 3 (mapArgs 1 0)).rangeBad farBase 65536, b = none))
    ∧ (∀ b ∈ (cmdState 3 entryArgs).entryBad (started 3 63 entryArgs) 63, b = none) ∧ nfind (cmdState 3 entryArgs).xlate 4095 = none
    ∧ (nfind mapped.xlate 4095 = some entry0 ∧ entry0.ctx = 63 ∧ mapped.underOld 4095 mapped.net.nextId = false)
    ∧ (CmdTurn (creating descriptor) 4 4 (started 4 0 createArgs) ∧ (started 4 0 createArgs).named = some 0) := by
  refine ⟨cmdTurn_on _ _ _ _ rfl rfl, ⟨cmdTurn_on _ _ _ _ rfl rfl, by decide +kernel⟩, by decide +kernel, ⟨ctxTurn_on _ _ _ _ (by rw [loading, store_host]; rfl) rfl rfl (by rw [loading, store_ctx?]; rfl), by decide +kernel⟩,
    ⟨ctxTurn_on _ _ _ _ rfl rfl rfl rfl, by decide +kernel⟩, by decide +kernel, by decide +kernel, by decide +kernel, ⟨cmdTurn_on _ _ _ _ (by rw [creating, store_host]; rfl) rfl, by decide +kernel⟩⟩
theorem witness_SessionAndContextCommands_revoke : ({ plain with grants := [⟨farBase, 131072, 7⟩] } : Ctx).holds farBase 65536 = true := by decide +kernel
def ctx63 {α : Type} (i : Instr) (s : State) (f : Ctx → α) : Option α := (after i s (fun t => (t.ctx? 63).map f)).bind id
theorem test_nop : codeOf (.nop 4) { bareState 0 [] with attn := { State.reset.attn with seq := 9 } } = some [(0, 9)] := by decide +kernel
theorem test_openSession : after (.openSession 4) (bareState 1 [3, 1]) (fun t => t.host.session) = some 3 ∧ codeOf (.openSession 4) (bareState 1 [1, 1]) = some [(0x13, 0)] := by decide +kernel
theorem test_loadProgram : ctx63 (.loadProgram 4) (loading container) (fun x => x.slots.map (fun p => (p.1, p.2.images, p.2.bound))) = some [(3, [[wEnd]], 100), (15, [[]], 0)] := by decide +kernel
/-- An image whose last instruction is a seq.brlc has no seq.end (reason 0x0011, 05 R132); its branch fails too (0x0012), and the lower reason is reported (R155). -/
theorem test_loadProgram_flow : codeOf (.loadProgram 4) (loading (container.set 119 0)) = some [(0x11, 0x11)] := by decide +kernel
theorem test_mapMemory : ctx63 (.mapMemory 4) (cmdState 3 (mapArgs 1 0)) Ctx.grants = some [⟨farBase, 65536, 7⟩] ∧ ctx63 (.mapMemory 4) revoking Ctx.grants = some [⟨farBase + 65536, 65536, 7⟩] := by decide +kernel
theorem test_mapMemory_entries : after (.mapMemory 4) (cmdState 3 entryArgs) (fun t => t.xlate) = some [(4095, entry0)] ∧ after (.mapMemory 4) mapped (fun t => t.xlate) = some [] := by decide +kernel
theorem test_createContext : after (.createContext 4) (creating descriptor) (fun t => (t.ctxs.map (fun x => (x.1, x.2.status, x.2.cores.length, x.2.desc.job)), t.epochCounter)) = some ([(0, .idle, 8, 5)], 1) := by decide +kernel
/-- 7 cores are out of range, at offset 20 of the table. -/
theorem test_createContext_cores : codeOf (.createContext 4) (creating (descriptor.set 20 7)) = some [(0x12, 0x80000014)] := by decide +kernel


/-! ## Commands on a context's work -/

/-- A context of a learner with a program in slot 15, a publication entry 0, and a checkpoint area. -/
def working : Ctx := { plain with
  desc := { CtxDesc.zero with cores := 1, kind := 2, modules := 1, pubCount := 2, ckptAddr := 64, ckptLen := 4096 }
  learn := some pubLearner, pubs := [⟨0, 0, 1, 0, [], []⟩], lastDone := some 6, grants := [⟨0x1000000, 0x4000000, 7⟩] }
/-- The same without memory for its buffers. -/
def unmapped : Ctx := { working with grants := [] }
def workState (op : Nat) (args : List Byte) : State := commanded (started op 63 args) (some working)
def runArgs (slot : Byte) : List Byte := [slot, 0, 0, 0, 0, 0, 0, 0] ++ leBytes 8 7
def stepArgs (counter : Nat) : List Byte := [0xFF, 15, 15, 15, 1, 0, 0, 0] ++ leBytes 8 counter
def pubArgs (entry version : Nat) : List Byte := leBytes 4 entry ++ leBytes 2 version
def restoreArgs : List Byte := zeros 8 ++ leBytes 8 5

theorem witness_ContextJobCommands :
    (CtxCmdTurn (cmdState 5 []) 4 5 (started 5 63 []) 63 plain ∧ plain.status ≠ .closing)
    ∧ (CtxCmdTurn (cmdState 6 (runArgs 15)) 4 6 (started 6 63 (runArgs 15)) 63 plain ∧ plain.status = .running ∧ (started 6 63 (runArgs 15)).fieldAt 16 1 = 15 ∧ (nfind plain.slots 15).isSome = true)
    ∧ (CtxCmdTurn (cmdState 6 (runArgs 0)) 4 6 (started 6 63 (runArgs 0)) 63 plain ∧ (started 6 63 (runArgs 0)).fieldAt 16 1 = 0 ∧ nfind plain.slots 0 = none)
    ∧ (let c := started 7 63 (stepArgs 7)
       CtxCmdTurn (workState 7 (stepArgs 7)) 4 7 c 63 working ∧ working.status = .running ∧ working.desc.kind = 2 ∧ c.fieldAt 16 1 = 0xFF
        ∧ [1, 2, 3].all (fun i => c.fieldAt (16 + i) 1 == 15) = true ∧ (nfind working.slots 15).isSome = true ∧ working.lastDone = some 6 ∧ c.fieldAt 24 8 = 7
        ∧ firstBad (working.paramsBad 15) = none ∧ (firstBad (unmapped.paramsBad 15)).isSome = true)
    ∧ (let c := started 8 63 (pubArgs 1 0)
       CtxCmdTurn (workState 8 (pubArgs 1 0)) 4 8 c 63 working ∧ c.fieldAt 16 4 = 1 ∧ working.desc.pubCount = 2 ∧ c.fieldAt 20 2 = 0 ∧ working.currentVersion = 1 ∧ working.learn = some pubLearner
        ∧ pubLearner.buffers.any (fun b => b.version == 1 && b.state == .current) = true ∧ working.pubs.all (fun p => p.entry != 1) = true)
    ∧ (let c := started 8 63 (pubArgs 0 1)
       CtxCmdTurn (workState 8 (pubArgs 0 1)) 4 8 c 63 working ∧ c.fieldAt 16 4 = 0 ∧ c.fieldAt 20 2 = 1 ∧ working.pubs.any (fun p => p.entry == 0) = true)
    ∧ (let c := started 9 63 []
       CtxCmdTurn (workState 9 []) 4 9 c 63 working ∧ working.desc.ckptAddr ≠ 0 ∧ c.fieldAt 16 1 / 2 % 2 = 0)
    ∧ (let c := started 10 63 restoreArgs
       CtxCmdTurn (workState 10 restoreArgs) 4 10 c 63 working ∧ working.desc.modules = 1 ∧ c.fieldAt 16 1 % 2 = 0)
    ∧ (∀ w ∈ [0, 1, 65535], let c := started 11 63 (leBytes 2 w); CtxCmdTurn (cmdState 11 (leBytes 2 w)) 4 11 c 63 plain ∧ c.fieldAt 16 2 = w) := by
  refine ⟨⟨ctxTurn_on _ _ _ _ rfl rfl rfl rfl, by decide +kernel⟩, ⟨ctxTurn_on _ _ _ _ rfl rfl rfl rfl, by decide +kernel⟩, ⟨ctxTurn_on _ _ _ _ rfl rfl rfl rfl, by decide +kernel⟩,
    ⟨ctxTurn_on _ _ _ _ rfl rfl rfl rfl, by decide +kernel⟩, ⟨ctxTurn_on _ _ _ _ rfl rfl rfl rfl, by decide +kernel⟩, ⟨ctxTurn_on _ _ _ _ rfl rfl rfl rfl, by decide +kernel⟩,
    ⟨ctxTurn_on _ _ _ _ rfl rfl rfl rfl, by decide +kernel⟩, ⟨ctxTurn_on _ _ _ _ rfl rfl rfl rfl, by decide +kernel⟩, ?_⟩
  intro w hw
  have h : w = 0 ∨ w = 1 ∨ w = 65535 := by simpa using hw
  rcases h with rfl | rfl | rfl <;> exact ⟨ctxTurn_on _ _ _ _ rfl rfl rfl rfl, by decide +kernel⟩
theorem test_destroyContext : ctx63 (.destroyContext 4) (cmdState 5 []) (fun x => (x.status, x.run.isSome, x.closeCmd)) = some (.closing, false, some 4) := by decide +kernel
theorem test_run : ctx63 (.run 4) (cmdState 6 (runArgs 15)) (fun x => x.run.map (fun r => (r.slot, r.step, r.cmd))) = some (some (15, 7, some 4))
    ∧ codeOf (.run 4) (cmdState 6 (runArgs 16)) = some [(0x12, 16)] := by decide +kernel
/-- The counter has to exceed that of the latest completed step. -/
theorem test_step : ctx63 (.step 4) (workState 7 (stepArgs 7)) (fun x => x.steps.map (fun y => (y.counter, y.slots, y.supplied))) = some [(7, [0xFF, 15, 15, 15], true)]
    ∧ codeOf (.step 4) (workState 7 (stepArgs 6)) = some [(0x12, 24)]
    ∧ codeOf (.step 4) (commanded (started 7 63 (stepArgs 7)) (some unmapped)) = some [(0x21, 0)] := by decide +kernel
theorem test_publishWeights : codeOf (.publishWeights 4) (workState 8 (pubArgs 1 0)) = some [(0, 0)]
    ∧ ctx63 (.publishWeights 4) (workState 8 (pubArgs 0 1)) (fun x => x.pubs.map (fun p => (p.waiting, p.next))) = some [(1, [4])] := by decide +kernel
/-- Version 2 is not resident. -/
theorem test_publishWeights_version : codeOf (.publishWeights 4) (workState 8 (pubArgs 0 2)) = some [(0x12, 20)] := by decide +kernel
theorem test_checkpoint : after (.checkpoint 4) (workState 9 []) (fun t => t.host.cmds.map HostCmd.begun) = some [true] ∧ codeOf (.checkpoint 4) (cmdState 9 []) = some [(0x11, 8)] := by decide +kernel
/-- No copy of the checkpoint holds. -/
theorem test_restore : codeOf (.restore 4 []) (workState 10 restoreArgs) = some [(0x31, 0)] := by decide +kernel
theorem test_setShares : ctx63 (.setShares 4) (cmdState 11 (leBytes 2 65535)) Ctx.weight = some 65535 ∧ codeOf (.setShares 4) (cmdState 11 (leBytes 2 0)) = some [(0x12, 16)] := by decide +kernel


/-! ## Commands on the module -/

def tableArgs (n : Nat) : List Byte := leBytes 4 n ++ zeros 4 ++ leBytes 8 0x100000
/-- A table of one window of 500 µs for context 63, in frames of 1 ms from 1 ms on. -/
def caravanBytes : List Byte := ascii "VXCARAVN" ++ leBytes 8 millisecond ++ leBytes 4 1000 ++ leBytes 4 1 ++ zeros 8 ++ [63, 1, 1, 0] ++ leBytes 4 500 ++ leBytes 4 500 ++ zeros 4
def tabled (bytes : List Byte) : State := (commanded (started 12 0 (tableArgs 48)) (some plain)).store 0x100000 bytes
def attnEntry (seq : W32) (level : Nat) (acked : Bool) : AttnEntry := ⟨seq, level, 5, 0, acked, false, 0, 0, 0, 0, 0, 0, 0, 0, 0, 0⟩
def noticed (op : Nat) (args : List Byte) : State := { bareState op args with
  attn := ⟨2, [attnEntry 0xFFFFFFFF 1 false, attnEntry 0 3 false, attnEntry 1 1 false, attnEntry 2 1 false], 3, 2⟩
  faults := { State.reset.faults with suspects := [(1023, suspect1)] } }
def queryArgs (kind first n : Nat) : List Byte := [BitVec.ofNat 8 kind, 0, 0, 0] ++ leBytes 4 first ++ leBytes 4 n ++ zeros 4 ++ leBytes 8 0x40000
def capture65 : Capture := ⟨65, [1, 2, 3, 4], false⟩
def captured (args : List Byte) : State := { (bareState 16 args).store (captureArea + captureSlot * 1) [9, 8, 7, 6] with captures := [(1, capture65)], nextCapture := 66 }
def readArgs (index len : Nat) : List Byte := leBytes 4 index ++ zeros 4 ++ leBytes 8 0x40000 ++ leBytes 4 len
def domainArgs (kind die num : Nat) : List Byte := [BitVec.ofNat 8 kind, BitVec.ofNat 8 die] ++ leBytes 2 num
def attestArgs (kind : Byte) : List Byte := [kind, 0, 0, 0, 0, 0, 0, 0] ++ leBytes 8 0x40000
def outArgs : List Byte := leBytes 4 2612 ++ zeros 4 ++ leBytes 8 0x40000
def outState : State := { bareState 18 outArgs with rst := { State.reset.rst with outOfService := true, hour := 3 } }
/-- A NOP whose deadline of 10 ms has passed, and a RUN of 1 µs in a context with a bound of 100 µs. -/
def expiredNop : State := timed (commanded (hostCmd 0 0 []) none) (10 * millisecond)
def runCmd63 : HostCmd := { started 6 63 (runArgs 15) with bytes := ((started 6 63 (runArgs 15)).bytes.set 4 1) }
def expiredRun : State := timed (commanded runCmd63 (some plain)) microsecond

/-- The turn of a command, whatever its arguments. -/
theorem witness_ModuleCommands_turns (args : List Byte) : CmdTurn (bareState 12 args) 4 12 (started 12 0 args) ∧ CmdTurn (bareState 13 args) 4 13 (started 13 0 args)
    ∧ CmdTurn (noticed 14 args) 4 14 (started 14 0 args) ∧ CmdTurn (bareState 17 args) 4 17 (started 17 0 args) ∧ CmdTurn (bareState 18 args) 4 18 (started 18 0 args)
    ∧ CmdTurn (bareState 19 args) 4 19 (started 19 0 args) := by
  and_intros <;> exact cmdTurn_on _ _ _ _ rfl rfl
theorem witness_ModuleCommands_stored (bytes args : List Byte) : CmdTurn (tabled bytes) 4 12 (started 12 0 (tableArgs 48)) ∧ CmdTurn (captured args) 4 16 (started 16 0 args)
    ∧ CmdTurn outState 4 18 (started 18 0 outArgs) := by
  refine ⟨cmdTurn_on _ _ _ _ (by rw [tabled, store_host]; rfl) rfl, cmdTurn_on _ _ _ _ ?_ rfl, cmdTurn_on _ _ _ _ rfl rfl⟩
  simp only [captured, store_host]
  rfl
theorem witness_ModuleCommands :
    (started 12 0 []).fieldAt 16 4 = 0
    ∧ (let c := started 12 0 (tableArgs 48)
       c.fieldAt 16 4 = 48 ∧ c.fieldAt 24 8 = 0x100000 ∧ inMemory 0x100000 48 = true ∧ (tabled caravanBytes).caravanBad c.fetched 0x100000 48 = none)
    ∧ (∀ w ∈ [1499, 1500, 4000, 4001], (started 13 0 (leBytes 2 w)).fieldAt 16 2 = w)
    ∧ (∀ a ∈ [(3, 0, 0), (1, 0xFFFFFFFF, 4096), (2, 1023, 1)], let c := started 14 0 (queryArgs a.1 a.2.1 a.2.2)
       c.fieldAt 32 8 % 64 = 0 ∧ c.fieldAt 16 1 = a.1 ∧ c.fieldAt 24 4 = a.2.2 ∧ c.fieldAt 20 4 = a.2.1)
    ∧ ((noticed 14 []).attn.from 0xFFFFFFFF).length = 4 ∧ ((noticed 14 []).faults.from 1023).length = 1
    ∧ (∀ i ∈ [65, 0xFFFFFFFF], (started 16 0 (readArgs i 64)).fieldAt 16 4 = i ∧ (captured []).captureOf i = some (1, capture65))
    ∧ (captured []).loadPoison (captureArea + captureSlot * 1) 4 = false ∧ (captured []).captureOf 64 = none
    ∧ (∀ k ∈ [6, 7, 8, 3], let c := started 17 0 (domainArgs k (if k = 3 then 3 else 0) (if k = 3 then 0xFFFF else 0)); c.fieldAt 16 1 = k ∧ c.fieldAt 17 1 = (if k = 3 then 3 else 0) ∧ c.fieldAt 18 2 = (if k = 3 then 0xFFFF else 0))
    ∧ ((bareState 18 []).rst.outOfService = false ∧ outState.rst.outOfService = true ∧ (started 18 0 outArgs).fieldAt 16 4 = 2612 ∧ (started 18 0 outArgs).fieldAt 24 8 % 64 = 0)
    ∧ (∀ k ∈ [(1 : Byte), 2, 3], (started 19 0 (attestArgs k)).fieldAt 16 1 = k.toNat ∧ (started 19 0 (attestArgs k)).fieldAt 24 8 % 64 = 0) ∧ (bareState 19 []).mesa.failed = false
    ∧ (let c := hostCmd 0 0 []
       expiredNop.cmd? 4 = some c ∧ expiredNop.deadline c = some (10 * millisecond) ∧ c.fetched.toNat + 10 * millisecond ≤ expiredNop.st.now.toNat ∧ c.started = false)
    ∧ (expiredRun.cmd? 4 = some runCmd63 ∧ expiredRun.deadline runCmd63 = some microsecond ∧ runCmd63.started = true ∧ runCmd63.opcode ≠ 0x11 ∧ runCmd63.named = some 63
        ∧ plain.hung = false ∧ plain.status ≠ .closing) := by decide +kernel
theorem witness_ModuleCommands_run : expiredRun.ctx? 63 = some plain := rfl
theorem witness_ModuleCommands_failed : ({ (bareState 19 []) with mesa := { State.reset.mesa with failed := true } } : State).mesa.failed = true := rfl
theorem test_setCaravanTable : after (.setCaravanTable 4) (tabled caravanBytes) (fun t => t.caravan.next) = some (some ⟨millisecond, 1000, [⟨63, true, 1, 500, 500⟩]⟩) := by decide +kernel
/-- A window beyond its frame: 12 R372, at offset 40 of the table. -/
theorem test_setCaravanTable_window : codeOf (.setCaravanTable 4) (tabled (caravanBytes.set 36 0xF5)) = some [(0x12, 0x80000028)] := by decide +kernel
theorem test_setPowerLimit : after (.setPowerLimit 4) (bareState 13 (leBytes 2 1500)) (fun t => t.power.setLimit) = some 1500 ∧ codeOf (.setPowerLimit 4) (bareState 13 (leBytes 2 4001)) = some [(0x12, 16)]
    ∧ codeOf (.setPowerLimit 4) { bareState 13 (leBytes 2 1501) with power := { State.reset.power with sensorFault := true } } = some [(0, 1275)] := by decide +kernel
/-- From sequence 2^32 − 1 on: four entries, the first of which is that one. -/
theorem test_queryAttention : after (.queryAttention 4) (noticed 14 (queryArgs 1 0xFFFFFFFF 4096)) (fun t => t.host.busWrites.map (fun w => (w.1, w.2.length, w.2.take 6))) = some [(0x40000, 256, [0xFF, 0xFF, 0xFF, 0xFF, 1, 5])] := by
  decide +kernel
theorem test_queryAttention_suspects : codeOf (.queryAttention 4) (noticed 14 (queryArgs 2 1023 1)) = some [(0, 1)] ∧ codeOf (.queryAttention 4) (noticed 14 (queryArgs 2 1024 1)) = some [(0x12, 20)] := by decide +kernel
theorem test_readCapture : after (.readCapture 4) (captured (readArgs 65 64)) (fun t => (t.host.busWrites, t.captures.map (fun x => x.2.read))) = some ([(0x40000, [9, 8, 7, 6])], [true]) := by decide +kernel
/-- Kind 6 answers before it resets; kind 3 is answered by its reset. -/
theorem test_resetDomain : after (.resetDomain 4) (bareState 17 (domainArgs 6 0 0)) (fun t => (t.rst.inProgress.map ResetRec.kind, t.host.busWrites.map (fun w => (w.2.take 3).map BitVec.toNat))) = some ([6], [[0x34, 0x12, 0], [1, 0, 0]])
    ∧ after (.resetDomain 4) (bareState 17 (domainArgs 3 3 0)) (fun t => t.rst.inProgress.map (fun r => (r.kind, r.die, r.cause, r.cmds))) = some [(3, 3, 1, [4])] := by decide +kernel
theorem test_reinstate : codeOf (.reinstate 4 []) (bareState 18 []) = some [(0, 0)] ∧ codeOf (.reinstate 4 []) outState = some [(0x42, 0)] := by decide +kernel
/-- An identity: a header of 64 bytes, 1,344 of the body, and the signature of 2,420. -/
theorem test_attest : codeOf (.attest 4) (bareState 19 (attestArgs 3)) = some [(0, 3828)] := by decide +kernel
theorem test_commandDeadlineExpiry : codeOf (.commandDeadlineExpiry 4) expiredNop = some [(0x22, 0)] ∧ codeOf (.commandDeadlineExpiry 4) (timed expiredNop (10 * millisecond - 1)) = some [] := by decide +kernel
/-- A hung context is Closing, its partition is reset, and the command is answered with its capture. -/
theorem test_commandDeadlineExpiry_hang : after (.commandDeadlineExpiry 4) expiredRun (fun t => (t.host.cmds.length, t.captures.map (fun x => x.1), t.attn.log.map (fun e => (e.level, e.source)))) = some (0, [0], [(5, 5)]) := by
  decide +kernel

theorem witness_AckAttention (args : List Byte) : CmdTurn (noticed 15 args) 4 15 (started 15 0 args) := cmdTurn_on _ _ _ _ rfl rfl
theorem witness_AckAttention_sequences : (noticed 15 []).attn.seq = 2 ∧ ((2 : W32) - 2).toNat = 0 ∧ ((0xFFFFFFFF : W32) - 2).toNat = 2 ^ 32 - 3 ∧ ((3 : W32) - 2).toNat = 1
    ∧ ∀ q ∈ [2, 0xFFFFFFFF, 3], (started 15 0 (zeros 4 ++ leBytes 4 q)).fieldAt 20 4 = q := by decide +kernel
theorem test_ackAttention : after (.ackAttention 4) (noticed 15 (zeros 4 ++ leBytes 4 0)) (fun t => (t.attn.log.map AttnEntry.acked, t.attn.lost)) = some ([true, true, false, false], 3)
    ∧ after (.ackAttention 4) (noticed 15 (zeros 4 ++ leBytes 4 2)) (fun t => (t.attn.log.map AttnEntry.acked, t.attn.lost, t.attn.lostLevel)) = some ([true, true, true, true], 0, 0) := by decide +kernel
theorem test_ackAttention_ahead : codeOf (.ackAttention 4) (noticed 15 (zeros 4 ++ leBytes 4 3)) = some [(0x12, 20)] := by decide +kernel


/-! ## The schedule, caravans, pre-emption and teardown -/

def runner : Ctx := ctx0 [] core0
def window0 : CaravanWindow := ⟨0, false, 1, 200, 500⟩
def table0 : CaravanTable := ⟨0, 1000, [window0]⟩
/-- Context 0 with the table in force, at a time. -/
def windowed (c : Ctx) (armed opened : List Nat) (now : Nat) : State := { timed (with0 c) now with caravan := ⟨some table0, none, armed, opened, []⟩ }
def nextTable (now : Nat) : State := { timed State.reset now with caravan := { Caravan.reset with next := some ⟨5, 1000, []⟩ } }
def leaving : Ctx := { runner with preempt := true, asked := some 0, cores := [(0, { core0 with seq := { Sequencer.start with ended := true } })] }
def coming : Ctx := { runner with status := .saved, resume := true }
def closingCtx : Ctx := { runner with status := .closing, run := none, closeCmd := some 4 }
def closingState (busy : Bool) : State := { timed (with0 { closingCtx with closeCmd := if busy then none else some 4 }) (100 * millisecond) with
  net := { State.reset.net with requests := if busy then [req true true (.near 0) []] else [] } }

theorem witness_ScheduleRows :
    ((nextTable 5).caravan.next = some ⟨5, 1000, []⟩ ∧ (nextTable 5).st.now.toNat = 5 ∧ (nextTable 4).st.now.toNat = 4)
    ∧ (let s := windowed runner [] [] (50 * microsecond)
       s.window? 0 = some (table0, window0) ∧ runner.runnable = true ∧ (openings table0 window0 s.st.now.toNat).2 = s.st.now.toNat + s.lead 0 runner ∧ 0 ∉ s.caravan.armed ∧ s.rivals 0 runner = [])
    ∧ (({ runner with status := .idle } : Ctx).runnable = false)
    ∧ (let s := windowed runner [0] [] (699 * microsecond)
       (openings table0 window0 s.st.now.toNat).1 = some (200 * microsecond) ∧ 0 ∈ s.caravan.armed ∧ s.st.now.toNat < 200 * microsecond + window0.length * microsecond ∧ runner.status = .running)
    ∧ (let s := windowed runner [0] [0] (700 * microsecond)
       (openings table0 window0 s.st.now.toNat).1 = some (200 * microsecond) ∧ 200 * microsecond + window0.length * microsecond = s.st.now.toNat ∧ window0.exclusive = false)
    ∧ ((with0 leaving).mayLeave 0 leaving = true ∧ (with0 leaving).faults.samples = [] ∧ (with0 leaving).faults.phys = [] ∧ (∀ x ∈ (with0 leaving).ctxs, x.2.resume = false))
    ∧ (coming.resume = true ∧ coming.status = .saved ∧ (with0 coming).coresFree 0 coming = true ∧ coming.deferred = none ∧ coming.poison = none ∧ (∀ y ∈ coming.cores, y.2.inSlot = false)
        ∧ (with0 coming).rivals 0 coming = [])
    ∧ ((closingState false).quiet 0 = true ∧ (closingState true).quiet 0 = false ∧ closingCtx.status = .closing ∧ closingCtx.hung = false
        ∧ closingCtx.closedAt.toNat + 100 * millisecond ≤ (closingState true).st.now.toNat) := by decide +kernel
theorem witness_ScheduleRows_contexts : (windowed runner [] [] 0).windowCtx window0 = some runner ∧ (with0 leaving).ctx? 0 = some leaving ∧ (with0 coming).ctx? 0 = some coming
    ∧ (closingState false).ctx? 0 = some closingCtx ∧ (closingState true).ctx? 0 = some { closingCtx with closeCmd := none } ∧ leaving.core? 0 = some { core0 with seq := { Sequencer.start with ended := true } } :=
  ⟨rfl, rfl, rfl, rfl, rfl, rfl⟩
/-- After its slice, the context with more virtual time leaves for one that waits on the same cores. -/
theorem test_sliceBoundary : (let s : State := timed { State.reset with ctxs := [(0, { runner with vtime := 5 }), (1, { runner with status := .waiting })] } (2 * millisecond)
    after .sliceBoundary s (fun t => t.ctxs.map (fun x => (x.2.status, x.2.preempt, x.2.resume))) = some [(.running, true, false), (.waiting, false, true)]) := by decide +kernel
/-- Within its first slice it stays. -/
theorem test_sliceBoundary_first : (let s : State := timed { State.reset with ctxs := [(0, { runner with vtime := 5 }), (1, { runner with status := .waiting })] } (2 * millisecond - 1)
    after .sliceBoundary s (fun t => t.ctxs.map (fun x => x.2.preempt)) = some [false, false]) := by decide +kernel
theorem test_caravanTableActivation : after .caravanTableActivation (nextTable 5) (fun t => t.caravan.table.isSome) = some true ∧ after .caravanTableActivation (nextTable 4) (fun t => t.caravan.table.isSome) = some false := by
  decide +kernel
theorem test_caravanLeadTime : after (.caravanLeadTime 0) (windowed runner [] [] (50 * microsecond)) (fun t => t.caravan.armed) = some [0]
    ∧ after (.caravanLeadTime 0) (windowed runner [] [] (50 * microsecond - 1)) (fun t => t.caravan.armed) = some [] := by decide +kernel
theorem test_caravanWindow : after (.caravanWindowOpen 0) (windowed runner [0] [] (699 * microsecond)) (fun t => (t.caravan.armed, t.caravan.openWindows)) = some ([], [0])
    ∧ after (.caravanWindowClose 0) (windowed runner [] [0] (700 * microsecond)) (fun t => t.caravan.openWindows) = some []
    ∧ after (.caravanWindowClose 0) (windowed runner [] [0] (700 * microsecond - 1)) (fun t => t.caravan.openWindows) = some [0] := by decide +kernel
/-- A context that was not asked to leave stays. -/
theorem test_preemptionSaveComplete : (ctxAfter (.preemptionSaveComplete 0) (with0 runner)).map (fun c => c.status) = some .running := by decide +kernel
theorem test_restoreComplete : (ctxAfter (.restoreComplete 0) (with0 coming)).map (fun c => (c.status, c.resume)) = some (.running, false) := by decide +kernel
theorem test_teardownQuiescence : after (.teardownQuiescence 0) (closingState false) (fun t => t.ctxs.length) = some 0 ∧ after (.teardownQuiescence 0) (closingState true) (fun t => t.ctxs.length) = some 1 := by decide +kernel
theorem test_teardownTimeout : after (.teardownTimeout 0) (closingState true) (fun t => t.rst.inProgress.map (fun r => (r.kind, r.die, r.cause))) = some [(3, 0, 3)] := by decide +kernel

/-! ## SPDM -/

/-- The state after reset, with what a transport has been through. -/
def spdmState (v c n : List Nat) : State := { linked with mesa := { linked.mesa with spdmVersion := v, spdmCaps := c, spdmNegotiated := n } }
theorem witness_SpdmAnswers : (∀ p ∈ [0, 1, 2], (spdmState [p] [p] [p]).spdmReaches p = true ∧ p ∈ (spdmState [p] [p] [p]).mesa.spdmNegotiated ∧ p ∈ (spdmState [p] [p] [p]).mesa.spdmCaps
      ∧ p ∈ (spdmState [p] [p] [p]).mesa.spdmVersion)
    ∧ (0 ∉ (spdmState [] [] []).mesa.spdmVersion ∧ 0 ∉ (spdmState [] [] []).mesa.spdmNegotiated) := by decide +kernel
def answerTo (i : Instr) (s : State) : Option (Nat × Bool × Nat) := (after i s (fun t => (nfind t.mesa.spdmOut 0).map (fun m => (m.request, m.error, m.body.length)))).bind id
theorem test_getVersion : after (.getVersion 0) (spdmState [0] [0] [0]) (fun t => (t.mesa.spdmVersion, t.mesa.spdmCaps, t.mesa.spdmNegotiated)) = some ([0], [], []) := by decide +kernel
theorem test_getCapabilities : after (.getCapabilities 0) (spdmState [0] [] []) (fun t => t.mesa.spdmCaps) = some [0] ∧ answerTo (.getCapabilities 0) (spdmState [] [] []) = some (0xE1, true, 1) := by decide +kernel
theorem test_negotiateAlgorithms : after (.negotiateAlgorithms 0 true true) (spdmState [0] [0] []) (fun t => t.mesa.spdmNegotiated) = some [0]
    ∧ after (.negotiateAlgorithms 0 true false) (spdmState [0] [0] []) (fun t => t.mesa.spdmNegotiated) = some [] := by decide +kernel
theorem test_getDigests : answerTo (.getDigests 0) (spdmState [0] [0] []) = some (0x81, true, 1) ∧ answerTo (.getCertificate 0 1 0 4) (spdmState [0] [0] [0]) = some (0x82, true, 1) := by decide +kernel
theorem test_challenge : answerTo (.challenge 0 1 (zeros 32)) (spdmState [0] [0] [0]) = some (0x83, true, 1) := by decide +kernel
/-- One block without a signature: index and digest. -/
theorem test_getMeasurements : answerTo (.getMeasurements 0 3 false (zeros 32)) (spdmState [0] [0] [0]) = some (0xE0, false, 33) ∧ answerTo (.getMeasurements 0 9 false (zeros 32)) (spdmState [0] [0] [0]) = some (0xE0, true, 1) := by
  decide +kernel
theorem test_spdmUnsupported : answerTo (.spdmUnsupportedRequest 0 0xE4) (spdmState [] [] []) = some (0xE4, true, 2) := by decide +kernel

/-! ## The machine as a whole -/

theorem witness_CoreInstructionsStayInTheirCore : (exec (.seqNop 0 0) State.reset) = .next State.reset := rfl
theorem witness_CoreInstructionsStayInTheirCore_runs : (after (.seqNop 0 0) (with0 (ctx0 [0] core0)) (fun t => (t.ctx? 0).bind (fun c => (c.core? 0).map (fun x => x.seq.pos)))).bind id = some 1 := by decide +kernel
theorem witness_StepKeepsInv : State.reset.Inv := ⟨by decide +kernel, by show ([] : List AttnEntry).length ≤ 4096; decide⟩
theorem witness_StepKeepsInv_step : ∃ t, step State.reset = .next t := ⟨_, rfl⟩

/-- A full log of one entry's copies. -/
def fullLog (e : AttnEntry) : State := { State.reset with attn := { State.reset.attn with log := List.replicate 4096 e } }
theorem witness_AttentionLogReplacement : (fullLog (attnEntry 1 1 true)).attn.log.length = 4096 ∧ (fullLog (attnEntry 1 1 true)).attn.log[0]? = some (attnEntry 1 1 true)
    ∧ (∀ x ∈ (fullLog (attnEntry 1 2 false)).attn.log, x.acked = false) ∧ (fullLog (attnEntry 1 2 false)).attn.log[0]? = some (attnEntry 1 2 false)
    ∧ (∀ x ∈ (fullLog (attnEntry 1 3 false)).attn.log, 3 ≤ x.level) := by
  refine ⟨List.length_replicate, rfl, fun x hx => ?_, rfl, fun x hx => ?_⟩ <;> rw [List.eq_of_mem_replicate hx] <;> decide
theorem witness_ZeroBlockSums : blockSum (.float Fmts.fp32) false false [.fin true 0 0] [.fin false 0 0] 1 = (.fin true 0 0, 0) ∧ blockSum (.float Fmts.fp32) false false [] [] 8 = (.fin false 0 0, 0) := by decide +kernel
theorem witness_NonFiniteBlockSums :
    (∃ p ∈ (List.zip [FVal.fin false 0 0] [FVal.inf true]).take 8, p.1.isZero = true ∧ ∃ n, p.2 = .inf n)
    ∧ ((FVal.mul (.inf true) (.fin false 1 0)).1 = .inf true ∧ (FVal.mul (.inf true) (.fin true 1 0)).1 = .inf false ∧ (FVal.mul .nan (.fin true 1 0)).2 = 0) :=
  ⟨⟨_, List.mem_cons_self, rfl, true, rfl⟩, by decide +kernel⟩
/-- 7 × 2^-1 on the grid of 1: 3 and a half, a tie, to 4; 3 by RTZ; SR by the draw against 32,768. -/
theorem test_roundUnits : roundUnits 7 (-1) 0 .rne 0 = (4, true) ∧ roundUnits 5 (-1) 0 .rne 0 = (2, true) ∧ roundUnits 7 (-1) 0 .rtz 0 = (3, true) ∧ roundUnits 7 (-1) 0 .sr 32767 = (4, true)
    ∧ roundUnits 7 (-1) 0 .sr 32768 = (3, true) ∧ roundUnits 3 1 0 .sr 0 = (6, false) := by decide +kernel

end Sys2Proof.Tests
end

/-! PROOFS. Ripple boundaries and on-die packets (01 R22, R23, 07 R183 to R192): what a boundary leaves of the memory plane, why no two packets take a link
in the same way in one ripple, and what the checks at the end of a hop decide. -/

namespace Sys2Proof.Machine

/-! ## Launches leave the memory plane's packets and the ripple -/

/-- What each step of a fold keeps, the fold keeps. -/
theorem foldl_keeps {α β γ : Type} (g : β → γ) (f : β → α → β) (h : ∀ b a, g (f b a) = g b) (l : List α) (b : β) : g (l.foldl f b) = g b := by
  induction l generalizing b with
  | nil => rfl
  | cons a l ih => rw [List.foldl_cons, ih, h]

@[simp] theorem forward_requests (s : State) : s.forward.net.requests = s.net.requests := rfl
@[simp] theorem forward_ripple (s : State) : s.forward.net.ripple = s.net.ripple := rfl

/-- Launching a context's sends adds packets to the ripple plane and leaves the rest of the networks. -/
theorem launchCtx_keeps {γ : Type} (g : Net → γ) (hg : ∀ (n : Net) ps i, g { n with packets := ps, nextId := i } = g n) (s : State) (k : Nat) :
    g (launchCtx s k).net = g s.net := by
  unfold launchCtx
  split
  · rfl
  · exact foldl_keeps (fun t : State => g t.net) _ (fun t y => by rw [updCtx_net]; exact hg _ _ _) _ _

theorem launchCtxs_requests (s : State) (ks : List Nat) : (ks.foldl launchCtx s).net.requests = s.net.requests :=
  foldl_keeps (fun t : State => t.net.requests) _ (fun t k => launchCtx_keeps Net.requests (fun _ _ _ => rfl) t k) _ _

theorem launchCtxs_ripple (s : State) (ks : List Nat) : (ks.foldl launchCtx s).net.ripple = s.net.ripple :=
  foldl_keeps (fun t : State => t.net.ripple) _ (fun t k => launchCtx_keeps Net.ripple (fun _ _ _ => rfl) t k) _ _

/-! ## One packet for each link and way -/

/-- No two packets of the memory plane make the same hop (01 R23). -/
def Net.hopsApart (n : Net) : Prop :=
  ∀ a ∈ n.requests, ∀ b ∈ n.requests, a.moving = true → b.moving = true → a.route.head? = b.route.head? → a.id = b.id

theorem hopsApart_of_still (n : Net) (h : n.requests.any (·.moving) = false) : n.hopsApart := fun a ha b _ ma _ _ => by
  rw [List.any_eq_false] at h
  exact absurd ma (h a ha)

/-- A request may hop only over a link that no other packet takes in the same way. -/
theorem taken_of_mayHop {n : Net} {r y : Request} {h : Hop} (hm : n.mayHop r h = true) (hy : y ∈ n.requests) (my : y.moving = true)
    (hh : y.route.head? = some h) : y.id = r.id := by
  unfold Net.mayHop at hm
  simp only [Bool.and_eq_true, List.all_eq_true] at hm
  simpa [my, hh] using hm.2 y hy

/-- A launch either leaves the network, or moves the request of its number over a hop that it may make. -/
theorem launchRequest_cases (n : Net) (id : Nat) :
    launchRequest n id = n ∨ ∃ r h, r ∈ n.requests ∧ r.id = id ∧ r.route.head? = some h ∧ n.mayHop r h = true
      ∧ launchRequest n id = { n with requests := updWhere n.requests (fun x => x.id == id) (fun x => { x with moving := true }) } := by
  unfold launchRequest
  split
  · exact .inl rfl
  · rename_i r hr
    split
    · exact .inl rfl
    · rename_i h more hroute
      split
      · rename_i hm
        exact .inr ⟨r, h, List.mem_of_find?_eq_some hr, by simpa using List.find?_some hr, by rw [hroute]; rfl, hm, rfl⟩
      · exact .inl rfl

theorem launchRequest_ids (n : Net) (id : Nat) : (launchRequest n id).requests.map (·.id) = n.requests.map (·.id) := by
  obtain h | ⟨r, h, -, -, -, -, heq⟩ := launchRequest_cases n id
  · rw [h]
  · rw [heq]
    simp only [updWhere, List.map_map]
    exact List.map_congr_left (fun x _ => by simp only [Function.comp_apply]; split <;> rfl)

theorem launchRequest_ripple (n : Net) (id : Nat) : (launchRequest n id).ripple = n.ripple := by
  obtain h | ⟨r, h, -, -, -, -, heq⟩ := launchRequest_cases n id
  · rw [h]
  · rw [heq]

/-- A launch keeps hops apart: the request of its number is one alone, and its link was free. -/
theorem launchRequest_hopsApart (n : Net) (id : Nat) (distinct : (n.requests.map (·.id)).Nodup) (apart : n.hopsApart) : (launchRequest n id).hopsApart := by
  obtain h | ⟨r, h, hr, hid, hhead, hm, heq⟩ := launchRequest_cases n id
  · rwa [h]
  · rw [heq]
    have alone : ∀ x ∈ n.requests, x.id = id → x = r := fun x hx hxid =>
      List.inj_on_of_nodup_map distinct hx hr (hxid.trans hid.symm)
    have clash : ∀ y ∈ n.requests, y.id ≠ id → y.moving = true → y.route.head? ≠ r.route.head? := fun y hy hyi my hh =>
      hyi ((taken_of_mayHop hm hy my (hh.trans hhead)).trans hid)
    intro a ha b hb ma mb hab
    obtain ⟨x, hx, rfl⟩ := List.mem_map.1 ha
    obtain ⟨y, hy, rfl⟩ := List.mem_map.1 hb
    by_cases hxi : x.id = id
    · obtain rfl := alone x hx hxi
      by_cases hyi : y.id = id
      · simp [hxi, hyi]
      · simp only [hxi, hyi, beq_iff_eq, if_true, if_false] at mb hab
        exact absurd hab.symm (clash y hy hyi mb)
    · by_cases hyi : y.id = id
      · obtain rfl := alone y hy hyi
        simp only [hxi, hyi, beq_iff_eq, if_true, if_false] at ma hab
        exact absurd hab (clash x hx hxi ma)
      · simp only [hxi, hyi, beq_iff_eq, if_false] at ma mb hab ⊢
        exact apart x hx y hy ma mb hab

theorem launchRequests_hopsApart (owners : List Nat) (n : Net) (distinct : (n.requests.map (·.id)).Nodup) (apart : n.hopsApart) :
    (owners.foldl launchRequest n).hopsApart := by
  induction owners generalizing n with
  | nil => exact apart
  | cons i owners ih => exact ih _ (by rwa [launchRequest_ids]) (launchRequest_hopsApart n i distinct apart)

/-! ## Ripple boundaries -/

/-- The state in which a new ripple has begun, before its launches: the period is counted, new weights count (01 R22, 13 R380). -/
def State.rippleStarted (s : State) : State :=
  { s with net := { s.net with calmPhase := (s.net.calmPhase + 1) % 64, calm := false, ripple := s.net.ripple + 1 }
           ctxs := s.ctxs.map (fun (x : Nat × Ctx) => (x.1, x.2.adoptWeight)) }

/-- The state in which packets in forwarding buffers and sends have made their hops. -/
def State.rippleLaunched (s : State) : State := (s.rippleStarted.ctxs.map (·.1)).foldl launchCtx s.rippleStarted.forward

@[simp] theorem rippleLaunched_requests (s : State) : s.rippleLaunched.net.requests = s.net.requests :=
  (launchCtxs_requests _ _).trans (forward_requests _)
@[simp] theorem rippleLaunched_ripple (s : State) : s.rippleLaunched.net.ripple = s.net.ripple + 1 :=
  (launchCtxs_ripple _ _).trans (forward_ripple _)

theorem rippleBoundary_waits {s : State} (owners : List Nat) (h : s.net.inFlight = true) : exec (.rippleBoundary owners) s = .next s := by
  show execRippleBoundary owners s = _
  unfold execRippleBoundary
  rw [if_pos h]

theorem rippleBoundary_calm {s : State} (owners : List Nat) (h : s.net.inFlight = false) (hc : isCalm s.power.applied ((s.net.calmPhase + 1) % 64) = true) :
    exec (.rippleBoundary owners) s =
      .next { s with net := { s.net with calmPhase := (s.net.calmPhase + 1) % 64, calm := true }, power := { s.power with calmCount := s.power.calmCount + 1 } } := by
  show execRippleBoundary owners s = _
  unfold execRippleBoundary
  simp only [h, hc, if_true, Bool.false_eq_true, if_false]

theorem rippleBoundary_ripple {s : State} (owners : List Nat) (h : s.net.inFlight = false) (hc : isCalm s.power.applied ((s.net.calmPhase + 1) % 64) = false) :
    exec (.rippleBoundary owners) s = .next { s.rippleLaunched with net := owners.foldl launchRequest s.rippleLaunched.net } := by
  show execRippleBoundary owners s = _
  unfold execRippleBoundary
  simp only [h, hc, Bool.false_eq_true, if_false]
  rfl

/-- After the launches of a new ripple no two packets of the memory plane take a link in the same way (01 R23). -/
theorem rippleLaunched_hopsApart {s : State} (owners : List Nat) (h : s.net.inFlight = false) (distinct : (s.net.requests.map (·.id)).Nodup) :
    (owners.foldl launchRequest s.rippleLaunched.net).hopsApart := by
  have still : s.net.requests.any (·.moving) = false := (Bool.or_eq_false_iff.1 h).2
  exact launchRequests_hopsApart owners _ (by rwa [rippleLaunched_requests]) (hopsApart_of_still _ (by rwa [rippleLaunched_requests]))

theorem launchRequests_ripple (owners : List Nat) (n : Net) : (owners.foldl launchRequest n).ripple = n.ripple :=
  foldl_keeps Net.ripple _ launchRequest_ripple _ _

/-! ## Packets of the ripple plane at the end of a hop (07 R192) -/

/-- The state in which the corrected errors of a hop are counted (07 R192). -/
def State.countCorrected (s : State) (link : Nat × Nat × Nat) (n : Nat) : State := { s with net := s.net.correct link n }

/-- Which context a header names does not depend on the networks. -/
theorem carrier_net (s : State) (n : Net) (r : Header) : ({ s with net := n } : State).carrier r = s.carrier r := rfl

/-- What the report of a lost header says: the packet's context and rank, while the context is there. -/
def Packet.lossReport (p : Packet) (c : Option Ctx) : Report := c.elim {} (fun c => { ctx := some p.ctx, job := c.desc.job, rank := c.desc.rank })

theorem packetArrival_ripple {s : State} {i : Nat} {p : Packet} (err : PacketError) (h : s.net.packets.find? (fun y => y.id == i && y.moving) = some p) :
    exec (.onDiePacketArrival false i err) s = .next (arriveRipple s p err) := by
  show execOnDiePacketArrival false i err s = _
  unfold execOnDiePacketArrival
  simp only [Bool.false_eq_true, if_false, h]

section
variable {s : State} {p : Packet} {err : PacketError}

theorem arriveRipple_lost (h : p.lost = true) :
    arriveRipple s p err = (s.countCorrected p.planHop.link (packetCorrected err p.poison.length)).landLost p := by
  unfold arriveRipple
  rw [if_pos h]
  rfl

variable (h : p.lost = false)
include h

theorem arriveRipple_noHeader (hb : receivedHeader (p.header.bytes p.poison.length) err.header err.read = none) :
    arriveRipple s p err =
      let lost := ((s.countCorrected p.planHop.link (packetCorrected err p.poison.length)).dropCount (nodeDie p.planHop.node)).landLost p
      lost.report (linkKey p.planHop.link) 0x0A (p.lossReport (lost.ctx? p.ctx)) := by
  have reported : ∀ (t : State) (o : Option Ctx), (match o with
      | none => t.report (linkKey p.planHop.link) 0x0A {}
      | some c => t.report (linkKey p.planHop.link) 0x0A { ctx := some p.ctx, job := c.desc.job, rank := c.desc.rank }) =
        t.report (linkKey p.planHop.link) 0x0A (p.lossReport o) := fun t o => by cases o <;> rfl
  unfold arriveRipple
  simp only [h, hb, Bool.false_eq_true, if_false]
  exact reported _ _

variable {b : List Byte} (hb : receivedHeader (p.header.bytes p.poison.length) err.header err.read = some b)
include hb

theorem arriveRipple_noCarrier (hr : ∀ r, Header.read b = some r → s.carrier r = none) :
    arriveRipple s p err = (s.countCorrected p.planHop.link (packetCorrected err p.poison.length)).discardPacket p := by
  have none : (Header.read b).bind (fun r => (s.carrier r).map (fun c => (r, c))) = none := by
    cases hread : Header.read b with
    | none => rfl
    | some r => simp [hr r hread]
  unfold arriveRipple
  simp only [h, hb, carrier_net, none, Bool.false_eq_true, if_false]
  rfl

variable {r : Header} {c : Ctx} (hr : Header.read b = some r) (hc : s.carrier r = some c)
include hr hc

theorem arriveRipple_bad (hbad : badPacket b = true) :
    arriveRipple s p err = ((s.countCorrected p.planHop.link (packetCorrected err p.poison.length)).discardPacket p).suspectSender p.ctx p.src := by
  unfold arriveRipple
  simp only [h, hb, carrier_net, hr, hc, hbad, Option.bind_some, Option.map_some, Bool.false_eq_true, if_false, if_true]
  rfl

theorem arriveRipple_good (hgood : badPacket b = false) :
    arriveRipple s p err =
      let s' := s.countCorrected p.planHop.link (packetCorrected err p.poison.length)
      let data := packetPayload err s.freeCount p.bytes (p.poison.zipWith (· || ·) (r.poison ++ List.replicate p.poison.length false))
      let written := p.planHop.members.foldl (fun s l => s.atHome r.ctx l (fun c => deliverTo s.st.now r.granule data.1 data.2 (if r.signal then some r.token else none) c l))
        (if err.payload = [] then s' else s'.spend)
      written.landPacket { p with bytes := data.1, poison := data.2 } := by
  unfold arriveRipple
  simp only [h, hb, carrier_net, hr, hc, hgood, Option.bind_some, Option.map_some, Bool.false_eq_true, if_false, List.isEmpty_iff]
  rfl

end

/-! ## Packets of the memory plane at the end of a hop (07 R192) -/

theorem packetArrival_memory {s : State} {i : Nat} {r : Request} {h : Hop} {more : List Hop} (err : PacketError)
    (hr : s.net.requests.find? (fun y => y.id == i && y.moving) = some r) (hroute : r.route = h :: more) :
    exec (.onDiePacketArrival true i err) s = .next (arriveMemory s r h err) := by
  show execOnDiePacketArrival true i err s = _
  unfold execOnDiePacketArrival
  simp only [if_true, hr, hroute]

section
variable {s : State} {r : Request} {h : Hop} {err : PacketError}

theorem arriveMemory_noHeader (hb : receivedHeader (r.header.bytes r.poison.length) err.header err.read = none) :
    arriveMemory s r h err = (((s.countCorrected (linkOf true h) (packetCorrected err r.poison.length)).dropCount (nodeDie h.2)).report
      (linkKey (linkOf true h)) 0x0A {}).loseTransfer r (linkKey (linkOf true h)) := by
  unfold arriveMemory
  simp only [hb]
  rfl

variable {b : List Byte} (hb : receivedHeader (r.header.bytes r.poison.length) err.header err.read = some b)
include hb

theorem arriveMemory_noCarrier (hx : ∀ x, Header.read b = some x → s.carrier x = none) :
    arriveMemory s r h err = ((s.countCorrected (linkOf true h) (packetCorrected err r.poison.length)).dropRequest r.id).dropCount (nodeDie h.2) := by
  have none : (Header.read b).bind (fun x => (s.carrier x).map (fun _ => x)) = none := by
    cases hread : Header.read b with
    | none => rfl
    | some x => simp [hx x hread]
  unfold arriveMemory
  simp only [hb, carrier_net, none]
  rfl

variable {x : Header} {c : Ctx} (hx : Header.read b = some x) (hc : s.carrier x = some c)
include hx hc

theorem arriveMemory_bad (hbad : badPacket b = true) :
    arriveMemory s r h err = (((s.countCorrected (linkOf true h) (packetCorrected err r.poison.length)).dropCount (nodeDie h.2)).suspectSender r.ctx r.core).loseTransfer r
      (linkKey (linkOf true h)) := by
  unfold arriveMemory
  simp only [hb, carrier_net, hx, hc, hbad, Option.bind_some, Option.map_some, if_true]
  rfl

theorem arriveMemory_good (hgood : badPacket b = false) :
    arriveMemory s r h err =
      let s' := s.countCorrected (linkOf true h) (packetCorrected err r.poison.length)
      let data := packetPayload err s.freeCount r.bytes r.poison
      let r' := { r with addr := x.remote, granule := x.granule, bytes := data.1, poison := data.2, route := r.route.drop 1, moving := false, last := some h }
      ((if err.payload = [] then s' else s'.spend).putRequest r').landed r' := by
  unfold arriveMemory
  simp only [hb, carrier_net, hx, hc, hgood, Option.bind_some, Option.map_some, Bool.false_eq_true, if_false, List.isEmpty_iff]
  rfl

end

/-- Settles O22: a boundary by its three cases, where apart hops follow from what each launch checks; an arrival by what its header reads as. -/
theorem ripplesAndPackets : Obligations.RipplesAndPackets := by
  unfold Obligations.RipplesAndPackets
  intro s
  refine ⟨fun owners => rippleBoundary_waits owners, fun owners still => ?_, fun i p err hp => ?_, fun i r h more err hr hroute => ?_⟩
  · intro q started launched
    have ripple (hq : (q + 1) * s.power.applied / 64 ≤ q * s.power.applied / 64) := rippleBoundary_ripple owners still (decide_eq_false (Nat.not_lt.2 hq))
    exact ⟨fun hq => rippleBoundary_calm owners still (decide_eq_true hq), ripple, fun hq distinct =>
      ⟨_, ripple hq, (launchRequests_ripple _ _).trans (rippleLaunched_ripple s), rippleLaunched_hopsApart owners still distinct⟩⟩
  · intro n h s' lost suspect
    rw [packetArrival_ripple err hp]
    refine ⟨fun hl => ?_, fun hl hb => ?_, fun b hl hb => ⟨fun hr => ?_, fun r c hr hc => ⟨fun hbad => ?_, fun hgood => ?_⟩⟩⟩
    · exact congrArg _ (arriveRipple_lost hl)
    · have suspected : ∀ o : Option Ctx, p.lossReport o =
          match o with | none => {} | some c => { ctx := some p.ctx, job := c.desc.job, rank := c.desc.rank } := fun o => by cases o <;> rfl
      exact congrArg _ ((arriveRipple_noHeader hl hb).trans (congrArg (lost.report (linkKey h.link) 0x0A) (suspected (lost.ctx? p.ctx))))
    · exact congrArg _ (arriveRipple_noCarrier hl hb hr)
    · exact congrArg _ (arriveRipple_bad hl hb hr hc hbad)
    · exact congrArg _ (arriveRipple_good hl hb hr hc hgood)
  · intro n link s'
    rw [packetArrival_memory err hr hroute]
    refine ⟨fun hb => ?_, fun b hb => ⟨fun hx => ?_, fun x c hx hc => ⟨fun hbad => ?_, fun hgood => ?_⟩⟩⟩
    · exact congrArg _ (arriveMemory_noHeader hb)
    · exact congrArg _ (arriveMemory_noCarrier hb hx)
    · exact congrArg _ (arriveMemory_bad hb hx hc hbad)
    · have landed := arriveMemory_good hb hx hc hgood (h := h)
      rw [hroute] at landed
      exact congrArg _ landed

end Sys2Proof.Machine

/-! PROOFS. What the step driver's sends, saves and program starts leave: the lemmas behind the statements about the learner step (09 R253 to R282). -/

namespace Sys2Proof.Machine

/-! ## Sends through Seif ports -/

/-- Only the ports, the attention log and the count of free values differ. -/
def SentOnly (s t : State) : Prop := t = { s with seif := t.seif, attn := t.attn, freeCount := t.freeCount }

section
variable {s t u : State}

theorem SentOnly.trans (h : SentOnly s t) (h' : SentOnly t u) : SentOnly s u := by
  unfold SentOnly at *
  rw [h', h]

theorem SentOnly.ctxs (h : SentOnly s t) : t.ctxs = s.ctxs := by rw [h]
theorem SentOnly.mem (h : SentOnly s t) : t.mem = s.mem := by rw [h]

end

theorem sentOnly_seif (s : State) (x : Seif) : SentOnly s { s with seif := x } := rfl
theorem sentOnly_spend (s : State) : SentOnly s s.spend := rfl

theorem sendFrame_sentOnly (s : State) (p typ : Nat) (b : List Byte) : SentOnly s (s.sendFrame p typ b) := by
  unfold State.sendFrame
  simp only
  split
  · rfl
  · split <;> rfl

theorem sendBytes_sentOnly (n : Nat) (s : State) (p : Nat) (b : List Byte) : SentOnly s (State.sendBytes n s p b) := by
  induction n generalizing s b with
  | zero => rfl
  | succ n ih =>
    unfold State.sendBytes
    split
    · rfl
    · exact (sendFrame_sentOnly _ _ _ _).trans (ih _ _)

theorem sendPackets_sentOnly (s : State) (p : Nat) (l : List ReadyPacket) : SentOnly s (s.sendPackets p l) :=
  (sentOnly_seif s _).trans (sendBytes_sentOnly _ _ _ _)

theorem pump_sentOnly (s : State) (k p flow : Nat) : SentOnly s (s.pump k p flow) := by
  unfold State.pump
  split
  · rfl
  · simp only
    split
    · rfl
    · exact ((sentOnly_spend s).trans (sendPackets_sentOnly _ _ _)).trans (sentOnly_seif _ _)

theorem pumpLoose_sentOnly (s : State) (p : Nat) : SentOnly s (s.pumpLoose p) := by
  unfold State.pumpLoose
  simp only
  split
  · rfl
  · exact sendPackets_sentOnly _ _ _

theorem addReady_sentOnly (s : State) (x : ReadyPacket) : SentOnly s (s.addReady x) := by
  unfold State.addReady
  simp only
  split
  · exact (sentOnly_seif s _).trans (pumpLoose_sentOnly _ _)
  · exact (sentOnly_seif s _).trans (pump_sentOnly _ _ _ _)

theorem peerWriteGo_sentOnly (track : Bool) (k : Nat) (job : W64) (src rank flow n : Nat) (s : State) (a : Nat) (b : List Byte) (p : List Bool) :
    SentOnly s (State.peerWriteGo track k job src rank flow n s a b p) := by
  induction n generalizing s a b p with
  | zero => rfl
  | succ n ih =>
    unfold State.peerWriteGo
    split
    · rfl
    · exact ((sentOnly_seif s _).trans (addReady_sentOnly _ _)).trans (ih _ _ _ _)

/-- A step control record leaves through a port (09 R273). -/
theorem sendRec_sentOnly (s : State) (k : Nat) (c : Ctx) (dest : Nat) (r : StepRec) : SentOnly s (s.sendRec k c dest r).1 := by
  unfold State.sendRec
  split
  · rfl
  · exact peerWriteGo_sentOnly _ _ _ _ _ _ _ _ _ _ _

theorem sendRecs_sentOnly (s : State) (k : Nat) (c : Ctx) (dests : List Nat) (r : StepRec) : SentOnly s (s.sendRecs k c dests r) := by
  unfold State.sendRecs
  induction dests generalizing s with
  | nil => rfl
  | cons d dests ih => exact (sendRec_sentOnly s k c d r).trans (ih _)

theorem tellFailure_sentOnly (s : State) (k : Nat) (c : Ctx) (st : StepRun) (again poison : Bool) : SentOnly s (tellFailure s k c st again poison) := by
  unfold tellFailure
  split
  · exact sendRecs_sentOnly _ _ _ _ _
  · exact sendRec_sentOnly _ _ _ _ _

@[simp] theorem sendRecs_ctx? (s : State) (k : Nat) (c : Ctx) (dests : List Nat) (r : StepRec) (j : Nat) : (s.sendRecs k c dests r).ctx? j = s.ctx? j := by
  simp [State.ctx?, (sendRecs_sentOnly s k c dests r).ctxs]
@[simp] theorem sendRecs_mem (s : State) (k : Nat) (c : Ctx) (dests : List Nat) (r : StepRec) : (s.sendRecs k c dests r).mem = s.mem :=
  (sendRecs_sentOnly s k c dests r).mem
@[simp] theorem tellFailure_ctx? (s : State) (k : Nat) (c : Ctx) (st : StepRun) (again poison : Bool) (j : Nat) :
    (tellFailure s k c st again poison).ctx? j = s.ctx? j := by simp [State.ctx?, (tellFailure_sentOnly s k c st again poison).ctxs]
@[simp] theorem raise_ctx? (s : State) (e : Event) (k : Nat) : (s.raise e).ctx? k = s.ctx? k := rfl

/-! ## Saves and restores of cores keep a context's work -/

/-- A context with the same STEPs and the same program running. -/
def SameWork (c d : Ctx) : Prop := d.steps = c.steps ∧ d.run = c.run

theorem SameWork.refl (c : Ctx) : SameWork c c := ⟨rfl, rfl⟩
theorem SameWork.trans {c d e : Ctx} (h : SameWork c d) (h' : SameWork d e) : SameWork c e := ⟨h'.1.trans h.1, h'.2.trans h.2⟩

theorem putCore_sameWork (c : Ctx) (l : Nat) (x : Core) : SameWork c (c.putCore l x) := ⟨rfl, rfl⟩
theorem raisePoison_sameWork (c : Ctx) (a use : Nat) : SameWork c (c.raisePoison a use) := ⟨rfl, rfl⟩

theorem restoreOne_sameWork (c : Ctx) (s : State) (l : Nat) : SameWork c (c.restoreOne s l) := by
  unfold Ctx.restoreOne
  split
  · exact .refl c
  · simp only
    split
    · exact putCore_sameWork _ _ _
    · exact (putCore_sameWork _ _ _).trans (raisePoison_sameWork _ _ _)

theorem restoreThe_sameWork (c : Ctx) (s : State) (p : Core → Bool) : SameWork c (c.restoreThe s p) := by
  suffices ∀ (l : List (Nat × Core)) (d : Ctx), SameWork c d → SameWork c (l.foldl (fun d x => if p x.2 then d.restoreOne s x.1 else d) d) from this _ _ (.refl c)
  intro l
  induction l with
  | nil => exact fun d h => h
  | cons x l ih =>
    refine fun d h => ih _ ?_
    dsimp only
    split
    · exact h.trans (restoreOne_sameWork _ _ _)
    · exact h

/-- Context `k` is there with the work of `c`. -/
def State.Works (s : State) (k : Nat) (c : Ctx) : Prop := ∃ d, s.ctx? k = some d ∧ SameWork c d

theorem works_putCtx {s : State} {k : Nat} {c d : Ctx} (h : SameWork c d) : (s.putCtx k d).Works k c := ⟨d, ctx?_putCtx _ _ _, h⟩

@[simp] theorem putRange_ctxs (s : State) (a n : Nat) (b : SMap 8) (p : SMap 1) : (s.putRange a n b p).ctxs = s.ctxs := rfl

theorem stores_ctxs {α : Type} (a : α → Nat) (b : State → α → List Byte) (l : List α) (s : State) :
    (l.foldl (fun (t : State) x => t.store (a x) (b t x)) s).ctxs = s.ctxs := foldl_keeps State.ctxs _ (fun t x => store_ctxs t (a x) (b t x)) l s

@[simp] theorem saveOpaque_ctxs (s : State) (a : Nat) : (s.saveOpaque a).ctxs = s.ctxs := by
  unfold State.saveOpaque
  rw [spend_ctxs]
  exact stores_ctxs (fun r : Nat × Nat => a + r.1) (fun t r => t.freeBytes r.2) [row1, row3, row5] s

/-- Saving a core writes memory and changes no context. -/
@[simp] theorem saveCore_ctxs (s : State) (c : Ctx) (l : Nat) (x : Core) : (s.saveCore c l x).1.ctxs = s.ctxs := by
  unfold State.saveCore
  split
  · rfl
  · simp only
    rw [putRange_ctxs, putRange_ctxs, putRange_ctxs, putRange_ctxs, putRange_ctxs, saveOpaque_ctxs]

theorem saveOne_works {s : State} {k : Nat} {c : Ctx} (l : Nat) (h : s.Works k c) : (s.saveOne k l).Works k c := by
  obtain ⟨d, hd, hw⟩ := h
  unfold State.saveOne
  simp only [hd]
  split
  · exact ⟨d, hd, hw⟩
  · exact works_putCtx (hw.trans (putCore_sameWork _ _ _))

theorem park_works {s : State} {k : Nat} {c : Ctx} (l : Nat) (h : s.Works k c) : (s.park k l).Works k c := by
  obtain ⟨d, hd, hw⟩ := saveOne_works l h
  unfold State.park
  rw [updCtx_some _ _ _ d hd]
  split
  · exact works_putCtx hw
  · exact works_putCtx (hw.trans (putCore_sameWork _ _ _))

/-! ## Program starts -/

theorem startNow_works {s : State} {k : Nat} {c : Ctx} (key : BitVec 128) (version : Nat) (h : s.Works k c) : (startNow s k key version).Works k c := by
  obtain ⟨d, hd, hw⟩ := h
  unfold startNow
  simp only [hd]
  split
  · exact ⟨d, hd, hw⟩
  · have parked : ∀ (l : List (Nat × Core)) (t : State), t.Works k c → (l.foldl (fun t y => t.park k y.1) t).Works k c := by
      intro l
      induction l with
      | nil => exact fun t ht => ht
      | cons y l ih => exact fun t ht => ih _ (park_works _ ht)
    refine parked _ _ (works_putCtx ?_)
    exact (hw.trans (restoreThe_sameWork d s _)).trans ⟨rfl, rfl⟩

/-- A program that is loaded becomes the one that runs, and the STEPs stay. -/
theorem startProgram_works {s : State} {k : Nat} {c : Ctx} {run : RunPhase} {p : Program} (key : BitVec 128) (version : Nat)
    (hc : s.ctx? k = some c) (hp : nfind c.slots run.slot = some p) : (startProgram s k run key version).Works k { c with run := some run } := by
  unfold startProgram
  simp only [hc, hp]
  have put : (s.putCtx k { c with run := some run, deferred := some (key, version) }).Works k { c with run := some run } := works_putCtx ⟨rfl, rfl⟩
  split
  · exact startNow_works key version put
  · exact put

/-! ## Rings and completions of STEPs -/

@[simp] theorem ringPut_ctxs (s : State) (c : Ctx) (ring : Nat) (r : DataRing) (e : List Byte) : (s.ringPut c ring r e).1.ctxs = s.ctxs := by
  unfold State.ringPut
  simp only [store_ctxs, apply_ite State.ctxs, ite_self]

/-- A produced entry changes the rings of its context alone. -/
theorem produce_ctx? {s : State} {k : Nat} {c : Ctx} (ring : Nat) (e : List Byte) (hc : s.ctx? k = some c) :
    ∃ rs, (s.produce k ring e).ctx? k = some { c with rings := rs } := by
  unfold State.produce
  simp only [hc]
  split
  · exact ⟨c.rings, hc⟩
  · split
    · exact ⟨_, ctx?_updCtx _ _ _ c ((congrArg (nfind · k) (ringPut_ctxs _ _ _ _ _)).trans hc)⟩
    · exact ⟨_, ctx?_putCtx _ _ _⟩

/-- A settled context differs in its status at most. -/
theorem settle_ctx? {s : State} {k : Nat} {c : Ctx} (hc : s.ctx? k = some c) : ∃ x, (s.settle k).ctx? k = some { c with status := x } := by
  unfold State.settle
  split
  · exact ⟨c.status, hc⟩
  · rw [ctx?_updCtx _ _ _ c hc]
    split
    · exact ⟨c.status, rfl⟩
    · exact ⟨_, rfl⟩

/-- A free value does not decide what a write does. -/
theorem storePart_spend (s : State) (a : Nat) (b : List Byte) (p : Bool) : s.spend.storePart a b p = (s.storePart a b p).spend := by
  have withdrawn : s.spend.withdrawn a = s.withdrawn a := rfl
  have farOut : s.spend.farOut a = s.farOut a := rfl
  have lostAt : s.spend.lostAt a = s.lostAt a := rfl
  unfold State.storePart
  simp only [withdrawn, farOut, lostAt, spend_mem, apply_ite State.spend]
  rfl

theorem storeGranules_spend (s : State) (a : Nat) (b : List Byte) (ps : List Bool) : s.spend.storeGranules a b ps = (s.storeGranules a b ps).spend := by
  induction ps generalizing s a b with
  | nil => rfl
  | cons p ps ih =>
    unfold State.storeGranules
    rw [storePart_spend, ih]

end Sys2Proof.Machine

/-! PROOFS. The step driver on the oldest STEP of a context: its phases, its gate, its digests and its deadline (01 R26, 09 R253 to R282). -/

namespace Sys2Proof.Machine

/-! ## The oldest STEP -/

section
variable {s : State} {k : Nat} {c : Ctx} {st : StepRun} {later : List StepRun} (h : StepTurn s k c st later)
include h

/-- A STEP that takes the place of the oldest one has the turn in its place. -/
theorem StepTurn.moved {t : State} {c' : Ctx} {x : StepRun} (hc : t.ctx? k = some c') (hs : c'.steps = x :: later) (hx : x.cmd = st.cmd) :
    StepTurn t k c' x later := ⟨h.context, hc, hs, hx ▸ h.distinct⟩

theorem StepTurn.withStep {x : StepRun} (hx : x.cmd = st.cmd) : StepTurn (s.withStep k c x later) k { c with steps := x :: later } x later :=
  h.moved (ctx?_putCtx _ _ _) rfl hx

theorem StepTurn.raise (e : Event) : StepTurn (s.raise e) k c st later := ⟨h.context, h.hasCtx, h.steps, h.distinct⟩

/-- Writing a STEP back replaces the oldest one. -/
theorem StepTurn.setStep {x : StepRun} (hx : x.cmd = st.cmd) : s.setStep k x = s.withStep k c x later := by
  have rest : updWhere later (fun y => y.cmd == x.cmd) (fun _ => x) = later := by
    unfold updWhere
    conv_rhs => rw [← List.map_id later]
    exact List.map_congr_left (fun y hy => by simp [hx, h.distinct y hy])
  have steps : updWhere (st :: later) (fun y => y.cmd == x.cmd) (fun _ => x) = x :: later := by
    show (if _ then _ else _) :: updWhere later _ _ = _
    rw [rest, if_pos (by simp [hx])]
  unfold State.setStep State.withStep
  rw [updCtx_some _ _ _ c h.hasCtx, h.steps, steps]

theorem StepTurn.onStep (f : Ctx → StepRun → State) : s.onStep k st.cmd f = f c st := by
  unfold State.onStep State.step?
  simp [h.hasCtx, h.steps]

theorem StepTurn.onFirst {p : StepRun → Bool} (hp : p st = true) (f : Ctx → StepRun → State) : onFirst k s p f = .next (f c st) := by
  unfold Machine.onFirst
  rw [withCtx_some h.context h.hasCtx, h.steps]
  simp [hp]

theorem StepTurn.earlierDone : c.earlierDone st.cmd = true := by
  unfold Ctx.earlierDone
  simp [h.steps]

/-- A record that passes its checks reaches the oldest STEP. -/
theorem StepTurn.withRecord {r : StepRec} {kind : Nat} (hr : c.recordStep r = some st) (hk : r.kind.toNat = kind) (f : Ctx → StepRun → State) :
    withRecord k kind r s f = .next (f c st) := by
  unfold Machine.withRecord
  rw [withCtx_some h.context h.hasCtx, if_pos hk, hr]

/-! ## Ends of a STEP -/

/-- A STEP that completes leaves the others, and the learner as it was. -/
theorem StepTurn.finishStep (code : Nat) (tail : List Byte) :
    ∃ c', (s.finishStep k st code tail).ctx? k = some c' ∧ c'.steps = later ∧ c'.learn = c.learn := by
  have rest : c.steps.filter (fun x => x.cmd != st.cmd) = later := by
    rw [h.steps, List.filter_cons_of_neg (by simp), List.filter_eq_self]
    exact fun x hx => by simp [h.distinct x hx]
  unfold State.finishStep
  rw [updCtx_some _ _ _ c h.hasCtx]
  obtain ⟨x, hx⟩ := settle_ctx? (s := State.complete _ st.cmd code 0 tail) ((congrArg (nfind · k) (complete_ctxs _ _ _ _ _)).trans (ctx?_putCtx s k _))
  exact ⟨_, hx, rest, rfl⟩

/-- What a STEP whose outcome stands waits for: its program, its result digest and room for its record (09 R282, 02 R62, R64). -/
theorem StepTurn.tryFinish_eq {o : StepOutcome} (ho : st.outcome = some o) (hf : o ≠ .failed) :
    tryFinish s k st.cmd =
      if !st.progDone then s
      else if c.regenerates && (c.resultDigest st).isNone then s
      else if c.regenerates && !c.recordRoom s then
        (if st.ringNoted then s else (s.setStep k { st with ringNoted := true }).raise { level := 1, source := 6, ctx := some k, count := 1 })
      else (if c.regenerates then s.produce k 1 (regenRecord c st) else s).finishStep k st (if o == .committed then 0x00 else 0x01) st.tail := by
  unfold Machine.tryFinish
  rw [h.onStep, ho]
  cases o with
  | failed => exact absurd rfl hf
  | committed => rfl
  | skippedVote => rfl
  | skippedResult => rfl

/-- A STEP whose outcome stands stays until its program has ended and then, without a record to write, leaves; the learner is as it was. -/
theorem StepTurn.tryFinish {o : StepOutcome} (ho : st.outcome = some o) (hf : o ≠ .failed) :
    ∃ c', (tryFinish s k st.cmd).ctx? k = some c' ∧ c'.learn = c.learn ∧ (st.progDone = false → c'.steps = st :: later)
      ∧ (st.progDone = true → c.regenerates = false → c'.steps = later) := by
  rw [h.tryFinish_eq ho hf]
  by_cases hp : st.progDone = false
  · rw [if_pos (by simp [hp])]
    exact ⟨c, h.hasCtx, rfl, fun _ => h.steps, fun hq => absurd hp (by simp [hq])⟩
  · rw [if_neg (by simpa using hp)]
    by_cases hr : c.regenerates = true
    · suffices ∃ c', (ite _ _ _ : State).ctx? k = some c' ∧ c'.learn = c.learn from
        this.imp fun c' ⟨hc, hl⟩ => ⟨hc, hl, fun hq => absurd hq hp, fun _ hq => absurd hr (by simp [hq])⟩
      split
      · exact ⟨c, h.hasCtx, rfl⟩
      · split
        · split
          · exact ⟨c, h.hasCtx, rfl⟩
          · rw [h.setStep (x := { st with ringNoted := true }) rfl]
            exact ⟨_, ctx?_putCtx _ _ _, rfl⟩
        · obtain ⟨rs, hrs⟩ := produce_ctx? 1 (regenRecord c st) h.hasCtx
          obtain ⟨c', hc', -, hl⟩ := (h.moved (c' := { c with rings := rs }) hrs h.steps rfl).finishStep (if o == .committed then 0x00 else 0x01) st.tail
          exact ⟨c', hc', hl⟩
    · rw [if_neg (by simp [hr]), if_neg (by simp [hr]), if_neg hr]
      obtain ⟨c', hc', hs, hl⟩ := h.finishStep (if o == .committed then 0x00 else 0x01) st.tail
      exact ⟨c', hc', hl, fun hq => absurd hq hp, fun _ _ => hs⟩

end

/-! ## Skips and refusals -/

/-- A learner whose pending version is discarded, its tracked entries updated (09 R257, R275). -/
def Learner.skipped (l : Learner) (stats : List StepStat) : Learner := { l.discard with tracked := l.tracked.map (fun e => e.update stats) }

theorem discard_nonePending (l : Learner) : ∀ b ∈ l.discard.buffers, b.state ≠ .pending := fun b hb => by
  obtain ⟨d, -, rfl⟩ := List.mem_map.1 hb
  split
  · simp
  · rename_i hd
    simpa using hd

theorem nonePending_of_discard {c : Ctx} {o : Option Learner} {f : Learner → Learner} (hf : ∀ l, (f l).buffers = l.discard.buffers) (hl : c.learn = o.map f) : c.nonePending := by
  intro l h
  rw [hl] at h
  obtain ⟨l', -, rfl⟩ := Option.map_eq_some_iff.1 h
  rw [hf]
  exact discard_nonePending l'

theorem discardPending_ctx? {s : State} {k : Nat} {c : Ctx} (hc : s.ctx? k = some c) :
    (s.discardPending k).ctx? k = some { c with learn := c.learn.map Learner.discard } := ctx?_updCtx _ _ _ c hc

theorem trackUpdate_ctx? {s : State} {k : Nat} {c : Ctx} (stats : List StepStat) (hc : s.ctx? k = some c) :
    (s.trackUpdate k stats).ctx? k = some { c with learn := c.learn.map (fun l => { l with tracked := l.tracked.map (fun e => e.update stats) }) } := by
  unfold State.trackUpdate
  simp only [hc]
  cases hl : c.learn with
  | none => exact hc.trans (congrArg some (by rw [Option.map_none, ← hl]))
  | some l => simp only [Option.map_some, store_ctx?, ctx?_putCtx]

/-- A STEP that a decision "skip" has ended (09 R275). -/
def StepRun.skipped (st : StepRun) (count : Nat) (stats : List StepStat) (result : Bool) : StepRun :=
  { st with decision := some result, combined := stats, sentAt := none, pending := 0, count := count, phase := .outcome
            outcome := some (if result then .skippedResult else .skippedVote), reason := if result then 2 else 1 }

/-- A STEP whose pending version has its buffer (09 R257). -/
def StepRun.granted (st : StepRun) (v : Nat) : StepRun := { st with allocated := true, pending := v, decision := some true }

/-- The parameter groups of a learner with lr, λ and ρ as they stand in the table (09 R262). -/
def State.rereadGroups (s : State) (c : Ctx) (l : Learner) : List GroupEntry :=
  l.groups.mapIdx (fun i g => s.rereadGroup (c.desc.optimiser + l.groupsAt + 64 * i) g)

theorem rereadGroups_mem {s t : State} {c : Ctx} {l : Learner} (hm : t.mem = s.mem) : t.rereadGroups c l = s.rereadGroups c l := by
  simp only [State.rereadGroups, State.rereadGroup, State.loadNat, State.load, hm]

/-- A STEP that has heard "apply" and the rates of its groups (09 R262). -/
def StepRun.applied (st : StepRun) (groups : List GroupEntry) (stats : List StepStat) : StepRun :=
  { st with heard := true, combined := stats, phase := .optimise, sentAt := none, scalars := groups.map groupScalars, rates := groups.flatMap GroupEntry.rates }

/-- A context whose oldest STEP has heard "apply", its group rates read (09 R262). -/
def Ctx.applied (c : Ctx) (l : Learner) (groups : List GroupEntry) (st : StepRun) (stats : List StepStat) (later : List StepRun) : Ctx :=
  { c with learn := some { l with groups := groups }, steps := st.applied groups stats :: later }

section
variable {c : Ctx} {l : Learner} (hl : c.learn = some l) (groups : List GroupEntry) (st : StepRun) (stats : List StepStat) (later : List StepRun)
include hl

theorem applied_currentVersion : (c.applied l groups st stats later).currentVersion = c.currentVersion := by
  simp only [Ctx.applied, Ctx.currentVersion, hl]

/-- Group rates and STEPs do not decide whether a version can be allocated. -/
theorem applied_canAllocate : (c.applied l groups st stats later).canAllocate { l with groups := groups } = c.canAllocate l := by
  simp only [Ctx.canAllocate, applied_currentVersion hl]
  rfl

end

section
variable {s : State} {k : Nat} {c : Ctx} {st : StepRun} {later : List StepRun} (h : StepTurn s k c st later)
include h

/-- A skip takes effect: no version is pending, tracked entries are updated, and the STEP has its outcome (09 R275). -/
theorem StepTurn.adoptSkip (ho : st.outcome = none) (stats : List StepStat) (result : Bool) (voted : (st.decision == some true && result) = result) :
    ∃ c', (adoptSkip s k st stats result).ctx? k = some c' ∧ c'.learn = c.learn.map (·.skipped stats)
      ∧ (st.progDone = false → c'.steps = st.skipped ((c.learn.map (fun l => l.stepCount.toNat)).getD 0) stats result :: later)
      ∧ (st.progDone = true → c.regenerates = false → c'.steps = later) := by
  have updated : ((s.discardPending k).trackUpdate k stats).ctx? k = some { c with learn := c.learn.map (·.skipped stats) } := by
    rw [trackUpdate_ctx? stats (discardPending_ctx? h.hasCtx), Option.map_map]
    rfl
  have count : (((((s.discardPending k).trackUpdate k stats).ctx? k).bind Ctx.learn).map (fun l => l.stepCount.toNat)).getD 0 =
      (c.learn.map (fun l => l.stepCount.toNat)).getD 0 := by
    rw [updated, Option.bind_some, Option.map_map]
    rfl
  have turn := h.moved updated h.steps rfl
  unfold Machine.adoptSkip
  rw [if_neg (by simp [ho])]
  simp only [count, voted]
  change ∃ c', (Machine.tryFinish (ite _ (State.raise (State.setStep _ k (st.skipped _ stats result)) _) (State.setStep _ k (st.skipped _ stats result))) k st.cmd).ctx? k = some c' ∧ _
  rw [turn.setStep (x := st.skipped _ stats result) rfl]
  have skipped := turn.withStep (x := st.skipped ((c.learn.map (fun l => l.stepCount.toNat)).getD 0) stats result) rfl
  cases result with
  | true => exact (skipped.raise _).tryFinish (o := .skippedResult) rfl (by decide)
  | false => exact skipped.tryFinish (o := .skippedVote) rfl (by decide)

/-! ## Allocation of the pending version (09 R257) -/

theorem StepTurn.tryAllocate_room {l : Learner} (hl : c.learn = some l) (heard : st.heard = true) (fresh : st.allocated = false) (going : st.outcome = none)
    (room : c.canAllocate l = true) :
    tryAllocate s k st.cmd = s.putCtx k { c with
      learn := some (l.pend (nextVersion c.currentVersion)), steps := st.granted (nextVersion c.currentVersion) :: later } := by
  have cond : (st.heard && !st.allocated && st.outcome.isNone && c.canAllocate l) = true := by simp [heard, fresh, going, room]
  have pended := h.moved (t := s.putCtx k { c with learn := some (l.pend (nextVersion c.currentVersion)) }) (ctx?_putCtx _ _ _) h.steps rfl
  unfold tryAllocate
  rw [h.onStep]
  simp only [hl]
  rw [if_pos cond]
  exact (pended.setStep (x := st.granted (nextVersion c.currentVersion)) rfl).trans (putCtx_putCtx _ _ _ _)

theorem StepTurn.tryAllocate_full {l : Learner} (hl : c.learn = some l) (full : c.canAllocate l = false) : tryAllocate s k st.cmd = s := by
  unfold tryAllocate
  rw [h.onStep]
  simp only [hl, full, Bool.and_false, Bool.false_eq_true, if_false]

/-! ## "apply" (09 R257, R262) -/

/-- A STEP given up leaves the others, and no version is pending. -/
theorem StepTurn.giveUp (code : Nat) : ∃ c', (giveUp s k c st code).ctx? k = some c' ∧ c'.steps = later ∧ c'.nonePending := by
  have ended : ∀ e, ∃ c', ((((tellFailure s k c st false false).raise e).discardPending k).finishStep k st code (zeros 16)).ctx? k = some c'
      ∧ c'.steps = later ∧ c'.nonePending := fun e => by
    have told : ((tellFailure s k c st false false).raise e).ctx? k = some c := by rw [raise_ctx?, tellFailure_ctx?, h.hasCtx]
    obtain ⟨c', hc, hs, hl⟩ := (h.moved (discardPending_ctx? told) h.steps rfl).finishStep code (zeros 16)
    exact ⟨c', hc, hs, nonePending_of_discard (fun _ => rfl) hl⟩
  exact ended _

section
variable {l : Learner} (hl : c.learn = some l) (stats : List StepStat)
include hl

omit h in
theorem adoptApply_refused (bad : (s.rereadGroups c l).all GroupEntry.ok = false) : adoptApply s k c st stats = Machine.giveUp s k c st outOfRange := by
  unfold adoptApply
  simp only [hl]
  exact if_pos (by simpa using bad : (!(s.rereadGroups c l).all GroupEntry.ok) = true)

variable (good : (s.rereadGroups c l).all GroupEntry.ok = true)
include good

theorem StepTurn.adoptApply_eq : adoptApply s k c st stats = tryAllocate (s.putCtx k (c.applied l (s.rereadGroups c l) st stats later)) k st.cmd := by
  have read := h.moved (t := s.putCtx k { c with learn := some { l with groups := s.rereadGroups c l } }) (ctx?_putCtx _ _ _) h.steps rfl
  unfold adoptApply
  simp only [hl]
  refine (if_neg (by simp [good] : ¬ (!(s.rereadGroups c l).all GroupEntry.ok) = true)).trans ?_
  exact congrArg (tryAllocate · k st.cmd) ((read.setStep (x := st.applied (s.rereadGroups c l) stats) rfl).trans (putCtx_putCtx _ _ _ _))

end

/-! ## Decisions as they go down the tree (09 R275) -/

theorem StepTurn.sent (dests : List Nat) (r : StepRec) : StepTurn (s.sendRecs k c dests r) k c st later :=
  h.moved ((sendRecs_ctx? _ _ _ _ _ _).trans h.hasCtx) h.steps rfl

theorem StepTurn.passSkip (ho : st.outcome = none) (stats : List StepStat) :
    ∃ c', (passDecision s k c st false stats).ctx? k = some c' ∧ c'.learn = c.learn.map (·.skipped stats)
      ∧ (st.progDone = false → c'.steps = st.skipped ((c.learn.map (fun l => l.stepCount.toNat)).getD 0) stats (st.decision == some true) :: later)
      ∧ (st.progDone = true → c.regenerates = false → c'.steps = later) := (h.sent _ _).adoptSkip ho stats _ (Bool.and_self _)

section
variable {l : Learner} (hl : c.learn = some l) (unheard : st.heard = false) (stats : List StepStat)
include hl unheard

omit h hl in
theorem passApply_eq : ∃ dests r, passDecision s k c st true stats = adoptApply (s.sendRecs k c dests r) k c st stats := by
  unfold passDecision adoptDecision
  simp only [unheard, Bool.not_true, Bool.false_eq_true, if_false]
  exact ⟨_, _, rfl⟩

theorem StepTurn.passApply_refused (bad : (s.rereadGroups c l).all GroupEntry.ok = false) :
    ∃ c', (passDecision s k c st true stats).ctx? k = some c' ∧ c'.steps = later ∧ c'.nonePending := by
  obtain ⟨dests, r, heq⟩ := passApply_eq (s := s) (k := k) (c := c) unheard stats
  rw [heq, adoptApply_refused hl stats (by rwa [rereadGroups_mem (sendRecs_mem _ _ _ _ _)])]
  exact (h.sent dests r).giveUp _

variable (good : (s.rereadGroups c l).all GroupEntry.ok = true)
include good

/-- "apply" with good rates is heard, and its version waits for a buffer and areas alone. -/
theorem StepTurn.passApply_heard : ∃ t, passDecision s k c st true stats = tryAllocate t k st.cmd ∧ t.mem = s.mem
    ∧ StepTurn t k (c.applied l (s.rereadGroups c l) st stats later) (st.applied (s.rereadGroups c l) stats) later := by
  obtain ⟨dests, r, heq⟩ := passApply_eq (s := s) (k := k) (c := c) unheard stats
  have same := rereadGroups_mem (c := c) (l := l) (sendRecs_mem s k c dests r)
  rw [heq, (h.sent dests r).adoptApply_eq hl stats (by rwa [same]), same]
  exact ⟨_, rfl, sendRecs_mem _ _ _ _ _, h.moved (ctx?_putCtx _ _ _) rfl rfl⟩

theorem StepTurn.passApply_full (full : c.canAllocate l = false) :
    (passDecision s k c st true stats).mem = s.mem
      ∧ (passDecision s k c st true stats).ctx? k = some (c.applied l (s.rereadGroups c l) st stats later) := by
  obtain ⟨t, heq, hm, turn⟩ := h.passApply_heard hl unheard stats good
  have stays : tryAllocate t k st.cmd = t := turn.tryAllocate_full rfl ((applied_canAllocate hl _ _ _ _).trans full)
  rw [heq, stays]
  exact ⟨hm, turn.hasCtx⟩

theorem StepTurn.passApply_room (fresh : st.allocated = false) (going : st.outcome = none) (room : c.canAllocate l = true) :
    (passDecision s k c st true stats).mem = s.mem ∧ ∃ c', (passDecision s k c st true stats).ctx? k = some c'
      ∧ c'.learn = some (({ l with groups := s.rereadGroups c l } : Learner).pend (nextVersion c.currentVersion))
      ∧ c'.steps = (st.applied (s.rereadGroups c l) stats).granted (nextVersion c.currentVersion) :: later := by
  obtain ⟨t, heq, hm, turn⟩ := h.passApply_heard hl unheard stats good
  have grants := turn.tryAllocate_room rfl rfl fresh going ((applied_canAllocate hl _ _ _ _).trans room)
  rw [applied_currentVersion hl] at grants
  rw [heq]
  exact ⟨(congrArg State.mem grants).trans hm, _, (congrArg (State.ctx? · k) grants).trans (ctx?_putCtx _ _ _), rfl, rfl⟩

end

end

/-! ## Holds of micro-batches -/

/-- A micro-batch starts with a hold on the version consumed (09 R255). -/
theorem startBatch_eq {s : State} {k : Nat} {c : Ctx} (hc : s.ctx? k = some c) (x : StepRun) (b : Nat) :
    startBatch s k x b =
      let c' : Ctx := { c with learn := c.learn.map (fun l => l.hold x.consumed (fun hs => hs ++ [.microBatch x.cmd b])) }
      beginProgram (s.putCtx k c') k c' { x with batch := b } .learner 2 := by
  unfold startBatch State.addHold
  rw [updCtx_some _ _ _ c hc]
  simp only [ctx?_putCtx]

/-! ## Reports that go up (09 R273, R276) -/

/-- A STEP whose gate report has the module's own statistics (09 R272). -/
def StepRun.withGate (st : StepRun) (own : List StepStat) (sentAt : Option Nat) : StepRun :=
  { st with ownStats := some own, gate := { st.gate with own := true, stats := addStats st.gate.stats own }, sentAt := sentAt }

/-- A STEP whose gate report has the module's own part, from now on if not before. -/
def StepRun.ownGate (st : StepRun) (s : State) (c : Ctx) : StepRun :=
  if st.gate.own then st else st.withGate (st.ownStats.getD (s.ownStats c)) (if c.desc.rank = 0 then some s.st.now.toNat else none)

theorem ownGate_stats (st : StepRun) (s : State) (c : Ctx) :
    (st.ownGate s c).gate.stats = if st.gate.own then st.gate.stats else addStats st.gate.stats (st.ownStats.getD (s.ownStats c)) := by
  unfold StepRun.ownGate
  split <;> rfl

/-- A STEP whose gate report is out. -/
def StepRun.gateSent (st : StepRun) (now : Nat) : StepRun := { st with gate := { st.gate with sent := true }, sentAt := some now }

/-- A STEP whose prepare report is out. -/
def StepRun.prepSent (st : StepRun) (now : Nat) : StepRun := { st with prep := { st.prep with sent := true }, phase := .prepared, sentAt := some now }

section
variable {s : State} {k : Nat} {c : Ctx} {st : StepRun} {later : List StepRun} (h : StepTurn s k c st later)
include h

/-- A gate report that has every part goes up; at the root the decision goes down (09 R273, R275). -/
theorem StepTurn.tryGate (hp : st.phase = .gate) (hs : st.gate.sent = false) (own : c.gateOwn st s.colls k = true)
    (full : st.gate.full c.desc.modules c.desc.rank = true) :
    let x := st.ownGate s c
    let finite := st.votes.all (·.2) && st.collFinite && st.gate.finite
    let y := x.gateSent s.st.now.toNat
    tryGate s k st.cmd =
      (if c.desc.rank = 0 then passDecision (s.withStep k c y later) k c y (finite && st.gate.ranks + 1 == c.desc.modules) x.gate.stats
       else ((s.withStep k c y later).sendRec k c (parentRank c.desc.rank) (stepRecord c y 1 (st.gate.ranks + 1) (b2n finite) 0 x.gate.stats)).1) := by
  have cond : (st.phase == .gate && !st.gate.sent && c.gateOwn st s.colls k) = true := by simp [hp, hs, own]
  unfold Machine.tryGate StepRun.ownGate
  rw [h.onStep]
  simp only
  rw [if_pos cond]
  cases ho : st.gate.own with
  | true =>
    simp only [if_true]
    rw [if_pos full, ← h.setStep (x := st.gateSent s.st.now.toNat) rfl]
    rfl
  | false =>
    simp only [Bool.false_eq_true, if_false]
    rw [if_pos (show ({ st.gate with own := true, stats := addStats st.gate.stats (st.ownStats.getD (s.ownStats c)) } : Gathered).full _ _ = true from full)]
    rw [← h.setStep (x := (st.withGate _ _).gateSent s.st.now.toNat) rfl]
    rfl

/-- A prepare report that has every part goes up; the root decides (09 R276, R277). -/
theorem StepTurn.tryPrepare (hp : st.phase = .optimise) (ha : st.allocated = true) (hs : st.prep.sent = false) (own : c.prepOwn st s.colls k = true)
    (verdict : s.verdictPending k c = false) (full : st.prep.full c.desc.modules c.desc.rank = true) :
    let x := if st.prep.own then st else st.withOwn c.desc.modules (if c.desc.rank = 0 then some s.st.now.toNat else none)
    let y := x.prepSent s.st.now.toNat
    tryPrepare s k st.cmd =
      (if c.desc.rank = 0 then decideCommit (s.withStep k c y later) k c y
       else ((s.withStep k c y later).sendRec k c (parentRank c.desc.rank) (stepRecord c y 3 y.prep.ranks
         (b2n y.prep.prepared * 2 + b2n y.prep.result * 4 + b2n y.prep.mismatch * 8 + b2n y.prep.poison * 16) 0 [])).1) := by
  have cond : (st.phase == .optimise && st.allocated && !st.prep.sent && c.prepOwn st s.colls k && !s.verdictPending k c) = true := by
    simp [hp, ha, hs, own, verdict]
  unfold Machine.tryPrepare
  rw [h.onStep]
  simp only
  rw [if_pos cond]
  cases ho : st.prep.own with
  | true =>
    simp only [if_true]
    rw [if_pos full, ← h.setStep (x := st.prepSent s.st.now.toNat) rfl]
    rfl
  | false =>
    simp only [Bool.false_eq_true, if_false]
    rw [if_pos (show (st.withOwn _ _).prep.full _ _ = true from full), ← h.setStep (x := (st.withOwn _ _).prepSent s.st.now.toNat) rfl]
    rfl

/-! ## Phases (01 R26) -/

/-- A program of the STEP begins: it runs, and the STEP waits for its end in the phase. -/
theorem StepTurn.beginProgram {x : StepRun} {p : Program} (phase : StepPhase) (i : Nat) (hx : x.cmd = st.cmd) (hp : nfind c.slots (x.slots.getD i 0xFF) = some p) :
    ∃ c', (beginProgram s k c x phase i).ctx? k = some c' ∧ c'.steps = { x with phase := phase, progDone := false } :: later
      ∧ c'.run = some (RunPhase.of x.cmd (x.slots.getD i 0xFF) (BitVec.ofNat 64 x.counter)) := by
  unfold Machine.beginProgram
  rw [h.setStep (x := { x with phase := phase, progDone := false }) hx]
  obtain ⟨c', hc, hs, hr⟩ := startProgram_works (run := RunPhase.of x.cmd (x.slots.getD i 0xFF) (BitVec.ofNat 64 x.counter))
    (grainKey "VXGRKEY1" c.digestJob (BitVec.ofNat 64 x.counter)) (if x.consumed = 0 then c.currentVersion else x.consumed)
    (h.withStep (x := { x with phase := phase, progDone := false }) hx).hasCtx hp
  exact ⟨c', hc, hs, hr⟩

/-- Phase 2 acts on the oldest STEP once it is accepted, or scored. -/
theorem StepTurn.phase2 (hp : st.phase = .accepted ∨ st.phase = .scoring ∧ st.progDone = true) : exec (.stepPhaseStart k 2) s = .next (startScoring s k c st) :=
  h.onFirst (p := fun st => st.phase == .accepted || (st.phase == .scoring && st.progDone)) (by simpa using hp) (startScoring s k)

/-- Phase 3 acts on the oldest STEP once its advantage program, or that of a micro-batch that is not the last, has ended. -/
theorem StepTurn.phase3 (hp : st.phase = .advantage ∨ st.phase = .learner ∧ st.batch + 1 < st.batches) (hd : st.progDone = true) :
    exec (.stepPhaseStart k 3) s = .next (startLearner s k c st) :=
  h.onFirst (p := fun st => (st.phase == .advantage || (st.phase == .learner && !st.batchesDone)) && st.progDone)
    (by rcases hp with hp | ⟨hp, hb⟩ <;> simp [hp, hd, StepRun.batchesDone]; omega) (startLearner s k)

theorem StepTurn.phase4 (hp : st.phase = .learner) (hd : st.progDone = true) (hb : st.batches ≤ st.batch + 1) :
    exec (.stepPhaseStart k 4) s = .next (s.withStep k c { st with phase := .exchange } later) := by
  have done : st.batchesDone = true := by simp [StepRun.batchesDone, hp, hd, hb]
  refine (h.onFirst (p := StepRun.batchesDone) done (fun _ st => startExchange s k st)).trans (congrArg _ ?_)
  exact (if_pos done).trans (h.setStep (x := { st with phase := .exchange }) rfl)

/-- A module in doubt about a decision starts no learner program (09 R278). -/
theorem StepTurn.phase3_doubt (hd : s.doubtful = true) : exec (.stepPhaseStart k 3) s = .next s := by
  show Machine.onFirst k s _ (startLearner s k) = _
  unfold Machine.onFirst
  rw [withCtx_some h.context h.hasCtx]
  split
  · rfl
  · exact congrArg _ (if_pos (by simp [hd]))

theorem StepTurn.phase5 (hr : c.run = none) (hp : st.phase = .exchange) (hc : ∀ x ∈ s.colls, x.ctx ≠ k) :
    exec (.stepPhaseStart k 5) s = .next (Machine.tryGate (Machine.beginProgram (copyShard s k c st).1 k c (copyShard s k c st).2 .gate 3) k st.cmd) := by
  refine (h.onFirst (p := fun st => st.phase == .exchange) (by simp [hp]) (startGate s k)).trans (congrArg _ ?_)
  unfold startGate
  rw [if_pos (by simpa [hp, hr] using hc)]
  have cmd : (copyShard s k c st).2.cmd = st.cmd := by
    unfold copyShard
    simp only
    split <;> rfl
  simp only [cmd]

end

end Sys2Proof.Machine

/-! PROOFS. What the statement of the step driver's phases and reports says, clause by clause (01 R26, 09 R255 to R280). -/

namespace Sys2Proof.Machine

section
variable {s : State} {k : Nat} {c : Ctx} {st : StepRun} {later : List StepRun} (h : StepTurn s k c st later)
include h

/-! ## Starts of phases 2 and 3 -/

section
variable (hr : c.run = none)
include hr

theorem StepTurn.scoring_starts (hp : st.phase = .accepted) (hs : st.slots.getD 0 0xFF ≠ 0xFF) (hroll : s.someRoll c = true) :
    exec (.stepPhaseStart k 2) s = .next (Machine.beginProgram s k c st .scoring 0) := by
  rw [h.phase2 (.inl hp)]
  unfold startScoring
  rw [if_neg (by simp [hr, h.earlierDone]), if_pos (by simpa [hp] using hs), if_pos hroll]

theorem StepTurn.advantage_starts (hp : st.phase = .accepted ∧ st.slots.getD 0 0xFF = 0xFF ∨ st.phase = .scoring ∧ st.progDone = true)
    (hready : s.rollsReady c = true) (hrew : s.rewarded c = true) : exec (.stepPhaseStart k 2) s = .next (Machine.beginProgram s k c st .advantage 1) := by
  rw [h.phase2 (hp.imp_left And.left)]
  unfold startScoring
  rw [if_neg (by simp [hr, h.earlierDone]), if_neg, if_pos]
  · rcases hp with ⟨hp, -⟩ | ⟨hp, hd⟩
    · simp [hp, hready, hrew]
    · simp [hp, hd, hready, hrew]
  · rcases hp with ⟨-, hs⟩ | ⟨hp, -⟩
    · simp only [hs, bne_self_eq_false, Bool.and_false, Bool.false_eq_true, not_false_eq_true]
    · simp [hp]

variable (certain : s.doubtful = false) (hd : st.progDone = true)
include certain hd

/-- A step whose supplied map fails its check ends (10 R286). -/
theorem StepTurn.learner_refuses (hp : st.phase = .advantage) (hready : s.rollsReady c = true) (hn : s.takeRolls k c st = none) :
    exec (.stepPhaseStart k 3) s = .next (s.finishStep k st 0x11 (zeros 16)) := by
  rw [h.phase3 (.inl hp) hd]
  unfold startLearner
  rw [if_neg (by simp [hr, certain]), if_neg (by simp [hp]), if_pos (by simp [hp, hd, h.earlierDone, hready]), hn]

/-- The rollouts are taken, and the first micro-batch starts on the version that is current (10 R298, R300). -/
theorem StepTurn.learner_starts (hp : st.phase = .advantage) (hready : s.rollsReady c = true) {s' : State} {st' : StepRun} (hn : s.takeRolls k c st = some (s', st')) :
    exec (.stepPhaseStart k 3) s = .next (startBatch s' k { st' with consumed := c.currentVersion, source := c.learn.bind (·.lastStep) } 0) := by
  rw [h.phase3 (.inl hp) hd]
  unfold startLearner
  rw [if_neg (by simp [hr, certain]), if_neg (by simp [hp]), if_pos (by simp [hp, hd, h.earlierDone, hready]), hn]

theorem StepTurn.batch_starts (hp : st.phase = .learner) (hb : st.batch + 1 < st.batches) :
    exec (.stepPhaseStart k 3) s = .next (startBatch s k st (st.batch + 1)) := by
  rw [h.phase3 (.inr ⟨hp, hb⟩) hd]
  unfold startLearner
  rw [if_neg (by simp [hr, certain]), if_pos (by simp [hp]), if_pos (by simp [hd, hb])]

end

/-! ## The shard copy (09 R272) -/

omit h in
/-- In a job of one module the shard goes to a region of its own far memory. -/
theorem copyShard_own (hm : c.desc.modules = 1) :
    (copyShard s k c st).2.shardCopied = true ∧ ∃ a, (copyShard s k c st).1.mem = (s.storeGranules a (st.shards.flatMap (fun p => s.load p.1 p.2))
      (st.shards.flatMap (fun p => (List.range (p.2 / 64)).map (fun i => s.poisonAt (p.1 + 64 * i))))).mem := by
  unfold copyShard
  simp only
  rw [if_pos hm]
  exact ⟨rfl, _, by rw [storeGranules_spend, spend_mem]⟩

/-! ## Shard digests (09 R260, R276, R279) -/

section
variable {l : Learner} (hl : c.learn = some l) (hp : st.phase = .optimise) (ha : st.allocated = true) (hd : st.progDone = true)
include hl hp ha hd

theorem StepTurn.ownDigest_kept (clean : s.pendingPoison c l st = none) :
    let own := { st with ownDigest := some (s.shardDigest c.desc.job st.counter (c.pendingPlanes l st false).1 (c.pendingPlanes l st false).2) }
    exec (.shardDigestComplete k false) s = .next (Machine.tryPrepare ((chargeMismatch s k c own).setStep k own) k st.cmd) := by
  refine (h.onFirst (p := fun st => st.phase == .optimise && st.allocated && st.progDone) (by simp [hp, ha, hd]) _).trans (congrArg _ ?_)
  simp only [hl, clean, Bool.false_and, Bool.false_eq_true, if_false]

theorem StepTurn.mirrorDigest_sent (clean : s.pendingPoison c l st = none) (hm : c.desc.modules ≠ 1) :
    let digest := s.shardDigest c.desc.job st.counter (c.pendingPlanes l st true).1 (c.pendingPlanes l st true).2
    exec (.shardDigestComplete k true) s = .next (Machine.tryPrepare
      ((s.peerWrite k c (c.pendingPlanes l st true).1 l.stepFlow (l.controlArea + 262080) (digest ++ leBytes 8 st.counter ++ leBytes 1 st.attempt) []).1.setStep k
        { st with mirrorDigest := some digest }) k st.cmd) := by
  refine (h.onFirst (p := fun st => st.phase == .optimise && st.allocated && st.progDone) (by simp [hp, ha, hd]) _).trans (congrArg _ ?_)
  simp only [hl, clean, hm, Bool.true_and, beq_iff_eq, if_true, if_false]

theorem StepTurn.digest_poisoned {a : Nat} (found : s.pendingPoison c l st = some a) :
    exec (.shardDigestComplete k false) s = .next (if c.desc.rank = 0 then s.putCtx k (c.raisePoison a 0x06)
      else Machine.tryPrepare ((s.putCtx k (c.raisePoison a 0x06)).setStep k { st with poisoned := true }) k st.cmd) := by
  refine (h.onFirst (p := fun st => st.phase == .optimise && st.allocated && st.progDone) (by simp [hp, ha, hd]) _).trans (congrArg _ ?_)
  simp only [hl, found, Bool.false_and, Bool.false_eq_true, if_false]

end

/-! ## Deadlines (09 R273, R278, R280) -/

section
variable {sent : Nat} (hack : st.logAck = none) (hsent : st.sentAt = some sent) (hdue : sent + 2 * second ≤ s.st.now.toNat)
include hack hsent hdue

theorem StepTurn.deadline (hp : st.phase = .gate ∨ st.phase = .optimise ∨ st.phase = .prepared) :
    exec (.exchangeDeadlineExpiry k) s = .next (
      if c.desc.rank = 0 then abortAll s k c st true
      else if st.phase == .prepared then
        if st.inDoubt then s.finishStep k st 0x31 (zeros 16)
        else
          (s.sendRecs k c (([0, 1 % c.desc.modules].dedup).filter (· != c.desc.rank))
            (stepRecord c { st with inDoubt := true, sentAt := some s.st.now.toNat } 8 1 0 0 [])).setStep k { st with inDoubt := true, sentAt := some s.st.now.toNat }
      else failStep (s.setStep k { st with sentAt := some s.st.now.toNat }) k c st true false) := by
  show execExchangeDeadlineExpiry k s = _
  unfold execExchangeDeadlineExpiry
  rw [h.onFirst (by rcases hp with hp | hp | hp <;> simp [hp, hack, hsent, hdue])]

end

/-! ## Records from the tree (09 R273 to R276) -/

omit h in
theorem kind_toNat {r : StepRec} {n : Nat} (hn : n < 256) (hk : r.kind = BitVec.ofNat 8 n) : r.kind.toNat = n := by
  rw [hk, BitVec.toNat_ofNat, Nat.mod_eq_of_lt hn]

section
variable {r : StepRec} (hr : c.recordStep r = some st)
include hr

theorem StepTurn.gateReport (hk : r.kind = 1) (hchild : c.fromChild r = true) :
    exec (.gateReport k r) s = .next (Machine.tryGate (s.withStep k c { st with gate := st.gate.take r } later) k st.cmd) := by
  rw [← h.setStep (x := { st with gate := st.gate.take r }) rfl]
  exact (h.withRecord hr (kind_toNat (by decide) hk) _).trans (congrArg _ (if_pos hchild))

theorem StepTurn.prepareReport (hk : r.kind = 3) (hchild : c.fromChild r = true) :
    exec (.prepareReport k r) s = .next (Machine.tryPrepare (s.withStep k c { st with prep := st.prep.take r } later) k st.cmd) := by
  rw [← h.setStep (x := { st with prep := st.prep.take r }) rfl]
  exact (h.withRecord hr (kind_toNat (by decide) hk) _).trans (congrArg _ (if_pos hchild))

theorem StepTurn.gateDecision (hk : r.kind = 2) (hparent : c.fromParent r = true) :
    exec (.gateDecision k r) s = .next (passDecision s k c st (recFlag r 0) r.stats) :=
  (h.withRecord hr (kind_toNat (by decide) hk) _).trans (congrArg _ (if_pos hparent))

end

end

/-- Settles O34: each clause is what the step driver does on the oldest STEP of its context. -/
theorem stepPhasesAndReports : Obligations.StepPhasesAndReports := by
  unfold Obligations.StepPhasesAndReports
  intro s k c st later h held
  refine ⟨fun x phase i p hx hp => h.beginProgram phase i hx hp, h.scoring_starts, h.advantage_starts, fun hr hdoubt hp hd hready => ?_,
    fun hr hdoubt hp hd hb => ?_, h.phase3_doubt, h.phase4, fun hr hp hc => ⟨h.phase5 hr hp hc, copyShard_own⟩, fun r hrec => ?_, fun hp hs own => ?_,
    fun l hl heard fresh going => ?_, fun l hl hp ha hd => ?_, h.tryPrepare, fun sent hack hsent hdue => ?_⟩
  · refine ⟨h.learner_refuses hr hdoubt hd hp hready, fun s' st' y htake hy hcmd => ?_⟩
    rw [h.learner_starts hr hdoubt hd hp hready htake, startBatch_eq hy]
    simp only [hcmd]
    rfl
  · rw [h.batch_starts hr hdoubt hd hp hb, startBatch_eq h.hasCtx]
  · refine ⟨h.gateReport hrec, h.prepareReport hrec, fun hk hparent going => ⟨fun skip => ?_, fun l hl apply unheard => ?_⟩⟩
    · have decided := h.gateDecision hrec hk hparent
      rw [skip] at decided
      obtain ⟨c', hc', hl', hstay, hleave⟩ := h.passSkip going r.stats
      refine ⟨_, c', decided, hc', nonePending_of_discard (f := (·.skipped r.stats)) (fun _ => rfl) hl', hstay, hleave, fun l hl => ⟨l.skipped r.stats, ?_, rfl⟩⟩
      rw [hl', hl, Option.map_some]
    · have decided := h.gateDecision hrec hk hparent
      rw [apply] at decided
      refine ⟨fun good room fresh => ?_, fun good full => ?_, fun bad => ?_⟩
      · obtain ⟨hm, c', hc', hlearn, hsteps⟩ := h.passApply_room hl unheard r.stats good fresh going room
        exact ⟨_, c', decided, hm, hc', hlearn, hsteps⟩
      · obtain ⟨hm, hc'⟩ := h.passApply_full hl unheard r.stats good full
        exact ⟨_, _, decided, hm, hc', rfl, rfl⟩
      · obtain ⟨c', hc', hsteps, hnone⟩ := h.passApply_refused hl unheard r.stats bad
        exact ⟨_, c', decided, hc', hsteps, hnone⟩
  · intro stats finite full
    have reported := h.tryGate hp hs own full
    simp only [ownGate_stats] at reported
    exact ⟨s.withStep k c ((st.ownGate s c).gateSent s.st.now.toNat) later, _, ctx?_putCtx _ _ _, rfl, rfl, rfl, reported⟩
  · exact ⟨fun room => (h.onFirst (by simp [heard, fresh]) _).trans (congrArg _ (h.tryAllocate_room hl heard fresh going room)),
      fun full => (h.onFirst (by simp [heard, fresh]) _).trans (congrArg _ (h.tryAllocate_full hl full))⟩
  · refine ⟨h.ownDigest_kept hl hp ha hd, h.mirrorDigest_sent hl hp ha hd, fun a found => ⟨fun root => ?_, fun child => ?_⟩⟩
    · rw [h.digest_poisoned hl hp ha hd found, if_pos root]
    · rw [h.digest_poisoned hl hp ha hd found, if_neg child]
  · have expired := fun hp => h.deadline hack hsent hdue hp
    refine ⟨fun root hp => ?_, fun child hp certain => ?_, fun child hp doubt => ?_, fun child hp going => ?_⟩
    · rw [expired hp, if_pos root]
    · rw [expired (.inr (.inr hp)), if_neg child, if_pos (by simp [hp]), if_neg (by simp [certain]),
        (h.sent _ _).setStep (x := { st with inDoubt := true, sentAt := some s.st.now.toNat }) rfl]
      exact ⟨_, rfl, sendRecs_mem _ _ _ _ _, ctx?_putCtx _ _ _⟩
    · rw [expired (.inr (.inr hp)), if_neg child, if_pos (by simp [hp]), if_pos doubt]
    · rw [expired (hp.imp_right .inl), if_neg child, if_neg (by rcases hp with hp | hp <;> simp [hp]),
        h.setStep (x := { st with sentAt := some s.st.now.toNat }) rfl]
      have opened : st.open' = true := by rcases hp with hp | hp <;> simp [StepRun.open', hp, hack, going]
      unfold failStep tellFailure
      rw [if_neg (by simp [opened]), if_neg child, if_neg child]
      rfl

end Sys2Proof.Machine

/-! PROOFS. The one rounding procedure (03 R82): the integers it splits a magnitude into are the whole units and the remainder of the exact value, and its tests on
the discarded bits are tests on that remainder. -/

namespace Sys2Proof.Machine

/-! ## Powers of two -/

theorem ratPow_eq_zpow (e : Int) : ratPow e = (2 : Rat) ^ e := by
  unfold ratPow
  split
  next h =>
    obtain ⟨n, rfl⟩ := Int.eq_ofNat_of_zero_le h
    simp
  next h =>
    obtain ⟨n, hn⟩ := Int.eq_ofNat_of_zero_le (show 0 ≤ -e by omega)
    rw [← neg_neg e, hn]
    simp

theorem ratPow_pos (e : Int) : 0 < ratPow e := by
  rw [ratPow_eq_zpow]
  positivity

theorem ratPow_eq_two_pow_mul {e u : Int} (h : u ≤ e) : ratPow e = 2 ^ (e - u).toNat * ratPow u := by
  rw [ratPow_eq_zpow, ratPow_eq_zpow, ← zpow_natCast, Int.toNat_of_nonneg (by omega), ← zpow_add₀ two_ne_zero]
  congr 1
  omega

/-! ## The grid split: whole units and discarded bits -/

/-- The bits `splitAt` discards are less than one unit. -/
theorem splitAt_lt {m : Nat} {e u : Int} {k r sh : Nat} (h : splitAt m e u = (k, r, sh)) : r < 2 ^ sh := by
  unfold splitAt at h
  split at h <;> cases h
  · exact Nat.one_pos
  · exact Nat.mod_lt _ (Nat.two_pow_pos _)

/-- `splitAt` loses nothing: whole units and discarded bits give back the value. -/
theorem splitAt_value {m : Nat} {e u : Int} {k r sh : Nat} (h : splitAt m e u = (k, r, sh)) :
    (m : Rat) * ratPow e = k * ratPow u + r / 2 ^ sh * ratPow u := by
  unfold splitAt at h
  split at h <;> cases h
  next hu =>
    rw [ratPow_eq_two_pow_mul hu]
    push_cast
    ring
  next hu =>
    have whole : (m : Rat) = 2 ^ (u - e).toNat * (m / 2 ^ (u - e).toNat : Nat) + (m % 2 ^ (u - e).toNat : Nat) := by
      exact_mod_cast (Nat.div_add_mod m _).symm
    rw [ratPow_eq_two_pow_mul (not_le.1 hu).le, whole]
    field_simp

/-! ## What each mode does with the split -/

section
variable {m : Nat} {e u : Int} {k r sh : Nat} (h : splitAt m e u = (k, r, sh))
include h

theorem roundUnits_exact (hr : r = 0) (mode : Rounding) (draw : Nat) : roundUnits m e u mode draw = (k, false) := by
  simp [roundUnits, h, hr]

theorem roundUnits_rtz (hr : r ≠ 0) (draw : Nat) : roundUnits m e u .rtz draw = (k, true) := by
  simp [roundUnits, h, hr]

theorem roundUnits_rne (hr : r ≠ 0) (draw : Nat) :
    roundUnits m e u .rne draw = (if 2 ^ sh < 2 * r ∨ (2 * r = 2 ^ sh ∧ k % 2 = 1) then k + 1 else k, true) := by
  simp [roundUnits, h, hr]

theorem roundUnits_sr (hr : r ≠ 0) (draw : Nat) :
    roundUnits m e u .sr draw = (if draw < r * 2 ^ 16 / 2 ^ sh then k + 1 else k, true) := by
  simp [roundUnits, h, hr]

end

/-! ## The model's tests on discarded bits, as tests on the remainder -/

section
variable {ulp : Rat} (hulp : 0 < ulp) (r sh : Nat)
include hulp

theorem half_lt_discarded_iff : ulp / 2 < r / 2 ^ sh * ulp ↔ 2 ^ sh < 2 * r := by
  rw [div_mul_eq_mul_div, div_lt_div_iff₀ two_pos (by positivity), mul_comm ulp, mul_right_comm, mul_lt_mul_iff_left₀ hulp, mul_comm (r : Rat)]
  exact_mod_cast Iff.rfl

theorem discarded_eq_half_iff : r / 2 ^ sh * ulp = ulp / 2 ↔ 2 * r = 2 ^ sh := by
  rw [div_mul_eq_mul_div, div_eq_div_iff (by positivity) two_ne_zero, mul_comm ulp, mul_right_comm, mul_left_inj' hulp.ne', mul_comm (r : Rat)]
  exact_mod_cast Iff.rfl

/-- The draw of SR is compared with the first 16 discarded bits (03 R82). -/
theorem floor_discarded : (r / 2 ^ sh * ulp * 65536 / ulp : Rat).floor = (r * 2 ^ 16 / 2 ^ sh : Nat) := by
  have cancel : (r / 2 ^ sh * ulp * 65536 / ulp : Rat) = ((r * 2 ^ 16 : Nat) : Rat) / ((2 ^ sh : Nat) : Rat) := by
    push_cast
    field_simp
  rw [cancel]
  exact Rat.floor_natCast_div_natCast _ _

end

/-- Settles O60: the split of the magnitude at the grid gives the whole units and the remainder, and each mode's test on the discarded bits is the one on the remainder. -/
theorem roundingModes : Obligations.RoundingModes := by
  unfold Obligations.RoundingModes
  intro m e u draw x ulp
  rcases hs : splitAt m e u with ⟨k, r, sh⟩
  have hulp : 0 < ulp := ratPow_pos u
  have below : (r : Rat) / 2 ^ sh < 1 := (div_lt_one (by positivity)).2 (by exact_mod_cast splitAt_lt hs)
  have exact_iff : (r : Rat) / 2 ^ sh * ulp = 0 ↔ r = 0 := by simp [hulp.ne']
  refine ⟨k, r / 2 ^ sh * ulp, splitAt_value hs, by positivity, mul_lt_of_lt_one_left hulp below,
    fun h mode => roundUnits_exact hs (exact_iff.1 h) mode draw, fun h => ?_⟩
  have hr : r ≠ 0 := mt exact_iff.2 h
  refine ⟨roundUnits_rtz hs hr draw, ?_, ?_⟩
  · simp only [roundUnits_rne hs hr, half_lt_discarded_iff hulp, discarded_eq_half_iff hulp]
  · simp only [roundUnits_sr hs hr, floor_discarded hulp, Nat.cast_lt]

end Sys2Proof.Machine

/-! PROOFS. Sums of one block (04 R99 to R103): what the product of two exact values can be, how non-finite operands decide a block sum before any window is formed,
and the sign of a sum that is zero. -/

namespace Sys2Proof.Machine

/-! ## Products of exact values (03 R71) -/

theorem mul_cause_eq_one (a b : FVal) : (FVal.mul a b).2 = 1 ↔ (a.isZero = true ∧ ∃ n, b = .inf n) ∨ (b.isZero = true ∧ ∃ n, a = .inf n) := by
  cases a with
  | nan => simp [FVal.mul, FVal.isZero]
  | inf x =>
    cases b with
    | nan | inf y => simp [FVal.mul, FVal.isZero]
    | fin y n g => by_cases hn : n = 0 <;> simp [FVal.mul, FVal.isZero, hn]
  | fin x m e =>
    cases b with
    | nan | fin y n g => simp [FVal.mul, FVal.isZero]
    | inf y => by_cases hm : m = 0 <;> simp [FVal.mul, FVal.isZero, hm]

theorem mul_eq_nan (a b : FVal) : (FVal.mul a b).1 = .nan ↔ (a = .nan ∨ b = .nan) ∨ (FVal.mul a b).2 = 1 := by
  cases a with
  | nan => simp [FVal.mul]
  | inf x =>
    cases b with
    | nan | inf y => simp [FVal.mul]
    | fin y n g => by_cases hn : n = 0 <;> simp [FVal.mul, hn]
  | fin x m e =>
    cases b with
    | nan | fin y n g => simp [FVal.mul]
    | inf y => by_cases hm : m = 0 <;> simp [FVal.mul, hm]

/-- A product that is zero has a zero factor. -/
theorem isZero_of_mul_zero {a b : FVal} {n : Bool} {u : Int} (h : (FVal.mul a b).1 = .fin n 0 u) : a.isZero = true ∨ b.isZero = true := by
  cases a with
  | nan => simp [FVal.mul] at h
  | inf x =>
    cases b with
    | nan | inf y => simp [FVal.mul] at h
    | fin y m g => by_cases hm : m = 0 <;> simp [FVal.mul, hm] at h
  | fin x m e =>
    cases b with
    | nan => simp [FVal.mul] at h
    | inf y => by_cases hm : m = 0 <;> simp [FVal.mul, hm] at h
    | fin y k g => simpa [FVal.mul, FVal.isZero] using (FVal.fin.inj h).2.1

/-! ## Non-finite operands (04 R102) -/

/-- A block sum that non-finite operands decide is no finite value. -/
theorem blockSpecial_not_fin {badScale : Bool} {prods : List (FVal × Nat)} {neg : Bool} {m cause : Nat} {e : Int} :
    blockSpecial badScale prods ≠ some (.fin neg m e, cause) := by
  unfold blockSpecial
  split_ifs <;> simp

theorem blockSum_special {kind : OperandKind} {badScale : Bool} {a b : List FVal} {positions : Nat} {r : FVal × Nat}
    (h : blockSpecial badScale (((List.zip a b).take positions).map (fun p => FVal.mul p.1 p.2)) = some r) :
    blockSum kind false badScale a b positions = r := by
  simp only [blockSum, Bool.false_eq_true, if_false, h]

/-- Settles O59: each test of the model on the products is a statement about the operand pairs. -/
theorem nonFiniteBlockSums : Obligations.NonFiniteBlockSums := by
  unfold Obligations.NonFiniteBlockSums
  intro kind badScale xs ys positions pairs sum zeroInf infs aNan
  let prods := pairs.map (fun p => FVal.mul p.1 p.2)
  have any_cause : prods.any (·.2 = 1) = true ↔ zeroInf := by simp [prods, zeroInf, mul_cause_eq_one]
  have any_inf : ∀ n, prods.any (·.1 == .inf n) = true ↔ infs n := fun n => by simp [prods, infs]
  have any_nan : prods.any (·.1 == .nan) = true ↔ aNan ∨ zeroInf := by
    simp only [prods, aNan, zeroInf, ← mul_cause_eq_one, List.any_map, List.any_eq_true, Function.comp_apply, beq_iff_eq, mul_eq_nan, and_or_left, exists_or]
  have decided : ∀ r, blockSpecial badScale prods = some r → sum = r := fun r h => blockSum_special h
  refine ⟨fun bad => decided _ ?_, fun good zero => decided _ ?_, fun good zero pos neg => decided _ ?_, fun good zero both nan => decided _ ?_,
    fun n good zero one other nan => decided _ ?_⟩
  · simp [blockSpecial, bad]
  · simp only [blockSpecial, good, any_cause, zero]
    rfl
  · simp [blockSpecial, good, any_cause, any_inf, zero, pos, neg]
  · simp [blockSpecial, good, any_cause, any_inf, any_nan, zero, nan, both]
  · cases n with
    | true =>
      have none : ¬infs false := other
      simp [blockSpecial, good, any_cause, any_inf, any_nan, zero, nan, one, none]
    | false =>
      have none : ¬infs true := other
      simp [blockSpecial, good, any_cause, any_inf, any_nan, zero, nan, one, none]

/-! ## Sums that are zero (04 R103) -/

/-- Are there products, and is every one of them -0? -/
def AllNegativeZero (products : List FVal) : Prop := products ≠ [] ∧ ∀ p ∈ products, ∃ u, p = .fin true 0 u

theorem zeroSum_negative {prods : List (FVal × Nat)} {neg : Bool} {e : Int} (h : zeroSum prods = .fin neg 0 e) :
    neg = true ↔ AllNegativeZero (prods.map (·.1)) := by
  have negZero : ∀ p : FVal × Nat, (match p.1 with | .fin n m _ => n && m == 0 | _ => false) = true ↔ ∃ u, p.1 = .fin true 0 u := by
    rintro ⟨p, c⟩
    cases p <;> simp
  rw [← (FVal.fin.inj h).1, Bool.and_eq_true]
  exact and_congr (by simp) ((List.all_eq_true.trans (forall₂_congr fun p _ => negZero p)).trans (by simp))

/-- The exact sum of products is zero with the sign of R103, or is not zero. -/
theorem exactSum_negative {prods : List (FVal × Nat)} {neg : Bool} {e : Int} (h : exactSum prods = .fin neg 0 e) :
    neg = true ↔ AllNegativeZero (prods.map (·.1)) := by
  unfold exactSum at h
  simp only [] at h
  split_ifs at h with zero
  · exact zeroSum_negative h
  · simp [h, FVal.isZero] at zero

/-- An integer number of units that is zero is +0. -/
theorem units_zero_positive {t l e : Int} {neg : Bool} (h : (if t = 0 then FVal.fin false 0 0 else .fin (decide (t < 0)) t.natAbs l) = .fin neg 0 e) :
    neg = false := by
  split_ifs at h with zero
  · exact (FVal.fin.inj h).1.symm
  · exact absurd (FVal.fin.inj h).2.1 (Int.natAbs_ne_zero.2 zero)

/-- A windowed sum that is zero has no window, so its sign is that of R103, or is +0 and has a product of two factors that are not zero. -/
theorem floatBlockSum_negative {f : FFmt} {ab : List (FVal × FVal)} {neg : Bool} {e : Int}
    (h : floatBlockSum f ab (ab.map (fun p => FVal.mul p.1 p.2)) = .fin neg 0 e) :
    neg = true ↔ AllNegativeZero ((ab.map (fun p => FVal.mul p.1 p.2)).map (·.1)) := by
  unfold floatBlockSum at h
  simp only [] at h
  split at h
  · exact zeroSum_negative h
  · rename_i x xs terms
    have window : ab.filter (fun p => !p.1.isZero && !p.2.isZero) ≠ [] := fun none => by simp [none] at terms
    obtain ⟨p, hp⟩ := List.exists_mem_of_ne_nil _ window
    obtain ⟨member, factors⟩ := List.mem_filter.1 hp
    refine iff_of_false (by simp [units_zero_positive h]) (fun ⟨_, all⟩ => ?_)
    obtain ⟨u, hu⟩ := all _ (List.mem_map_of_mem (List.mem_map_of_mem member))
    obtain hz | hz := isZero_of_mul_zero hu <;> simp [hz] at factors

/-- Settles O58: in each kind of sum a zero has the sign that R103 gives it. -/
theorem zeroBlockSums : Obligations.ZeroBlockSums := by
  unfold Obligations.ZeroBlockSums
  intro kind badPair badScale xs ys positions neg e cause h products
  have factors : products = (((List.zip xs ys).take positions).map (fun p => FVal.mul p.1 p.2)).map (·.1) :=
    List.map_map.symm
  rw [factors]
  unfold blockSum at h
  simp only [] at h
  split_ifs at h
  · exact FVal.noConfusion (Prod.mk.inj h).1
  split at h
  · rename_i r special
    exact absurd (special.trans (congrArg some h)) blockSpecial_not_fin
  · cases kind with
    | float f => exact floatBlockSum_negative (Prod.mk.inj h).1
    | mx | scaled => exact exactSum_negative (Prod.mk.inj h).1

end Sys2Proof.Machine

/-! PROOFS. Instructions on an open tile (04 R109, R112 to R119, 05 R138): what the matrix array sees of its core, each instruction's outcome by its checks, and the
statement put together from them. -/

namespace Sys2Proof.Machine

/-! ## What the matrix array sees of the core that it finds -/

section
variable (x : Core) (w : W64)

@[simp] theorem takeToken_tiles : (x.takeToken w).tiles = x.tiles := by rw [takeToken_eq]
@[simp] theorem takeToken_atBlock : (x.takeToken w).atBlock = x.atBlock := by rw [takeToken_eq]
@[simp] theorem takeToken_tileNamed (w1 : W64) : (x.takeToken w).tileNamed w1 = x.tileNamed w1 := by simp [Core.tileNamed]
@[simp] theorem takeToken_stat (i : Nat) : (x.takeToken w).stat i = x.stat i := by rw [takeToken_eq]; rfl
@[simp] theorem takeToken_tileImage (t : Tile) : (x.takeToken w).tileImage t = x.tileImage t := by rw [takeToken_eq]; rfl
@[simp] theorem takeToken_tileCode (t : Tile) (a i j : Nat) : (x.takeToken w).tileCode t a i j = x.tileCode t a i j := by rw [takeToken_eq]; rfl
@[simp] theorem takeToken_tileMark (t : Tile) (a i j : Nat) : (x.takeToken w).tileMark t a i j = x.tileMark t a i j := by rw [takeToken_eq]; rfl
@[simp] theorem takeToken_scalePair (a : Nat) : (x.takeToken w).scalePair a = x.scalePair a := by rw [takeToken_eq]; rfl

end

section
variable (x : Core) (s : State) (eng : Nat) (errs : List (Nat × Flips)) (stop : Option Nat)

@[simp] theorem met_atBlock : (x.met s eng errs stop).atBlock = x.atBlock := by rw [met_eq]
@[simp] theorem met_tileNamed (w1 : W64) : (x.met s eng errs stop).tileNamed w1 = x.tileNamed w1 := by simp [Core.tileNamed]
@[simp] theorem met_stat (i : Nat) : (x.met s eng errs stop).stat i = x.stat i := by simp [Core.stat]

end

/-! ## No instruction but mx.mm stands between two blocks (04 R121) -/

@[simp] theorem midBlock_matrix (x : Core) : x.midBlock engMatrix = x.atBlock.isSome := by simp [Core.midBlock]

theorem EngineTurn.atBlock_none {s : State} {k l : Nat} {c : Ctx} {x : Core} {e : QEntry} {rest : List QEntry} {cls op : Nat}
    (h : EngineTurn s k l c x engMatrix e rest cls op) : x.atBlock = none := by simpa using h.whole

theorem midBlock_matrix_none {x : Core} (h : x.atBlock = none) : x.midBlock engMatrix = false := by simp [h]

@[simp] theorem setAcc_atBlock (c : Core) (t : Tile) (i j code : Nat) (m : Bool) : (c.setAcc t i j code m).atBlock = c.atBlock := rfl
@[simp] theorem putTile_atBlock (c : Core) (t : Tile) : (c.putTile t).atBlock = c.atBlock := rfl
@[simp] theorem closeTile_atBlock (c : Core) (t : Tile) : (c.closeTile t).atBlock = c.atBlock := rfl
@[simp] theorem addBeats_atBlock (c : Core) (i n : Nat) : (c.addBeats i n).atBlock = c.atBlock := rfl
@[simp] theorem spWrite_atBlock (c : Core) (a : Nat) (b : List Byte) (p : Bool) : (c.spWrite a b p).atBlock = c.atBlock := rfl

@[simp] theorem drainWrite_atBlock (t : Tile) (d : View) (fm : Format) (q : ScalePair) (squares : List (Nat × Nat × List Byte × List Drained)) (c : Core) :
    (drainWrite t d fm q squares c).atBlock = c.atBlock := by
  unfold drainWrite
  have squaresKeep : ∀ f, (∀ c sq, (f c sq).atBlock = c.atBlock) → (squares.foldl f c).atBlock = c.atBlock := fun f h => foldl_keeps Core.atBlock f h squares c
  split
  · rw [spWrite_atBlock]
    exact squaresKeep _ (fun _ _ => rfl)
  · exact squaresKeep _ (fun _ _ => rfl)

/-! ## mx.stat (05 R138) -/

section
variable {e : QEntry} {c : Core}

/-- The core after mx.stat: the entry written as it stands, then cleared. -/
def statDone (e : QEntry) (c : Core) : Core :=
  let entry := fld e.word 28 4
  let u := if e.word.getLsbD 26 then c.spWrite (64 * (e.reg (opR0 e.word)).toNat) (c.stat entry).bytes false else c
  let u := if e.word.getLsbD 27 then { u with stats := nset u.stats entry .clear } else u
  u.addBeats engMatrix (if e.word.getLsbD 26 then 4 else 2)

theorem mxStat_ok (fits : e.word.getLsbD 26 = true → (e.reg (opR0 e.word)).toNat < spGranules) : mxStat e c = .ok (statDone e c) := by
  unfold mxStat
  exact if_neg (fun ⟨write, beyond⟩ => absurd (fits write) (by omega))

theorem mxStat_beyond (write : e.word.getLsbD 26 = true) (beyond : spGranules ≤ (e.reg (opR0 e.word)).toNat) : mxStat e c = .fault 0x0A := by
  unfold mxStat
  exact if_pos ⟨write, beyond⟩

theorem statDone_atBlock : (statDone e c).atBlock = c.atBlock := by
  cases write : e.word.getLsbD 26 <;> cases clear : e.word.getLsbD 27 <;>
    simp only [statDone, write, clear, addBeats_atBlock, spWrite_atBlock, if_true, Bool.false_eq_true, if_false]

end

/-! ## The tile that an instruction names -/

section
variable {v : Env} {e : QEntry} {c : Core} {f : Nat} (unnamed : c.tileNamed (e.reg (opR2 e.word + 1)) = .error f)
include unnamed

theorem mxMerge_unnamed : mxMerge v e c = .fault f := by simp only [mxMerge, unnamed]
theorem mxSpill_unnamed : mxSpill e c = .fault f := by simp only [mxSpill, unnamed]
theorem mxDrain_unnamed : mxDrain v e c = .fault f := by simp only [mxDrain, unnamed]
theorem mxClose_unnamed : mxClose e c = .fault f := by simp only [mxClose, unnamed]

end

/-- Bytes of the image of a spilled tile: its three planes (04 R112). -/
def Tile.imageSize (t : Tile) : Nat := t.planes.1 + t.planes.2.1 + t.planes.2.2

/-! ## The cores after a spill, a merge and a drain -/

/-- The core after mx.spill: the image written unless the instruction is skipped, the tile closed (04 R112, 05 R146). -/
def spillDone (e : QEntry) (t : Tile) (image : List Byte) (c : Core) : Core :=
  ((if e.skips then c else c.spWrite (64 * (e.reg (opR0 e.word)).toNat) image t.poisoned).closeTile t).addBeats engMatrix (t.m + 8)

theorem spillDone_atBlock (e : QEntry) (t : Tile) (image : List Byte) (c : Core) : (spillDone e t image c).atBlock = c.atBlock := by
  cases skips : e.skips <;> simp only [spillDone, skips, addBeats_atBlock, closeTile_atBlock, spWrite_atBlock, if_true, Bool.false_eq_true, if_false]

/-- An element of the partial that a merge reads from `z` enters the accumulator of its cell (04 R109, R112). -/
def mergeEnter (te : TensorEntry) (e : QEntry) (z : Core) (t : Tile) (poisoned : Bool) (acc : Core × List ElemEv) (ij : Nat × Nat) : Core × List ElemEv :=
  let a := 64 * (e.reg (opR0 e.word)).toNat
  let idx := t.index te ij.1 ij.2
  let draw := if t.rounding = .sr then acc.1.tileDraw t idx ij.1 ij.2 (t.nb + fld e.word 6 16) else 0
  let r := accumulate t.fmt t.rounding draw (acc.1.accCode t ij.1 ij.2) (acc.1.mark t ij.1 ij.2) (z.tileMark t a ij.1 ij.2) (t.fmt.decode (z.tileCode t a ij.1 ij.2))
  (acc.1.setAcc t ij.1 ij.2 r.1 r.2.1, if poisoned then acc.2 else acc.2 ++ (match idx with | some n => [ElemEv.mk n noBlock r.2.2] | none => []))

/-- The core after mx.merge: `z` is the core whose scratchpad holds the partial, `c` the one whose accumulators take it. -/
def mergeDone (te : TensorEntry) (e : QEntry) (z : Core) (t : Tile) (c : Core) : Core :=
  let t' : Tile := { t with poisoned := t.poisoned || z.spPoisoned (64 * (e.reg (opR0 e.word)).toNat) t.imageSize }
  let out := t.cells.foldl (mergeEnter te e z t t'.poisoned) (c, [])
  let u := out.1.putTile t'
  ({ u with fm := u.fm.record e.idx t.tensor out.2 } : Core).addBeats engMatrix (t.m + 10)

theorem mergeDone_takeToken (te : TensorEntry) (e : QEntry) (z : Core) (w : W64) (t : Tile) (c : Core) :
    mergeDone te e (z.takeToken w) t c = mergeDone te e z t c := by
  have enter : mergeEnter te e (z.takeToken w) t = mergeEnter te e z t := by
    funext p acc ij
    simp only [mergeEnter, takeToken_tileMark, takeToken_tileCode]
  simp only [mergeDone, enter, takeToken_spPoisoned]

theorem mergeDone_atBlock (te : TensorEntry) (e : QEntry) (z : Core) (t : Tile) (c : Core) : (mergeDone te e z t c).atBlock = c.atBlock := by
  let t' : Tile := { t with poisoned := t.poisoned || z.spPoisoned (64 * (e.reg (opR0 e.word)).toNat) t.imageSize }
  exact foldl_keeps (fun acc : Core × List ElemEv => acc.1.atBlock) (mergeEnter te e z t t'.poisoned) (fun _ _ => rfl) t.cells (c, [])

/-- The core after mx.drain: the squares written, the entry added to, the flags recorded, the tile closed (04 R113 to R115, R119, R120). -/
def drainDone (te : TensorEntry) (e : QEntry) (fm : Format) (t : Tile) (entry : StatEntry) (c : Core) : Core :=
  let d := View.ofReg (e.reg (opR0 e.word))
  let mode := roundingFor te ((Rounding.ofCode (fld e.word 20 2)).getD .rne)
  let q := ScalePair.ofReg (e.reg (opR1 e.word))
  let squares := (List.range (t.m / 32)).flatMap (fun qi => (List.range (t.n / 32)).map (fun qj => (qi, qj, drainSquare c t te fm mode q qi qj)))
  let ds := squares.flatMap (fun sq => sq.2.2.2)
  let u := if e.skips then c else drainWrite t d fm q squares c
  let u := { u with stats := nset u.stats t.statSlot (entry.add t te ds) }
  let u := if t.poisoned then u else { u with fm := u.fm.record e.idx t.tensor (ds.filterMap (fun r => r.idx.map (fun n => ElemEv.mk n noBlock r.ev))) }
  (u.closeTile t).addBeats engMatrix (if fm.squareScaled then t.m + 44 else t.m + 12)

theorem drainDone_atBlock (te : TensorEntry) (e : QEntry) (fm : Format) (t : Tile) (entry : StatEntry) (c : Core) :
    (drainDone te e fm t entry c).atBlock = c.atBlock := by
  cases skips : e.skips <;> cases poisoned : t.poisoned <;>
    simp only [drainDone, skips, poisoned, addBeats_atBlock, closeTile_atBlock, drainWrite_atBlock, if_true, Bool.false_eq_true, if_false]

/-- Do the squares of a drain, its scales and its scale pair lie in the scratchpad (05 R137)? -/
def DrainFits (d : View) (fm : Format) (t : Tile) : Prop :=
  let last := (t.n / 32 - 1) * d.kStride + (t.m / 32 - 1) * d.fStride
  d.elem + last * fm.granules + fm.granules ≤ spGranules ∧ (fm.scaleBytes = 0 ∨ d.scale + last * fm.scaleBytes + fm.scaleBytes ≤ 64 * spGranules)
    ∧ ∀ f, fm = .scaled f → d.scale + 64 ≤ 64 * spGranules

/-- Byte past the scale pair that a drain writes, 0 where the format has none (04 R114). -/
def drainPairEnd (d : View) (fm : Format) : Nat := match fm with | .scaled _ => d.scale + 64 | _ => 0

theorem drainPairEnd_le (d : View) (fm : Format) (n : Nat) : drainPairEnd d fm ≤ n ↔ ∀ f, fm = .scaled f → d.scale + 64 ≤ n := by
  cases fm with
  | scaled f => simp [drainPairEnd]
  | _ => simp [drainPairEnd]

/-- The model's test of the places of a drain is that they do not all lie in the scratchpad. -/
theorem drainBeyond_iff (d : View) (fm : Format) (t : Tile) :
    let last := (t.n / 32 - 1) * d.kStride + (t.m / 32 - 1) * d.fStride
    (d.elem + last * fm.granules + fm.granules > spGranules ∨ d.scale + last * fm.scaleBytes + fm.scaleBytes > 64 * spGranules ∧ fm.scaleBytes ≠ 0
      ∨ drainPairEnd d fm > 64 * spGranules) ↔ ¬DrainFits d fm t := by
  intro last
  simp only [DrainFits, last, ← drainPairEnd_le]
  omega

/-- A drain takes no column view, so the model looks at the rest of its view as one of rows. -/
theorem badView_or_column (d : View) (fm : Format) (side : Nat) :
    (badView { d with column := false } fm side = true ∨ d.column = true) ↔ (badView d fm side = true ∨ d.column = true) := by
  obtain ⟨elem, scale, kStride, fStride, column, code⟩ := d
  cases column <;> simp

section
variable {v : Env} {e : QEntry} {c : Core} {t : Tile} {te : TensorEntry} (named : c.tileNamed (e.reg (opR2 e.word + 1)) = .ok t)
include named

/-! ## mx.close and mx.spill (04 R112, 05 R138, R146) -/

theorem mxClose_ok : mxClose e c = .ok ((c.closeTile t).addBeats engMatrix 1) := by simp only [mxClose, named]

theorem mxSpill_ok (fits : 64 * (e.reg (opR0 e.word)).toNat + t.imageSize ≤ 64 * spGranules) : mxSpill e c = .ok (spillDone e t (c.tileImage t) c) := by
  rcases planes : t.planes with ⟨p1, p2, p3⟩
  simp only [Tile.imageSize, planes] at fits
  simp only [mxSpill, named, planes]
  exact if_neg (by omega)

theorem mxSpill_beyond (beyond : 64 * spGranules < 64 * (e.reg (opR0 e.word)).toNat + t.imageSize) : mxSpill e c = .fault 0x0A := by
  rcases planes : t.planes with ⟨p1, p2, p3⟩
  simp only [Tile.imageSize, planes] at beyond
  simp only [mxSpill, named, planes]
  exact if_pos (by omega)

/-! ## mx.merge (04 R109, R112, 05 R138) -/

theorem mxMerge_reserved (h : 1 < fld (e.reg (opR2 e.word + 1)) 18 2) : mxMerge v e c = .fault 0x23 := by
  simp only [mxMerge, named]
  exact if_pos h

theorem mxMerge_otherFormat (h1 : fld (e.reg (opR2 e.word + 1)) 18 2 ≤ 1) (h2 : fld (e.reg (opR2 e.word + 1)) 18 2 ≠ t.accFormat) : mxMerge v e c = .fault 0x27 := by
  simp only [mxMerge, named]
  rw [if_neg (by omega), if_pos h2]

section
variable (h1 : fld (e.reg (opR2 e.word + 1)) 18 2 ≤ 1) (h2 : fld (e.reg (opR2 e.word + 1)) 18 2 = t.accFormat)
include h1 h2

theorem mxMerge_beyond (beyond : 64 * spGranules < 64 * (e.reg (opR0 e.word)).toNat + t.imageSize) : mxMerge v e c = .fault 0x0A := by
  rcases planes : t.planes with ⟨p1, p2, p3⟩
  simp only [Tile.imageSize, planes] at beyond
  simp only [mxMerge, named, planes]
  rw [if_neg (by omega), if_neg (by omega), if_pos (by omega)]

theorem mxMerge_ok (fits : 64 * (e.reg (opR0 e.word)).toNat + t.imageSize ≤ 64 * spGranules) (tensor : v.tensor t.tensor = some te) :
    mxMerge v e c = .ok (mergeDone te e c t c) := by
  unfold mergeDone Tile.imageSize
  rcases planes : t.planes with ⟨p1, p2, p3⟩
  simp only [Tile.imageSize, planes] at fits
  simp only [mxMerge, named, planes, tensor]
  rw [if_neg (by omega), if_neg (by omega), if_neg (by omega)]
  rfl

end

/-! ## mx.drain (04 R113 to R120, 05 R137, R138) -/

section
variable (tensor : v.tensor t.tensor = some te)
include tensor

theorem mxDrain_noFormat (format : drainFormat (View.ofReg (e.reg (opR0 e.word))).code = none) : mxDrain v e c = .fault 0x25 := by
  simp only [mxDrain, named, tensor, format]

variable {fm : Format} (format : drainFormat (View.ofReg (e.reg (opR0 e.word))).code = some fm)
include format

theorem mxDrain_clash (clash : (c.stat t.statSlot).valid = true ∧ (c.stat t.statSlot).tensor ≠ t.tensor) : mxDrain v e c = .fault 0x26 := by
  simp only [mxDrain, named, tensor, format]
  exact if_pos clash

variable (free : ¬ ((c.stat t.statSlot).valid = true ∧ (c.stat t.statSlot).tensor ≠ t.tensor))
include free

theorem mxDrain_unusable (unusable : badView (View.ofReg (e.reg (opR0 e.word))) fm t.m = true ∨ (View.ofReg (e.reg (opR0 e.word))).column = true) :
    mxDrain v e c = .fault 0x25 := by
  simp only [mxDrain, named, tensor, format]
  rw [if_neg free]
  exact if_pos ((badView_or_column _ fm t.m).2 unusable)

variable (usable : ¬ (badView (View.ofReg (e.reg (opR0 e.word))) fm t.m = true ∨ (View.ofReg (e.reg (opR0 e.word))).column = true))
include usable

theorem mxDrain_beyond (beyond : ¬ DrainFits (View.ofReg (e.reg (opR0 e.word))) fm t) : mxDrain v e c = .fault 0x0A := by
  simp only [mxDrain, named, tensor, format]
  rw [if_neg free, if_neg (mt (badView_or_column _ fm t.m).1 usable)]
  exact if_pos ((drainBeyond_iff _ fm t).2 beyond)

theorem mxDrain_ok (fits : DrainFits (View.ofReg (e.reg (opR0 e.word))) fm t) : mxDrain v e c = .ok (drainDone te e fm t (c.stat t.statSlot) c) := by
  simp only [mxDrain, named, tensor, format]
  rw [if_neg free, if_neg (mt (badView_or_column _ fm t.m).1 usable)]
  exact if_neg (fun beyond => (drainBeyond_iff _ fm t).1 beyond fits)

end

end

/-! ## Turns of these instructions -/

section
variable {s : State} {k l : Nat} {c : Ctx} {x : Core} {e : QEntry} {rest : List QEntry} {errs : List (Nat × Flips)} {f op : Nat}

/-- The next state of a matrix-array instruction that faults: the context records the fault and nothing else changes (05 R147). -/
def State.matrixFault (s : State) (k l : Nat) (c : Ctx) (e : QEntry) (f : Nat) : State := s.putCtx k (c.raiseFault s.st.now l engMatrix f e.idx)

theorem exec_mxMerge : exec (.mxMerge k l errs) s = engineRowWith engMatrix 1 0x01 0x03 none errs (fun _ _ v e x => mxMerge v e x) afterMerge k l s := rfl
theorem exec_mxSpill : exec (.mxSpill k l) s = engineRowWith engMatrix 1 0x02 0x03 none [] (fun _ _ _ e x => mxSpill e x) (tapClose false) k l s := rfl
theorem exec_mxDrain : exec (.mxDrain k l errs) s = engineRowWith engMatrix 1 0x03 0x03 none errs (fun _ _ v e x => mxDrain v e x)
    (fun s k l x c => tapClose true s k l x (c.noteDrain (s.env c l x) x)) k l s := rfl
theorem exec_mxStat : exec (.mxStat k l) s = engineRow engMatrix 1 0x04 0x03 [] (fun _ _ _ e x => mxStat e x) k l s := rfl
theorem exec_mxClose : exec (.mxClose k l) s = engineRowWith engMatrix 1 0x05 0x03 none [] (fun _ _ _ e x => mxClose e x) afterClose k l s := rfl

theorem EngineTurn.matrix_fault {i : Instr} {stop : Option Nat} {g : State → Ctx → Env → QEntry → Core → CRes} {after : State → Nat → Nat → Core → Ctx → State}
    (h : EngineTurn s k l c x engMatrix e rest 1 op) (row : exec i s = engineRowWith engMatrix 1 op 0x03 stop errs g after k l s)
    (hf : g s c (s.env c l x) e ((x.met s engMatrix errs stop).takeToken e.word) = .fault f) : exec i s = .next (s.matrixFault k l c e f) :=
  row.trans (engineRow_fault h _ _ _ _ _ _ hf)

end

/-- Settles O17: each clause is the outcome of its instruction on the core that it finds. -/
theorem matrixTiles : Obligations.MatrixTiles := by
  unfold Obligations.MatrixTiles
  intro s k l c x e rest errs turn w y z a named into read found fails
  have wholeY : ∀ {op}, turn op → y.atBlock = none := fun h => (takeToken_atBlock x w).trans h.atBlock_none
  have wholeZ : ∀ {op}, turn op → (z.takeToken w).atBlock = none := fun h => by simpa [z] using h.atBlock_none
  refine ⟨fun f unnamed => ?_, fun h fits => ?_, fun h write beyond => h.matrix_fault exec_mxStat (mxStat_beyond write beyond), fun t opened => ?_⟩
  · have seen : (z.takeToken w).tileNamed (e.reg (opR2 w + 1)) = .error f := by simpa [z] using unnamed
    have seenY : y.tileNamed (e.reg (opR2 w + 1)) = .error f := by simpa [y] using unnamed
    exact ⟨fun h => h.matrix_fault exec_mxMerge (mxMerge_unnamed seen), fun h => h.matrix_fault exec_mxSpill (mxSpill_unnamed seenY),
      fun h => h.matrix_fault exec_mxDrain (mxDrain_unnamed seen), fun h => h.matrix_fault exec_mxClose (mxClose_unnamed seenY)⟩
  · have stat : x.stat (fld w 28 4) = y.stat (fld w 28 4) := (takeToken_stat x w _).symm
    rw [exec_mxStat, stat]
    exact engineRow_ok h _ [] _ _ (mxStat_ok fits) (midBlock_matrix_none (statDone_atBlock.trans (wholeY h)))
  have seen : (z.takeToken w).tileNamed (e.reg (opR2 w + 1)) = .ok t := by simpa [z] using opened
  have seenY : y.tileNamed (e.reg (opR2 w + 1)) = .ok t := by simpa [y] using opened
  intro size accs
  refine ⟨fun h => ⟨fun fits => ?_, fun beyond => h.matrix_fault exec_mxSpill (mxSpill_beyond seenY beyond)⟩, fun h => ?_,
    fun h => ⟨fun h1 => h.matrix_fault exec_mxMerge (mxMerge_reserved seen h1), fun h1 h2 => h.matrix_fault exec_mxMerge (mxMerge_otherFormat seen h1 h2),
      fun h1 h2 beyond => h.matrix_fault exec_mxMerge (mxMerge_beyond seen h1 h2 beyond)⟩, fun te tensor => ⟨fun h h1 h2 fits => ?_, fun h => ?_⟩⟩
  · have image : x.tileImage t = y.tileImage t := (takeToken_tileImage x w t).symm
    rw [exec_mxSpill, image]
    exact engineRowWith_ok h _ none [] _ _ _ (mxSpill_ok seenY fits) (midBlock_matrix_none ((spillDone_atBlock ..).trans (wholeY h)))
  · rw [exec_mxClose]
    exact engineRowWith_ok h _ none [] _ _ _ (mxClose_ok seenY) (midBlock_matrix_none (wholeY h))
  · have done := engineRowWith_ok h 0x03 none errs (fun _ _ v e x => mxMerge v e x) afterMerge _ (mxMerge_ok seen h1 h2 fits tensor)
      (midBlock_matrix_none ((mergeDone_atBlock ..).trans (wholeZ h)))
    rw [mergeDone_takeToken] at done
    rw [exec_mxMerge]
    exact done
  · intro d last entry
    have stat : (z.takeToken w).stat t.statSlot = entry := by simp [z, entry]
    refine ⟨fun format => h.matrix_fault exec_mxDrain (mxDrain_noFormat seen tensor format), fun fm format => ?_⟩
    intro fits clash unusable
    have clash_iff : ((z.takeToken w).stat t.statSlot).valid = true ∧ ((z.takeToken w).stat t.statSlot).tensor ≠ t.tensor ↔ clash := by rw [stat]
    refine ⟨fun hc => h.matrix_fault exec_mxDrain (mxDrain_clash seen tensor format (clash_iff.2 hc)),
      fun free bad => h.matrix_fault exec_mxDrain (mxDrain_unusable seen tensor format (mt clash_iff.1 free) bad),
      fun free usable beyond => h.matrix_fault exec_mxDrain (mxDrain_beyond seen tensor format (mt clash_iff.1 free) usable beyond), fun free usable fit => ?_⟩
    have done := engineRowWith_ok h 0x03 none errs (fun _ _ v e x => mxDrain v e x) (fun s k l x c => tapClose true s k l x (c.noteDrain (s.env c l x) x)) _
      (mxDrain_ok seen tensor format (mt clash_iff.1 free) usable fit) (midBlock_matrix_none ((drainDone_atBlock ..).trans (wholeZ h)))
    rw [stat] at done
    rw [exec_mxDrain]
    exact done

end Sys2Proof.Machine

/-! PROOFS. mx.mm on an open tile, on one that it opens, and resumed (04 R106, R107, R113, R116, R120, R121, 05 R137, R138): the step of an instruction that may stop
between two blocks, what the checks of its tile and of its operands decide, and the statement put together from them. -/

namespace Sys2Proof.Machine

/-! ## The step of an instruction that may stop between blocks (04 R121) -/

section
variable {s : State} {k l : Nat} {c : Ctx} {x : Core} {e : QEntry} {rest : List QEntry}

/-- The head of the matrix array's queue is an mx.mm that has not executed, in no calm: it begins, its token wait satisfied, or resumes between two blocks. -/
structure MmTurn (s : State) (k l : Nat) (c : Ctx) (x : Core) (e : QEntry) (rest : List QEntry) : Prop extends CoreTurn s k l c x where
  head : x.queue engMatrix = e :: rest
  isClass : opClass e.word = 1
  isOp : opCode e.word = 0x00
  calm : s.net.calm = false
  fresh : e.executed = false
  ready : x.atBlock.isSome = true ∨ opCw e.word ≤ x.token (opTw e.word)

theorem EngineTurn.mm (h : EngineTurn s k l c x engMatrix e rest 1 0x00) : MmTurn s k l c x e rest :=
  { h with ready := .inr h.ready }

/-- The core that an mx.mm begins on or resumes in, `z` as it finds it: one that resumes takes no token. -/
def Core.mmBegun (z : Core) (w : W64) : Core := if z.atBlock.isSome then z else z.takeToken w

/-- The core after an mx.mm: the head of the queue has executed, unless the array stands between two of its blocks. -/
def Core.mmHead (y : Core) (e : QEntry) (rest : List QEntry) : Core := y.setQueue engMatrix ({ e with executed := !y.atBlock.isSome } :: rest)

/-- An mx.mm has no output that a twin pair compares. -/
theorem noteTwin_mm (y z : Core) {e' : QEntry} (hclass : opClass e'.word = 1) (hop : opCode e'.word = 0x00) :
    (y.setQueue engMatrix (e' :: rest)).noteTwin engMatrix z = y.setQueue engMatrix (e' :: rest) := by
  simp [Core.noteTwin, Core.queue, Core.setQueue, comparedWrites, hclass, hop]

theorem MmTurn.ran (h : MmTurn s k l c x e rest) (use : Nat) (stop : Option Nat) (errs : List (Nat × Flips)) (f : State → Ctx → Env → QEntry → Core → CRes)
    (after : State → Nat → Nat → Core → Ctx → State) {y : Core} (hf : f s c (s.env c l x) e ((x.met s engMatrix errs stop).mmBegun e.word) = .ok y) :
    engineRowWith engMatrix 1 0x00 use stop errs f after k l s =
      .next (after (s.met k l c x engMatrix errs stop) k l (x.met s engMatrix errs stop) (c.putCore l (y.mmHead e rest))) := by
  have ready : (x.midBlock engMatrix || x.tokenReady e.word) = true := by simpa [Core.tokenReady] using h.ready
  have step : (x.met s engMatrix errs stop).engineStep engMatrix 1 0x00 (f s c (s.env c l x)) = some (e.idx, .ok (y.mmHead e rest)) := by
    unfold Core.engineStep
    rw [met_queue, h.head]
    simp only [met_midBlock, met_tokenReady, met_seq, met_folded]
    rw [if_pos ⟨h.isClass, h.isOp, h.fresh, ready, h.notStopped, h.notFolded⟩]
    simp only [Core.mmBegun, met_atBlock] at hf
    simp only [midBlock_matrix, hf, Core.mmHead]
  have quiet : (CRes.ok (y.mmHead e rest)).noteTwin c.desc.twin engMatrix (x.met s engMatrix errs stop) = .ok (y.mmHead e rest) := by
    cases twin : c.desc.twin
    · rfl
    · exact congrArg CRes.ok (noteTwin_mm y _ h.isClass h.isOp)
  unfold engineRowWith
  rw [withCore_turn h.toCoreTurn, if_pos (by simp [h.live, h.calm])]
  unfold Core.met at step quiet
  simp only [step, quiet]
  simp [h.going, Ctx.absorb, State.met, Core.met]

end

/-! ## The blocks of an instruction (04 R107, R121) -/

/-- The views and the K blocks that an mx.mm names (05 R137, R138). -/
abbrev QEntry.viewA (e : QEntry) : View := View.ofReg (e.reg (opR0 e.word))
abbrev QEntry.viewB (e : QEntry) : View := View.ofReg (e.reg (opR1 e.word))
abbrev QEntry.firstBlock (e : QEntry) : Nat := fld (e.reg (opR3 e.word)) 32 32
abbrev QEntry.blockCount (e : QEntry) : Nat := fld (e.reg (opR3 e.word)) 0 32

section
variable (te : TensorEntry) (fa fb : Format) (ka : OperandKind) (beats : Nat) (e : QEntry) (stop : Option Nat)

/-- `n` blocks enter from block `a` of the instruction on. -/
def mmBlocks (badPair : Bool) (a n : Nat) (st : MmState) : MmState :=
  (List.range n).foldl (fun st i => mmBlock te e.viewA e.viewB fa fb ka badPair (e.firstBlock + (a + i)) (a + i) st) st

theorem mmBlock_atBlock (va vb : View) (badPair : Bool) (b j : Nat) (st : MmState) : (mmBlock te va vb fa fb ka badPair b j st).core.atBlock = st.core.atBlock := by
  unfold mmBlock
  refine foldl_keeps (fun acc : Core × List ElemEv => acc.1.atBlock) _ ?_ st.tile.cells (st.core, st.evs)
  exact fun _ _ => rfl

theorem mmBlocks_atBlock (badPair : Bool) (a n : Nat) (st : MmState) : (mmBlocks te fa fb ka e badPair a n st).core.atBlock = st.core.atBlock :=
  foldl_keeps (fun st : MmState => st.core.atBlock) _ (fun _ _ => mmBlock_atBlock ..) _ st

/-- The core when an mx.mm leaves the array: its blocks entered from where the core stands to where it stops (04 R121). -/
def mmEnd (c : Core) (t : Tile) : Core :=
  mmLeave e e.blockCount beats (c.mmUpto stop e.blockCount)
    (mmBlocks te fa fb ka e (t.scaled && !t.pairOk) c.mmFrom (c.mmUpto stop e.blockCount - c.mmFrom) ⟨c, t, (c.atBlock.map BlockPos.evs).getD []⟩)

end

/-- A tile that an mx.mm opens takes its scale pair, and the poison of what it reads (04 R106, R113). -/
def Tile.paired (t : Tile) (ka : OperandKind) (e : QEntry) (c : Core) : Tile :=
  match ka with
  | .scaled _ => { t with scaled := true, sA := (c.scalePair e.viewA.scale).s, sB := (c.scalePair e.viewB.scale).s,
                          pairOk := (c.scalePair e.viewA.scale).ok && (c.scalePair e.viewB.scale).ok,
                          poisoned := c.spPoisoned e.viewA.scale 8 || c.spPoisoned e.viewB.scale 8 }
  | _ => t

/-- Does a tile that an mx.mm opens load a partial (04 R106)? -/
def QEntry.loads (e : QEntry) : Bool := fld (e.reg (opR2 e.word + 1)) 13 2 == 1

/-- Byte address of that partial. -/
abbrev QEntry.partialAt (e : QEntry) : Nat := 64 * (e.reg (opR4 e.word)).toNat

/-- The tile when it is open: a poisoned partial poisons it (04 R106, 07 R213). -/
def Tile.opened (t : Tile) (ka : OperandKind) (e : QEntry) (c : Core) : Tile :=
  if e.loads = true ∧ c.spPoisoned e.partialAt (t.planes.1 + t.planes.2.1) = true then { t.paired ka e c with poisoned := true } else t.paired ka e c

theorem opened_eq (t : Tile) (ka : OperandKind) (e : QEntry) (c : Core) :
    t.opened ka e c = { t.paired ka e c with poisoned := (t.paired ka e c).poisoned || (e.loads && c.spPoisoned e.partialAt (t.planes.1 + t.planes.2.1)) } := by
  unfold Tile.opened
  split
  · rename_i h
    simp [h.1, h.2]
  · rename_i h
    rw [Bool.eq_false_iff.2 (mt Bool.and_eq_true_iff.1 h), Bool.or_false]

theorem loads_iff (e : QEntry) : e.loads = true ↔ fld (e.reg (opR2 e.word + 1)) 13 2 = 1 := by simp [QEntry.loads]

theorem paired_takeToken (t : Tile) (ka : OperandKind) (e : QEntry) (z : Core) (w : W64) : t.paired ka e (z.takeToken w) = t.paired ka e z := by
  cases ka <;> simp [Tile.paired]

/-- The core with the tile open: its initial value in the accumulators (04 R106). -/
def Core.opening (c : Core) (e : QEntry) (t : Tile) : Core :=
  { loadTile c t (if e.loads = true then some e.partialAt else none) with tiles := c.tiles ++ [t] }

theorem loadTile_atBlock (c : Core) (t : Tile) (i : Option Nat) : (loadTile c t i).atBlock = c.atBlock := by
  unfold loadTile
  refine foldl_keeps Core.atBlock _ ?_ t.cells c
  exact fun _ _ => rfl

theorem opening_atBlock (c : Core) (e : QEntry) (t : Tile) : (c.opening e t).atBlock = c.atBlock := loadTile_atBlock c t _

/-- Do the operands, or what the opening of a tile reads, reach beyond the scratchpad (05 R137, 04 R106, R113)? -/
def MmBeyond (e : QEntry) (t : Tile) (isOpen : Bool) (fa fb : Format) (ka : OperandKind) : Prop :=
  spGranules < (e.viewA.reach fa t.m e.blockCount).1 ∨ spGranules < (e.viewB.reach fb t.n e.blockCount).1
    ∨ 64 * spGranules < (e.viewA.reach fa t.m e.blockCount).2 ∨ 64 * spGranules < (e.viewB.reach fb t.n e.blockCount).2
    ∨ (isOpen = true ∧ (∃ f, ka = .scaled f) ∧ (64 * spGranules < e.viewA.scale + 64 ∨ 64 * spGranules < e.viewB.scale + 64))
    ∨ (isOpen = true ∧ fld (e.reg (opR2 e.word + 1)) 13 2 = 1 ∧ 64 * spGranules < e.partialAt + t.planes.1 + t.planes.2.1)

/-! ## The checks of mx.mm once its tile is known (04 R97, R98, R116, 05 R137) -/

section
variable {v : Env} {e : QEntry} {stop : Option Nat} {t : Tile} {isOpen : Bool} {c : Core}

/-- The K blocks lie in the tile (04 R106). -/
structure QEntry.InTile (e : QEntry) (t : Tile) : Prop where
  nonempty : e.blockCount ≠ 0
  within : e.firstBlock + e.blockCount ≤ t.nb

/-- The operands have formats that may pair (04 R97). -/
structure QEntry.Pairs (e : QEntry) (fa fb : Format) (ka kb : OperandKind) (beats : Nat) : Prop where
  formatA : Format.ofCode e.viewA.code = some fa
  formatB : Format.ofCode e.viewB.code = some fb
  kindA : operandKind e.viewA.code = some ka
  kindB : operandKind e.viewB.code = some kb
  pair : pairBeats ka kb = some beats

theorem mmRun_outside (h : e.blockCount = 0 ∨ t.nb < e.firstBlock + e.blockCount) : mmRun v e stop t isOpen c = .fault 0x28 := by
  unfold mmRun
  exact if_pos h

variable (inTile : e.InTile t)
include inTile

theorem mmRun_twoSegments (classC : e.word.getLsbD 10 = true) (h : e.firstBlock / 128 ≠ (e.firstBlock + e.blockCount - 1) / 128) :
    mmRun v e stop t isOpen c = .fault 0x24 := by
  unfold mmRun
  exact (if_neg (not_or.2 ⟨inTile.nonempty, Nat.not_lt.2 inTile.within⟩)).trans (if_pos ⟨classC, h⟩)

variable (oneSegment : e.word.getLsbD 10 = true → e.firstBlock / 128 = (e.firstBlock + e.blockCount - 1) / 128)
include oneSegment

theorem mmRun_noTensor (h : v.tensor t.tensor = none) : mmRun v e stop t isOpen c = .fault 0x0B := by
  unfold mmRun
  rw [if_neg (not_or.2 ⟨inTile.nonempty, Nat.not_lt.2 inTile.within⟩), if_neg (fun ⟨classC, two⟩ => two (oneSegment classC))]
  simp only [h]

variable {te : TensorEntry} (tensor : v.tensor t.tensor = some te)
include tensor

theorem mmRun_unpaired (h : ∀ ka kb, operandKind e.viewA.code = some ka → operandKind e.viewB.code = some kb → pairBeats ka kb = none) :
    mmRun v e stop t isOpen c = .fault 0x25 := by
  unfold mmRun
  rw [if_neg (not_or.2 ⟨inTile.nonempty, Nat.not_lt.2 inTile.within⟩), if_neg (fun ⟨classC, two⟩ => two (oneSegment classC))]
  simp only [tensor]
  split
  · rename_i kindA kindB _
    simp only [h _ _ kindA kindB]
  · rename_i impossible
    exact nomatch impossible
  · rfl

variable {fa fb : Format} {ka kb : OperandKind} {beats : Nat} (pairs : e.Pairs fa fb ka kb beats)
include pairs

open Classical in
theorem mmRun_paired : mmRun v e stop t isOpen c =
    if badView e.viewA fa t.m = true ∨ badView e.viewB fb t.n = true then .fault 0x25
    else if MmBeyond e t isOpen fa fb ka then .fault 0x0A
    else .ok (if isOpen then mmEnd te fa fb ka beats e stop (c.opening e (t.opened ka e c)) (t.opened ka e c) else mmEnd te fa fb ka beats e stop c t) := by
  unfold mmRun
  rw [if_neg (not_or.2 ⟨inTile.nonempty, Nat.not_lt.2 inTile.within⟩), if_neg (fun ⟨classC, two⟩ => two (oneSegment classC))]
  simp only [pairs.formatA, pairs.formatB, pairs.kindA, pairs.kindB, pairs.pair, tensor]
  refine if_congr Iff.rfl rfl (if_congr ?_ rfl ?_)
  · cases ka <;> simp [MmBeyond, and_assoc]
  · cases isOpen with
    | false => rfl
    | true =>
      cases ka with
      | scaled | mx | float => rfl

theorem mmRun_badView (h : badView e.viewA fa t.m = true ∨ badView e.viewB fb t.n = true) : mmRun v e stop t isOpen c = .fault 0x25 := by
  rw [mmRun_paired inTile oneSegment tensor pairs, if_pos h]

variable (viewA : badView e.viewA fa t.m = false) (viewB : badView e.viewB fb t.n = false)
include viewA viewB

theorem mmRun_beyond (h : MmBeyond e t isOpen fa fb ka) : mmRun v e stop t isOpen c = .fault 0x0A := by
  rw [mmRun_paired inTile oneSegment tensor pairs, if_neg (by simp [viewA, viewB]), if_pos h]

theorem mmRun_ok (h : ¬MmBeyond e t isOpen fa fb ka) : mmRun v e stop t isOpen c =
    .ok (if isOpen then mmEnd te fa fb ka beats e stop (c.opening e (t.opened ka e c)) (t.opened ka e c) else mmEnd te fa fb ka beats e stop c t) := by
  rw [mmRun_paired inTile oneSegment tensor pairs, if_neg (by simp [viewA, viewB]), if_neg h]

end

/-- What an mx.mm needs of its K blocks and operands, whichever way it comes by its tile. -/
def MmUsable (v : Env) (e : QEntry) (t : Tile) (te : TensorEntry) (fa fb : Format) (ka kb : OperandKind) (beats : Nat) : Prop :=
  v.tensor t.tensor = some te ∧ Format.ofCode e.viewA.code = some fa ∧ Format.ofCode e.viewB.code = some fb
    ∧ operandKind e.viewA.code = some ka ∧ operandKind e.viewB.code = some kb ∧ pairBeats ka kb = some beats ∧ e.blockCount ≠ 0 ∧ e.firstBlock + e.blockCount ≤ t.nb
    ∧ (e.word.getLsbD 10 = true → e.firstBlock / 128 = (e.firstBlock + e.blockCount - 1) / 128) ∧ badView e.viewA fa t.m = false ∧ badView e.viewB fb t.n = false
    ∧ (e.viewA.reach fa t.m e.blockCount).1 ≤ spGranules ∧ (e.viewB.reach fb t.n e.blockCount).1 ≤ spGranules
    ∧ (e.viewA.reach fa t.m e.blockCount).2 ≤ 64 * spGranules ∧ (e.viewB.reach fb t.n e.blockCount).2 ≤ 64 * spGranules

theorem mmRun_usable {v : Env} {e : QEntry} {stop : Option Nat} {t : Tile} {isOpen : Bool} {c : Core} {te : TensorEntry} {fa fb : Format} {ka kb : OperandKind}
    {beats : Nat} (use : MmUsable v e t te fa fb ka kb beats)
    (pairs : isOpen = true → (∃ f, ka = .scaled f) → e.viewA.scale + 64 ≤ 64 * spGranules ∧ e.viewB.scale + 64 ≤ 64 * spGranules)
    (loaded : isOpen = true → fld (e.reg (opR2 e.word + 1)) 13 2 = 1 → e.partialAt + t.planes.1 + t.planes.2.1 ≤ 64 * spGranules) :
    mmRun v e stop t isOpen c =
      .ok (if isOpen then mmEnd te fa fb ka beats e stop (c.opening e (t.opened ka e c)) (t.opened ka e c) else mmEnd te fa fb ka beats e stop c t) := by
  obtain ⟨tensor, formatA, formatB, kindA, kindB, pair, nonempty, within, oneSegment, viewA, viewB, elemsA, elemsB, scalesA, scalesB⟩ := use
  refine mmRun_ok ⟨nonempty, within⟩ oneSegment tensor ⟨formatA, formatB, kindA, kindB, pair⟩ viewA viewB ?_
  rintro (h | h | h | h | ⟨opens, scaled, h⟩ | ⟨opens, loads, h⟩)
  · exact absurd elemsA (Nat.not_le.2 h)
  · exact absurd elemsB (Nat.not_le.2 h)
  · exact absurd scalesA (Nat.not_le.2 h)
  · exact absurd scalesB (Nat.not_le.2 h)
  · obtain ⟨roomA, roomB⟩ := pairs opens scaled
    exact h.elim (Nat.not_lt.2 roomA) (Nat.not_lt.2 roomB)
  · exact absurd (loaded opens loads) (Nat.not_le.2 h)

/-! ## The tile of mx.mm (04 R106, R121) -/

section
variable {v : Env} {e : QEntry} {stop : Option Nat} {t : Tile} {c : Core}

/-- The tile that an mx.mm opens or names, or why there is none. -/
def mmTile (v : Env) (e : QEntry) (c : Core) : Except Nat Tile :=
  let d := opR2 e.word
  if e.word.getLsbD 11 then openTile v c (e.word.getLsbD 10) (e.reg d) (e.reg (d + 1)) (e.reg (d + 2)) else c.tileNamed (e.reg (d + 1))

/-- Only the open tiles of a core decide what an mx.mm opens or names. -/
theorem mmTile_congr {c c' : Core} (h : c.tiles = c'.tiles) : mmTile v e c = mmTile v e c' := by
  simp only [mmTile, openTile, Core.tileNamed, h]

/-- An mx.mm that stands between no two blocks goes by its tile. -/
theorem mxMm_whole (whole : c.atBlock = none) : mxMm v e stop c = (match mmTile v e c with
    | .error f => .fault f
    | .ok t => mmRun v e stop t (e.word.getLsbD 11) c) := by
  unfold mxMm mmTile
  simp only [whole, Option.isNone_none, Bool.and_true]
  cases e.word.getLsbD 11 <;> rfl

theorem mxMm_refused {f : Nat} (whole : c.atBlock = none) (h : mmTile v e c = .error f) : mxMm v e stop c = .fault f := by
  rw [mxMm_whole whole, h]

theorem mxMm_begins (whole : c.atBlock = none) (h : mmTile v e c = .ok t) : mxMm v e stop c = mmRun v e stop t (e.word.getLsbD 11) c := by
  rw [mxMm_whole whole, h]

theorem mxMm_resumes {p : BlockPos} (between : c.atBlock = some p) (h : c.tileNamed (e.reg (opR2 e.word + 1)) = .ok t) :
    mxMm v e stop c = mmRun v e stop t false c := by
  simp [mxMm, between, h]

end

/-! ## The core that an mx.mm leaves (04 R107, R121) -/

section
variable (te : TensorEntry) (fa fb : Format) (ka : OperandKind) (beats : Nat) (e : QEntry) (stop : Option Nat)

/-- The core after blocks have entered a tile from block `a` on: stopped with the next block recorded and the head not executed, or done. -/
def mmLeft (a : Nat) (evs : List ElemEv) (c : Core) (t : Tile) (twin : Bool) (rest : List QEntry) (z : Core) : Core :=
  let upto := match stop with | none => e.blockCount | some n => min e.blockCount (a + n)
  let st := mmBlocks te fa fb ka e (t.scaled && !t.pairOk) a (upto - a) ⟨c, t, evs⟩
  let y := st.core.putTile st.tile
  if upto < e.blockCount then
    (({ y with atBlock := some ⟨upto, st.evs⟩ } : Core).addBeats engMatrix ((upto - a) * beats)).setQueue engMatrix ({ e with executed := false } :: rest)
  else (({ y with atBlock := none, fm := y.fm.record e.idx st.tile.tensor st.evs } : Core).addBeats engMatrix ((e.blockCount - a) * beats + 18)).executedHead
    twin engMatrix e rest z

theorem executedHead_mm (hclass : opClass e.word = 1) (hop : opCode e.word = 0x00) (y : Core) (twin : Bool) (rest : List QEntry) (z : Core) :
    y.executedHead twin engMatrix e rest z = y.setQueue engMatrix ({ e with executed := true } :: rest) := by
  unfold Core.executedHead
  cases twin
  · rfl
  · exact noteTwin_mm y z hclass hop

theorem mmEnd_mmHead (hclass : opClass e.word = 1) (hop : opCode e.word = 0x00) (c : Core) (t : Tile) (twin : Bool) (rest : List QEntry) (z : Core) :
    (mmEnd te fa fb ka beats e stop c t).mmHead e rest =
      mmLeft te fa fb ka beats e stop c.mmFrom ((c.atBlock.map BlockPos.evs).getD []) c t twin rest z := by
  have start : ∀ p a n st, (mmBlocks te fa fb ka e p a n st).core.mmFrom = st.core.mmFrom := fun p a n st => by
    simp only [Core.mmFrom, mmBlocks_atBlock]
  unfold mmEnd mmLeave mmLeft
  simp only [start, executedHead_mm e hclass hop]
  change (if c.mmUpto stop e.blockCount < e.blockCount then _ else _ : Core).mmHead e rest = if c.mmUpto stop e.blockCount < e.blockCount then _ else _
  split <;> rfl

end

/-! ## Turns of mx.mm -/

section
variable {s : State} {k l : Nat} {c : Ctx} {x : Core} {e : QEntry} {rest : List QEntry} {stop : Option Nat} {errs : List (Nat × Flips)}

/-- Only a context of one die or less stops between blocks for a save (04 R121). -/
def Ctx.mmStop (c : Ctx) (stop : Option Nat) : Option Nat := if c.small then stop else none

theorem CoreTurn.exec_mxMm (h : CoreTurn s k l c x) : exec (.mxMm k l stop errs) s =
    engineRowWith engMatrix 1 0x00 0x03 (c.mmStop stop) errs (fun _ _ v e x => mxMm v e (c.mmStop stop) x) (afterMm (c.mmStop stop)) k l s := by
  have same : (if (s.ctx? k).any Ctx.small then stop else none) = c.mmStop stop := by simp [h.hasCtx, Ctx.mmStop]
  rw [← same]
  rfl

/-- What decides the tile of an mx.mm is as its core was. -/
theorem mmTile_found (x : Core) (s : State) (v : Env) (e : QEntry) (errs : List (Nat × Flips)) (stop : Option Nat) (w : W64) :
    mmTile v e ((x.met s engMatrix errs stop).takeToken w) = mmTile v e x := mmTile_congr (by simp)

section
variable (h : EngineTurn s k l c x engMatrix e rest 1 0x00)
include h

theorem EngineTurn.mm_whole : ((x.met s engMatrix errs stop).takeToken e.word).atBlock = none := by simpa using h.atBlock_none

theorem EngineTurn.mxMm_noTile {f : Nat} (hr : mmTile (s.env c l x) e x = .error f) : exec (.mxMm k l stop errs) s = .next (s.matrixFault k l c e f) :=
  h.matrix_fault h.exec_mxMm (mxMm_refused h.mm_whole ((mmTile_found ..).trans hr))

theorem EngineTurn.mxMm_stops {f : Nat} {t : Tile} (hr : mmTile (s.env c l x) e x = .ok t)
    (hrun : mmRun (s.env c l x) e (c.mmStop stop) t (e.word.getLsbD 11) ((x.met s engMatrix errs (c.mmStop stop)).takeToken e.word) = .fault f) :
    exec (.mxMm k l stop errs) s = .next (s.matrixFault k l c e f) :=
  h.matrix_fault h.exec_mxMm ((mxMm_begins h.mm_whole ((mmTile_found ..).trans hr)).trans hrun)

end

/-- The next state of an mx.mm whose blocks enter the tile `t` of the core `y` from block `a` on. -/
def State.mmNext (s : State) (k l : Nat) (c : Ctx) (x : Core) (e : QEntry) (rest : List QEntry) (stop : Option Nat) (errs : List (Nat × Flips))
    (te : TensorEntry) (fa fb : Format) (ka : OperandKind) (beats a : Nat) (evs : List ElemEv) (y : Core) (t : Tile) : State :=
  afterMm stop (s.met k l c x engMatrix errs stop) k l (x.met s engMatrix errs stop)
    (c.putCore l (mmLeft te fa fb ka beats e stop a evs y t c.desc.twin rest (x.met s engMatrix errs stop)))

theorem MmTurn.mxMm_ran {te : TensorEntry} {fa fb : Format} {ka : OperandKind} {beats : Nat} {y : Core} {t : Tile} (h : MmTurn s k l c x e rest)
    (hf : mxMm (s.env c l x) e (c.mmStop stop) ((x.met s engMatrix errs (c.mmStop stop)).mmBegun e.word) = .ok (mmEnd te fa fb ka beats e (c.mmStop stop) y t)) :
    exec (.mxMm k l stop errs) s =
      .next (s.mmNext k l c x e rest (c.mmStop stop) errs te fa fb ka beats y.mmFrom ((y.atBlock.map BlockPos.evs).getD []) y t) := by
  rw [h.exec_mxMm, h.ran 0x03 (c.mmStop stop) errs _ _ hf, mmEnd_mmHead (hclass := h.isClass) (hop := h.isOp)]
  rfl

theorem EngineTurn.mxMm_ran {te : TensorEntry} {fa fb : Format} {ka : OperandKind} {beats : Nat} {y : Core} {t t' : Tile}
    (h : EngineTurn s k l c x engMatrix e rest 1 0x00) (hr : mmTile (s.env c l x) e x = .ok t)
    (hrun : mmRun (s.env c l x) e (c.mmStop stop) t (e.word.getLsbD 11) ((x.met s engMatrix errs (c.mmStop stop)).takeToken e.word) =
      .ok (mmEnd te fa fb ka beats e (c.mmStop stop) y t')) (hy : y.atBlock = none) :
    exec (.mxMm k l stop errs) s = .next (s.mmNext k l c x e rest (c.mmStop stop) errs te fa fb ka beats 0 [] y t') := by
  have begun : (x.met s engMatrix errs (c.mmStop stop)).mmBegun e.word = (x.met s engMatrix errs (c.mmStop stop)).takeToken e.word := by
    simp [Core.mmBegun, h.atBlock_none]
  have done := h.mm.mxMm_ran ((congrArg _ begun).trans ((mxMm_begins h.mm_whole ((mmTile_found ..).trans hr)).trans hrun))
  simpa [Core.mmFrom, hy] using done

end

/-- Settles O16: each clause is the outcome of mx.mm on the core that it finds, by the checks of its tile, its K blocks and its operands in their order. -/
theorem matrixMultiply : Obligations.MatrixMultiply := by
  unfold Obligations.MatrixMultiply
  intro s k l c x e rest stop errs w lim z va vb first count d at' loads fails t te fa fb ka kb beats usable run
  have ran : ∀ a evs y t, run a evs y t = .next (s.mmNext k l c x e rest (c.mmStop stop) errs te fa fb ka beats a evs y t) := fun _ _ _ _ => rfl
  refine ⟨fun h => ⟨fun again named use => ?_, fun opens opened use pairRoom loadRoom => ?_, fun r hr => ⟨fun f error => h.mxMm_noTile (hr.trans error),
    fun ok outside => h.mxMm_stops (hr.trans ok) (mmRun_outside outside),
    fun ok nonempty within classC two => h.mxMm_stops (hr.trans ok) (mmRun_twoSegments ⟨nonempty, within⟩ classC two),
    fun ok nonempty within oneSegment => ?_⟩⟩, fun a evs core calm head hclass hop fresh between named use => ?_⟩
  · have chosen : mmTile (s.env c l x) e x = .ok t := (if_neg (Bool.eq_false_iff.1 again)).trans named
    rw [ran]
    refine h.mxMm_ran chosen ?_ h.mm_whole
    rw [again]
    exact mmRun_usable use (fun h => Bool.noConfusion h) (fun h => Bool.noConfusion h)
  · intro qa qb paired tile
    have chosen : mmTile (s.env c l x) e x = .ok t := (if_pos opens).trans opened
    have tile_eq : t.opened ka e (z.takeToken w) = tile := by
      rw [opened_eq, paired_takeToken, takeToken_spPoisoned]
      cases ka <;> rfl
    have core_eq : (z.takeToken w).opening e tile = { loadTile (z.takeToken w) tile (if loads then some at' else none) with tiles := x.tiles ++ [tile] } := by
      have tiles : (z.takeToken w).tiles = x.tiles := by simp [z]
      simp only [Core.opening, loads_iff, tiles]
      rfl
    rw [ran, ← core_eq]
    refine h.mxMm_ran chosen ?_ ((opening_atBlock ..).trans h.mm_whole)
    rw [opens, ← tile_eq]
    exact mmRun_usable use (fun _ => pairRoom) (fun _ => loadRoom)
  · intro kinds formats viewed pairsBeyond
    have inTile : e.InTile t := ⟨nonempty, within⟩
    refine ⟨fun none => h.mxMm_stops (hr.trans ok) (mmRun_noTensor inTile oneSegment none), fun tensor => ⟨fun none => ?_, fun ⟨kindA, kindB⟩ none => ?_,
      fun ⟨⟨kindA, kindB⟩, pair, formatA, formatB⟩ bad => ?_, fun ⟨⟨kindA, kindB⟩, pair, formatA, formatB⟩ ⟨viewA, viewB⟩ beyond => ?_⟩⟩
    · refine h.mxMm_stops (hr.trans ok) (mmRun_unpaired inTile oneSegment tensor fun ka kb kindA kindB => ?_)
      obtain noneA | noneB := none
      · exact nomatch noneA.symm.trans kindA
      · exact nomatch noneB.symm.trans kindB
    · refine h.mxMm_stops (hr.trans ok) (mmRun_unpaired inTile oneSegment tensor fun ka' kb' kindA' kindB' => ?_)
      obtain rfl := Option.some.inj (kindA.symm.trans kindA')
      obtain rfl := Option.some.inj (kindB.symm.trans kindB')
      exact none
    · refine h.mxMm_stops (hr.trans ok) (mmRun_badView inTile oneSegment tensor ⟨formatA, formatB, kindA, kindB, pair⟩ ?_)
      rw [← Bool.not_eq_false, ← Bool.not_eq_false]
      exact not_and_or.1 bad
    · exact h.mxMm_stops (hr.trans ok) (mmRun_beyond inTile oneSegment tensor ⟨formatA, formatB, kindA, kindB, pair⟩ viewA viewB beyond)
  · have turn : MmTurn s k l c x e rest := { core with head, isClass := hclass, isOp := hop, calm, fresh, ready := .inl (by simp [between]) }
    have stands : z.atBlock = some ⟨a, evs⟩ := by simp [z, between]
    have begun : z.mmBegun w = z := by simp [Core.mmBegun, stands]
    have seen : z.tileNamed (e.reg (opR2 e.word + 1)) = .ok t := by simpa [z] using named
    have done := turn.mxMm_ran (stop := stop) (errs := errs) ((congrArg _ begun).trans ((mxMm_resumes stands seen).trans
      (mmRun_usable use (fun h => Bool.noConfusion h) (fun h => Bool.noConfusion h))))
    rw [ran]
    simpa [Core.mmFrom, stands] using done

end Sys2Proof.Machine

/-! PROOFS. Instructions of the sequencer (05 R128 to R132, R136): scalar arithmetic, reads, loops, boundaries and the timed launch. -/

namespace Sys2Proof.Machine

/-! ## Sequencer-class rows that do not go on (05 R124, R147) -/

section
variable {s : State} {k l : Nat} {c : Ctx} {x : Core} {w : W64} {cls op : Nat} (h : SeqTurn s k l c x w cls op)
  (f : State → Ctx → Env → W64 → Core → CRes) (after : State → Nat → Nat → Core → Ctx → State)
include h

/-- An instruction that does not succeed does to its context what its result says, and nothing else. -/
theorem SeqTurn.absorbs {r : CRes} (hf : f s c (s.env c l x) w (x.begun w) = r) (stays : ∀ y, r ≠ .ok y) :
    seqRowWith cls op f after k l s = .next (s.putCtx k (c.absorb s.st.now l 0 x.seq.pos 0x03 r)) := by
  rw [seqRowWith, withCore_turn h.toCoreTurn, if_pos (by simp [h.live, h.calm])]
  simp only []
  rw [seqStep_turn h, hf]
  cases r with
  | ok y => exact absurd rfl (stays y)
  | _ => rfl

theorem SeqTurn.waits (hf : f s c (s.env c l x) w (x.begun w) = .wait) : seqRowWith cls op f after k l s = .next (s.putCtx k c) :=
  h.absorbs f after hf (fun _ e => CRes.noConfusion e)

theorem SeqTurn.row_poisons {g : Nat} (hf : f s c (s.env c l x) w (x.begun w) = .poison g) :
    seqRow cls op f k l s = .next (s.putCtx k (c.raisePoison (viewAddr l g) 0x03)) := h.absorbs f _ hf (fun _ e => CRes.noConfusion e)

theorem SeqTurn.row_waits (hf : f s c (s.env c l x) w (x.begun w) = .wait) : seqRow cls op f k l s = .next (s.putCtx k c) := h.waits f _ hf

theorem SeqTurn.row_faults {n : Nat} (hf : f s c (s.env c l x) w (x.begun w) = .fault n) :
    seqRow cls op f k l s = .next (s.putCtx k (c.raiseFault s.st.now l 0 n x.seq.pos)) := seqRow_fault h f _ n hf

/-- An instruction that writes one scalar register and goes on (05 R136). -/
theorem SeqTurn.writes {v : W64} (hf : f s c (s.env c l x) w (x.begun w) = seqWrite (opR0 w) v (x.begun w)) :
    seqRow cls op f k l s = .next (s.seqDone k l c w (((x.begun w).setS (opR0 w) v).advance)) := seqRow_ok h f _ hf rfl

end

/-! ## Scalar arithmetic (05 R136) -/

theorem zeroExtend_low32 (w : W64) : ((w.truncate 32 : W32).zeroExtend 64 : W64) = BitVec.ofNat 64 (w.toNat % 2 ^ 32) := by
  apply BitVec.eq_of_toNat_eq
  simp

theorem append_low32 (w v : W64) : ((w.truncate 32 : W32) ++ (v.truncate 32 : W32) : W64) = BitVec.ofNat 64 (w.toNat % 2 ^ 32 * 2 ^ 32 + v.toNat % 2 ^ 32) := by
  apply BitVec.eq_of_toNat_eq
  have low : (v.truncate 32 : W32).toNat < 2 ^ 32 := (v.truncate 32 : W32).isLt
  rw [BitVec.toNat_append, Nat.shiftLeft_eq, Nat.mul_comm, ← Nat.two_pow_add_eq_or_of_lt low]
  simp
  omega

theorem fld_low {n : Nat} (w : BitVec n) (m : Nat) : fld w 0 m = w.toNat % 2 ^ m := by simp [fld]

/-- Settles O3: each instruction writes its named result into sd, read from registers that the wait leaves as they are. -/
theorem sequencerArithmetic : Obligations.SequencerArithmetic := by
  unfold Obligations.SequencerArithmetic
  intro s k l c x w
  dsimp only
  refine ⟨fun h => seqRow_ok h (fun _ _ _ _ x => .ok x.advance) _ rfl rfl, fun h => h.writes (fun _ _ _ => seqLi) ?_, fun h => h.writes (fun _ _ _ => seqLih) ?_,
    fun h => h.writes (fun _ _ _ => seqAddi) ?_, fun h => h.writes (fun _ _ _ => seqAlu (· + ·)) ?_, fun h => h.writes (fun _ _ _ => seqAlu (· - ·)) ?_,
    fun h => h.writes (fun _ _ _ => seqAlu (· * ·)) ?_, fun h => h.writes (fun _ _ _ => seqAlu (· &&& ·)) ?_, fun h => h.writes (fun _ _ _ => seqAlu (· ||| ·)) ?_,
    fun h => h.writes (fun _ _ _ => seqAlu (· ^^^ ·)) ?_, fun h => h.writes (fun _ _ _ => seqShift (· <<< ·)) ?_, fun h => h.writes (fun _ _ _ => seqShift (· >>> ·)) ?_⟩
  · rw [seqLi, zeroExtend_low32]
  · rw [seqLih, append_low32, begun_sreg]
  · simp only [seqAddi, begun_sreg, imm22]
  all_goals simp only [seqAlu, seqShift, begun_sreg, fld_low, Nat.reducePow]

/-! ## Reads (05 R136) -/

theorem seqRdlc_open {x : Core} {w : W64} {level : LoopLevel} (h : x.loopAt (fld w 30 2) = some level) :
    seqRdlc w x = seqWrite (opR0 w) (BitVec.ofNat 64 level.lc) x := by simp only [seqRdlc, h]

theorem seqRdid_item {v : Env} {x : Core} {w : W64} {n : Nat} {item : W64} (hn : fld w 28 4 = n) (h : rdidItem v x n = some item) :
    seqRdid v w x = seqWrite (opR0 w) item x := by simp only [seqRdid, hn, h]

@[simp] theorem begun_loopAt (x : Core) (w : W64) (n : Nat) : (x.begun w).loopAt n = x.loopAt n := by simp [Core.loopAt]

/-- Settles O4: a read is a write of its item into sd. -/
theorem sequencerReads : Obligations.SequencerReads := by
  unfold Obligations.SequencerReads
  intro s k l c x w done nat
  refine ⟨fun level h open' => h.writes (fun _ _ _ => seqRdlc) (seqRdlc_open ((begun_loopAt x w _).trans open')), fun h => ?_⟩
  have reads : ∀ {n item}, rdidItem (s.env c l x) (x.begun w) n = some item → fld w 28 4 = n → exec (.seqRdid k l) s = done item := fun hi hn =>
    h.writes (fun _ _ => seqRdid) (seqRdid_item hn hi)
  exact ⟨reads rfl, reads rfl, reads rfl, reads rfl, reads rfl, reads rfl, reads rfl, reads (congrArg some (begun_tileIndex x w))⟩

/-! ## Loops (05 R129, R130) -/

/-- Iteration count of a seq.loop: of a register or of its word. -/
def loopCount (x : Core) (w : W64) : Nat := if w.getLsbD 36 then (x.sreg (fld w 31 5)).toNat % 2 ^ 32 else w.toNat % 2 ^ 24

theorem seqLoop_eq (v : Env) (w : W64) (x : Core) : seqLoop v w x =
    if 2 ^ 24 ≤ loopCount x w then .fault 0x08
    else if loopCount x w = 0 then .ok (x.setPos (skipBody (v.image.drop (x.seq.pos + 1)) 0 (x.seq.pos + 1)))
    else .ok { x with seq := { x.seq with pos := x.seq.pos + 1, loops := ⟨x.seq.pos + 1, loopCount x w, 0⟩ :: x.seq.loops } } := by
  unfold seqLoop loopCount
  cases w.getLsbD 36 with
  | true => simp only [fld_low, seqLoop.opR1', if_true, true_and, ge_iff_le]
  | false =>
    have small : ¬ 2 ^ 24 ≤ w.toNat % 2 ^ 24 := by omega
    simp only [fld_low, Bool.false_eq_true, if_false, false_and, small]

theorem seqEndl_inner {x : Core} {level : LoopLevel} {outer : List LoopLevel} (h : x.seq.loops = level :: outer) : seqEndl x =
    if level.lc + 1 < level.count then .ok { x with seq := { x.seq with pos := level.start, loops := { level with lc := level.lc + 1 } :: outer } }
    else .ok { x with seq := { x.seq with pos := x.seq.pos + 1, loops := outer } } := by simp only [seqEndl, h]

theorem seqBrlc_open {x : Core} {w : W64} {level : LoopLevel} (h : x.loopAt (fld w 35 2) = some level) : seqBrlc w x =
    .ok (x.setPos (x.seq.pos + 1 + if brlcHolds (fld w 32 3) level.lc level.count (fld w 0 18) then fld w 18 14 else 0)) := by simp only [seqBrlc, h]

@[simp] theorem begun_loopCount (x : Core) (w : W64) : loopCount (x.begun w) w = loopCount x w := by simp [loopCount]

/-- Settles O5: each instruction sets the position and the loop stack by its case. -/
theorem sequencerLoops : Obligations.SequencerLoops := by
  unfold Obligations.SequencerLoops
  intro s k l c x w
  dsimp only
  refine ⟨fun h => ?_, fun level outer h loops => ?_, fun level h open' => ?_⟩
  · have ran := seqLoop_eq (s.env c l x) w (x.begun w)
    rw [begun_loopCount] at ran
    change (loopCount x w ≠ 0 → loopCount x w < 2 ^ 24 → _) ∧ (loopCount x w = 0 → _) ∧ (2 ^ 24 ≤ loopCount x w → _)
    refine ⟨fun nonzero small => seqRow_ok h (fun _ _ => seqLoop) _ (ran.trans ?_) rfl, fun zero => seqRow_ok h (fun _ _ => seqLoop) _ (ran.trans ?_) rfl,
      fun big => h.row_faults (fun _ _ => seqLoop) (ran.trans (if_pos big))⟩
    · rw [if_neg (Nat.not_le.2 small), if_neg nonzero, begun_seq]
      rfl
    · rw [zero, if_neg (by decide), if_pos rfl, begun_seq]
  · have ran := seqEndl_inner (x := x.begun w) ((congrArg Sequencer.loops (begun_seq x w)).trans loops)
    refine ⟨fun more => seqRow_ok h (fun _ _ _ _ => seqEndl) _ (ran.trans (if_pos more)) rfl, fun last => seqRow_ok h (fun _ _ _ _ => seqEndl) _ (ran.trans ?_) rfl⟩
    rw [if_neg (Nat.not_lt.2 last), begun_seq]
  · refine seqRow_ok h (fun _ _ _ => seqBrlc) _ ((seqBrlc_open ((begun_loopAt x w _).trans open')).trans ?_) rfl
    rw [begun_seq]

/-! ## Fences, boundaries and the end of a program (05 R131, R132, R136, 13 R375) -/

theorem fence_idle_iff (x : Core) (w : W64) : (fenceEngines w).all x.engineIdle = true ↔ ∀ g ∈ fenceEngines w, x.queue g = [] := by
  simp [Core.engineIdle]

theorem seqTb_quiet {x : Core} (h : x.quiescent = true) : seqTb x = .ok { x.advance with tileIndex := x.tileIndex + 1, tileBeats := [] } := if_pos h
theorem seqTb_busy {x : Core} (h : x.quiescent = false) : seqTb x = .wait := if_neg (by simp [h])

theorem seqEnd_closed {x : Core} (h : x.quiescent = true) (closed : x.tiles = []) : seqEnd x = .ok { x with seq := { x.seq with ended := true }, tileBeats := [] } := by
  simp [seqEnd, h, closed]
theorem seqEnd_open {x : Core} (h : x.quiescent = true) (tiles : x.tiles ≠ []) : seqEnd x = .fault 0x29 := by simp [seqEnd, h, tiles]
theorem seqEnd_busy {x : Core} (h : x.quiescent = false) : seqEnd x = .wait := by simp [seqEnd, h]

/-- The seq.tb of a context: it waits where the context is asked to leave outside a stretch (13 R375). -/
def tileBoundary (s : State) (k : Nat) (c : Ctx) (x : Core) : CRes := if c.preempt && !s.inStretch k c then .wait else seqTb x

theorem exec_seqTb (k l : Nat) (s : State) : exec (.seqTb k l) s =
    seqRowWith 0 0x05 (fun s c _ _ x => tileBoundary s k c x) (fun s k l x c => ((s.putCtx k (c.noteTile x)).boundary k l).settleAt k l) k l s := rfl

theorem exec_seqEnd (k l : Nat) (s : State) : exec (.seqEnd k l) s =
    seqRowWith 0 0x07 (fun _ _ _ _ x => seqEnd x) (fun s k l x c => programOver ((s.putCtx k (c.noteTile x)).settleAt k l) k) k l s := rfl

/-- Settles O6: each instruction waits, or goes on, by the state of the engines that it names. -/
theorem sequencerBoundaries : Obligations.SequencerBoundaries := by
  unfold Obligations.SequencerBoundaries
  intro s k l c x w
  dsimp only
  rw [exec_seqTb, exec_seqEnd]
  have quiet := begun_quiescent x w
  have tiles := begun_tiles x w
  have fence : (fenceEngines w).all (x.begun w).engineIdle = true ↔ ∀ g ∈ fenceEngines w, x.queue g = [] :=
    (fence_idle_iff (x.begun w) w).trans (forall₂_congr fun g _ => by rw [begun_queue])
  refine ⟨fun h => ⟨fun idle => seqRow_ok h (fun _ _ _ => seqFence) _ (if_pos (fence.2 idle)) rfl, fun busy => ?_⟩,
    fun h => ⟨fun stays idle => ?_, fun waiting => h.waits _ _ ?_⟩,
    fun h => ⟨fun idle closed => seqRowWith_ok h _ _ _ (seqEnd_closed (quiet.trans idle) (tiles.trans closed)) rfl,
      fun idle still => seqRow_fault h _ _ _ (seqEnd_open (quiet.trans idle) (tiles ▸ still)), fun busy => h.waits _ _ (seqEnd_busy (quiet.trans busy))⟩⟩
  · obtain ⟨g, named, atWork⟩ := busy
    exact h.row_waits (fun _ _ _ => seqFence) (if_neg fun idle => atWork (fence.1 idle g named))
  · have goes : ¬ (c.preempt && !s.inStretch k c) = true := by
      rcases stays with e | e <;> simp [e]
    rw [← begun_tileIndex x w]
    exact seqRowWith_ok h _ _ _ ((if_neg goes).trans (seqTb_quiet (quiet.trans idle))) rfl
  · rcases waiting with busy | ⟨asked, outside⟩
    · exact (congrArg _ (seqTb_busy (quiet.trans busy))).trans (ite_self _)
    · exact if_pos (by simp [asked, outside])

/-! ## The timed launch (05 R128) -/

/-- The core after a seq.wait.st that goes on. -/
def Core.launched (z : Core) : Core := { z.advance with seq := { z.advance.seq with waitTarget := none } }

@[simp] theorem launched_token (z : Core) (i : Nat) : z.launched.token i = z.token i := rfl

section
variable {s : State} {k l : Nat} {c : Ctx} {z : Core} {w : W64} {target : Nat} (going : c.stopping = false)
  (room : opCs w = 0 ∨ z.token (opTs w) + opCs w < 2 ^ 32)
include going room

theorem proceedWait_room : proceedWait s k l c z w target =
    let go := c.putCore l (z.launched.signalled w)
    if target < s.observed ∧ 16 * c.desc.margin < s.observed - target then s.spend.noteLate k go else s.spend.putCtx k go := by
  have signal : z.launched.signal w = some (z.launched.signalled w) := signal_room room
  unfold proceedWait
  simp only [Core.launched] at signal
  simp only [signal, going, Ctx.lateBy, decide_eq_true_eq, Core.launched]
  rfl

end

section
variable {s : State} {k l : Nat} {c : Ctx} {x : Core} {w : W64} (h : SeqTurn s k l c x w 0 0x04) (fresh : x.seq.waitTarget = none)
include h fresh

/-- seq.wait.st reaches the sequencer: its target is beyond the limit, reached, or ahead (05 R128). -/
theorem SeqTurn.waitSt : exec (.seqWaitSt k l) s = .next (
    let target := x.sreg (opR0 w)
    if s.observed + c.waitLimit < target.toNat then s.spend.putCtx k (c.raiseFault s.st.now l 0 0x07 x.seq.pos)
    else if target.toNat ≤ s.observed then proceedWait s k l c (x.begun w) w target.toNat
    else s.spend.withCoreAs k l c { x.begun w with seq := { (x.begun w).seq with waitTarget := some target } }) := by
  show execSeqWaitSt k l s = _
  rw [execSeqWaitSt, withCore_turn h.toCoreTurn, if_pos (by simp [h.live, h.calm]), waitStStart, h.word]
  simp only
  rw [if_pos ⟨h.isClass, h.isOp, by simp [Core.tokenReady, h.ready], h.notStopped, h.notEnded, h.notFolded, fresh⟩]
  have reg : ((x.takeToken w).addBeats 0 1).sreg (opR0 w) = x.sreg (opR0 w) := begun_sreg x w _
  simp only [reg, h.going]
  rfl

end

/-- Settles O7: a launch by where its target lies, and the step that finds the target reached. -/
theorem timedLaunch : Obligations.TimedLaunch := by
  unfold Obligations.TimedLaunch
  intro s k l c x w y target go late
  refine ⟨fun h fresh => ?_, fun t h waiting word reached room inTime => ?_⟩
  · have proceeds := proceedWait_room (s := s) (k := k) (l := l) (z := y) (target := target.toNat) h.going h.room
    have step := h.waitSt fresh
    have within {n : Nat} (reached : n ≤ s.observed) : ¬ s.observed + c.waitLimit < n := Nat.not_lt.2 (Nat.le_add_right_of_le reached)
    refine ⟨fun reached inTime => ?_, fun isLate => ?_, fun ahead near => ?_, fun beyond => ?_⟩
    · rw [step, if_neg (within reached), if_pos reached, proceeds]
      exact congrArg _ (if_neg inTime)
    · have reached : target.toNat ≤ s.observed := Nat.le_of_lt isLate.1
      rw [step, if_neg (within reached), if_pos reached, proceeds]
      exact congrArg _ (if_pos isLate)
    · rw [step, if_neg (Nat.not_lt.2 near), if_neg (Nat.not_le.2 ahead)]
    · rw [step, if_pos beyond]
  · have proceeds := proceedWait_room (s := s) (k := k) (l := l) (z := x) (target := t.toNat) h.going room
    show execStTargetReached k l s = _
    rw [execStTargetReached, withCore_turn h, waiting, word]
    simp only
    rw [if_pos (by simp [h.live, h.notStopped, h.notFolded, reached]), proceeds]
    exact congrArg _ (if_neg inTime)

end Sys2Proof.Machine

/-! PROOFS. Instructions of the vector unit (05 R139, R140, R463, 06 R158 to R181): each instruction's result on the core that it finds, and the statements put together
from them. -/

namespace Sys2Proof.Machine

section
variable (x : Core) (w : W64)

@[simp] theorem takeToken_lane (r i : Nat) : (x.takeToken w).lane r i = x.lane r i := by rw [takeToken_eq]; rfl
@[simp] theorem takeToken_gateCount : (x.takeToken w).gateCount = x.gateCount := by rw [takeToken_eq]

end

/-! ## Lane ops (06 R158) -/

section
variable (beats : Nat) (e : QEntry) (x : Core)

theorem lane1_takeToken (f : W32 → FRes) : lane1 f beats e (x.takeToken e.word) =
    .ok ((x.takeToken e.word).laneDone e (x.vPoisoned (opVa e.word)) beats (fun i => f (x.lane (opVa e.word) i))) := by
  simp only [lane1, takeToken_lanes, takeToken_vPoisoned, List.map_map, ← vectorResult_range]
  rfl

theorem lane2_takeToken (f : W32 → W32 → FRes) : lane2 f beats e (x.takeToken e.word) =
    .ok ((x.takeToken e.word).laneDone e (x.vPoisoned (opVa e.word) || x.vPoisoned (opVb e.word)) beats
      (fun i => f (x.lane (opVa e.word) i) (x.lane (opVb e.word) i))) := by
  simp only [lane2, takeToken_lanes, takeToken_vPoisoned, zipWith_range, ← vectorResult_range]

theorem lane3_takeToken (f : W32 → W32 → W32 → FRes) : lane3 f beats e (x.takeToken e.word) =
    .ok ((x.takeToken e.word).laneDone e (x.vPoisoned (opVa e.word) || x.vPoisoned (opVb e.word) || x.vPoisoned (opVc e.word)) beats
      (fun i => f (x.lane (opVa e.word) i) (x.lane (opVb e.word) i) (x.lane (opVc e.word) i))) := by
  simp only [lane3, takeToken_lanes, takeToken_vPoisoned, zipWith_range, ← vectorResult_range]

end

section
variable {s : State} {k l : Nat} {c : Ctx} {x : Core} {e : QEntry} {rest : List QEntry} {op : Nat} (h : EngineTurn s k l c x engVector e rest 2 op) (beats : Nat)
include h

theorem EngineTurn.lanes1 (f : W64 → W32 → FRes) : vectorRow op [] (fun _ e x => lane1 (f e.word) beats e x) k l s = .next (s.engineDone k l c x engVector [] e rest
    ((x.takeToken e.word).laneDone e (x.vPoisoned (opVa e.word)) beats (fun i => f e.word (x.lane (opVa e.word) i)))) :=
  engineRow_ok h 0x03 [] (fun _ _ _ e x => lane1 (f e.word) beats e x) _ (lane1_takeToken beats e x (f e.word)) rfl

theorem EngineTurn.lanes2 (f : W64 → W32 → W32 → FRes) :
    vectorRow op [] (fun _ e x => lane2 (f e.word) beats e x) k l s = .next (s.engineDone k l c x engVector [] e rest
      ((x.takeToken e.word).laneDone e (x.vPoisoned (opVa e.word) || x.vPoisoned (opVb e.word)) beats
        (fun i => f e.word (x.lane (opVa e.word) i) (x.lane (opVb e.word) i)))) :=
  engineRow_ok h 0x03 [] (fun _ _ _ e x => lane2 (f e.word) beats e x) _ (lane2_takeToken beats e x (f e.word)) rfl

theorem EngineTurn.lanes3 (f : W64 → W32 → W32 → W32 → FRes) :
    vectorRow op [] (fun _ e x => lane3 (f e.word) beats e x) k l s = .next (s.engineDone k l c x engVector [] e rest
      ((x.takeToken e.word).laneDone e (x.vPoisoned (opVa e.word) || x.vPoisoned (opVb e.word) || x.vPoisoned (opVc e.word)) beats
        (fun i => f e.word (x.lane (opVa e.word) i) (x.lane (opVb e.word) i) (x.lane (opVc e.word) i)))) :=
  engineRow_ok h 0x03 [] (fun _ _ _ e x => lane3 (f e.word) beats e x) _ (lane3_takeToken beats e x (f e.word)) rfl

end

/-- Settles O11: each op is a lane op of one, two or three operands. -/
theorem vectorFloatLanes : Obligations.VectorFloatLanes := by
  unfold Obligations.VectorFloatLanes
  intro s k l c x e rest turn y m sat va vb vc p2 p3 done
  exact ⟨fun h => h.lanes2 1 (fun w => f32Add (opMode w) (opSat w)), fun h => h.lanes2 1 (fun w => f32Sub (opMode w) (opSat w)),
    fun h => h.lanes2 1 (fun w => f32Mul (opMode w) (opSat w)), fun h => h.lanes3 1 (fun w => f32Fma (opMode w) (opSat w)),
    fun h => h.lanes2 1 (fun _ a b => pureRes (f32Min a b)), fun h => h.lanes2 1 (fun _ a b => pureRes (f32Max a b)),
    fun h => h.lanes3 1 (fun _ a b c => pureRes (if c = 0 then b else a)), fun h => h.lanes1 3 (fun _ => rcpRef), fun h => h.lanes1 3 (fun _ => rsqRef),
    fun h => h.lanes1 3 (fun _ => exp2Ref), fun h => h.lanes1 3 (fun _ => log2Ref), fun h => h.lanes1 6 (fun w => f32Sqrt (opMode w))⟩

/-- Settles O12: each op is a lane op of two or three operands. -/
theorem vectorIntegerLanes : Obligations.VectorIntegerLanes := by
  unfold Obligations.VectorIntegerLanes
  intro s k l c x e rest turn y m sat a b cc p2 done
  exact ⟨fun h => h.lanes2 1 (fun w => packedAdd (opMode w) (opSat w)), fun h => h.lanes2 1 (fun w => packedMul (opMode w) (opSat w)),
    fun h => h.lanes3 1 (fun w => packedFma (opMode w) (opSat w)), fun h => h.lanes2 1 (fun _ a b => pureRes (a + b)),
    fun h => h.lanes2 1 (fun _ a b => pureRes (a - b)), fun h => h.lanes2 1 (fun _ a b => pureRes (a * b)),
    fun h => h.lanes2 1 (fun _ a b => pureRes (a &&& b)), fun h => h.lanes2 1 (fun _ a b => pureRes (a ||| b)),
    fun h => h.lanes2 1 (fun _ a b => pureRes (a ^^^ b)), fun h => h.lanes2 1 (fun _ a b => pureRes (a <<< (b.toNat % 32))),
    fun h => h.lanes2 1 (fun _ a b => pureRes (a >>> (b.toNat % 32))), fun h => h.lanes2 1 (fun _ a b => pureRes (a.sshiftRight (b.toNat % 32)))⟩

/-! ## Loads, stores, reductions and draws (05 R139, R140, 06 R158, R181) -/

section
variable {v : Env} {e : QEntry} {c : Core}

theorem vxLd_fits (fits : (e.reg (opSx e.word)).toNat + 4 ≤ spGranules) : vxLd e c =
    .ok ((c.setLanes (opVd e.word) (words32 64 (c.spRead (64 * (e.reg (opSx e.word)).toNat) 256)) (c.spPoisoned (64 * (e.reg (opSx e.word)).toNat) 256)).addBeats
      engVector 4) := by
  unfold vxLd
  exact if_neg (by omega)

theorem vxLd_beyond (beyond : spGranules < (e.reg (opSx e.word)).toNat + 4) : vxLd e c = .fault 0x0A := by
  unfold vxLd
  exact if_pos (by omega)

theorem vxSt_fits (fits : (e.reg (opSx e.word)).toNat + 4 ≤ spGranules) : vxSt e c =
    .ok ((if e.skips then c else c.spWrite (64 * (e.reg (opSx e.word)).toNat) (bytes32 (c.lanes (opVa e.word))) (c.vPoisoned (opVa e.word))).addBeats engVector 4) := by
  unfold vxSt
  exact if_neg (by omega)

theorem vxSt_beyond (beyond : spGranules < (e.reg (opSx e.word)).toNat + 4) : vxSt e c = .fault 0x0A := by
  unfold vxSt
  exact if_pos (by omega)

/-- Word `j` of the draws of a gr.draw (06 R181). -/
def drawWord (key : BitVec 128) (e : QEntry) (j : Nat) : List W32 :=
  (List.range 64).map (fun i => (BitVec.truncate 32 (grainAt key (BitVec.truncate 32 (e.reg (fld e.word 26 5)))
    (BitVec.ofNat 64 ((e.reg (fld e.word 21 5)).toNat + i)) (useCount 0 (e.reg (fld e.word 16 5)).toNat) >>> (32 * j)) : W32))

/-- Has a gr.draw a draw for each of its lanes (06 R179)? -/
structure Draws (v : Env) (e : QEntry) : Prop where
  tensor : v.tensor (BitVec.truncate 32 (e.reg (fld e.word 26 5))) ≠ none
  use : (e.reg (fld e.word 16 5)).toNat < 2 ^ 30
  elem : (e.reg (fld e.word 21 5)).toNat + 63 < 2 ^ 64

theorem grDraw_drawn (draws : Draws v e) : grDraw v e c =
    match fld e.word 14 2 with
    | 0 => .ok ((c.setLanes (opVd e.word) ((drawWord c.key e 0).map (· &&& 0xFFFF)) false).addBeats engVector 1)
    | 1 => .ok ((c.setLanes (opVd e.word) (drawWord c.key e 0) false).addBeats engVector 1)
    | 2 => .ok (((List.range 4).foldl (fun u j => u.setLanes (opVd e.word + j) (drawWord c.key e j) false) c).addBeats engVector 4)
    | _ => CRes.wait := by
  unfold grDraw
  simp only [drawWord, List.map_map]
  rw [if_neg]
  · rfl
  · rintro (none | beyond | beyond)
    · exact draws.tensor (Option.isNone_iff_eq_none.1 none)
    · exact absurd draws.use (by omega)
    · exact absurd draws.elem (by omega)

theorem grDraw_undrawn (h : v.tensor (BitVec.truncate 32 (e.reg (fld e.word 26 5))) = none ∨ 2 ^ 30 ≤ (e.reg (fld e.word 16 5)).toNat
    ∨ 2 ^ 64 ≤ (e.reg (fld e.word 21 5)).toNat + 63) : grDraw v e c = .fault 0x0B := by
  unfold grDraw
  exact if_pos (h.imp_left Option.isNone_iff_eq_none.2)

end

section
variable {s : State} {k l : Nat} {c : Ctx} {x : Core} {e : QEntry} {rest : List QEntry} {cls op : Nat} (h : EngineTurn s k l c x engVector e rest cls op)
  {errs : List (Nat × Flips)} (f : Env → QEntry → Core → CRes)
include h

theorem EngineTurn.vector_ok {y : Core} (hf : f (s.env c l x) e ((x.met s engVector errs).takeToken e.word) = .ok y) :
    engineRow engVector cls op 0x03 errs (fun _ _ v e x => f v e x) k l s = .next (s.engineDone k l c x engVector errs e rest y) :=
  engineRow_ok h 0x03 errs (fun _ _ v e x => f v e x) y hf rfl

theorem EngineTurn.vector_fault {n : Nat} (hf : f (s.env c l x) e ((x.met s engVector errs).takeToken e.word) = .fault n) :
    engineRow engVector cls op 0x03 errs (fun _ _ v e x => f v e x) k l s = .next (s.putCtx k (c.raiseFault s.st.now l engVector n e.idx)) :=
  engineRow_fault h 0x03 none errs (fun _ _ v e x => f v e x) _ n hf

end

/-- Settles O13: an access by whether it lies in the scratchpad, a reduction by its registers, a draw by its width. -/
theorem vectorMovesAndReductions : Obligations.VectorMovesAndReductions := by
  unfold Obligations.VectorMovesAndReductions
  intro s k l c x e rest
  dsimp only
  refine ⟨fun errs h => ⟨fun fits => h.vector_ok (fun _ => vxLd) ?_, fun beyond => h.vector_fault (fun _ => vxLd) (vxLd_beyond beyond)⟩,
    fun h => ⟨fun fits => h.vector_ok (fun _ => vxSt) ?_, fun beyond => h.vector_fault (fun _ => vxSt) (vxSt_beyond beyond)⟩,
    fun h => h.vector_ok (fun _ => vxLi) ?_, fun h => h.vector_ok (fun _ => vxRsum) ?_, fun h => h.vector_ok (fun _ => vxRmax) ?_,
    fun h => h.vector_ok (fun _ => vxNfc) ?_, fun h => ⟨fun tensor use elem => ?_, fun undrawn => h.vector_fault grDraw (grDraw_undrawn undrawn)⟩⟩
  · rw [vxLd_fits fits, takeToken_spRead, takeToken_spPoisoned]
  · rw [met_none, vxSt_fits fits, takeToken_lanes, takeToken_vPoisoned]
  · rw [met_none, vxLi, ← vectorResult_range, List.map_const', List.length_range]
    rfl
  · simp only [met_none, vxRsum, takeToken_lanes, takeToken_vPoisoned]
  · simp only [met_none, vxRmax, takeToken_lanes, takeToken_vPoisoned]
  · simp only [met_none, vxNfc, takeToken_lanes, takeToken_vPoisoned, takeToken_gateCount]
    cases x.vPoisoned (opVa e.word) with
    | true => simp only [if_true, ← takeToken_gateCount x e.word]
    | false => rfl
  · have ran := grDraw_drawn (c := x.takeToken e.word) (Draws.mk tensor use elem)
    rw [takeToken_key] at ran
    refine ⟨fun width => h.vector_ok grDraw (ran.trans ?_), fun width => h.vector_ok grDraw (ran.trans ?_), fun width => h.vector_ok grDraw (ran.trans ?_)⟩
    all_goals rw [width]; rfl

/-! ## Conversions (05 R463, 06 R158, R179, 03 R84) -/

theorem mapIdx_range {α β : Type} (f : Nat → α → β) (g : Nat → α) (n : Nat) :
    List.mapIdx f ((List.range n).map g) = (List.range n).map (fun i => f i (g i)) := by
  apply List.ext_getElem <;> simp

/-- The key of a keyed conversion (05 R139). -/
abbrev QEntry.key (e : QEntry) : W64 := e.reg (opSx e.word + 2)
/-- The first element of a keyed conversion (05 R139). -/
abbrev QEntry.firstElem (e : QEntry) : Nat := (e.reg (opSx e.word + 3)).toNat

/-- Has a key block a draw for each element in a mode (06 R179)? -/
def QEntry.Ranged (e : QEntry) (elems : Nat) (mode : Rounding) : Prop := mode ≠ .sr ∨ (fld e.key 62 2 = 0 ∧ e.firstElem + elems ≤ 2 ^ 64)

section
variable {v : Env} {e : QEntry} {elems : Nat}

theorem keyBlock_noTensor {conv : Bool} (none : v.tensor (BitVec.truncate 32 e.key) = none) : keyBlock v e conv elems = .error 0x0B := by
  simp only [keyBlock, none]

section
variable {te : TensorEntry} (tensor : v.tensor (BitVec.truncate 32 e.key) = some te)
include tensor

theorem keyBlock_plain : keyBlock v e false elems = .ok (te, e.firstElem, opMode e.word, fld e.key 32 30) := by
  simp [keyBlock, tensor]

theorem keyBlock_ranged (ranged : e.Ranged elems (roundingFor te (opMode e.word))) :
    keyBlock v e true elems = .ok (te, e.firstElem, roundingFor te (opMode e.word), fld e.key 32 30) := by
  simp only [keyBlock, tensor, if_true, true_and]
  refine if_neg fun ⟨sr, beyond⟩ => ?_
  rcases ranged with other | ⟨marks, fits⟩
  · exact other sr
  · exact beyond.elim (fun marked => marked marks) (fun long => absurd fits (Nat.not_le.2 long))

theorem keyBlock_unranged (unranged : ¬ e.Ranged elems (roundingFor te (opMode e.word))) : keyBlock v e true elems = .error 0x0B := by
  simp only [keyBlock, tensor, if_true, true_and]
  simp only [QEntry.Ranged, not_or, not_not, not_and_or, not_le] at unranged
  exact if_pos unranged

end

theorem keyBlock_refused (h : v.tensor (BitVec.truncate 32 e.key) = none ∨ ∃ te, v.tensor (BitVec.truncate 32 e.key) = some te ∧ ¬ e.Ranged elems (roundingFor te (opMode e.word))) :
    keyBlock v e true elems = .error 0x0B := by
  rcases h with none | ⟨te, tensor, unranged⟩
  · exact keyBlock_noTensor none
  · exact keyBlock_unranged tensor unranged

variable {c : Core}

theorem vxCvt_refused {f : Nat} (h : keyBlock v e true 64 = .error f) : vxCvt v e c = .fault f := by
  simp only [vxCvt, h]

theorem vxM48cvt_refused {f : Nat} (h : keyBlock v e true 64 = .error f) : vxM48cvt v e c = .fault f := by
  simp only [vxM48cvt, h]

end

@[simp] theorem takeToken_cvtDraw (x : Core) (w : W64) (te : TensorEntry) (mode : Rounding) (elem ordinal : Nat) :
    cvtDraw (x.takeToken w) te mode elem ordinal = cvtDraw x te mode elem ordinal := by simp [cvtDraw]
@[simp] theorem takeToken_m48Lane (x : Core) (w : W64) (r i : Nat) : (x.takeToken w).m48Lane r i = m48Val (x.lane r i) (x.lane (r + 1) i) := by simp [Core.m48Lane]

/-- Settles O14: a conversion by its key block, a Master48 op by its pair. -/
theorem vectorConversions : Obligations.VectorConversions := by
  unfold Obligations.VectorConversions
  intro s k l c x e rest
  dsimp only
  refine ⟨fun te dst src h named fits toFormat fromFormat => h.vector_ok vxCvt ?_, fun te dst h named fits toFormat => h.vector_ok vxM48cvt ?_,
    fun refused => ⟨fun h => h.vector_fault vxCvt (vxCvt_refused (keyBlock_refused refused)), fun h => h.vector_fault vxM48cvt (vxM48cvt_refused (keyBlock_refused refused))⟩,
    fun h => h.vector_ok (fun _ => vxM48add) ?_, fun h => h.vector_ok (fun _ => vxM48fma) ?_⟩
  · simp only [met_none, vxCvt, toFormat, fromFormat, keyBlock_ranged named fits, takeToken_lanes, takeToken_vPoisoned, takeToken_cvtDraw, mapIdx_range]
  · simp only [met_none, vxM48cvt, toFormat, keyBlock_ranged named fits, takeToken_m48Lane, takeToken_vPoisoned, takeToken_cvtDraw]
  · simp only [met_none, vxM48add, takeToken_m48Lane, takeToken_lane, takeToken_vPoisoned]
    rfl
  · simp only [met_none, vxM48fma, takeToken_m48Lane, takeToken_lane, takeToken_vPoisoned]
    rfl

end Sys2Proof.Machine

/-! PROOFS. Check and gate instructions (05 R144, R145), dispatch and completion (05 R123 to R125, R143, R146), wait limits and stops (05 R127, R147). -/

namespace Sys2Proof.Machine

/-! ## What a check or gate instruction sees of its core -/

section
variable (x : Core) (w : W64)

@[simp] theorem begun_gateCount : (x.begun w).gateCount = x.gateCount := by rw [begun_eq]
@[simp] theorem begun_stats : (x.begun w).stats = x.stats := by rw [begun_eq]
@[simp] theorem begun_vote (v : W64) : (x.begun w).vote v = x.vote v := by simp [Core.vote]

theorem begun_idle {x : Core} {g : Nat} (idle : x.queue g = []) : (x.begun w).engineIdle g = true := by simp [Core.engineIdle, idle]

theorem setFlags_advance_t (n : Nat) (f : EngineFlags) : (x.setFlags n f).advance.t = x.t := by
  unfold Core.setFlags
  split <;> rfl

theorem spWrite_advance_t (a : Nat) (b : List Byte) (p : Bool) : (x.spWrite a b p).advance.t = x.t := rfl

end

/-! ## ck. instructions (05 R144, 03 R91, 07 R213) -/

section
variable {x : Core} {w : W64}

section
variable (idle : x.engineIdle (fld w 30 2 + 1) = true)
include idle

theorem ckRdf_idle : ckRdf w x = seqWrite (opR0 w) (x.flagsOf (fld w 30 2)).word x := if_pos idle
theorem ckClrf_idle : ckClrf w x = .ok (x.setFlags (fld w 30 2) .clear).advance := if_pos idle

theorem ckCap_fits (fits : (x.sreg (opR0 w)).toNat < spGranules) : ckCap w x =
    .ok (x.spWrite (64 * (x.sreg (opR0 w)).toNat) ((x.flagsOf (fld w 30 2)).capture ++ List.replicate 32 0) false).advance := by
  unfold ckCap ckEngine
  simp only [idle, Bool.not_true, Bool.false_eq_true, if_false]
  exact if_neg (Nat.not_le.2 fits)

theorem ckCap_beyond (beyond : spGranules ≤ (x.sreg (opR0 w)).toNat) : ckCap w x = .fault 0x0A := by
  unfold ckCap ckEngine
  simp only [idle, Bool.not_true, Bool.false_eq_true, if_false]
  exact if_pos beyond

end

variable {busy : Nat → Nat → Bool}

theorem ckPoison_busy (h : busy (x.sreg (opR0 w)).toNat (x.sreg (fld w 25 5)).toNat = true) : ckPoison busy w x = .wait := if_pos h

section
variable (quiet : busy (x.sreg (opR0 w)).toNat (x.sreg (fld w 25 5)).toNat = false)
include quiet

theorem ckPoison_beyond (h : (x.sreg (fld w 25 5)).toNat = 0 ∨ spGranules < (x.sreg (opR0 w)).toNat + (x.sreg (fld w 25 5)).toNat) :
    ckPoison busy w x = .fault 0x0A := by
  unfold ckPoison
  simp only [quiet, Bool.false_eq_true, if_false]
  exact if_pos (by omega)

theorem ckPoison_fits (nonempty : (x.sreg (fld w 25 5)).toNat ≠ 0) (fits : (x.sreg (opR0 w)).toNat + (x.sreg (fld w 25 5)).toNat ≤ spGranules) : ckPoison busy w x =
    if x.spPoisoned (64 * (x.sreg (opR0 w)).toNat) (64 * (x.sreg (fld w 25 5)).toNat) then .poison (x.sreg (opR0 w)).toNat else .ok x.advance := by
  unfold ckPoison
  simp only [quiet, Bool.false_eq_true, if_false]
  exact if_neg (by omega)

end
end

/-! ## gt. instructions (05 R145, 11 R320) -/

theorem gtVote_idle {x : Core} (matrix : x.engineIdle engMatrix = true) (vector : x.engineIdle engVector = true) : gtVote x = .ok x.advance :=
  if_pos (Bool.and_eq_true_iff.2 ⟨matrix, vector⟩)

theorem gtClr_idle {x : Core} (idle : x.engineIdle engVector = true) : gtClr x = .ok { x.advance with gateCount := 0 } := if_pos idle

/-- A gt.vote: held in twin mode unless the shadow's digest of the vote is the same (11 R320). -/
def heldVote (shadow : W64) (c : Ctx) (w : W64) (x : Core) : CRes := if c.desc.twin && voteDigest (x.vote w) != shadow then .wait else gtVote x

theorem exec_gtVote (k l : Nat) (shadow : W64) (s : State) : exec (.gtVote k l shadow) s =
    seqRowWith 8 0x00 (fun _ c _ w x => heldVote shadow c w x) sendVote k l s := rfl

theorem exec_gtWait (k l : Nat) (s : State) : exec (.gtWait k l) s = seqRowWith 8 0x01 (fun _ c _ _ x => gtWait c.gateDecision x) noteWait k l s := rfl

theorem putCore_env (s : State) (c : Ctx) (l : Nat) (y x : Core) : s.env (c.putCore l y) l x = s.env c l x := rfl
theorem putCore_stepOf (c : Ctx) (l : Nat) (y : Core) : (c.putCore l y).stepOf = c.stepOf := rfl

section
variable {s : State} {k l : Nat} {c : Ctx} {x : Core} {w : W64}

theorem sendVote_word (word : (s.env c l x).wordAt x = some w) (y : Core) : sendVote s k l x (c.putCore l y) =
    match c.stepOf with
    | none => s.withCoreAs k l c y
    | some st =>
      if l ∈ st.waited then (s.withCoreAs k l c y).setStep k { st with results := nset st.results l (x.vote w) }
      else if nmem st.votes l then s.withCoreAs k l c y
      else tryGate ((s.withCoreAs k l c y).setStep k { st with votes := nset st.votes l (x.vote w) }) k st.cmd := by
  have vote : ((s.env (c.putCore l y) l x).wordAt x).elim true (fun w => x.vote w) = x.vote w := by rw [putCore_env, word]; rfl
  simp only [sendVote, vote, putCore_stepOf, List.contains_iff_mem]
  cases c.stepOf <;> rfl

theorem noteWait_step {st : StepRun} (step : c.stepOf = some st) (y : Core) : noteWait s k l x (c.putCore l y) =
    (s.withCoreAs k l c y).setStep k { st with waited := if l ∈ st.waited then st.waited else st.waited ++ [l] } := by
  simp only [noteWait, putCore_stepOf, step, List.contains_iff_mem]
  rfl

theorem gateDecision_step {st : StepRun} {apply : Bool} (step : c.stepOf = some st) (decided : st.decision = some apply) :
    c.gateDecision = some (if apply then Gate.apply else Gate.skip) := by simp only [Ctx.gateDecision, step, decided, Option.map_some]

end

/-- Settles O8: each instruction by what it waits for, then by what it finds; a vote by where the attempt stands. -/
theorem checkAndGateInstructions : Obligations.CheckAndGateInstructions := by
  unfold Obligations.CheckAndGateInstructions
  intro s k l c x w
  dsimp only
  have reg : ∀ r, (x.begun w).sreg r = x.sreg r := begun_sreg x w
  have flags := begun_flagsOf x w (fld w 30 2)
  refine ⟨fun h idle => ?_, fun h idle => seqRow_ok h (fun _ _ _ => ckClrf) _ (ckClrf_idle (begun_idle w idle)) (setFlags_advance_t (x.begun w) _ _),
    fun h idle => ⟨fun fits => ?_, fun beyond => h.row_faults (fun _ _ _ => ckCap) (ckCap_beyond (begun_idle w idle) (by rwa [reg]))⟩,
    fun h quiet => ?_, fun h busy => h.row_waits (fun _ _ _ w x => ckPoison x.writesInto w x) (ckPoison_busy (by rwa [reg, reg])), ?_⟩
  · rw [← flags]
    exact h.writes (fun _ _ _ => ckRdf) (ckRdf_idle (begun_idle w idle))
  · have ran := ckCap_fits (begun_idle w idle) (by rwa [reg])
    rw [reg, flags] at ran
    exact seqRow_ok h (fun _ _ _ => ckCap) _ ran (spWrite_advance_t (x.begun w) _ _ _)
  · have quiet' : (x.begun w).writesInto ((x.begun w).sreg (opR0 w)).toNat ((x.begun w).sreg (fld w 25 5)).toNat = false := by rwa [reg, reg]
    have fits := ckPoison_fits (w := w) quiet'
    simp only [reg, begun_spPoisoned] at fits
    exact ⟨fun nonempty inside clean => seqRow_ok h (fun _ _ _ w x => ckPoison x.writesInto w x) _ ((fits nonempty inside).trans (if_neg (by simp [clean]))) rfl,
      fun nonempty inside marked => h.row_poisons (fun _ _ _ w x => ckPoison x.writesInto w x) ((fits nonempty inside).trans (if_pos marked)),
      fun beyond => h.row_faults (fun _ _ _ w x => ckPoison x.writesInto w x) (ckPoison_beyond quiet' (by rwa [reg, reg]))⟩
  · refine ⟨fun shadow h matrix vector agrees => ?_, fun shadow h twin differs => ?_, fun st apply h step decided => ?_,
      fun h idle => seqRow_ok h (fun _ _ _ _ => gtClr) _ (gtClr_idle (begun_idle w idle)) rfl⟩
    · have free : ¬ (c.desc.twin && voteDigest ((x.begun w).vote w) != shadow) = true := by
        rw [begun_vote]
        rcases agrees with e | e <;> simp [e]
      have voted := seqRowWith_ok h (fun _ c _ w x => heldVote shadow c w x) sendVote _
        ((if_neg free).trans (gtVote_idle (begun_idle w matrix) (begun_idle w vector))) rfl
      rw [exec_gtVote, voted, sendVote_word h.word]
      refine ⟨fun noStep => by rw [noStep]; rfl, fun st step => ?_⟩
      rw [step]
      exact ⟨fun before first => by simp only [before, if_false, first, Bool.false_eq_true]; rfl,
        fun before again => by simp only [before, if_false, again, if_true]; rfl, fun after => by simp only [after, if_true]; rfl⟩
    · rw [exec_gtVote]
      exact h.waits _ _ (if_pos (by simp [twin, differs]))
    · have ran : gtWait c.gateDecision (x.begun w) = .ok { (x.begun w).advance with g := if apply then Gate.apply else Gate.skip } := by
        rw [gateDecision_step step decided, gtWait]
      rw [exec_gtWait, seqRowWith_ok h (fun _ c _ _ x => gtWait c.gateDecision x) noteWait _ ran rfl, noteWait_step step]
      rfl

/-! ## Dispatch (05 R123, R146) -/

theorem absorb_ok {c : Ctx} (going : c.stopping = false) (now : W64) (l eng idx use : Nat) (y : Core) : c.absorb now l eng idx use (.ok y) = c.putCore l y :=
  if_neg (by simp [going])

theorem dispatch_room {w : W64} {x : Core} {eng : Nat} (named : engineOf w = some eng) (room : (x.queue eng).length < queueDepth eng) : dispatch w x =
    if opP w ∧ x.g = .undecided then .fault 0x09
    else .ok (x.setQueue eng (x.queue eng ++ [⟨w, x.seq.pos, copyScalars w x.s, x.g, false, none⟩])).advance := by
  simp only [dispatch, named]
  exact if_neg (Nat.not_le.2 room)

section
variable {s : State} {k l : Nat} {c : Ctx} {x : Core} (h : CoreTurn s k l c x)
include h

theorem CoreTurn.sequencerDispatch {w : W64} (calm : s.net.calm = false) (notEnded : x.seq.ended = false) (word : (s.env c l x).wordAt x = some w) :
    exec (.sequencerDispatch k l) s = .next (s.putCtx k (c.absorb s.st.now l 0 x.seq.pos 0x03 (dispatch w (x.addBeats 0 1)))) := by
  show execSequencerDispatch k l s = _
  rw [execSequencerDispatch, withCore_turn h, word]
  exact congrArg _ (if_pos (by simp [h.live, calm, h.notStopped, notEnded, h.notFolded]))

end

/-! ## Completion (05 R124, R125, R143, 11 R320) -/

/-- What the completion of a head that has executed does: its signal, none of a wq.watch. -/
def headCompletion (e : QEntry) (y : Core) : CRes :=
  if opClass e.word = 4 ∧ opCode e.word = 1 then .ok y else (y.signal e.word).elim (.fault 0x01) .ok

theorem headCompletion_watch {e : QEntry} {y : Core} (hclass : opClass e.word = 4) (hop : opCode e.word = 1) : headCompletion e y = .ok y := if_pos ⟨hclass, hop⟩

theorem headCompletion_signal {e : QEntry} {y : Core} (other : opClass e.word = 4 → opCode e.word ≠ 1)
    (room : opCs e.word = 0 ∨ y.token (opTs e.word) + opCs e.word < 2 ^ 32) : headCompletion e y = .ok (y.signalled e.word) := by
  unfold headCompletion
  rw [if_neg fun ⟨hclass, hop⟩ => other hclass hop, signal_room room]
  rfl

section
variable {s : State} {k l : Nat} {c : Ctx} {x : Core} (h : CoreTurn s k l c x)
include h

theorem CoreTurn.instructionCompletion {eng : Nat} {e : QEntry} {rest : List QEntry} (code : engineCode eng = true) (head : x.queue eng = e :: rest)
    (executed : e.executed = true) (shadow : W64) : exec (.instructionCompletion k l eng shadow) s = .next (
      if e.twin.any (· != shadow) then s else s.putCtx k (c.absorb s.st.now l eng e.idx 0x03 (headCompletion e (x.setQueue eng rest)))) := by
  have done : completeHead eng x = some (e.idx, headCompletion e (x.setQueue eng rest)) := by
    simp only [completeHead, head, executed, headCompletion, if_true]
    cases (x.setQueue eng rest).signal e.word <;> rfl
  have digest : x.awaits eng = e.twin := by simp only [Core.awaits, head, executed, if_true]
  show execInstructionCompletion k l eng shadow s = _
  rw [execInstructionCompletion, if_pos code, withCore_turn h, if_pos (by simp [h.live, h.notStopped, h.notFolded]), done]
  simp only [digest]

/-! ## Watches (05 R143) -/

theorem CoreTurn.running : c.status = .running := by
  have live := h.live
  simp only [Ctx.live, Bool.and_eq_true, beq_iff_eq] at live
  exact live.1.1

theorem CoreTurn.watchFire {q i idx : Nat} {y : Core} (queue : q < 16) (fires : fireWatch q i x = some (idx, .ok y)) :
    exec (.watchFire k l q i) s = .next (s.withCoreAs k l c y) := by
  show execWatchFire k l q i s = _
  rw [execWatchFire, withQueue, if_neg (Nat.not_le.2 queue), withCore_turn h, if_pos (by simp [h.running, h.notFolded]), fires]
  simp only [absorb_ok h.going]
  rfl

end

theorem fireWatch_reached {q i : Nat} {x : Core} {v : Watch} (found : (x.wq q).watches[i]? = some v) (reached : ((x.wq q).c - v.value).toNat < 2 ^ 31) :
    let y := x.setWq q { x.wq q with watches := (x.wq q).watches.eraseIdx i }
    fireWatch q i x = some (v.idx, if v.count = 0 then .ok y else (y.addToken v.token v.count).elim (.fault 0x01) .ok) := by
  intro y
  have pos : watchReached (x.wq q).c v.value = true := decide_eq_true reached
  simp only [fireWatch, found, pos, if_true]
  cases y.addToken v.token v.count <;> rfl

theorem addToken_room {y : Core} {i n : Nat} (room : y.token i + n < 2 ^ 32) :
    y.addToken i n = some { y with t := sset y.t i (BitVec.ofNat 32 (y.token i + n)) } := if_neg (Nat.not_le.2 room)

/-- Settles O9: dispatch by the gate predicate, completion by the shadow's digest and the kind of head, a watch by its count. -/
theorem dispatchAndCompletion : Obligations.DispatchAndCompletion := by
  unfold Obligations.DispatchAndCompletion
  intro s k l c x
  refine ⟨fun w eng h calm notEnded word named room => ?_, fun eng e rest shadow h code head executed => ?_, fun q i v h queue found reached => ?_⟩
  · have placed := dispatch_room (x := x.addBeats 0 1) named room
    rw [h.sequencerDispatch calm notEnded word]
    refine ⟨fun free => ?_, fun undecided => by rw [placed.trans (if_pos undecided)]; rfl⟩
    have decided : ¬ (opP w = true ∧ x.g = .undecided) := fun ⟨marked, undecided⟩ => free.elim (fun e => by simp [e] at marked) (fun e => e undecided)
    rw [placed.trans (if_neg decided), absorb_ok h.going]
    rfl
  · rw [h.instructionCompletion code head executed]
    have agrees (he : e.twin = none ∨ e.twin = some shadow) : ¬ e.twin.any (· != shadow) = true := by
      rcases he with he | he <;> simp [he]
    refine ⟨fun he other room => ?_, fun he hclass hop => ?_, fun v he differs => by rw [if_pos (by simp [he, differs])]⟩
    · rw [if_neg (agrees he), headCompletion_signal (y := x.setQueue eng rest) other room, absorb_ok h.going]
      rfl
    · rw [if_neg (agrees he), headCompletion_watch hclass hop, absorb_ok h.going]
      rfl
  · have fires := fireWatch_reached found reached
    refine ⟨fun none => h.watchFire queue (fires.trans (by rw [if_pos none])), fun some room => h.watchFire (idx := v.idx) queue (fires.trans ?_)⟩
    rw [if_neg some, addToken_room (y := x.setWq q _) room]
    rfl

/-! ## Wait limits (05 R127) -/

theorem overWait_lasted {x : Core} {eng f idx limit : Nat}
    (lasted : ∃ v ∈ x.waits, v.engine = eng ∧ v.fault = f ∧ v.idx = idx ∧ v.stamp = sget x.beats eng ∧ limit < v.lasted) :
    x.overWait limit (some (idx, f)) eng = some (idx, f) := by
  obtain ⟨v, waits, engine, fault, index, stamp, beyond⟩ := lasted
  have long : x.waits.any (fun w => w.same x (eng, f, idx) && decide (limit < w.lasted)) = true :=
    List.any_eq_true.2 ⟨v, waits, by simp only [Wait.same, engine, fault, index, stamp, beyond, beq_self_eq_true, Bool.and_self, decide_true]⟩
  simp only [Core.overWait, long, if_true]

theorem overWait_within {x : Core} {limit : Nat} (within : ∀ v ∈ x.waits, v.lasted ≤ limit) (now : Option (Nat × Nat)) (eng : Nat) : x.overWait limit now eng = none := by
  have none (n : Nat × Nat × Nat) : x.waits.any (fun w => w.same x n && decide (limit < w.lasted)) = false :=
    List.any_eq_false.2 fun v hv => by simp [within v hv]
  unfold Core.overWait
  split
  · rfl
  · simp only [none, Bool.false_eq_true, if_false]

theorem engineCode_pos {eng : Nat} (code : engineCode eng = true) : eng ≠ 0 := by
  rintro rfl
  exact absurd code (by decide)

/-- What a WAIT_LIMIT_EXPIRY finds that has lasted beyond the limit: instruction and fault. -/
def expired (s : State) (l : Nat) (c : Ctx) (x : Core) (eng : Nat) (watch : Bool) : Option (Nat × Nat) :=
  if watch then (if 16 ≤ eng then pendingWatch eng c.waitLimit x else none)
  else x.overWait c.waitLimit (if eng = 0 then (seqWaitFault c (s.env c l x) x).map (fun f => (x.seq.pos, f)) else headWaitFault eng x) eng

section
variable {s : State} {k l : Nat} {c : Ctx} {x : Core} (h : CoreTurn s k l c x) {eng : Nat} (code : eng = 0 ∨ engineCode eng = true) {watch : Bool}
include h code

theorem CoreTurn.expiry_none (found : expired s l c x eng watch = none) : exec (.waitLimitExpiry k l eng watch) s = .next s := by
  show execWaitLimitExpiry k l eng watch s = _
  unfold expired at found
  rw [execWaitLimitExpiry, if_pos code, withCore_turn h, if_pos (by simp [h.live, h.notStopped, h.notFolded])]
  simp only [found]

theorem CoreTurn.expiry_some {idx f : Nat} (found : expired s l c x eng watch = some (idx, f)) :
    exec (.waitLimitExpiry k l eng watch) s = .next (s.putCtx k (c.raiseFault s.st.now l eng f idx)) := by
  show execWaitLimitExpiry k l eng watch s = _
  unfold expired at found
  rw [execWaitLimitExpiry, if_pos code, withCore_turn h, if_pos (by simp [h.live, h.notStopped, h.notFolded])]
  simp only [found]
  rfl

end

section
variable {c : Ctx} {v : Env} {x : Core} {w : W64} (notEnded : x.seq.ended = false) (word : v.wordAt x = some w)
include notEnded word

/-- The sequencer waits for a queue with room. -/
theorem seqWaitFault_queue {eng : Nat} (named : engineOf w = some eng) (full : queueDepth eng ≤ (x.queue eng).length) : seqWaitFault c v x = some 0x06 := by
  simp only [seqWaitFault, word, notEnded, Bool.false_eq_true, if_false, named, if_pos full]

/-- The sequencer waits for a token. -/
theorem seqWaitFault_token (own : engineOf w = none) (short : x.token (opTw w) < opCw w) (fresh : x.seq.waitTarget = none) : seqWaitFault c v x = some 0x02 := by
  simp [seqWaitFault, word, notEnded, own, Core.tokenReady, short, fresh]

/-- The sequencer waits for a gate decision. -/
theorem seqWaitFault_gate (own : engineOf w = none) (ready : opCw w ≤ x.token (opTw w)) (hclass : opClass w = 8) (hop : opCode w = 1) (undecided : c.gateDecision = none) :
    seqWaitFault c v x = some 0x05 := by
  simp [seqWaitFault, word, notEnded, own, Core.tokenReady, ready, hclass, hop, undecided]

end

section
variable {x : Core} {eng : Nat} {e : QEntry} {rest : List QEntry} (head : x.queue eng = e :: rest) (fresh : e.executed = false)
include head fresh

theorem headWaitFault_token (whole : x.midBlock eng = false) (short : x.token (opTw e.word) < opCw e.word) : headWaitFault eng x = some (e.idx, 0x02) := by
  simp [headWaitFault, head, fresh, whole, Core.tokenReady, short]

variable (ready : opCw e.word ≤ x.token (opTw e.word))
include ready

theorem headWaitFault_send (hclass : opClass e.word = 5) (full : 4 ≤ x.sends.length) : headWaitFault eng x = some (e.idx, 0x04) := by
  simp [headWaitFault, head, fresh, Core.tokenReady, ready, hclass, full]

theorem headWaitFault_watch (hclass : opClass e.word = 4) (hop : opCode e.word = 1) (full : 8 ≤ (x.wq (eng - 16)).watches.length) :
    headWaitFault eng x = some (e.idx, 0x06) := by
  simp [headWaitFault, head, fresh, Core.tokenReady, ready, hclass, hop, full]

theorem headWaitFault_post (hclass : opClass e.word = 4) (hop : opCode e.word = 0) (full : 120 ≤ x.outstanding) : headWaitFault eng x = some (e.idx, 0x06) := by
  simp [headWaitFault, head, fresh, Core.tokenReady, ready, hclass, hop, full]

end

theorem pendingWatch_first {q i limit : Nat} {x : Core} {v : Watch}
    (earlier : ∀ u ∈ (x.wq q).watches.take i, watchReached (x.wq q).c u.value = true ∨ u.lasted ≤ limit) (found : (x.wq q).watches[i]? = some v)
    (unreached : watchReached (x.wq q).c v.value = false) (beyond : limit < v.lasted) : pendingWatch (16 + q) limit x = some (v.idx, 0x03) := by
  obtain ⟨bound, at'⟩ := List.getElem?_eq_some_iff.1 found
  have first : (x.wq q).watches.find? (fun w => !watchReached (x.wq q).c w.value && decide (limit < w.lasted)) = some v := by
    refine List.find?_eq_some_iff_getElem.2 ⟨by simp [unreached, beyond], i, bound, at', fun j hj => ?_⟩
    rcases earlier _ (List.mem_take_iff_getElem.2 ⟨j, by omega, rfl⟩) with reached | within
    · simp [reached]
    · simp [within]
  simp only [pendingWatch, Nat.add_sub_cancel_left, first, Option.map_some]

/-- Settles O10: an expiry by what it finds that waits, a stop by whether poison is visible. -/
theorem waitLimitsAndStops : Obligations.WaitLimitsAndStops := by
  unfold Obligations.WaitLimitsAndStops
  intro s k l c x lasted
  refine ⟨fun w f h notEnded word waits long => ?_, fun eng e rest f h code head fresh whole waits long => ?_, fun q i v h queue earlier found unreached beyond => ?_,
    fun eng h code within => h.expiry_none code (overWait_within within _ _), fun hk hc stopping open' => ?_⟩
  · have fault : seqWaitFault c (s.env c l x) x = some f := by
      rcases waits with ⟨eng, named, full, rfl⟩ | ⟨own, short, unset, rfl⟩ | ⟨own, ready, hclass, hop, undecided, rfl⟩
      · exact seqWaitFault_queue notEnded word named full
      · exact seqWaitFault_token notEnded word own short unset
      · exact seqWaitFault_gate notEnded word own ready hclass hop undecided
    refine h.expiry_some (.inl rfl) ((congrArg (fun o => x.overWait c.waitLimit o 0) ?_).trans (overWait_lasted long))
    rw [if_pos rfl, fault, Option.map_some]
  · have fault : headWaitFault eng x = some (e.idx, f) := by
      rcases waits with ⟨short, rfl⟩ | ⟨ready, ⟨hclass, full, rfl⟩ | ⟨hclass, hop, full, rfl⟩ | ⟨hclass, hop, full, rfl⟩⟩
      · exact headWaitFault_token head fresh whole short
      · exact headWaitFault_send head fresh ready hclass full
      · exact headWaitFault_watch head fresh ready hclass hop full
      · exact headWaitFault_post head fresh ready hclass hop full
    refine h.expiry_some (.inr code) ((congrArg (fun o => x.overWait c.waitLimit o eng) ?_).trans (overWait_lasted long))
    rw [if_neg (engineCode_pos code), fault]
  · have code : engineCode (16 + q) = true := decide_eq_true (by omega)
    refine h.expiry_some (.inr code) ((if_pos rfl).trans ((if_pos (by omega)).trans (pendingWatch_first earlier found unreached beyond)))
  · have stops : exec (.contextFaultStop k) s = .next (if c.poison.isSome then s.die k c 0x30 3 (fatalTail c) else s.die k c 0x31 2 (fatalTail c)) := by
      show execContextFaultStop k s = _
      rw [execContextFaultStop, withCtx_some hk hc, stopContext, if_pos (by simp [stopping, open'])]
    rw [stops]
    exact ⟨fun poisoned => by rw [if_pos (Option.isSome_iff_ne_none.2 poisoned)], fun clean => by rw [clean]; rfl⟩

end Sys2Proof.Machine

/-! PROOFS. Instructions whose whole effect lies in the core that executes them (05 R123, R125, R147), and what the code of the scratchpad changes outside it (07 R193). -/

namespace Sys2Proof.Machine

/-! ## What a report leaves (11 R326, R327) -/

/-- Only the suspect table, the attention log and the ports differ. -/
def ReportedOnly (s t : State) : Prop := t = { s with faults := t.faults, attn := t.attn, seif := t.seif }

theorem ReportedOnly.trans {s t u : State} (h : ReportedOnly s t) (h' : ReportedOnly t u) : ReportedOnly s u := by
  unfold ReportedOnly at *
  rw [h', h]

theorem postTo_reportedOnly (s : State) (job : W64) (rank : Nat) (b : List Byte) : ReportedOnly s (s.postTo job rank b) := by
  unfold State.postTo
  split
  · rfl
  · unfold State.post
    simp only
    split <;> rfl

theorem sendRelays_reportedOnly (s : State) : ReportedOnly s s.sendRelays := by
  have posts (f : State → Relay → State) (hf : ∀ s r, ReportedOnly s (f s r)) (l : List Relay) (s : State) : ReportedOnly s (l.foldl f s) := by
    induction l generalizing s with
    | nil => rfl
    | cons r l ih => exact (hf s r).trans (ih _)
  unfold State.sendRelays
  refine ReportedOnly.trans ?_ (posts _ (fun s r => ?_) _ _)
  · rfl
  · split
    · rfl
    · exact postTo_reportedOnly ..

theorem relay_reportedOnly (s : State) (key : SuspectKey) (cause : Nat) (rep : Report) : ReportedOnly s (s.relay key cause rep) := by
  unfold State.relay
  split
  · split
    · rfl
    · rfl
    · refine ReportedOnly.trans ?_ (sendRelays_reportedOnly _)
      rfl
  · rfl

theorem reportN_reportedOnly (s : State) (key : SuspectKey) (cause n : Nat) (rep : Report) : ReportedOnly s (s.reportN key cause n rep) := by
  unfold State.reportN
  split
  · split <;> rfl
  · split
    · simp only
      split
      · split <;> rfl
      · rfl
    · rfl

theorem report_reportedOnly (s : State) (key : SuspectKey) (cause : Nat) (rep : Report) : ReportedOnly s (s.report key cause rep) :=
  (reportN_reportedOnly ..).trans (relay_reportedOnly ..)

/-- Errors of the scratchpad are counted and reported, and nothing else changes (07 R193, 11 R325). -/
theorem foundErrors_eq (s : State) (k l : Nat) (c : Ctx) (hit : List (Nat × Flips)) : let u := s.foundErrors k l c hit
    u = { s with mem := { s.mem with spCe := u.mem.spCe }, faults := u.faults, attn := u.attn, seif := u.seif, freeCount := u.freeCount } := by
  intro u
  unfold u State.foundErrors
  split
  · rfl
  · rfl
  · simp only
    split
    · rw [report_reportedOnly]
      rfl
    · rfl

/-! ## What an instruction's result does to its context (05 R147) -/

/-- A context whose only changes are in one core and in its record of faults and poison. -/
def Ctx.Within (l : Nat) (c d : Ctx) : Prop :=
  (∀ m, m ≠ l → d.core? m = c.core? m) ∧ d = { c with cores := d.cores, faults := d.faults, stopping := d.stopping, poison := d.poison }

theorem within_refl (l : Nat) (c : Ctx) : c.Within l c := ⟨fun _ _ => rfl, rfl⟩

theorem raiseFault_within (c : Ctx) (now : W64) (l engine code idx : Nat) : c.Within l (c.raiseFault now l engine code idx) := by
  unfold Ctx.raiseFault
  simp only
  split
  · exact ⟨fun _ _ => rfl, rfl⟩
  · exact ⟨fun m other => core?_putCore_other _ l m _ other, rfl⟩

theorem absorb_within (c : Ctx) (now : W64) (l engine idx use : Nat) (r : CRes) : c.Within l (c.absorb now l engine idx use r) := by
  cases r with
  | wait => exact within_refl l c
  | fault code => exact raiseFault_within ..
  | poison g => exact ⟨fun _ _ => rfl, rfl⟩
  | ok y =>
    unfold Ctx.absorb
    simp only
    split
    · exact within_refl l c
    · exact ⟨fun m other => core?_putCore_other c l m y other, rfl⟩

/-! ## Rows whose effect lies in their core -/

/-- Does an outcome leave the state, or change one core of context `k` and that context's record, counting and reporting at most errors of `errs`? -/
def Out.StaysIn (o : Out) (s : State) (k l : Nat) (errs : List (Nat × Flips)) : Prop :=
  ∀ t, o = .next t → t = s ∨ ∃ (c d : Ctx) (hit : List (Nat × Flips)), s.ctx? k = some c ∧ (∀ x ∈ hit, x ∈ errs) ∧ c.Within l d ∧ t = (s.foundErrors k l c hit).putCtx k d

section
variable {s : State} {k l : Nat} {errs : List (Nat × Flips)}

theorem withCore_staysIn {f : Ctx → Core → State}
    (h : ∀ c x, s.ctx? k = some c → f c x = s ∨ ∃ (d : Ctx) (hit : List (Nat × Flips)), (∀ x ∈ hit, x ∈ errs) ∧ c.Within l d ∧ f c x = (s.foundErrors k l c hit).putCtx k d) :
    Out.StaysIn (withCore k l s f) s k l errs := by
  intro t ran
  unfold withCore at ran
  split at ran
  · exact nomatch ran
  split at ran
  · exact nomatch ran
  cases hc : s.ctx? k with
  | none => exact .inl (by simpa [hc] using ran.symm)
  | some c =>
    cases hx : c.core? l with
    | none => exact .inl (by simpa [hc, hx] using ran.symm)
    | some x =>
      obtain rfl : f c x = t := by simpa [hc, hx] using ran
      rcases h c x hc with same | ⟨d, hit, found, within, eq⟩
      · exact .inl same
      · exact .inr ⟨c, d, hit, rfl, found, within, eq⟩

theorem seqRow_staysIn (cls op : Nat) (f : State → Ctx → Env → W64 → Core → CRes) : Out.StaysIn (seqRow cls op f k l s) s k l errs := by
  refine withCore_staysIn fun c x hc => ?_
  have absorbed (r : CRes) : ∃ (d : Ctx) (hit : List (Nat × Flips)), (∀ x ∈ hit, x ∈ errs) ∧ c.Within l d
      ∧ s.putCtx k (c.absorb s.st.now l 0 x.seq.pos 0x03 r) = (s.foundErrors k l c hit).putCtx k d :=
    ⟨_, [], by simp, absorb_within .., rfl⟩
  split
  · simp only
    split
    · exact .inl rfl
    · split
      · split
        · exact .inl rfl
        · exact .inr (absorbed _)
      · exact .inr (absorbed _)
  · exact .inl rfl

theorem hits_subset (x : Core) (eng : Nat) (stop : Option Nat) : ∀ y ∈ x.hits eng stop errs, y ∈ errs := by
  unfold Core.hits
  split
  · simp
  · split
    · simp
    · exact fun y hy => List.mem_of_mem_filter hy

theorem engineRow_staysIn (eng cls op use : Nat) (f : State → Ctx → Env → QEntry → Core → CRes) : Out.StaysIn (engineRow eng cls op use errs f k l s) s k l errs := by
  refine withCore_staysIn fun c x hc => ?_
  have hit := hits_subset (errs := errs) x eng none
  split
  · simp only
    split
    · exact .inl rfl
    · split
      · split
        · exact .inl rfl
        · exact .inr ⟨_, _, hit, absorb_within .., rfl⟩
      · exact .inr ⟨_, _, hit, absorb_within .., rfl⟩
      · exact .inr ⟨_, [], by simp, absorb_within .., rfl⟩
  · exact .inl rfl

theorem withQueue_staysIn {q : Nat} {o : Out} (h : Out.StaysIn o s k l errs) : Out.StaysIn (withQueue q o) s k l errs := by
  unfold withQueue
  split
  · exact fun t ran => nomatch ran
  · exact h

end

/-! ## The instructions of these rows (05 R136, R139 to R145) -/

section
variable {s t : State} {k l : Nat} {errs : List (Nat × Flips)} {i : Instr}

/-- The sequencer, check and gate instructions of the statement are rows of the sequencer. -/
theorem exec_sequencer (h : i ∈ [Instr.seqNop k l, .seqLoop k l, .seqEndl k l, .seqBrlc k l, .seqFence k l, .seqLi k l, .seqLih k l, .seqAddi k l, .seqAdd k l,
    .seqSub k l, .seqMul k l, .seqAnd k l, .seqOr k l, .seqXor k l, .seqShl k l, .seqShr k l, .seqRdlc k l, .seqRdid k l, .ckRdf k l, .ckClrf k l, .ckCap k l,
    .ckPoison k l, .gtClr k l]) (s : State) : ∃ cls op f, exec i s = seqRow cls op f k l s := by
  simp only [List.mem_cons, List.not_mem_nil, or_false] at h
  rcases h with rfl | rfl | rfl | rfl | rfl | rfl | rfl | rfl | rfl | rfl | rfl | rfl | rfl | rfl | rfl | rfl | rfl | rfl | rfl | rfl | rfl | rfl | rfl
  all_goals
    simp only [exec, execSeqNop, execSeqLoop, execSeqEndl, execSeqBrlc, execSeqFence, execSeqLi, execSeqLih, execSeqAddi, execSeqAdd, execSeqSub, execSeqMul, execSeqAnd,
      execSeqOr, execSeqXor, execSeqShl, execSeqShr, execSeqRdlc, execSeqRdid, execCkRdf, execCkClrf, execCkCap, execCkPoison, execGtClr]
    exact ⟨_, _, _, rfl⟩

/-- The instructions of the vector unit and mx.stat read the scratchpad without errors. -/
theorem exec_vector (h : i ∈ [Instr.vxSt k l, .vxAdd k l, .vxSub k l, .vxMul k l, .vxFma k l, .vxMin k l, .vxMax k l, .vxSel k l, .vxCvt k l, .vxRcp k l, .vxRsq k l,
    .vxExp2 k l, .vxLog2 k l, .vxSqrt k l, .vxPadd k l, .vxPmul k l, .vxPfma k l, .vxIadd k l, .vxIsub k l, .vxImul k l, .vxAnd k l, .vxOr k l, .vxXor k l,
    .vxShl k l, .vxShr k l, .vxSra k l, .vxRsum k l, .vxRmax k l, .vxNfc k l, .vxM48add k l, .vxM48fma k l, .vxM48cvt k l, .vxLi k l, .grDraw k l, .mxStat k l])
    (s : State) : ∃ eng cls op use f, exec i s = engineRow eng cls op use [] f k l s := by
  simp only [List.mem_cons, List.not_mem_nil, or_false] at h
  rcases h with rfl | rfl | rfl | rfl | rfl | rfl | rfl | rfl | rfl | rfl | rfl | rfl | rfl | rfl | rfl | rfl | rfl | rfl | rfl | rfl | rfl | rfl | rfl | rfl | rfl | rfl
    | rfl | rfl | rfl | rfl | rfl | rfl | rfl | rfl | rfl
  all_goals
    simp only [exec, execVxSt, execVxAdd, execVxSub, execVxMul, execVxFma, execVxMin, execVxMax, execVxSel, execVxCvt, execVxRcp, execVxRsq, execVxExp2, execVxLog2,
      execVxSqrt, execVxPadd, execVxPmul, execVxPfma, execVxIadd, execVxIsub, execVxImul, execVxAnd, execVxOr, execVxXor, execVxShl, execVxShr, execVxSra, execVxRsum,
      execVxRmax, execVxNfc, execVxM48add, execVxM48fma, execVxM48cvt, execVxLi, execGrDraw, execMxStat, vectorRow]
    exact ⟨_, _, _, _, _, rfl⟩

/-- Loads, squares, row-engine instructions and sends read granules of the scratchpad, with the errors that its code meets. -/
theorem exec_reading (h : i ∈ [Instr.vxLd k l errs, .vxCvtmx k l errs, .vxLdmx k l errs, .rowStat k l errs, .rowMerge k l errs, .rowApply k l errs, .rowBwd k l errs,
    .rowKeep k l errs, .rowFetch k l errs, .netSend k l errs, .netMcast k l errs]) (s : State) : ∃ eng cls op use f, exec i s = engineRow eng cls op use errs f k l s := by
  simp only [List.mem_cons, List.not_mem_nil, or_false] at h
  rcases h with rfl | rfl | rfl | rfl | rfl | rfl | rfl | rfl | rfl | rfl | rfl
  all_goals
    simp only [exec, execVxLd, execVxCvtmx, execVxLdmx, execRowStat, execRowMerge, execRowApply, execRowBwd, execRowKeep, execRowFetch, execNetSend, execNetMcast,
      vectorRow, rowRow]
    exact ⟨_, _, _, _, _, rfl⟩

end

/-- Settles O54: each instruction is a row of the sequencer or of an engine, whatever it computes, and a row leaves everything but its core and its context's record. -/
theorem coreInstructionsStayInTheirCore : Obligations.CoreInstructionsStayInTheirCore := by
  unfold Obligations.CoreInstructionsStayInTheirCore
  intro s t k l errs stays
  refine ⟨fun i listed ran => ?_, fun i listed ran => ?_, fun c hit => ?_⟩
  · have row : Out.StaysIn (exec i s) s k l [] := by
      rcases listed with seq | vec | ⟨q, rfl⟩
      · obtain ⟨cls, op, f, eq⟩ := exec_sequencer seq s
        exact eq ▸ seqRow_staysIn cls op f
      · obtain ⟨eng, cls, op, use, f, eq⟩ := exec_vector vec s
        exact eq ▸ engineRow_staysIn eng cls op use f
      · exact withQueue_staysIn (engineRow_staysIn (engWadi q) 4 0x01 0x02 (fun _ _ _ e x => wqWatch q e x))
    rcases row t ran with same | ⟨c, d, hit, hc, none, within, eq⟩
    · exact .inl same
    · obtain rfl : hit = [] := List.eq_nil_iff_forall_not_mem.2 fun y hy => absurd (none y hy) List.not_mem_nil
      exact .inr ⟨c, d, hc, eq, within⟩
  · have row : Out.StaysIn (exec i s) s k l errs := by
      rcases listed with reads | ⟨q, rfl⟩
      · obtain ⟨eng, cls, op, use, f, eq⟩ := exec_reading reads s
        exact eq ▸ engineRow_staysIn eng cls op use f
      · exact withQueue_staysIn (engineRow_staysIn (engWadi q) 4 0x00 0x02 (fun s c _ e x => wqPost q (s.remoteOk k c) (s.entriesOf k) e x))
    rcases row t ran with same | ⟨c, d, hit, hc, found, within, eq⟩
    · exact .inl same
    · exact .inr ⟨c, hit, hc, found, c, d, hc, eq, within⟩
  · rw [foundErrors_eq]
    exact ⟨rfl, rfl, rfl⟩

end Sys2Proof.Machine

/-! PROOFS. Squares of FP32 lanes into MX squares and back (05 R139, 06 R158, R179, 03 R84, R86, R88). -/

namespace Sys2Proof.Machine

section
variable (s : State) (x : Core) (eng : Nat) (errs : List (Nat × Flips)) (stop : Option Nat)

@[simp] theorem met_lane (r i : Nat) : (x.met s eng errs stop).lane r i = x.lane r i := by rw [met_eq]; rfl
@[simp] theorem met_vPoisoned (r : Nat) : (x.met s eng errs stop).vPoisoned r = x.vPoisoned r := by rw [met_eq]; rfl
@[simp] theorem met_key : (x.met s eng errs stop).key = x.key := by rw [met_eq]
@[simp] theorem met_cvtDraw (te : TensorEntry) (mode : Rounding) (elem ordinal : Nat) :
    cvtDraw (x.met s eng errs stop) te mode elem ordinal = cvtDraw x te mode elem ordinal := by simp [cvtDraw]

end

/-- The element of a square's lane `i` (06 R158). -/
abbrev QEntry.squareElem (e : QEntry) (i : Nat) : Nat := e.firstElem + i / 32 * (e.reg (opSx e.word + 4)).toNat + i % 32

/-- Has a square's key block a draw for each of its elements (06 R179)? -/
def QEntry.SquareRanged (e : QEntry) (mode : Rounding) : Prop := mode ≠ .sr ∨ (fld e.key 62 2 = 0 ∧ e.squareElem 1023 < 2 ^ 64)

/-- A square's elements begin at the first of its key block. -/
theorem QEntry.SquareRanged.first {e : QEntry} {mode : Rounding} (h : e.SquareRanged mode) : e.Ranged 0 mode :=
  h.imp_right fun marks => ⟨marks.1, Nat.le_of_lt (BitVec.isLt _)⟩

/-- The places of a square that lie in the scratchpad: `granules` of data and `scales` bytes of scales (03 R86). -/
abbrev QEntry.Places (e : QEntry) (granules scales : Nat) : Prop :=
  (e.reg (opSx e.word)).toNat + granules ≤ spGranules ∧ (e.reg (opSx e.word + 1)).toNat + scales ≤ 64 * spGranules

section
variable {v : Env} {e : QEntry} {c : Core} {te : TensorEntry} (tensor : v.tensor (BitVec.truncate 32 e.key) = some te)
include tensor

section
variable {el : Elem} {square : Bool} (format : mxFormat (opFmt e.word) = some (el, square))
include format

/-- A square whose elements have draws is refused by its places alone. -/
theorem vxCvtmx_ranged (ranged : e.SquareRanged (roundingFor te (opMode e.word))) : vxCvtmx v e c =
    if ¬ e.Places (el.bits * 2) (if square then 1 else 32) then .fault 0x0A
    else
      let mode := roundingFor te (opMode e.word)
      let p := (List.range 16).any (fun r => c.vPoisoned (opVd e.word + r))
      let out := encodeSquare el square mode (fun i => cvtDraw c te mode (e.squareElem i) (fld e.key 32 30)) e.squareElem
        ((List.range 1024).map (fun i => f32 (c.lane (opVd e.word + i / 64) (i % 64))))
      let stored := if e.skips then c else (c.spWrite (64 * (e.reg (opSx e.word)).toNat) (packCodes el.bits out.2.1) p).spWrite (e.reg (opSx e.word + 1)).toNat out.1 p
      .ok ((if p then stored else { stored with fv := stored.fv.record e.idx te.id out.2.2 }).addBeats engVector (if square then 20 else 18)) := by
  have drawn : ¬ (roundingFor te (opMode e.word) = .sr ∧ e.squareElem 1023 ≥ 2 ^ 64) :=
    fun ⟨sr, beyond⟩ => ranged.elim (fun other => other sr) (fun marks => absurd marks.2 (Nat.not_lt.2 beyond))
  simp only [vxCvtmx, format, keyBlock_ranged tensor ranged.first, squareLane, if_neg drawn, QEntry.Places, not_and_or, not_le, gt_iff_lt]

/-- A square that has an element without a draw is the fault KEY_RANGE (06 R179), at its key block or at its last element. -/
theorem vxCvtmx_unranged (unranged : ¬ e.SquareRanged (roundingFor te (opMode e.word))) : vxCvtmx v e c = .fault 0x0B := by
  by_cases first : e.Ranged 0 (roundingFor te (opMode e.word))
  · obtain ⟨sr, last⟩ : roundingFor te (opMode e.word) = .sr ∧ 2 ^ 64 ≤ e.squareElem 1023 := by
      simp only [QEntry.SquareRanged, not_or, not_and, not_not, Nat.not_lt] at unranged
      exact ⟨unranged.1, unranged.2 (first.resolve_left (not_not.2 unranged.1)).1⟩
    simp only [vxCvtmx, format, keyBlock_ranged tensor first]
    exact if_pos ⟨sr, last⟩
  · simp only [vxCvtmx, format, keyBlock_unranged tensor first]

end

end

theorem vxCvtmx_noTensor {v : Env} {e : QEntry} {c : Core} (none : v.tensor (BitVec.truncate 32 e.key) = none) : vxCvtmx v e c = .fault 0x0B := by
  simp only [vxCvtmx, keyBlock_noTensor none]

theorem vxLdmx_noTensor {v : Env} {e : QEntry} {c : Core} (none : v.tensor (BitVec.truncate 32 e.key) = none) : vxLdmx v e c = .fault 0x0B := by
  simp only [vxLdmx, keyBlock_noTensor none]

theorem mx_squareScaled (el : Elem) (sq : Bool) : (Format.mx el sq).squareScaled = sq := by cases sq <;> rfl

/-- The formats of squares that vx.ldmx reads, and their scale bytes (03 R86, R88). -/
def Format.IsSquare (fm : Format) : Prop := (∃ el sq, fm = .mx el sq) ∨ ∃ f, fm = .scaled f
/-- The scale bytes of a square (03 R86, R88). -/
abbrev Format.squareScales (fm : Format) : Nat := if fm.rowScaled then 32 else if fm.squareScaled then 1 else 8

section
variable {v : Env} {e : QEntry} {c : Core} {te : TensorEntry} {fm : Format} (tensor : v.tensor (BitVec.truncate 32 e.key) = some te)
  (format : Format.ofCode (opFmt e.word) = some fm) (isSquare : fm.IsSquare)
include tensor format isSquare

theorem vxLdmx_beyond (beyond : ¬ e.Places fm.granules fm.squareScales) : vxLdmx v e c = .fault 0x0A := by
  rw [QEntry.Places, not_and_or, not_le, not_le] at beyond
  rcases isSquare with ⟨el, sq, rfl⟩ | ⟨f, rfl⟩
  all_goals
    simp only [vxLdmx, format, keyBlock_plain tensor]
    exact if_pos beyond

end

/-- Settles O15: a square of lanes by its key block and its places, a loaded square by its format and its places. -/
theorem vectorSquares : Obligations.VectorSquares := by
  unfold Obligations.VectorSquares
  intro s k l c x e rest errs te
  dsimp only
  refine ⟨fun el square h tensor format => ⟨fun ranged fits => h.vector_ok vxCvtmx ?_, fun ranged beyond => h.vector_fault vxCvtmx ?_,
      fun unranged => h.vector_fault vxCvtmx (vxCvtmx_unranged tensor format unranged)⟩,
    fun fm h tensor format isSquare => ⟨fun fits => h.vector_ok vxLdmx ?_, fun beyond => h.vector_fault vxLdmx (vxLdmx_beyond tensor format isSquare beyond)⟩,
    fun none => ⟨fun h => h.vector_fault vxCvtmx (vxCvtmx_noTensor none), fun h => h.vector_fault vxLdmx (vxLdmx_noTensor none)⟩⟩
  · rw [vxCvtmx_ranged tensor format ranged, if_neg (not_not.2 fits)]
    simp only [takeToken_vPoisoned, takeToken_cvtDraw, takeToken_lane, met_vPoisoned, met_cvtDraw, met_lane]
  · rw [vxCvtmx_ranged tensor format ranged, if_pos beyond]
  · have placed : ¬ (_ ∨ _) := not_or.2 ⟨Nat.not_lt.2 fits.1, Nat.not_lt.2 fits.2⟩
    rcases isSquare with ⟨el, sq, rfl⟩ | ⟨f, rfl⟩
    all_goals
      simp only [vxLdmx, format, keyBlock_plain tensor, takeToken_spRead, takeToken_spPoisoned]
      refine (if_neg placed).trans ?_
      simp only [mx_squareScaled]

end Sys2Proof.Machine

/-! PROOFS. Posts and watches of the wadi queues and sends of the ripple port (05 R143, 07 R189, R196, R198, R200, R201). -/

namespace Sys2Proof.Machine

/-! ## The outcomes of an engine's row beside a result and a fault (05 R125, R147) -/

section
variable {s : State} {k l : Nat} {c : Ctx} {x : Core} {eng : Nat} {e : QEntry} {rest : List QEntry} {cls op : Nat} (h : EngineTurn s k l c x eng e rest cls op)
  (use : Nat) (errs : List (Nat × Flips)) (f : State → Ctx → Env → QEntry → Core → CRes)
include h

theorem EngineTurn.row_waits (hf : f s c (s.env c l x) e ((x.met s eng errs).takeToken e.word) = .wait) :
    engineRow eng cls op use errs f k l s = .next (s.putCtx k c) := by
  unfold engineRow engineRowWith
  rw [withCore_turn h.toCoreTurn, if_pos (by simp [h.live, h.calm])]
  have step := engineStep_turn h errs none (f s c (s.env c l x))
  rw [hf] at step
  unfold Core.met at step
  simp only [step, Ctx.absorb, CRes.noteTwin]

theorem EngineTurn.row_poisons {g : Nat} (hf : f s c (s.env c l x) e ((x.met s eng errs).takeToken e.word) = .poison g) :
    engineRow eng cls op use errs f k l s = .next ((s.met k l c x eng errs).putCtx k (c.raisePoison (viewAddr l g) use)) := by
  unfold engineRow engineRowWith
  rw [withCore_turn h.toCoreTurn, if_pos (by simp [h.live, h.calm])]
  have step := engineStep_turn h errs none (f s c (s.env c l x))
  rw [hf] at step
  unfold Core.met at step
  simp only [step, Ctx.absorb, CRes.noteTwin, State.met]

end

theorem withQueue_below {q : Nat} (below : q < 16) (o : Out) : withQueue q o = o := if_neg (Nat.not_le.2 below)

/-! ## What these instructions see of their core -/

section
variable (x : Core) (w : W64)

@[simp] theorem takeToken_outstanding : (x.takeToken w).outstanding = x.outstanding := by rw [takeToken_eq]; rfl
@[simp] theorem takeToken_wq (q : Nat) : (x.takeToken w).wq q = x.wq q := by rw [takeToken_eq]; rfl
@[simp] theorem takeToken_sends : (x.takeToken w).sends = x.sends := by rw [takeToken_eq]
@[simp] theorem takeToken_spPoison : (x.takeToken w).spPoison = x.spPoison := by rw [takeToken_eq]

variable (s : State) (eng : Nat) (errs : List (Nat × Flips)) (stop : Option Nat)

@[simp] theorem met_outstanding : (x.met s eng errs stop).outstanding = x.outstanding := by rw [met_eq]; rfl
@[simp] theorem met_wq (q : Nat) : (x.met s eng errs stop).wq q = x.wq q := by rw [met_eq]; rfl

/-- Only the matrix array stands between blocks (04 R121). -/
theorem midBlock_wadi (q : Nat) : x.midBlock (engWadi q) = false := by
  have other : engWadi q ≠ engMatrix := by unfold engWadi engMatrix; omega
  simp [Core.midBlock, other]

end

/-! ## wq.post and wq.watch (05 R143, 07 R198) -/

/-- The granule of a posted descriptor (05 R143). -/
abbrev QEntry.descGranule (e : QEntry) : Nat := (e.reg (fld e.word 28 5)).toNat
/-- The descriptor that a core reads at an entry's granule (07 R196). -/
abbrev QEntry.rawDesc (e : QEntry) (x : Core) : RawDesc := RawDesc.ofBytes (x.spRead (64 * e.descGranule) 64)

/-- The descriptor that a post accepts (07 R198); the versions of its translation entries are those of acceptance where it has no list (12 R464). -/
def RawDesc.posted (d : RawDesc) (entries : List Span → List (Nat × Nat)) (e : QEntry) (id : Nat) : Desc :=
  { id := id, idx := e.idx, write := d.op == 2, ordered := d.flags == 1, listCount := d.listCount, listAddr := d.listAddr, inline' := d.inline', skipped := e.skips,
    phase := .accepted, spans := [], inFlight := 0, entryVersions := if d.listCount = 0 then entries d.inline'.rowSpans else [] }

/-- Is a descriptor there, and room for it, and is it not poisoned (07 R189, R198)? -/
structure PostReads (e : QEntry) (x : Core) : Prop where
  inside : e.descGranule < spGranules
  room : x.outstanding < 120
  clean : x.spPoisoned (64 * e.descGranule) 64 = false

section
variable {q : Nat} {remoteOk : Bool → Nat → Nat → Bool} {entries : List Span → List (Nat × Nat)} {e : QEntry} {x : Core}

theorem wqPost_beyond (beyond : spGranules ≤ e.descGranule) : wqPost q remoteOk entries e x = .fault 0x0A := if_pos beyond

section
variable (inside : e.descGranule < spGranules)
include inside

theorem wqPost_full (full : 120 ≤ x.outstanding) : wqPost q remoteOk entries e x = .wait := by
  unfold wqPost
  exact (if_neg (Nat.not_le.2 inside)).trans (if_pos full)

theorem wqPost_poisoned (room : x.outstanding < 120) (poisoned : x.spPoisoned (64 * e.descGranule) 64 = true) :
    wqPost q remoteOk entries e x = .poison e.descGranule := by
  unfold wqPost
  exact (if_neg (Nat.not_le.2 inside)).trans ((if_neg (Nat.not_le.2 room)).trans (if_pos poisoned))

end

section
variable (reads : PostReads e x)
include reads

theorem wqPost_malformed (malformed : (e.rawDesc x).malformed = true) : wqPost q remoteOk entries e x = .fault 0x30 := by
  unfold wqPost
  simp only [reads.clean, malformed, if_true, if_neg (Nat.not_le.2 reads.inside), if_neg (Nat.not_le.2 reads.room), Bool.false_eq_true, if_false]

section
variable (formed : (e.rawDesc x).malformed = false)
include formed

theorem wqPost_refused {f : Nat} (inlined : (e.rawDesc x).listCount = 0) (refused : (e.rawDesc x).inline'.check (remoteOk ((e.rawDesc x).op == 2)) = some f) :
    wqPost q remoteOk entries e x = .fault f := by
  unfold wqPost
  simp only [reads.clean, formed, inlined, refused, if_true, if_neg (Nat.not_le.2 reads.inside), if_neg (Nat.not_le.2 reads.room), Bool.false_eq_true, if_false]

/-- A descriptor with a list is checked where it starts (07 R200), one without where it is posted. -/
theorem wqPost_accepted (checked : (e.rawDesc x).listCount = 0 → (e.rawDesc x).inline'.check (remoteOk ((e.rawDesc x).op == 2)) = none) :
    wqPost q remoteOk entries e x =
      .ok ((x.setWq q { x.wq q with descs := (x.wq q).descs ++ [(e.rawDesc x).posted entries e (x.wq q).nextId], nextId := (x.wq q).nextId + 1 }).addBeats (engWadi q) 2) := by
  have passed : (if (e.rawDesc x).listCount = 0 then (e.rawDesc x).inline'.check (remoteOk ((e.rawDesc x).op == 2)) else none) = none := ite_eq_right_iff.2 checked
  unfold wqPost
  simp only [reads.clean, formed, passed, RawDesc.posted, if_neg (Nat.not_le.2 reads.inside), if_neg (Nat.not_le.2 reads.room), Bool.false_eq_true, if_false]

end

end

theorem wqWatch_room (room : (x.wq q).watches.length < 8) : wqWatch q e x =
    .ok ((x.setWq q { x.wq q with watches := (x.wq q).watches ++ [⟨BitVec.truncate 32 (e.reg (fld e.word 28 5)), opTs e.word, opCs e.word, e.idx, 0⟩] }).addBeats
      (engWadi q) 1) := if_neg (Nat.not_le.2 room)

theorem wqWatch_full (full : 8 ≤ (x.wq q).watches.length) : wqWatch q e x = .wait := if_pos full

end

/-! ## net.send and net.mcast (05 R143, 07 R201) -/

section
variable {group : Bool} {v : Env} {e : QEntry} {x : Core}

/-- The buffer of a send: its source granules with their poison (07 R201). -/
def SendOps.buffer (o : SendOps) (group : Bool) (x : Core) : SendBuf :=
  { slot := o.slot, group := group, dest := o.dest, granule := o.destGranule, token := o.token, signal := o.signal, len := o.len,
    bytes := x.spRead (64 * o.granule) (64 * o.len), poison := (List.range o.len).map (fun i => sget x.spPoison (o.granule + i) != 0), launch := none }

theorem netSend_refused {f : Nat} (refused : sendCheck v group (SendOps.of e) = some f) : netSend group v e x = .fault f := by
  simp only [netSend, refused]

section
variable (passed : sendCheck v group (SendOps.of e) = none)
include passed

theorem netSend_full (full : 4 ≤ x.sends.length) : netSend group v e x = .wait := by
  simp only [netSend, passed, if_pos full]

theorem netSend_room (room : x.sends.length < 4) :
    netSend group v e x = .ok ({ x with sends := x.sends ++ [(SendOps.of e).buffer group x] }.addBeats engRipple 1) := by
  simp only [netSend, passed, if_neg (Nat.not_le.2 room), SendOps.buffer]

end

end

/-- A send and a multicast are one row of the ripple port, by their form. -/
theorem exec_send (group : Bool) (k l : Nat) (errs : List (Nat × Flips)) (s : State) :
    exec (if group then .netMcast k l errs else .netSend k l errs) s =
      engineRow engRipple 5 (if group then 1 else 0) 0x03 errs (fun _ _ v e x => netSend group v e x) k l s := by
  cases group <;> rfl

/-- Settles O19: a post by what its descriptor's granule holds, a watch and a send by their room. -/
theorem postsWatchesAndSends : Obligations.PostsWatchesAndSends := by
  unfold Obligations.PostsWatchesAndSends
  intro s k l c x e rest errs
  dsimp only
  refine ⟨fun q below h => ?_, fun q below h => ?_, fun group h => ?_⟩
  · have row : exec (.wqPost k l q errs) s =
        engineRow (engWadi q) 4 0x00 0x02 errs (fun s c _ e x => wqPost q (s.remoteOk k c) (s.entriesOf k) e x) k l s := withQueue_below below _
    have seen (y : Core) : e.rawDesc (y.takeToken e.word) = e.rawDesc y := by simp only [QEntry.rawDesc, takeToken_spRead]
    have reads (clean : e.descGranule < spGranules ∧ x.outstanding < 120 ∧ (x.met s (engWadi q) errs).spPoisoned (64 * e.descGranule) 64 = false) :
        PostReads e ((x.met s (engWadi q) errs).takeToken e.word) :=
      ⟨clean.1, by simpa using clean.2.1, by simpa using clean.2.2⟩
    rw [row]
    refine ⟨fun clean formed checked => engineRow_ok h _ errs _ _ ((wqPost_accepted (reads clean) ((seen _).symm ▸ formed) ((seen _).symm ▸ checked)).trans ?_) (midBlock_wadi _ q),
      fun beyond => engineRow_fault h _ none errs _ _ _ (wqPost_beyond beyond),
      fun inside full => h.row_waits _ errs _ (wqPost_full inside (by simpa using full)),
      fun inside room poisoned => h.row_poisons _ errs _ (wqPost_poisoned inside (by simpa using room) (by simpa using poisoned)),
      fun clean malformed => engineRow_fault h _ none errs _ _ _ (wqPost_malformed (reads clean) ((seen _).symm ▸ malformed)),
      fun clean formed inlined f refused => engineRow_fault h _ none errs _ _ _
        (wqPost_refused (reads clean) ((seen _).symm ▸ formed) ((seen _).symm ▸ inlined) ((seen _).symm ▸ refused))⟩
    simp only [seen, takeToken_wq, met_wq, RawDesc.posted]
  · have row : exec (.wqWatch k l q) s = engineRow (engWadi q) 4 0x01 0x02 [] (fun _ _ _ e x => wqWatch q e x) k l s := withQueue_below below _
    rw [row]
    refine ⟨fun room => engineRow_ok h _ [] _ _ ((wqWatch_room (by simpa using room)).trans ?_) (midBlock_wadi _ q),
      fun full => h.row_waits _ [] _ (wqWatch_full (by simpa using full))⟩
    simp only [met_none, takeToken_wq]
  · rw [exec_send]
    refine ⟨fun passed room => engineRow_ok h _ errs _ _ ((netSend_room passed (by simpa using room)).trans ?_) rfl,
      fun passed full => h.row_waits _ errs _ (netSend_full passed (by simpa using full)),
      fun f refused => engineRow_fault h _ none errs _ _ _ (netSend_refused refused)⟩
    simp only [SendOps.buffer, takeToken_sends, takeToken_spRead, takeToken_spPoison, met_sends]

end Sys2Proof.Machine

/-! PROOFS. Row instructions (05 R141, 06 R168 to R176). -/

namespace Sys2Proof.Machine

section
variable (x : Core) (w : W64)

theorem takeToken_sp : (x.takeToken w).sp = x.sp := by rw [takeToken_eq]
theorem takeToken_side : (x.takeToken w).side = x.side := by rw [takeToken_eq]
theorem takeToken_sidePoison : (x.takeToken w).sidePoison = x.sidePoison := by rw [takeToken_eq]
theorem takeToken_rowValues (r : Region) (row : Nat) : (x.takeToken w).rowValues r row = x.rowValues r row := by simp only [Core.rowValues, takeToken_spRead]
theorem takeToken_rowPoisoned (r : Region) (row : Nat) : (x.takeToken w).rowPoisoned r row = x.rowPoisoned r row := by
  simp only [Core.rowPoisoned, takeToken_spPoisoned]

variable (s : State) (eng : Nat) (errs : List (Nat × Flips)) (stop : Option Nat)

theorem met_sidePoison : (x.met s eng errs stop).sidePoison = x.sidePoison := by rw [met_eq]

end

/-! ## A row instruction's outcome (05 R141) -/

section
variable {s : State} {k l : Nat} {c : Ctx} {x : Core} {e : QEntry} {rest : List QEntry} {op : Nat} (h : EngineTurn s k l c x engRow e rest 3 op)
  {errs : List (Nat × Flips)} (f : Env → QEntry → Core → CRes)
include h

theorem EngineTurn.row_ok {y : Core} (hf : f (s.env c l x) e ((x.met s engRow errs).takeToken e.word) = .ok y) :
    rowRow op errs (fun v e x => f v e x) k l s = .next (s.engineDone k l c x engRow errs e rest y) :=
  engineRow_ok h 0x03 errs (fun _ _ v e x => f v e x) y hf rfl

theorem EngineTurn.row_fault {n : Nat} (hf : f (s.env c l x) e ((x.met s engRow errs).takeToken e.word) = .fault n) :
    rowRow op errs (fun v e x => f v e x) k l s = .next (s.putCtx k (c.raiseFault s.st.now l engRow n e.idx)) := by
  unfold rowRow engineRow
  exact engineRow_fault h 0x03 none errs (fun _ _ v e x => f v e x) _ n hf

end

/-! ## Formats (06 R168) -/

section
variable {v : Env} {e : QEntry} {c : Core}

/-- The gain's format is read where the instruction has a gain. -/
theorem gainFormat_of {p : Bool} {q : Prop} [Decidable q] (h : p = true ↔ q) (o : RowOps) :
    (if p = true then rowFormat o.gainFormat else some .fp32) = if q then rowFormat o.gainFormat else some .fp32 := by simp only [h]

theorem dotGain (o : RowOps) : (o.mode == 4 && o.gain) = true ↔ o.mode = 4 ∧ o.gain = true := by simp
theorem elementGain (o : RowOps) : (o.mode != 0 && o.gain) = true ↔ o.mode ≠ 0 ∧ o.gain = true := by simp

theorem rowStat_badView (bad : rowFormat (RowOps.of e).priFormat = none
    ∨ (3 ≤ (RowOps.of e).mode ∧ (rowFormat (RowOps.of e).secFormat = none ∨ (RowOps.of e).secondary = false))
    ∨ ((RowOps.of e).mode = 4 ∧ (RowOps.of e).gain = true ∧ rowFormat (RowOps.of e).gainFormat = none)) : rowStat v e c = .fault 0x25 := by
  unfold rowStat
  simp only
  split
  next fx fd fg x d g =>
    refine if_pos ?_
    rcases bad with noX | ⟨dot, noD | noD⟩ | ⟨mode, gain, noG⟩
    · simp [noX] at x
    · simp [dot, noD] at d
    · simp [dot, noD]
    · simp [mode, gain, noG] at g
  next => rfl

theorem rowElements_badView {bwd : Bool} (bad : rowFormat (RowOps.of e).priFormat = none
    ∨ (bwd = true ∧ (rowFormat (RowOps.of e).secFormat = none ∨ (RowOps.of e).secondary = false))
    ∨ ((RowOps.of e).mode ≠ 0 ∧ (RowOps.of e).gain = true ∧ rowFormat (RowOps.of e).gainFormat = none)) : rowElements bwd v e c = .fault 0x25 := by
  unfold rowElements
  simp only
  split
  next fx fd fg x d g =>
    refine if_pos ?_
    rcases bad with noX | ⟨dot, noD | noD⟩ | ⟨mode, gain, noG⟩
    · simp [noX] at x
    · simp [dot, noD] at d
    · simp [dot, noD]
    · simp [mode, gain, noG] at g
  next => rfl

end

/-- Row.apply and row.bwd are one row, by their direction. -/
theorem exec_rowElements (bwd : Bool) (k l : Nat) (errs : List (Nat × Flips)) (s : State) :
    exec (if bwd then .rowBwd k l errs else .rowApply k l errs) s = rowRow (if bwd then 0x03 else 0x02) errs (fun v e x => rowElements bwd v e x) k l s := by
  cases bwd <;> rfl

/-- Settles O18: each instruction by its formats and by whether its regions lie in the scratchpad and the side memory. -/
theorem rowEngine : Obligations.RowEngine := by
  unfold Obligations.RowEngine
  intro s k l c x e rest errs
  dsimp only
  refine ⟨fun h => ⟨fun fits => h.row_ok rowMerge ?_, fun beyond => h.row_fault rowMerge (if_pos (by omega))⟩,
    fun h => ⟨fun fits => h.row_ok (fun _ => rowKeep) ?_, fun beyond => h.row_fault (fun _ => rowKeep) (if_pos (by grind))⟩,
    fun h => ⟨fun fits => h.row_ok (fun _ => rowFetch) ?_, fun beyond => h.row_fault (fun _ => rowFetch) (if_pos (by grind))⟩,
    fun fx format => ⟨fun h mode => ?_, fun fd fg h mode second dFormat gFormat => ?_, fun bwd fd fg h dFormat plain gFormat => ?_⟩,
    fun h bad => h.row_fault rowStat (rowStat_badView bad),
    fun h bad => h.row_fault (rowElements false) (rowElements_badView (bad.imp_right .inr)),
    fun h bad => h.row_fault (rowElements true) (rowElements_badView (bad.imp_right (Or.imp_left fun noD => ⟨rfl, noD⟩)))⟩
  · refine (if_neg (by omega)).trans ?_
    simp only [takeToken_sp, takeToken_spPoison]
    rfl
  · refine (if_neg (by grind)).trans ?_
    simp only [takeToken_sp, takeToken_spPoison, takeToken_side, takeToken_sidePoison, met_side, met_sidePoison]
  · refine (if_neg (by grind)).trans ?_
    simp only [takeToken_sp, takeToken_spPoison, takeToken_side, takeToken_sidePoison, met_side, met_sidePoison]
  · have dot : decide (3 ≤ (RowOps.of e).mode) = false := decide_eq_false (by omega)
    have gain : ((RowOps.of e).mode == 4 && (RowOps.of e).gain) = false := by simp; omega
    refine ⟨fun fits => h.row_ok rowStat ?_, fun beyond => h.row_fault rowStat ?_⟩
    all_goals simp only [rowStat, format, dot, gain, Bool.false_eq_true, if_false, false_and, false_or]
    · refine (if_neg (by omega)).trans ?_
      simp only [takeToken_sp, takeToken_spPoison, takeToken_rowValues, takeToken_rowPoisoned]
      rfl
    · exact if_pos (by omega)
  · have dot : decide (3 ≤ (RowOps.of e).mode) = true := decide_eq_true mode
    rw [← gainFormat_of (dotGain _)] at gFormat
    refine ⟨fun fits => h.row_ok rowStat ?_, fun beyond => h.row_fault rowStat ?_⟩
    all_goals simp only [rowStat, format, dot, if_true, dFormat, gFormat, second, true_and, Bool.not_true, Bool.false_eq_true, if_false]
    · refine (if_neg (by grind)).trans ?_
      simp only [takeToken_sp, takeToken_spPoison, takeToken_rowValues, takeToken_rowPoisoned, takeToken_side, takeToken_sidePoison, met_side, met_sidePoison]
      rfl
    · exact if_pos (by grind)
  · rw [← gainFormat_of (elementGain _)] at gFormat
    rw [exec_rowElements]
    have dFormat' : (if bwd = true then rowFormat (RowOps.of e).secFormat else some .fp32) = some fd := by
      cases bwd with
      | true => exact (dFormat rfl).2
      | false => rw [plain rfl]; rfl
    have second : ¬ (bwd = true ∧ (!(RowOps.of e).secondary) = true) := fun ⟨b, noDy⟩ => by simp [(dFormat b).1] at noDy
    refine ⟨fun fits => h.row_ok (rowElements bwd) ?_, fun beyond => h.row_fault (rowElements bwd) ?_⟩
    all_goals simp only [rowElements, format, dFormat', gFormat, if_neg second]
    · refine (if_neg (by grind)).trans ?_
      simp only [takeToken_rowValues, takeToken_rowPoisoned, takeToken_side, takeToken_sidePoison, met_side, met_sidePoison, Option.map_if]
      cases bwd <;> rfl
    · exact if_pos (by grind)

end Sys2Proof.Machine

/-! PROOFS. Which commands end a run (log 2): those that name a unit that no module has. -/

namespace Sys2Proof.Machine

/-- Does an outcome say whether a command names units that a module has: a next state where it does, a fault where not? -/
def Out.Answers (o : Out) (named : Bool) : Prop := (named = true → ∃ t, o = .next t) ∧ (named = false → ∃ f, o = .fault f)

theorem next_answers (t : State) : Out.Answers (.next t) true := ⟨fun _ => ⟨t, rfl⟩, nofun⟩

theorem fault_answers (f : Fault) : Out.Answers (.fault f) false := ⟨nofun, fun _ => ⟨f, rfl⟩⟩

/-- A row that is refused outside a bound, and inside it does what another row does. -/
theorem bounded_answers {p : Prop} [Decidable p] {named inside : Bool} {f : Fault} {o : Out} (h : o.Answers inside) (eq : named = (!decide p && inside)) :
    Out.Answers (if p then .fault f else o) named := by
  by_cases outside : p
  · rw [if_pos outside, eq, decide_eq_true outside]
    exact fault_answers f
  · rw [if_neg outside, eq, decide_eq_false outside]
    exact h

/-! ## Rows by the unit that they name -/

section
variable (s : State)

/-- Not beyond a bound is below it. -/
theorem decide_below (n bound : Nat) : decide (n < bound) = (!decide (bound ≤ n) && true) := by simp only [← decide_not, Nat.not_le, Bool.and_true]

theorem withCtx_answers (k : Nat) (f : Ctx → State) : Out.Answers (withCtx k s f) (ctxOk k) := bounded_answers (next_answers _) (decide_below k 64)

theorem withCore_answers (k l : Nat) (f : Ctx → Core → State) : Out.Answers (withCore k l s f) (coreOk k l) :=
  bounded_answers (bounded_answers (next_answers _) (decide_below l 512)) (by simp only [coreOk, ctxOk, ← decide_not, Nat.not_le])

theorem withQueue_answers {q : Nat} {o : Out} {named : Bool} (h : o.Answers named) : Out.Answers (withQueue q o) (named && queueOk q) :=
  bounded_answers h (by simp only [queueOk, ← decide_not, Nat.not_le, Bool.and_comm])

theorem withPort_answers (p : Nat) (f : Port → State) : Out.Answers (withPort p s f) (portOk p) := bounded_answers (next_answers _) (decide_below p 18)

theorem withRing_answers (n : Nat) (f : Ring → State) : Out.Answers (withRing n s f) (ringOk n) := bounded_answers (next_answers _) (decide_below n 64)

theorem withUnit_answers (n bound : Nat) (t : State) : Out.Answers (withUnit n bound t) (decide (n < bound)) := bounded_answers (next_answers _) (decide_below n bound)

theorem withPhys_answers (die p : Nat) (t : State) : Out.Answers (withPhys die p t) (physOk die p) :=
  bounded_answers (next_answers _) (by simp only [physOk, ← decide_not, not_or, Nat.not_le, Bool.decide_and, Bool.and_true])

theorem onFirst_answers (k : Nat) (p : StepRun → Bool) (f : Ctx → StepRun → State) : Out.Answers (onFirst k s p f) (ctxOk k) := withCtx_answers ..

end

/-! ## Commands that choose between rows -/

section
variable (s : State) (k l : Nat)

theorem engineCode_eq (engine : Nat) : engineCode engine = engineOk engine := Bool.decide_or ..

theorem execInstructionCompletion_answers (engine : Nat) (shadow : W64) :
    Out.Answers (execInstructionCompletion k l engine shadow s) (coreOk k l && engineOk engine) := by
  unfold execInstructionCompletion
  rw [engineCode_eq]
  cases engineOk engine with
  | true => exact (Bool.and_true _).symm ▸ withCore_answers ..
  | false => exact (Bool.and_false _).symm ▸ fault_answers _

theorem execWaitLimitExpiry_answers (engine : Nat) (watch : Bool) :
    Out.Answers (execWaitLimitExpiry k l engine watch s) (coreOk k l && (engine == 0 || engineOk engine)) := by
  have named : (engine = 0 ∨ engineCode engine = true) ↔ (engine == 0 || engineOk engine) = true := by simp [engineCode_eq]
  unfold execWaitLimitExpiry
  simp only [named]
  cases engine == 0 || engineOk engine with
  | true => exact (Bool.and_true _).symm ▸ withCore_answers ..
  | false => exact (Bool.and_false _).symm ▸ fault_answers _

/-- A step phase that is none of phases 2 to 5 has nothing to start. -/
theorem execStepPhaseStart_answers (phase : Nat) : Out.Answers (execStepPhaseStart k phase s) (ctxOk k) := by
  unfold execStepPhaseStart
  split
  case h_5 => exact withCtx_answers ..
  all_goals exact onFirst_answers ..

theorem execMapMemory_answers (id : Nat) : Out.Answers (execMapMemory id s) true := by
  unfold execMapMemory
  split
  · split <;> exact next_answers _
  · exact next_answers _

end

/-- Each command is a row of the unit that it names, or of none. -/
theorem exec_answers (i : Instr) (s : State) : Out.Answers (exec i s) i.wf := by
  cases i with
  | seqNop | seqLoop | seqEndl | seqBrlc | seqWaitSt | seqTb | seqFence | seqEnd | seqLi | seqLih | seqAddi | seqAdd | seqSub | seqMul | seqAnd | seqOr
    | seqXor | seqShl | seqShr | seqRdlc | seqRdid | mxMm | mxMerge | mxSpill | mxDrain | mxStat | mxClose | vxLd | vxSt | vxAdd | vxSub | vxMul | vxFma
    | vxMin | vxMax | vxSel | vxCvt | vxCvtmx | vxLdmx | vxRcp | vxRsq | vxExp2 | vxLog2 | vxSqrt | vxPadd | vxPmul | vxPfma | vxIadd | vxIsub | vxImul
    | vxAnd | vxOr | vxXor | vxShl | vxShr | vxSra | vxRsum | vxRmax | vxNfc | vxM48add | vxM48fma | vxM48cvt | vxLi | grDraw | rowStat | rowMerge | rowApply
    | rowBwd | rowKeep | rowFetch | netSend | netMcast | ckRdf | ckClrf | ckCap | ckPoison | gtVote | gtWait | gtClr | sequencerDispatch | stTargetReached
    | twinMismatch => exact withCore_answers ..
  | wqPost | wqWatch | watchFire | wadiDescriptorStart | wadiRequestIssue | wadiDescriptorCompletion => exact withQueue_answers (withCore_answers ..)
  | contextFaultStop | linkWindowOpen | linkWindowClose | collectiveStart | contributionArrival | collectiveCompletion | collectiveDeadlineExpiry | gateReport
    | gateDecision | pendingVersionAllocation | shardDigestComplete | prepareReport | decisionLog | commit | commitTimeReached | abort | failureReport
    | decisionQuery | decisionReply | exchangeDeadlineExpiry | fenceRelease | weightDigestComplete | tensorDigestComplete | cairnSignatureComplete
    | ringSpaceFreed | roundStart | rolloutAdmission | tokenChoice | rolloutEnd | weightPublication | publicationDigestCheck | checkpointStart
    | checkpointComplete | preemptionSaveComplete | restoreComplete | teardownQuiescence | teardownTimeout | checkpointDeadlineExpiry => exact withCtx_answers ..
  | portTraining | trainingRateFallback | laneQualification | dataFrameReceive | controlFrameReceive | idleFrameReceive | discoveryFrameReceive | ackTimeout
    | controlFrameSend | discoveryFrameSend | timestamp | grandmasterAnnouncement | laneSwap | laneErrorThreshold | resendRequest | pacing | managementRelay
    | departureNotice | writeAcknowledgement | collectiveAbort | partnerSilenceTimeout | seifPacketArrival =>
    simp only [exec, Instr.wf, execPortTraining, execTrainingRateFallback, execLaneQualification, execDataFrameReceive, execControlFrameReceive,
      execIdleFrameReceive, execDiscoveryFrameReceive, execAckTimeout, execControlFrameSend, execDiscoveryFrameSend, execTimestamp,
      execGrandmasterAnnouncement, execLaneSwap, execLaneErrorThreshold, execResendRequest, execPacing, execManagementRelay, execDepartureNotice,
      execWriteAcknowledgement, execCollectiveAbort, execPartnerSilenceTimeout, execSeifPacketArrival, withMessage]
    exact withPort_answers ..
  | doorbellWrite | commandFetch | replyWrite | rqTailWrite | rqArmWrite | sqEnable | sqDisable | rqEnable | rqDisable | ringErrorClear =>
    simp only [exec, Instr.wf, execDoorbellWrite, execCommandFetch, execReplyWrite, execRqTailWrite, execRqArmWrite, execSqEnable, execSqDisable,
      execRqEnable, execRqDisable, execRingErrorClear]
    exact withRing_answers ..
  | memoryRefresh | rowRepair | dataMoveComplete | stackTemperatureRead | mirageCheck | mirageSelfTest | suspectClearTimeout | oasisPairFailure
    | regulatorPhaseLoss | railMonitorExcursion | serviceRestartComplete => exact withUnit_answers ..
  | sieveDue | sieveForced | sieveComplete => exact withPhys_answers ..
  | rippleBoundary | onDiePacketArrival | memoryRequest | wadiDataArrival | wadiResponseTimeout | hostReadCompletion | patrolScrub | routeAbsenceTimeout
    | holdoverEntry | holdoverLimit | trefPpsEdge | tref10mDeviation | peerWriteTimeout | pacingPeriodBoundary | recheckVerdict | mesaFailure | commandStart
    | winBaseWrite | resetRequestModule | resetRequestRetrain | lowHalfRead | lowHalfWrite | registerWrite | bar2Read | bar2Write | nop | openSession
    | loadProgram | createContext | destroyContext | run | step | publishWeights | checkpoint | restore | setShares | setCaravanTable | setPowerLimit
    | queryAttention | ackAttention | readCapture | resetDomain | reinstate | attest | commandDeadlineExpiry | sliceBoundary | caravanTableActivation
    | caravanLeadTime | caravanWindowOpen | caravanWindowClose | resetCompletion | resetCompletionTimeout | powerEvaluation | powerInterval
    | powerDisagreement | limitUnreachable | voltageLoopStep | fastLimitTrip | fastLimitEnd | pwrbrakeAssert | pwrbrakeRelease | thermalTrip
    | inputPowerApplied | pwrEnRise | pwrEnFall | inputVoltageFault | modResetNAssert | modResetNRelease | perstNAssert | perstNRelease | functionLevelReset
    | linkTrained | refclkLoss | smbusTransaction | smbusClockTimeout | tapInstruction | boot | flashTransactionTimeout | firmwareUpdate | getVersion
    | getCapabilities | negotiateAlgorithms | getDigests | getCertificate | challenge | getMeasurements | spdmUnsupportedRequest | hotReset | refclkReturn
    | resetCountWindowExpiry | tref10mAmplitudeLoss | tref10mRecovery | configSpaceWrite => exact next_answers _
  | instructionCompletion => exact execInstructionCompletion_answers ..
  | waitLimitExpiry => exact execWaitLimitExpiry_answers ..
  | stepPhaseStart => exact execStepPhaseStart_answers ..
  | mapMemory => exact execMapMemory_answers ..

/-- Settles O2, by the unit that each command names. -/
theorem commandsComplete : Obligations.CommandsComplete := by
  unfold Obligations.CommandsComplete
  exact fun i s => exec_answers i s

end Sys2Proof.Machine

/-! PROOFS. Every step keeps the standing properties (07 R204, 12 R350): what writes of parts of a state, of device memory and of the attention
log keep, and the operations that save slots, ports, control messages and suspects share. -/

namespace Sys2Proof.Machine

set_option Elab.async false

section
variable {s : State}

/-- An outcome keeps the standing properties: a next state has them. -/
def Out.Keeps (o : Out) : Prop := ∀ t, o = .next t → t.Inv

theorem keeps_next (h : s.Inv) : Out.Keeps (.next s) := fun _ e => Host.Outcome.next.inj e ▸ h

theorem keeps_fault (f : Fault) : Out.Keeps (.fault f) := fun _ e => by cases e

theorem keeps_ite {p : Prop} [Decidable p] {a b : Out} (ha : a.Keeps) (hb : b.Keeps) : Out.Keeps (if p then a else b) := by
  split <;> assumption

theorem inv_ite {p : Prop} [Decidable p] {a b : State} (ha : a.Inv) (hb : b.Inv) : State.Inv (if p then a else b) := by
  split <;> assumption

theorem inv_foldl {α : Type} {f : State → α → State} {l : List α} (h : s.Inv) (hf : ∀ t x, t.Inv → (f t x).Inv) : (l.foldl f s).Inv := by
  induction l generalizing s with
  | nil => exact h
  | cons x l ih => exact ih (hf _ _ h)

/-- Where bytes, poison, rewritten flags and the attention log stay, the standing properties stay. The default proofs look at the fields that the new state
names, and unfold the operation only where that does not tell: to unfold first can run through a whole operation. -/
theorem State.Inv.frame {t : State} (h : s.Inv) (bytes : t.mem.bytes = s.mem.bytes := by first | with_reducible rfl | rfl)
    (poison : t.mem.poison = s.mem.poison := by first | with_reducible rfl | rfl)
    (rewritten : t.mem.rewritten = s.mem.rewritten := by first | with_reducible rfl | rfl)
    (log : t.attn.log = s.attn.log := by first | with_reducible rfl | rfl) : t.Inv := by
  obtain ⟨⟨hb, hp, hr⟩, hl⟩ := h
  exact ⟨⟨bytes ▸ hb, poison ▸ hp, rewritten ▸ hr⟩, by unfold Attention.bounded at *; rwa [log]⟩

/-! ## Contexts and cores -/

theorem State.Inv.putCtx {k c} (h : s.Inv) : (s.putCtx k c).Inv := h.frame

theorem State.Inv.updCtx {k f} (h : s.Inv) : (s.updCtx k f).Inv := by
  unfold State.updCtx
  split
  exacts [h, h.putCtx]

theorem withCtx_keeps {k} {f : Ctx → State} (h : s.Inv) (hf : ∀ c, (f c).Inv) : (withCtx k s f).Keeps := by
  refine keeps_ite (keeps_fault _) (keeps_next ?_)
  split
  exacts [h, hf _]

theorem withCore_keeps {k l} {f : Ctx → Core → State} (h : s.Inv) (hf : ∀ c x, (f c x).Inv) : (withCore k l s f).Keeps := by
  refine keeps_ite (keeps_fault _) (keeps_ite (keeps_fault _) (keeps_next ?_))
  split
  · exact h
  · split
    exacts [h, hf _ _]

theorem withPort_keeps {p} {f : Port → State} (hf : ∀ x, (f x).Inv) : (withPort p s f).Keeps := keeps_ite (keeps_fault _) (keeps_next (hf _))

theorem State.Inv.putPort {p x} (h : s.Inv) : (s.putPort p x).Inv := h.frame

theorem State.Inv.updPort {p f} (h : s.Inv) : (s.updPort p f).Inv := h.frame

theorem withRing_keeps {n} {f : Ring → State} (hf : ∀ x, (f x).Inv) : (withRing n s f).Keeps := keeps_ite (keeps_fault _) (keeps_next (hf _))

theorem State.Inv.putRing {n r} (h : s.Inv) : (s.putRing n r).Inv := h.frame

theorem withUnit_keeps {n b} (h : s.Inv) : (withUnit n b s).Keeps := keeps_ite (keeps_fault _) (keeps_next h)

/-! ## Attention (12 R349 to R351) -/

/-- The log never grows past 4,096 entries: a full one gives up an entry for each that it takes (12 R351). -/
theorem Attention.bounded_add {a : Attention} {e : AttnEntry} (h : a.bounded) : (a.add e).bounded := by
  have replaced {p : AttnEntry → Bool} {i : Nat} (found : a.log.findIdx? p = some i) : (a.log.eraseIdx i ++ [e]).length ≤ 4096 := by
    have inside : i < a.log.length := (List.findIdx?_eq_some_iff_getElem.1 found).1
    rw [List.length_append, List.length_eraseIdx_of_lt inside, List.length_singleton]
    exact (Nat.sub_add_cancel (Nat.zero_lt_of_lt inside)).trans_le h
  unfold Attention.add
  dsimp only
  split
  next room =>
    change (a.log ++ [e]).length ≤ 4096
    rwa [List.length_append]
  · split
    next found => exact replaced found
    · split
      · exact h
      · split
        next found => exact replaced found
        · exact h

/-- An attention event changes the attention log alone (12 R349). -/
theorem State.Inv.raise {e} (h : s.Inv) : (s.raise e).Inv := ⟨h.1, Attention.bounded_add h.2⟩

/-! ## Replies (12 R341, R344) -/

theorem State.Inv.complete {id code result tail} (h : s.Inv) : (s.complete id code result tail).Inv := by
  unfold State.complete
  split
  exacts [h, h.frame]

theorem State.Inv.busWrite {addr bytes} (h : s.Inv) : (s.busWrite addr bytes).Inv := h.frame

/-! ## Device memory (07 R204 to R213) -/

theorem State.Inv.storePart {a bytes p} (h : s.Inv) : (s.storePart a bytes p).Inv := ⟨storePart_wf _ _ _ _ h.1, by rw [storePart_mem]; exact h.2⟩

theorem State.Inv.store {a bytes} (h : s.Inv) : (s.store a bytes).Inv := ⟨store_wf _ _ _ h.1, by rw [store_mem]; exact h.2⟩

theorem State.Inv.storeGranules {a bytes ps} (h : s.Inv) : (s.storeGranules a bytes ps).Inv :=
  ⟨storeGranules_wf _ _ _ _ h.1, by rw [storeGranules_mem]; exact h.2⟩

/-! ## Free values (log 26) -/

theorem State.Inv.spend (h : s.Inv) : s.spend.Inv := h.frame

/-! ## Ranges of memory as maps -/

theorem State.Inv.putRange {a n bytes poison} (h : s.Inv) : (s.putRange a n bytes poison).Inv := ⟨putRange_wf _ _ _ _ _ h.1, h.2⟩

/-! ## Saving a core -/

theorem State.Inv.saveOpaque {a} (h : s.Inv) : (s.saveOpaque a).Inv := by
  unfold State.saveOpaque
  exact State.Inv.spend (inv_foldl h fun _ _ h => h.store)

theorem State.Inv.saveCore {c l x} (h : s.Inv) : (s.saveCore c l x).1.Inv := by
  unfold State.saveCore
  split
  exacts [h.frame, h.saveOpaque.putRange.putRange.putRange.putRange.putRange.frame]

/-! ## Contexts -/

theorem State.Inv.saveOne {k l} (h : s.Inv) : (s.saveOne k l).Inv := by
  unfold State.saveOne
  split
  · exact h
  · split
    exacts [h, h.saveCore.frame]

theorem State.Inv.park {k l} (h : s.Inv) : (s.park k l).Inv := h.saveOne.updCtx

theorem State.Inv.saveAll {k} (h : s.Inv) : (s.saveAll k).Inv := by
  unfold State.saveAll
  split
  exacts [h, inv_foldl h fun _ _ h => h.saveOne]

theorem State.Inv.atHome {k l f} (h : s.Inv) : (s.atHome k l f).Inv := inv_ite h.updCtx.saveOne h.updCtx

/-! ## Frames (R215) -/

theorem State.Inv.spareIn {p lane} (h : s.Inv) : (s.spareIn p lane).Inv := h.putPort.raise

theorem State.Inv.sendFrame {p typ payload} (h : s.Inv) : (s.sendFrame p typ payload).Inv := by
  unfold State.sendFrame
  dsimp only
  split
  exacts [h.frame, inv_ite h.frame.spareIn h.frame]

theorem State.Inv.sendBytes {n p bytes} (h : s.Inv) : (State.sendBytes n s p bytes).Inv := by
  induction n generalizing s bytes with
  | zero => exact h
  | succ n ih => exact inv_ite h (ih h.sendFrame)

theorem State.Inv.sendIdle {p n} (h : s.Inv) : (s.sendIdle p n).Inv := inv_ite h h.sendFrame.frame

theorem State.Inv.sendControl {p typ payload} (h : s.Inv) : (s.sendControl p typ payload).Inv := h.sendIdle.sendFrame.putPort

/-! ## Flows in their windows (R234, R235) -/

theorem State.Inv.sendPackets {port l} (h : s.Inv) : (s.sendPackets port l).Inv := h.frame.sendBytes

theorem State.Inv.pump {k port flow} (h : s.Inv) : (s.pump k port flow).Inv := by
  unfold State.pump
  split
  exacts [h, inv_ite h h.spend.sendPackets.frame]

theorem State.Inv.pumpLoose {port} (h : s.Inv) : (s.pumpLoose port).Inv := inv_ite h h.sendPackets

theorem State.Inv.pumpAll (h : s.Inv) : s.pumpAll.Inv := inv_foldl (inv_foldl h fun _ _ h => h.pump) fun _ _ h => h.pumpLoose

theorem State.Inv.addReady {x} (h : s.Inv) : (s.addReady x).Inv := inv_ite h.frame.pumpLoose h.frame.pump

/-! ## Control messages and routes (08 R216, R226) -/

theorem State.Inv.post {p bytes} (h : s.Inv) : (s.post p bytes).Inv := inv_ite h h.putPort

theorem State.Inv.postTo {job rank bytes} (h : s.Inv) : (s.postTo job rank bytes).Inv := by
  unfold State.postTo
  split
  exacts [h, h.post]

/-! ## Peer writes (08 R224, R227) -/

theorem State.Inv.ready {k pkt} (h : s.Inv) : (s.ready k pkt).Inv := h.addReady

theorem State.Inv.peerWriteGo {track k job src rank flow n addr bytes poison} (h : s.Inv) :
    (State.peerWriteGo track k job src rank flow n s addr bytes poison).Inv := by
  induction n generalizing s addr bytes poison with
  | zero => exact h
  | succ n ih => exact inv_ite h (ih h.frame.ready)

theorem State.Inv.peerWrite {k c rank flow addr bytes poison} (h : s.Inv) : (s.peerWrite k c rank flow addr bytes poison).1.Inv :=
  h.peerWriteGo.frame

/-! ## Reports (R326) -/

theorem State.Inv.setSuspect {i x} (h : s.Inv) : (s.setSuspect i x).Inv := h.frame

theorem State.Inv.sendRelays (h : s.Inv) : s.sendRelays.Inv := by
  unfold State.sendRelays
  refine inv_foldl h.frame fun _ _ h => ?_
  split
  exacts [h, h.postTo]

theorem State.Inv.relay {key cause rep} (h : s.Inv) : (s.relay key cause rep).Inv := by
  unfold State.relay
  refine inv_ite ?_ h
  split
  exacts [h, h, h.frame.sendRelays]

theorem State.Inv.reportN {key cause n rep} (h : s.Inv) : (s.reportN key cause n rep).Inv := by
  unfold State.reportN
  split
  · split
    exacts [h, h.setSuspect]
  · split
    · dsimp only
      split
      exacts [inv_ite h.frame h.frame.raise, h.frame.raise]
    · exact h.setSuspect.raise

theorem State.Inv.report {key cause rep} (h : s.Inv) : (s.report key cause rep).Inv := h.reportN.relay

theorem State.Inv.reportPort {p cause} (h : s.Inv) : (s.reportPort p cause).Inv := inv_foldl h.reportN fun _ _ h => h.relay

theorem State.Inv.suspectRank {job rank cause ctx} (h : s.Inv) : (s.suspectRank job rank cause ctx).Inv := h.report

theorem State.Inv.suspectState {key state cause level rep} (h : s.Inv) : (s.suspectState key state cause level rep).Inv := by
  unfold State.suspectState
  split
  · exact h
  · split
    exacts [h, inv_ite h h.setSuspect.raise]

theorem State.Inv.chargeEntry {key} (h : s.Inv) : (s.chargeEntry key).1.Inv := by
  unfold State.chargeEntry
  split
  · exact h.frame
  · split <;> exact h.frame

theorem State.Inv.chargeRank {job rank cause ctx} (h : s.Inv) : (s.chargeRank job rank cause ctx).Inv :=
  (inv_ite h.suspectRank.chargeEntry.suspectState h.suspectRank.chargeEntry).frame

/-! ## Physical cores (11 R315, R317, 01 R16) -/

theorem State.Inv.setPhys {die p x} (h : s.Inv) : (s.setPhys die p x).Inv := h.frame

theorem State.Inv.setPosition {die pos p} (h : s.Inv) : (s.setPosition die pos p).Inv := h.frame

theorem State.Inv.retireCore {die p} (h : s.Inv) : (s.retireCore die p).Inv := by
  unfold State.retireCore
  split
  · dsimp only
    split
    · exact h.frame.setPhys
    · split
      exacts [h.frame.setPhys, h.frame.setPhys.setSuspect]
  · dsimp only
    split
    · exact h.frame.setPhys
    · split
      exacts [h.frame.setPhys, h.frame.setPhys.setSuspect]

end

end Sys2Proof.Machine

/-! PROOFS. Standing properties over the cores (07 R204, 12 R350): steps of programs, rows of a core, captures and deaths, ripples, transfers
and memory controllers. -/

namespace Sys2Proof.Machine

set_option Elab.async false

section
variable {s : State}

/-! ## Scratchpad errors (07 R193) -/

theorem State.Inv.foundErrors {k l c hit} (h : s.Inv) : (s.foundErrors k l c hit).Inv := by
  unfold State.foundErrors
  split
  exacts [h, h, inv_ite h.frame.spend.report h.frame.spend]

/-! ## Engine steps (05 R123 to R125) -/

theorem engineRowWith_keeps {eng cls op use stop errs f after k l} (h : s.Inv) (ha : ∀ t k l x c, State.Inv t → State.Inv (after t k l x c)) :
    (engineRowWith eng cls op use stop errs f after k l s).Keeps := by
  refine withCore_keeps h fun c x => inv_ite ?_ h
  dsimp only
  split
  · exact h
  · split
    exacts [inv_ite h (ha _ _ _ _ _ h.foundErrors), h.foundErrors.putCtx, h.putCtx]

theorem engineRow_keeps {eng cls op use errs f k l} (h : s.Inv) : (engineRow eng cls op use errs f k l s).Keeps :=
  engineRowWith_keeps h fun _ _ _ _ _ h => h.putCtx

/-! ## Sequencer steps -/

theorem seqRowWith_keeps {cls op f after k l} (h : s.Inv) (ha : ∀ t k l x c, State.Inv t → State.Inv (after t k l x c)) :
    (seqRowWith cls op f after k l s).Keeps := by
  refine withCore_keeps h fun c x => inv_ite ?_ h
  dsimp only
  split
  · exact h
  · split
    exacts [inv_ite h (ha _ _ _ _ _ h), h.putCtx]

theorem seqRow_keeps {cls op f k l} (h : s.Inv) : (seqRow cls op f k l s).Keeps := seqRowWith_keeps h fun _ _ _ _ _ h => h.putCtx

/-! ## Rings (02 R64) -/

theorem State.Inv.ringPut {c ring r entry} (h : s.Inv) : (s.ringPut c ring r entry).1.Inv :=
  ((State.Inv.store (inv_ite h.store h)).store).frame

theorem State.Inv.produce {k ring entry} (h : s.Inv) : (s.produce k ring entry).Inv := by
  unfold State.produce
  split
  · exact h
  · split
    exacts [h, inv_ite h.ringPut.updCtx.frame h.putCtx.raise]

theorem State.Inv.flushRing {n c ring r} (h : s.Inv) : (State.flushRing n s c ring r).1.Inv := by
  induction n generalizing s r with
  | zero => exact h
  | succ n ih =>
    unfold State.flushRing
    split
    · exact h
    · split
      exacts [ih h.ringPut, h]

/-! ## The step of a context -/

theorem State.Inv.setStep {k st} (h : s.Inv) : (s.setStep k st).Inv := h.updCtx

theorem State.Inv.onStep {k cmd} {f : Ctx → StepRun → State} (h : s.Inv) (hf : ∀ c st, (f c st).Inv) : (s.onStep k cmd f).Inv := by
  unfold State.onStep
  split
  exacts [h, hf _ _]

theorem State.Inv.sendRec {k c dest r} (h : s.Inv) : (s.sendRec k c dest r).1.Inv := by
  unfold State.sendRec
  split
  exacts [h.frame, h.peerWrite]

theorem State.Inv.sendRecs {k c dests r} (h : s.Inv) : (s.sendRecs k c dests r).Inv := inv_foldl h fun _ _ h => h.sendRec

/-! ## Completion of a STEP (R282) and of programs -/

theorem State.Inv.settle {k} (h : s.Inv) : (s.settle k).Inv := inv_ite h h.updCtx

theorem State.Inv.finishStep {k st code tail} (h : s.Inv) : (s.finishStep k st code tail).Inv := h.updCtx.complete.settle

/-! ## Statistics and tracked entries (R268 to R271, R274) -/

theorem State.Inv.trackUpdate {k stats} (h : s.Inv) : (s.trackUpdate k stats).Inv := by
  unfold State.trackUpdate
  split
  · exact h
  · split
    exacts [h, h.putCtx.store]

/-! ## Versions, buffers and areas (R253 to R259) -/

theorem State.Inv.discardPending {k} (h : s.Inv) : (s.discardPending k).Inv := h.updCtx

/-! ## Failures before commit (R280) -/

theorem State.Inv.stopStep {k st} (h : s.Inv) : (s.stopStep k st).Inv := h.updCtx

theorem State.Inv.adoptAbort {k st again} (h : s.Inv) : (adoptAbort s k st again).Inv :=
  inv_ite (inv_ite h.raise.setStep h.raise.discardPending.frame.stopStep.setStep) h.raise.discardPending.finishStep

theorem State.Inv.tellFailure {k c st again poison} (h : s.Inv) : (tellFailure s k c st again poison).Inv := inv_ite h.sendRecs h.sendRec

theorem State.Inv.abortAll {k c st again} (h : s.Inv) : (abortAll s k c st again).Inv := h.tellFailure.adoptAbort

theorem State.Inv.failStep {k c st again poison} (h : s.Inv) : (failStep s k c st again poison).Inv :=
  inv_ite h (inv_ite h.abortAll h.tellFailure)

theorem State.Inv.loseStep {k c st} (h : s.Inv) : (loseStep s k c st).Inv :=
  inv_ite h (inv_ite h.abortAll (inv_ite h.tellFailure h.tellFailure.adoptAbort))

theorem State.Inv.giveUp {k c st code} (h : s.Inv) : (giveUp s k c st code).Inv := h.tellFailure.raise.discardPending.finishStep

/-! ## Outcomes (R275, R278, R62) -/

theorem State.Inv.tryFinish {k cmd} (h : s.Inv) : (tryFinish s k cmd).Inv := by
  unfold Machine.tryFinish
  refine h.onStep fun _ _ => ?_
  split
  exacts [h, h, inv_ite h (inv_ite h (inv_ite (inv_ite h h.setStep.raise) (State.Inv.finishStep (inv_ite h.produce h))))]

theorem State.Inv.adoptSkip {k st stats result} (h : s.Inv) : (adoptSkip s k st stats result).Inv :=
  inv_ite h (State.Inv.tryFinish (inv_ite h.discardPending.trackUpdate.setStep.raise h.discardPending.trackUpdate.setStep))

theorem State.Inv.tryAllocate {k cmd} (h : s.Inv) : (tryAllocate s k cmd).Inv := by
  unfold Machine.tryAllocate
  refine h.onStep fun _ _ => ?_
  split
  exacts [h, inv_ite h.putCtx.setStep h]

theorem State.Inv.adoptApply {k c st stats} (h : s.Inv) : (adoptApply s k c st stats).Inv := by
  unfold Machine.adoptApply
  split
  exacts [h, inv_ite h.giveUp h.putCtx.setStep.tryAllocate]

theorem State.Inv.adoptDecision {k c st apply stats} (h : s.Inv) : (adoptDecision s k c st apply stats).Inv :=
  inv_ite h.adoptSkip (inv_ite h h.adoptApply)

theorem State.Inv.passDecision {k c st apply stats} (h : s.Inv) : (passDecision s k c st apply stats).Inv := h.sendRecs.adoptDecision

theorem State.Inv.tryGate {k cmd} (h : s.Inv) : (tryGate s k cmd).Inv :=
  h.onStep fun _ _ => inv_ite (inv_ite (inv_ite h.setStep.passDecision h.setStep.sendRec) h.setStep) h

/-! ## Holds on versions (09 R254, R255) -/

theorem State.Inv.addHold {k version holder} (h : s.Inv) : (s.addHold k version holder).Inv := h.updCtx

theorem State.Inv.dropHold {k version holder} (h : s.Inv) : (s.dropHold k version holder).Inv := h.updCtx

/-! ## What a commit triggers (10 R302, R303, R305) -/

theorem State.Inv.holdToPublish {k version} (h : s.Inv) : (s.holdToPublish k version).Inv := h.updCtx

theorem State.Inv.endHolds {k} (h : s.Inv) : (s.endHolds k).Inv := h.updCtx

theorem State.Inv.publishAll {k version} (h : s.Inv) : (s.publishAll k version).Inv := by
  unfold State.publishAll
  split
  exacts [h, inv_ite h h.putCtx.holdToPublish.endHolds]

/-! ## Prepare and commit (R276 to R278) -/

theorem State.Inv.commitState {k c l st} (h : s.Inv) : (commitState s k c l st).Inv :=
  ((State.Inv.store (inv_foldl h.putCtx.publishAll.store fun _ _ h => h.store)).store).setStep

theorem State.Inv.commitNow {k cmd} (h : s.Inv) : (commitNow s k cmd).Inv := by
  unfold Machine.commitNow
  refine h.onStep fun _ _ => ?_
  split
  · exact h
  · refine inv_ite h ?_
    split
    exacts [h.putCtx, inv_ite h.commitState h.commitState.tryFinish]

theorem State.Inv.adoptCommit {k st time} (h : s.Inv) : (adoptCommit s k st time).Inv := inv_ite h.setStep.commitNow.raise h.setStep

theorem State.Inv.decideCommit {k c st} (h : s.Inv) : (decideCommit s k c st).Inv := by
  unfold Machine.decideCommit
  refine inv_ite ?_ (inv_ite h.passDecision h.abortAll)
  split
  exacts [h, inv_ite h.store.setStep h.sendRec.setStep.frame]

theorem State.Inv.tryPrepare {k cmd} (h : s.Inv) : (tryPrepare s k cmd).Inv :=
  h.onStep fun _ _ => inv_ite (inv_ite (inv_ite h.setStep.decideCommit h.setStep.sendRec) h.setStep) h

/-! ## The end of a program (R132, 09 R272) -/

theorem State.Inv.programEnd {k} (h : s.Inv) : (programEnd s k).Inv := by
  unfold Machine.programEnd
  split
  · exact h
  · split
    · exact h
    · refine inv_ite ?_ h
      split
      · exact h.putCtx
      · exact inv_ite (((h.putCtx.onStep fun _ _ => h.putCtx.setStep).tryPrepare).tryFinish) h.putCtx.complete.settle

/-! ## Late launches (R128) -/

theorem State.Inv.noteLate {k c} (h : s.Inv) : (s.noteLate k c).Inv := inv_ite h.putCtx.raise h.putCtx

theorem State.Inv.proceedWait {k l c x w target} (h : s.Inv) : (proceedWait s k l c x w target).Inv := by
  unfold Machine.proceedWait
  split
  · dsimp only
    split
    exacts [h.spend.putCtx, h.spend]
  · dsimp only
    split
    exacts [h.spend.putCtx, inv_ite h.spend.noteLate h.spend.putCtx]

theorem State.Inv.waitStStart {k l c x} (h : s.Inv) : (waitStStart s k l c x).Inv := by
  unfold Machine.waitStStart
  split
  exacts [h, inv_ite (inv_ite h.spend.putCtx (inv_ite h.proceedWait (inv_ite h h.spend.putCtx))) h]

theorem execSeqWaitSt_keeps {k l} (h : s.Inv) : (execSeqWaitSt k l s).Keeps := withCore_keeps h fun _ _ => inv_ite h.waitStStart h

theorem execStTargetReached_keeps {k l} (h : s.Inv) : (execStTargetReached k l s).Keeps := by
  unfold Machine.execStTargetReached
  refine withCore_keeps h fun _ _ => ?_
  split
  exacts [inv_ite h.proceedWait h, h]

/-! ## Check and gate rows (R144, R145) -/

theorem State.Inv.sendVote {k l x c} (h : s.Inv) : (sendVote s k l x c).Inv := by
  unfold Machine.sendVote
  split
  exacts [h.putCtx, inv_ite h.putCtx.setStep (inv_ite h.putCtx h.putCtx.setStep.tryGate)]

theorem execGtVote_keeps {k l shadow} (h : s.Inv) : (execGtVote k l shadow s).Keeps := seqRowWith_keeps h fun _ _ _ _ _ h => h.sendVote

theorem State.Inv.noteWait {k l x c} (h : s.Inv) : (noteWait s k l x c).Inv := by
  unfold Machine.noteWait
  split
  exacts [h.putCtx, h.putCtx.setStep]

theorem execGtWait_keeps {k l} (h : s.Inv) : (execGtWait k l s).Keeps := seqRowWith_keeps h fun _ _ _ _ _ h => h.noteWait

/-! ## Wadi-queue and ripple-port rows, dispatch, completion, watches and wait limits -/

theorem withQueue_keeps {q o} (h : Out.Keeps o) : (withQueue q o).Keeps := keeps_ite (keeps_fault _) h

/-! ## Dispatch and completion -/

theorem execSequencerDispatch_keeps {k l} (h : s.Inv) : (execSequencerDispatch k l s).Keeps := by
  unfold Machine.execSequencerDispatch
  refine withCore_keeps h fun _ _ => ?_
  split
  exacts [h, inv_ite h.putCtx h]

theorem execInstructionCompletion_keeps {k l engine shadow} (h : s.Inv) : (execInstructionCompletion k l engine shadow s).Keeps := by
  refine keeps_ite (withCore_keeps h fun c x => inv_ite ?_ h) (keeps_fault _)
  split
  exacts [h, inv_ite h h.putCtx]

theorem execWatchFire_keeps {k l q i} (h : s.Inv) : (execWatchFire k l q i s).Keeps := by
  unfold Machine.execWatchFire
  refine withQueue_keeps ?_
  refine withCore_keeps h fun _ _ => ?_
  refine inv_ite ?_ h
  split
  exacts [h, h.putCtx]

/-! ## Wait limits (05 R127) -/

theorem execWaitLimitExpiry_keeps {k l engine watch} (h : s.Inv) : (execWaitLimitExpiry k l engine watch s).Keeps := by
  refine keeps_ite (withCore_keeps h fun c x => inv_ite ?_ h) (keeps_fault _)
  dsimp only
  split
  exacts [h, h.putCtx]

/-! ## Captures (14 R385 to R388) -/

theorem State.Inv.capture {k cause tag opcode resetKind} (h : s.Inv) : (s.capture k cause tag opcode resetKind).Inv := by
  unfold State.capture
  split
  exacts [h, h.store.frame]

/-! ## Closing (13 R378 steps 1 and 2) -/

theorem State.Inv.tellJob {c bytes} (h : s.Inv) : (s.tellJob c bytes).Inv := inv_foldl h fun _ _ h => h.postTo

theorem State.Inv.abortColls {k c again} (h : s.Inv) : (s.abortColls k c again).Inv := inv_foldl h.frame fun _ _ h => h.tellJob

theorem State.Inv.endSamples {k} (h : s.Inv) : (s.endSamples k).Inv := h.frame

theorem State.Inv.beginClose {k} (h : s.Inv) : (s.beginClose k).Inv := by
  unfold State.beginClose
  split
  exacts [h, inv_ite h h.abortColls.frame]

theorem State.Inv.completeAll {ids code} (h : s.Inv) : (s.completeAll ids code).Inv := inv_foldl h fun _ _ h => h.complete

/-! ## Death by a fault or by poison (05 R147, 11 R332) -/

theorem State.Inv.tellFailures {k c poison} (h : s.Inv) : (tellFailures s k c poison).Inv := inv_foldl h fun _ _ h => h.tellFailure

theorem State.Inv.die {k c code cause tail} (h : s.Inv) : (s.die k c code cause tail).Inv :=
  ((State.Inv.completeAll (inv_foldl h.capture.raise fun _ _ h => h.complete)).tellFailures).beginClose

theorem State.Inv.stopContext {k c} (h : s.Inv) : (stopContext s k c).Inv := inv_ite (inv_ite h.die h.die) h

theorem execContextFaultStop_keeps {k} (h : s.Inv) : (execContextFaultStop k s).Keeps := withCtx_keeps h fun _ => h.stopContext

/-! ## Quiescence (13 R378 steps 3 and 4) -/

theorem State.Inv.release {k} (h : s.Inv) : (s.release k).Inv := h.frame

theorem execTeardownQuiescence_keeps {k} (h : s.Inv) : (execTeardownQuiescence k s).Keeps := by
  unfold Machine.execTeardownQuiescence
  refine withCtx_keeps h fun _ => ?_
  refine inv_ite ?_ h
  split
  exacts [h.release, h.release.complete]

/-! ## Launches of sends (07 R184, R189, R190) -/

theorem State.Inv.launchCtx {k} (h : s.Inv) : (launchCtx s k).Inv := by
  unfold Machine.launchCtx
  split
  · exact h
  · refine inv_foldl h.putCtx fun t y h => ?_
    exact State.Inv.updCtx h.frame

theorem State.Inv.forward (h : s.Inv) : s.forward.Inv := h.frame

/-! ## Ripple boundaries (01 R22, 07 R184, R185) -/

theorem execRippleBoundary_keeps {owners} (h : s.Inv) : (execRippleBoundary owners s).Keeps := by
  refine keeps_next (inv_ite h (inv_ite h.frame (State.Inv.frame (s := List.foldl Machine.launchCtx _ _) ?_)))
  exact inv_foldl h.frame fun _ _ h => h.launchCtx

/-! ## Packets that arrive (07 R192) -/

theorem State.Inv.dropCount {die} (h : s.Inv) : (s.dropCount die).Inv := h.frame

theorem State.Inv.suspectSender {k l} (h : s.Inv) : (s.suspectSender k l).Inv := by
  unfold State.suspectSender
  split
  exacts [h, h.report]

theorem State.Inv.landPacket {p} (h : s.Inv) : (s.landPacket p).Inv := h.frame

theorem State.Inv.discardPacket {p} (h : s.Inv) : (s.discardPacket p).Inv := h.frame

theorem State.Inv.landLost {p} (h : s.Inv) : (s.landLost p).Inv := State.Inv.landPacket (inv_foldl h fun _ _ h => h.atHome)

theorem State.Inv.arriveRipple {p err} (h : s.Inv) : (arriveRipple s p err).Inv := by
  refine inv_ite h.frame.landLost ?_
  split
  · dsimp only
    split
    exacts [h.frame.dropCount.landLost.report, h.frame.dropCount.landLost.report]
  · split
    · exact h.frame.discardPacket
    · exact inv_ite h.frame.discardPacket.suspectSender
        (State.Inv.landPacket (inv_foldl (inv_ite h.frame h.frame.spend) fun _ _ h => h.atHome))

/-! ## Requests and their transfers -/

theorem State.Inv.dropRequest {id} (h : s.Inv) : (s.dropRequest id).Inv := h.frame

theorem State.Inv.endRequest {r} (h : s.Inv) : (s.endRequest r).Inv := by
  unfold State.endRequest
  dsimp only
  split
  exacts [h.dropRequest, h.dropRequest.putCtx]

theorem State.Inv.putRequest {r} (h : s.Inv) : (s.putRequest r).Inv := h.frame

theorem State.Inv.storeOffsets {a os bytes ps} (h : s.Inv) : (s.storeOffsets a os bytes ps).Inv := by
  induction os generalizing s bytes ps with
  | nil => exact h
  | cons o os ih =>
    cases ps with
    | nil => exact h
    | cons p ps => exact ih h.storePart

theorem State.Inv.finishRead {r} (h : s.Inv) : (s.finishRead r).Inv := by
  unfold State.finishRead
  dsimp only
  split
  · exact h.endRequest.dropCount
  · refine inv_ite h.endRequest.dropCount ?_
    split
    exacts [h.endRequest, inv_ite h.endRequest h.endRequest.putCtx]

/-! ## Endpoints (R199, R203, R213, 08 R226, R227) -/

theorem State.Inv.windowWrite {r bus} (h : s.Inv) : (Machine.hostWrite s r bus).Inv := by
  unfold Machine.hostWrite
  dsimp only
  split
  exacts [h.endRequest.busWrite, h.endRequest.updCtx.busWrite]

theorem State.Inv.peerRequest {r c rank flow remote} (h : s.Inv) : (peerRequest s r c rank flow remote).Inv := h.frame.addReady

theorem State.Inv.answerRead {r bytes poison} (h : s.Inv) : (s.answerRead r bytes poison).Inv := h.frame

theorem State.Inv.answerPoison {r} (h : s.Inv) : (s.answerPoison r).Inv := h.frame

theorem State.Inv.endPeer {r rank} (h : s.Inv) : (s.endPeer r rank).Inv := inv_ite h.endRequest.raise h.answerPoison

theorem State.Inv.atHub {r} (h : s.Inv) : (s.atHub r).Inv := by
  unfold State.atHub
  split
  exacts [inv_ite h.windowWrite h, inv_ite h.endPeer h.peerRequest, h]

/-! ## Lost transfers (R203) -/

/-- A choice by an optional value keeps the standing properties where both sides have them. -/
theorem inv_elim {α : Type} {o : Option α} {f : α → State} (h : s.Inv) (hf : ∀ x, (f x).Inv) : (o.elim s f).Inv := by
  cases o
  exacts [h, hf _]

theorem State.Inv.poisonWrite {r} (h : s.Inv) : (s.poisonWrite r).Inv := by
  unfold State.poisonWrite
  split
  exacts [h.storeOffsets.endRequest, h.storeOffsets.endRequest, h.windowWrite, inv_elim h.endRequest fun _ => h.peerRequest, h.endRequest]

theorem State.Inv.poisonRequest {r} (h : s.Inv) : (s.poisonRequest r).Inv := inv_ite h.poisonWrite h.finishRead

/-! ## Issue (R199, R203) -/

theorem State.Inv.enterSpan {k l q c x d rs} (h : s.Inv) : (s.enterSpan k l q c x d rs).Inv := h.frame

theorem State.Inv.enterRest {n r} (h : s.Inv) : (State.enterRest n s r).Inv := by
  induction n generalizing s with
  | zero => exact h
  | succ n ih =>
    unfold State.enterRest
    split
    · exact h
    · split
      exacts [h, ih h.enterSpan]

theorem State.Inv.loseTransfer {r name} (h : s.Inv) : (s.loseTransfer r name).Inv :=
  State.Inv.raise (inv_foldl h.enterRest fun _ _ h => h.poisonRequest)

theorem State.Inv.startRequest {r} (h : s.Inv) : (s.startRequest r).Inv := by
  unfold State.startRequest
  refine inv_ite (inv_ite h.endRequest h.putRequest) ?_
  split
  exacts [h.putRequest, h.loseTransfer]

theorem State.Inv.issueSpan {k l q c x d sp} (h : s.Inv) : (issueSpan s k l q c x d sp).Inv := by
  unfold Machine.issueSpan
  refine inv_ite h.putCtx ?_
  refine inv_foldl h.enterSpan fun _ _ h => ?_
  split
  exacts [h, h.startRequest]

/-! ## Packets that arrive (R191, R192) -/

theorem State.Inv.landed {r} (h : s.Inv) : (s.landed r).Inv := by
  unfold State.landed
  refine inv_ite h ?_
  split
  exacts [h, h, h.atHub]

theorem State.Inv.arriveMemory {r hop err} (h : s.Inv) : (arriveMemory s r hop err).Inv := by
  unfold Machine.arriveMemory
  split
  · dsimp only
    split
    · exact h.frame.dropCount.report.loseTransfer
    · split
      exacts [h.frame.dropRequest.dropCount, inv_ite h.frame.dropCount.suspectSender.loseTransfer h.frame.putRequest.landed]
  · dsimp only
    split
    · exact h.frame.dropCount.report.loseTransfer
    · split
      · exact h.frame.dropRequest.dropCount
      · exact inv_ite h.frame.dropCount.suspectSender.loseTransfer h.frame.spend.putRequest.landed

theorem execOnDiePacketArrival_keeps {memoryPlane i err} (h : s.Inv) : (execOnDiePacketArrival memoryPlane i err s).Keeps := by
  unfold Machine.execOnDiePacketArrival
  refine keeps_next ?_
  refine inv_ite ?_ ?_
  · split
    · exact h
    · split
      exacts [h, h.arriveMemory]
  · split
    exacts [h, h.arriveRipple]

/-! ## Queue rows (R198 to R200) -/

theorem State.Inv.readStruck {k l c x errs rs} (h : s.Inv) : (s.readStruck k l c x errs rs).1.Inv := h.foundErrors.frame

theorem execWadiDescriptorStart_keeps {k l q errs} (h : s.Inv) : (execWadiDescriptorStart k l q errs s).Keeps := by
  refine withQueue_keeps (withCore_keeps h fun c x => inv_ite ?_ h)
  split
  exacts [h, h.foundErrors.putCtx]

theorem execWadiRequestIssue_keeps {k l q errs shadow} (h : s.Inv) : (execWadiRequestIssue k l q errs shadow s).Keeps := by
  refine withQueue_keeps (withCore_keeps h fun c x => ?_)
  split
  · exact h
  · split
    exacts [h, inv_ite (inv_ite h h.foundErrors.issueSpan) h]

theorem execWadiDescriptorCompletion_keeps {k l q} (h : s.Inv) : (execWadiDescriptorCompletion k l q s).Keeps := by
  unfold Machine.execWadiDescriptorCompletion
  refine withQueue_keeps ?_
  refine withCore_keeps h fun _ _ => ?_
  refine inv_ite h ?_
  split
  exacts [h.putCtx, h]

/-! ## Retirement (07 R209) -/

theorem State.Inv.degrade {code} (h : s.Inv) : (s.degrade code).Inv := h.frame

theorem State.Inv.undegrade {code} (h : s.Inv) : (s.undegrade code).Inv := h.frame

theorem State.Inv.retireEntry {key} (h : s.Inv) : (s.retireEntry key).Inv := by
  unfold State.retireEntry
  split
  · exact h
  · split
    exacts [h, h.setSuspect]

theorem State.Inv.retirePc {die pc} (h : s.Inv) : (s.retirePc die pc).Inv := by
  obtain ⟨⟨bytes, poison, rewritten⟩, log⟩ := h
  have h : s.Inv := ⟨⟨bytes, poison, rewritten⟩, log⟩
  exact inv_ite h (inv_ite h.raise (State.Inv.raise (State.Inv.degrade (State.Inv.retireEntry ⟨⟨bytes, poison, wf_filter _ _ rewritten⟩, log⟩))))

/-! ## Errors of a granule (07 R203, R206, R210) -/

theorem State.Inv.countUe {die} (h : s.Inv) : ({ s with mem := s.mem.countUe die } : State).Inv := by
  cases die <;> exact h.frame

theorem State.Inv.updRow {d pc row f} (h : s.Inv) : ({ s with mem := s.mem.updRow d pc row f } : State).Inv := by
  refine h.frame ?_ ?_ ?_
  all_goals
    dsimp only [Mem.updRow]
    split <;> rfl

theorem State.Inv.uncorrectable {a} (h : s.Inv) : (s.uncorrectable a).Inv := by
  have struck := (h.countUe (die := dieOf a)).storePart (a := a / 64 * 64) (bytes := zeros 64) (p := true)
  have reported := struck.report (key := s.memKey a) (cause := 0x0B) (rep := {})
  unfold State.uncorrectable
  dsimp only
  split
  · exact reported
  · exact inv_ite (State.Inv.retirePc reported.updRow.frame) reported.updRow.frame

theorem State.Inv.countCe {die} (h : s.Inv) : ({ s with mem := s.mem.countCe die } : State).Inv := by
  cases die <;> exact h.frame

theorem State.Inv.readGranule {a f} (h : s.Inv) : (s.readGranule a f).1.Inv := by
  unfold State.readGranule
  split
  · exact h
  · dsimp only
    split
    exacts [h, h.countCe, h.uncorrectable, h.spend]

theorem State.Inv.readGranules {l} (h : s.Inv) : (s.readGranules l).1.Inv := by
  induction l generalizing s with
  | nil => exact h
  | cons x l ih => exact ih h.readGranule

theorem State.Inv.noteRows {rows} (h : s.Inv) : (s.noteRows rows).Inv := inv_foldl h fun _ _ h => h.updRow

theorem State.Inv.readAccess {addrs errs} (h : s.Inv) : (s.readAccess addrs errs).1.Inv := h.readGranules.noteRows

/-! ## Commands -/

theorem State.Inv.serve {r errs} (h : s.Inv) : (serve s r errs).Inv := inv_ite h.storeOffsets.endRequest h.readAccess.frame

theorem execMemoryRequest_keeps {i errs} (h : s.Inv) : (execMemoryRequest i errs s).Keeps := by
  unfold Machine.execMemoryRequest
  refine keeps_next ?_
  split
  exacts [h, inv_ite h h.serve]

theorem execWadiDataArrival_keeps {i} (h : s.Inv) : (execWadiDataArrival i s).Keeps := by
  unfold Machine.execWadiDataArrival
  refine keeps_next ?_
  split
  exacts [h, inv_ite h.finishRead h]

theorem execWadiResponseTimeout_keeps {i} (h : s.Inv) : (execWadiResponseTimeout i s).Keeps := by
  unfold Machine.execWadiResponseTimeout
  refine keeps_next ?_
  split
  exacts [h, inv_ite h.loseTransfer h]

theorem execHostReadCompletion_keeps {i status data} (h : s.Inv) : (execHostReadCompletion i status data s).Keeps := by
  unfold Machine.execHostReadCompletion
  refine keeps_next ?_
  split
  · exact h
  · split
    · refine inv_ite h ?_
      split
      exacts [h.answerRead, h.answerPoison]
    · exact h

theorem execMemoryRefresh_keeps {far unit bank} (h : s.Inv) : (execMemoryRefresh far unit bank s).Keeps := withUnit_keeps h.frame

theorem execPatrolScrub_keeps {addr err} (h : s.Inv) : (execPatrolScrub addr err s).Keeps := by
  refine keeps_next ?_
  split
  exacts [inv_ite h h.readAccess, h.readAccess, h]

theorem execRowRepair_keeps {die pc row} (h : s.Inv) : (execRowRepair die pc row s).Keeps := by
  refine withUnit_keeps ?_
  split
  exacts [h, inv_ite (inv_ite (State.Inv.raise h.frame) (State.Inv.retirePc h.frame)) h]

theorem execDataMoveComplete_keeps {die} (h : s.Inv) : (execDataMoveComplete die s).Keeps := withUnit_keeps h.frame

theorem execStackTemperatureRead_keeps {stack celsius} (h : s.Inv) : (execStackTemperatureRead stack celsius s).Keeps :=
  withUnit_keeps (inv_ite h.frame.raise h.frame)

end

end Sys2Proof.Machine

/-! PROOFS. Standing properties over the module (07 R204, 12 R350): Seif ports, System Time, collectives, program starts, spares, the schedule and checks. -/

namespace Sys2Proof.Machine

set_option Elab.async false

section
variable {s : State}

/-! ## Collectives and ranks that end (R246, R247) -/

theorem State.Inv.endColl {k again} (h : s.Inv) : (s.endColl k again).Inv := by
  unfold State.endColl
  split
  · dsimp only
    split
    exacts [h.frame, inv_foldl h.frame fun _ _ h => h.onStep fun _ _ => h.failStep]
  · dsimp only
    split
    exacts [h.frame, inv_foldl h.frame fun _ _ h => h.onStep fun _ _ => h.loseStep]

theorem State.Inv.failColl {k again} (h : s.Inv) : (s.failColl k again).Inv := by
  unfold State.failColl
  split
  exacts [h, h.abortColls.endColl]

theorem State.Inv.endPeers {job rank} (h : s.Inv) : (s.endPeers job rank).Inv := by
  unfold State.endPeers
  refine inv_foldl h.frame fun _ _ h => ?_
  refine inv_ite ?_ ?_
  · refine State.Inv.raise ?_
    split
    exacts [h, inv_ite h.endRequest h.answerPoison]
  · split
    exacts [h, inv_ite h.endRequest h.answerPoison]

theorem State.Inv.rankDeparts {job rank} (h : s.Inv) : (s.rankDeparts job rank).Inv := by
  unfold State.rankDeparts
  split
  · refine inv_ite h ?_
    refine State.Inv.endPeers ?_
    refine inv_foldl h.frame fun _ _ h => ?_
    split
    exacts [h, inv_foldl h.abortColls fun _ _ h => h.onStep fun _ _ => h.loseStep]
  · exact h

/-! ## Routes (R226, R247) -/

theorem State.Inv.recomputeRoutes (h : s.Inv) : s.recomputeRoutes.Inv := h.frame.pumpAll

/-! ## Claims (R223) -/

theorem State.Inv.seeClaim {job rank modules serial port} (h : s.Inv) : (s.seeClaim job rank modules serial port).Inv := by
  unfold State.seeClaim
  split
  exacts [inv_ite h h.frame, inv_ite h.frame.raise h.frame]

theorem State.Inv.withdrawClaims {p d} (h : s.Inv) : (s.withdrawClaims p d).Inv :=
  inv_foldl h.frame fun _ _ h => (inv_ite h h.rankDeparts).frame

/-! ## The time tree (R231, R232) -/

theorem State.Inv.elect (h : s.Inv) : s.elect.Inv := inv_ite (State.Inv.raise (inv_ite h.frame h.frame)) (inv_ite h.frame h.frame)

theorem State.Inv.reparent (h : s.Inv) : s.reparent.Inv := h.frame

/-! ## Partners and ports that go down (R222, R249) -/

theorem State.Inv.unsee {p} (h : s.Inv) : (s.unsee p).Inv := h.frame

theorem State.Inv.partnerDeparts {p} (h : s.Inv) : (s.partnerDeparts p).Inv := by
  unfold State.partnerDeparts
  dsimp only
  split
  exacts [h, State.Inv.raise (inv_ite h.putPort.unsee.recomputeRoutes.reparent h.putPort.unsee.recomputeRoutes)]

theorem State.Inv.portDown {p state} (h : s.Inv) : (s.portDown p state).Inv := h.partnerDeparts.putPort.recomputeRoutes

theorem State.Inv.portOut {p} (h : s.Inv) : (s.portOut p).Inv := ((inv_foldl h.portDown.reportPort fun _ _ h => h.complete).frame).raise

theorem State.Inv.portReset {p cause cmd} (h : s.Inv) : (s.portReset p cause cmd).Inv := by
  unfold State.portReset
  extract_lets down port anew r
  have trained : anew.Inv := State.Inv.putPort h.portDown
  exact inv_ite trained.frame (inv_ite trained trained.frame)

theorem State.Inv.retrain {p} (h : s.Inv) : (s.retrain p).Inv := h.portReset.raise

/-! ## Acknowledgement (R217) -/

theorem State.Inv.takeAck {p f} (h : s.Inv) : (s.takeAck p f).Inv := inv_ite h (inv_ite (inv_ite h.putPort.retrain h.frame) h.putPort)

theorem State.Inv.receive {p typ fec x} {f : State → State} (h : s.Inv) (hf : ∀ t, t.Inv → (f t).Inv) : (s.receive p typ fec x f).Inv := by
  refine inv_ite h ?_
  split
  exacts [h.putPort, inv_ite (hf _ h.putPort.takeAck) h.putPort]

theorem execDataFrameReceive_keeps {p fec frame} (h : s.Inv) : (execDataFrameReceive p fec frame s).Keeps := by
  unfold Machine.execDataFrameReceive
  refine withPort_keeps fun _ => ?_
  refine inv_ite h ?_
  refine h.receive fun _ h => ?_
  refine inv_ite h ?_
  refine inv_ite ?_ h.putPort
  split
  exacts [h.putPort, inv_ite h.putPort.spareIn h.putPort]

theorem execControlFrameReceive_keeps {p fec frame} (h : s.Inv) : (execControlFrameReceive p fec frame s).Keeps :=
  withPort_keeps fun _ => h.receive fun _ h => h.putPort

theorem execIdleFrameReceive_keeps {p fec frame} (h : s.Inv) : (execIdleFrameReceive p fec frame s).Keeps :=
  withPort_keeps fun _ => h.receive fun _ h => h.frame

theorem execAckTimeout_keeps {p} (h : s.Inv) : (execAckTimeout p s).Keeps := withPort_keeps fun _ => inv_ite h.retrain h

/-! ## Training (R218, R219) -/

theorem execPortTraining_keeps {p} (h : s.Inv) : (execPortTraining p s).Keeps := withPort_keeps fun _ => inv_ite h.putPort h

theorem execTrainingRateFallback_keeps {p} (h : s.Inv) : (execTrainingRateFallback p s).Keeps :=
  withPort_keeps fun _ => inv_ite h.putPort h

theorem execLaneQualification_keeps {p bad} (h : s.Inv) : (execLaneQualification p bad s).Keeps := by
  unfold Machine.execLaneQualification
  refine withPort_keeps fun _ => ?_
  refine inv_ite h ?_
  split
  exacts [h.putPort, h.putPort, inv_ite h.portOut h.putPort]

theorem execLaneErrorThreshold_keeps {p lane} (h : s.Inv) : (execLaneErrorThreshold p lane s).Keeps :=
  withPort_keeps fun _ => inv_ite h (inv_ite h.reportPort.portReset h.reportPort.post.updPort)

theorem withMessage_keeps {p typ} {f : State → List Byte → State} (h : s.Inv) (hf : ∀ t m, t.Inv → (f t m).Inv) : (withMessage p typ s f).Keeps := by
  refine withPort_keeps fun x => ?_
  split
  exacts [h, hf _ _ h.putPort]

theorem execLaneSwap_keeps {p} (h : s.Inv) : (execLaneSwap p s).Keeps :=
  withMessage_keeps h fun _ _ h => inv_ite h (inv_ite h.spareIn h.putPort)

/-! ## Discovery (R220 to R223) -/

theorem State.Inv.discover {p d} (h : s.Inv) : (s.discover p d).Inv := by
  unfold State.discover
  extract_lets old known x _ v joined ported withdrawn claimed routed told
  have known_inv : known.Inv := by
    unfold known old
    split
    exacts [h, inv_ite h h.partnerDeparts]
  refine inv_ite known_inv.putPort ?_
  have claimed_inv : claimed.Inv := inv_foldl known_inv.putPort.withdrawClaims fun _ _ h => h.seeClaim
  have told_inv : told.Inv := inv_ite claimed_inv.recomputeRoutes.raise claimed_inv.recomputeRoutes
  exact inv_ite told_inv.raise told_inv

theorem execDiscoveryFrameReceive_keeps {p fec frame} (h : s.Inv) : (execDiscoveryFrameReceive p fec frame s).Keeps :=
  withPort_keeps fun _ => h.receive fun _ h => inv_ite h (inv_ite h.discover h)

theorem execDiscoveryFrameSend_keeps {p} (h : s.Inv) : (execDiscoveryFrameSend p s).Keeps :=
  withPort_keeps fun _ => inv_ite h.sendControl h

theorem execControlFrameSend_keeps {p} (h : s.Inv) : (execControlFrameSend p s).Keeps :=
  withPort_keeps fun _ => inv_ite (((State.Inv.sendRelays (inv_ite h.elect h)).putPort).sendControl) h

theorem execPartnerSilenceTimeout_keeps {p} (h : s.Inv) : (execPartnerSilenceTimeout p s).Keeps :=
  withPort_keeps fun _ => inv_ite h.partnerDeparts.putPort h

theorem execDepartureNotice_keeps {p} (h : s.Inv) : (execDepartureNotice p s).Keeps := by
  unfold Machine.execDepartureNotice
  refine withMessage_keeps h fun _ _ h => ?_
  split
  exacts [h, inv_foldl h.partnerDeparts.putPort fun _ _ h => h.rankDeparts]

theorem execRouteAbsenceTimeout_keeps {job rank} (h : s.Inv) : (execRouteAbsenceTimeout job rank s).Keeps := by
  unfold Machine.execRouteAbsenceTimeout
  refine keeps_next ?_
  split
  exacts [h, inv_ite (State.Inv.rankDeparts (inv_ite h h.frame)) h]

theorem execManagementRelay_keeps {p} (h : s.Inv) : (execManagementRelay p s).Keeps :=
  withMessage_keeps h fun _ _ h =>
    have heard := inv_ite h.rankDeparts (inv_ite h.seeClaim.recomputeRoutes h)
    inv_ite (inv_ite (State.Inv.reportN heard) heard) (State.Inv.postTo heard)

/-! ## Headers (R224) -/

theorem State.Inv.dropSeif {p} (h : s.Inv) : (s.dropSeif p).Inv := h.frame

/-! ## Wait histograms (R237) -/

theorem State.Inv.histogram {c p rank arrived} (h : s.Inv) : (s.histogram c p rank arrived).Inv := by
  unfold State.histogram
  refine inv_ite h ?_
  dsimp only
  exact h.spend.store.store

/-! ## Delivery (R225 to R227) -/

theorem State.Inv.chargeMismatch {k c st} (h : s.Inv) : (chargeMismatch s k c st).Inv := inv_ite h.chargeRank.chargeRank h

theorem State.Inv.controlWrite {k a bytes} (h : s.Inv) : (s.controlWrite k a bytes).Inv := by
  unfold State.controlWrite
  split
  · exact h
  · split
    · exact h
    · exact inv_ite (inv_foldl h fun _ _ h => h.onStep fun _ _ => h.chargeMismatch.setStep.tryPrepare) (inv_ite h.putCtx h)

theorem State.Inv.deliverColl {p k x} (h : s.Inv) : (deliverColl s p k x).Inv := by
  unfold Machine.deliverColl
  dsimp only
  split
  exacts [h.dropSeif.suspectRank, inv_ite h.dropSeif.suspectRank h.frame]

theorem State.Inv.deliverWrite {p k c x} (h : s.Inv) : (deliverWrite s p k c x).Inv :=
  inv_ite h.deliverColl.postTo (inv_ite h.storeGranules.postTo.controlWrite h.dropSeif.suspectRank)

theorem State.Inv.deliverRead {k c x} (h : s.Inv) : (deliverRead s k c x).Inv := inv_ite h.spend.ready h.spend.ready.suspectRank

theorem State.Inv.deliverData {x} (h : s.Inv) : (deliverData s x).Inv := by
  unfold Machine.deliverData
  split
  · exact h
  · dsimp only
    split
    exacts [h.frame, h.frame.answerRead]

theorem State.Inv.deliverPacket {p k arrived c x} (h : s.Inv) : (deliverPacket s p k arrived c x).Inv := by
  unfold Machine.deliverPacket
  split
  exacts [h.histogram.deliverWrite, h.histogram.deliverRead, h.histogram.deliverData, h.histogram.deliverColl]

theorem State.Inv.packetChecks {p arrived b} (h : s.Inv) : (packetChecks s p arrived b).Inv := by
  unfold Machine.packetChecks
  refine inv_ite h.dropSeif.reportPort ?_
  refine inv_ite h.dropSeif.suspectRank ?_
  refine inv_ite h.dropSeif ?_
  split
  · refine inv_ite h.deliverPacket ?_
    split
    exacts [h.ready, h.dropSeif.raise]
  · refine inv_ite ?_ h.dropSeif
    split
    exacts [h.addReady, h.dropSeif.raise]

theorem execSeifPacketArrival_keeps {p} (h : s.Inv) : (execSeifPacketArrival p s).Keeps :=
  withPort_keeps fun _ => inv_ite h.putPort.packetChecks.frame h

/-! ## Acknowledgements of peer writes (R227) -/

theorem State.Inv.acknowledged {tag} (h : s.Inv) : (s.acknowledged tag).Inv := by
  unfold State.acknowledged
  split
  · exact h
  · split
    · dsimp only
      split
      exacts [h.frame, h.frame.endRequest]
    · dsimp only
      split
      exacts [h.frame, inv_foldl h.frame fun _ _ h => h.onStep fun _ _ => inv_ite h.setStep.tryGate (inv_ite h.setStep h)]

theorem State.Inv.forMe {m} {f : State → State} (h : s.Inv) (hf : (f s).Inv) : (forMe s m f).Inv := inv_ite hf h.postTo

theorem execWriteAcknowledgement_keeps {p} (h : s.Inv) : (execWriteAcknowledgement p s).Keeps :=
  withMessage_keeps h fun _ _ h => h.forMe h.acknowledged

theorem execPeerWriteTimeout_keeps {tag} (h : s.Inv) : (execPeerWriteTimeout tag s).Keeps := by
  unfold Machine.execPeerWriteTimeout
  refine keeps_next ?_
  split
  · exact h
  · refine inv_ite ?_ h
    refine State.Inv.raise ?_
    split
    exacts [h.frame, h.frame.endRequest]

/-! ## Link windows (R234 to R236) -/

theorem execLinkWindowOpen_keeps {k i} (h : s.Inv) : (execLinkWindowOpen k i s).Keeps := by
  refine withCtx_keeps h fun c => inv_ite h ?_
  dsimp only
  split
  exacts [h, h.frame.pump]

theorem execLinkWindowClose_keeps {k i} (h : s.Inv) : (execLinkWindowClose k i s).Keeps := by
  unfold Machine.execLinkWindowClose
  refine withCtx_keeps h fun _ => ?_
  split
  exacts [h, inv_ite h (State.Inv.pumpLoose (inv_ite h.frame.noteLate h.frame))]

/-! ## System Time -/

theorem State.Inv.steer {theta} (h : s.Inv) : (s.steer theta).Inv := inv_ite h.frame h.frame.spend

theorem execTimestamp_keeps {p} (h : s.Inv) : (execTimestamp p s).Keeps :=
  withMessage_keeps h fun _ _ h => inv_ite h.putPort.steer h.putPort

theorem execGrandmasterAnnouncement_keeps {p} (h : s.Inv) : (execGrandmasterAnnouncement p s).Keeps :=
  withMessage_keeps h fun _ _ h => inv_ite h.putPort.elect.frame h.putPort.elect

theorem execHoldoverEntry_keeps (h : s.Inv) : (execHoldoverEntry s).Keeps := keeps_next (inv_ite h.frame.raise h)

theorem execHoldoverLimit_keeps (h : s.Inv) : (execHoldoverLimit s).Keeps := by
  unfold Machine.execHoldoverLimit
  refine keeps_next ?_
  split
  exacts [h, inv_ite h.frame.raise h]

theorem State.Inv.setRefs {pps ten} (h : s.Inv) : (s.setRefs pps ten).Inv :=
  inv_ite (inv_ite h.frame.raise h.frame) (State.Inv.elect (inv_ite h.frame.raise h.frame))

theorem State.Inv.rejectPps (h : s.Inv) : s.rejectPps.Inv := inv_ite h.frame.setRefs h.frame

theorem State.Inv.alignPps (h : s.Inv) : s.alignPps.Inv := inv_ite h (inv_ite h.frame h.frame.spend)

theorem execTrefPpsEdge_keeps {highNs} (h : s.Inv) : (execTrefPpsEdge highNs s).Keeps :=
  keeps_next (inv_ite h (inv_ite h.rejectPps (inv_ite (inv_ite h.rejectPps h.frame.alignPps) (inv_ite h.frame.setRefs.alignPps h.frame))))

theorem execTref10mDeviation_keeps (h : s.Inv) : (execTref10mDeviation s).Keeps := keeps_next (inv_ite h.setRefs h)

theorem execTref10mAmplitudeLoss_keeps (h : s.Inv) : (execTref10mAmplitudeLoss s).Keeps := keeps_next (inv_ite h.frame.setRefs h.frame)

theorem execTref10mRecovery_keeps (h : s.Inv) : (execTref10mRecovery s).Keeps := keeps_next h.frame.setRefs

/-! ## Payloads: dense elements, scales after them (log 52), taken from rank-1 tensors in the blocked layout (03 R74) -/

theorem State.Inv.writeParts {ps bytes} (h : s.Inv) : (s.writeParts ps bytes).Inv := by
  induction ps generalizing s bytes with
  | nil => exact h
  | cons p ps ih => exact ih h.store

/-! ## Sending -/

theorem State.Inv.contribute {k c x kind chunk src seg dest bytes} (h : s.Inv) : (s.contribute k c x kind chunk src seg dest bytes).Inv :=
  h.frame.ready

theorem State.Inv.setColl {x} (h : s.Inv) : (s.setColl x).Inv := h.frame

theorem State.Inv.putResult {c x j bytes ev} (h : s.Inv) : (putResult s c x j bytes ev).Inv := h.writeParts.setColl

theorem State.Inv.putMoved {x f j bytes} (h : s.Inv) : (putMoved s x f j bytes).Inv := h.writeParts.setColl

theorem State.Inv.tryChunk {k c id j} (h : s.Inv) : (tryChunk s k c id j).Inv := by
  unfold Machine.tryChunk
  split
  · exact h
  · dsimp only
    split
    · exact h
    · refine inv_ite h ?_
      split
      exacts [h.putCtx, inv_ite (inv_foldl h.putResult fun _ _ h => h.contribute) h.putResult]

theorem State.Inv.addLeaf {k c x j g bytes} (h : s.Inv) : (addLeaf s k c x j g bytes).Inv := by
  unfold Machine.addLeaf
  refine inv_ite h ?_
  split
  exacts [h, h.store.setColl.tryChunk]

theorem State.Inv.contributeChunk {k c id j} (h : s.Inv) : (contributeChunk s k c id j).Inv := by
  unfold Machine.contributeChunk
  split
  · exact h
  · dsimp only
    split
    · exact h
    · exact inv_ite (inv_ite h.tryChunk (inv_foldl h fun _ _ h => h.contribute)) (inv_ite (inv_foldl h.putMoved fun _ _ h => h.contribute) h)

theorem State.Inv.refuseColl {k code c} (h : s.Inv) : (refuseColl s k code c).Inv := inv_foldl h fun _ _ h => h.onStep fun _ _ => h.giveUp

theorem execCollectiveStart_keeps {k desc} (h : s.Inv) : (execCollectiveStart k desc s).Keeps := by
  unfold Machine.execCollectiveStart
  refine withCtx_keeps h fun _ => ?_
  dsimp only
  split
  · exact h.refuseColl
  · refine inv_ite h ?_
    split
    exacts [h.refuseColl, h.putCtx, inv_foldl h.frame fun _ _ h => h.contributeChunk]

/-! ## Arrivals (R245) -/

theorem State.Inv.mismatch {k c x p chunk} (h : s.Inv) : (mismatch s k c x p chunk).Inv :=
  inv_ite h.setColl.failColl.chargeRank h.setColl.postTo

theorem State.Inv.takeContribution {k c x p} (h : s.Inv) : (takeContribution s k c x p).Inv := by
  unfold Machine.takeContribution
  refine inv_ite h.mismatch ?_
  split
  exacts [h, inv_ite h (inv_ite h.putResult (inv_ite h.addLeaf h.putMoved))]

theorem execContributionArrival_keeps {k} (h : s.Inv) : (execContributionArrival k s).Keeps := by
  unfold Machine.execContributionArrival
  refine withCtx_keeps h fun _ => ?_
  split
  exacts [h, h.setColl.takeContribution]

theorem execResendRequest_keeps {p} (h : s.Inv) : (execResendRequest p s).Keeps := by
  unfold Machine.execResendRequest
  refine withMessage_keeps h fun _ _ h => ?_
  refine h.forMe ?_
  dsimp only
  split
  · exact h
  · split
    · exact h
    · split
      · exact h
      · split
        · exact h
        · split
          exacts [h.putCtx, h.contribute]

/-! ## Completion and failure (R242, R246) -/

theorem execCollectiveCompletion_keeps {k cid} (h : s.Inv) : (execCollectiveCompletion k cid s).Keeps := by
  unfold Machine.execCollectiveCompletion
  refine withCtx_keeps h fun _ => ?_
  split
  exacts [h, inv_ite (inv_foldl h.frame fun _ _ h => h.onStep fun _ _ => h.setStep.tryGate.tryPrepare) h]

theorem execCollectiveDeadlineExpiry_keeps {k cid} (h : s.Inv) : (execCollectiveDeadlineExpiry k cid s).Keeps := by
  unfold Machine.execCollectiveDeadlineExpiry
  refine withCtx_keeps h fun _ => ?_
  split
  exacts [h, inv_ite h.failColl h]

theorem execCollectiveAbort_keeps {p} (h : s.Inv) : (execCollectiveAbort p s).Keeps := by
  unfold Machine.execCollectiveAbort
  refine withMessage_keeps h fun _ _ h => ?_
  refine h.forMe ?_
  dsimp only
  split
  · exact h
  · split
    exacts [h, h.endColl]

/-! ## Matched pacing (R248) -/

theorem State.Inv.setPacing {p} (h : s.Inv) : (s.setPacing p).Inv := h.frame

theorem State.Inv.passPacing {c p period} (h : s.Inv) : (s.passPacing c p period).Inv :=
  inv_ite (inv_foldl h.setPacing fun _ _ h => h.postTo) h.setPacing.postTo

theorem State.Inv.warnPacing {k c period} (h : s.Inv) : (warnPacing s k c period).Inv := by
  unfold Machine.warnPacing
  refine inv_foldl h fun _ _ h => ?_
  split
  exacts [h, inv_ite (inv_ite h h.setPacing.raise) h.setPacing]

theorem State.Inv.pacingCtx {k c n ratio} (h : s.Inv) : (pacingCtx s k c n ratio).Inv := by
  unfold Machine.pacingCtx
  extract_lets first p _ kept warned late
  have warned_inv : warned.Inv := State.Inv.warnPacing (inv_ite h.setPacing h.frame)
  have late_inv : late.Inv := by
    refine inv_ite ?_ warned_inv
    split
    exacts [warned_inv, warned_inv.passPacing]
  split
  exacts [late_inv, inv_ite late_inv.passPacing late_inv]

theorem State.Inv.applyMax (h : s.Inv) : s.applyMax.Inv := h.frame

theorem execPacingPeriodBoundary_keeps (h : s.Inv) : (execPacingPeriodBoundary s).Keeps := by
  unfold Machine.execPacingPeriodBoundary
  refine keeps_next ?_
  refine State.Inv.applyMax ?_
  refine (inv_foldl h fun _ _ h => ?_).frame
  split
  exacts [h, h.pacingCtx]

theorem execPacing_keeps {p} (h : s.Inv) : (execPacing p s).Keeps := by
  unfold Machine.execPacing
  refine withMessage_keeps h fun _ _ h => ?_
  split
  · dsimp only
    split
    · exact h
    · split
      · exact h
      · split
        exacts [h, inv_ite h.setPacing.passPacing h.setPacing]
  · dsimp only
    split
    · exact h
    · split
      exacts [h, State.Inv.applyMax (inv_foldl h.setPacing fun _ _ h => h.postTo)]

/-! ## The start state (05 R156) -/

theorem State.Inv.startNow {k key version} (h : s.Inv) : (startNow s k key version).Inv := by
  unfold Machine.startNow
  split
  · exact h
  · split
    exacts [h, inv_foldl h.putCtx fun _ _ h => h.park]

theorem State.Inv.startProgram {k run key version} (h : s.Inv) : (startProgram s k run key version).Inv := by
  unfold Machine.startProgram
  split
  · exact h
  · split
    exacts [h, inv_ite h.putCtx.startNow h.putCtx]

theorem State.Inv.startStepProgram {k c st i} (h : s.Inv) : (startStepProgram s k c st i).Inv := h.startProgram

theorem State.Inv.programOver {k} (h : s.Inv) : (programOver s k).Inv := by
  unfold Machine.programOver
  split
  · exact h
  · split
    exacts [h, inv_ite h.startProgram h.programEnd]

/-! ## Fences (09 R257) -/

theorem State.Inv.afterRelease {k} (h : s.Inv) : (s.afterRelease k).Inv := by
  unfold State.afterRelease
  split
  exacts [h, inv_foldl h fun _ _ h => h.tryAllocate]

/-! ## Logical cores that move (02 R44, R46, 05 R131) -/

theorem State.Inv.bring {k l} (h : s.Inv) : (s.bring k l).Inv := h.updCtx

theorem State.Inv.nextOn {k host l} (h : s.Inv) : (s.nextOn k host l).Inv := by
  unfold State.nextOn
  split
  · exact h
  · refine inv_ite h ?_
    split
    exacts [h, State.Inv.bring (inv_foldl h fun _ _ h => h.park)]

theorem State.Inv.settleAt {k l} (h : s.Inv) : (s.settleAt k l).Inv := by
  unfold State.settleAt
  split
  · exact h
  · split
    exacts [inv_ite h ((State.Inv.nextOn (inv_ite h.bring h.park)).updCtx), h]

theorem State.Inv.moveIdle {k l} (h : s.Inv) : (s.moveIdle k l).Inv := by
  unfold State.moveIdle
  split
  · exact h
  · split
    exacts [h, inv_ite h (inv_ite (inv_ite h.putCtx h) (inv_ite h (inv_ite h.park h.bring)))]

theorem State.Inv.bridgesFail {c} (h : s.Inv) : (s.bridgesFail c).Inv := inv_foldl h fun _ _ h => h.report

theorem State.Inv.rehost {k} (h : s.Inv) : (s.rehost k).Inv := by
  unfold State.rehost
  split
  · exact h
  · refine inv_ite h ?_
    refine inv_ite h.die ?_
    refine inv_ite h.bridgesFail.die ?_
    refine State.Inv.updCtx ?_
    refine inv_ite ?_ (inv_foldl h.putCtx fun _ _ h => h.moveIdle)
    refine inv_foldl (inv_foldl h.putCtx fun _ _ h => h.moveIdle) fun _ _ h => ?_
    split
    exacts [h, h.nextOn]

theorem State.Inv.rehostAll {die pos} (h : s.Inv) : (s.rehostAll die pos).Inv := inv_foldl h fun _ _ h => h.rehost

/-! ## Spares (02 R44, 07 R188) -/

theorem State.Inv.takeOver {die pos} (h : s.Inv) : (s.takeOver die pos).Inv := by
  unfold State.takeOver
  split
  exacts [inv_ite h.setPosition.raise h.setPosition, inv_ite h.setPosition h.frame.degrade.raise]

theorem State.Inv.freeCore {die p st} (h : s.Inv) : (s.freeCore die p st).Inv := by
  unfold State.freeCore
  dsimp only
  split
  exacts [h.setPhys, h.setPhys.takeOver.rehostAll]

theorem State.Inv.unfold {die} (h : s.Inv) : (s.unfold die).Inv := by
  unfold State.unfold
  refine inv_ite ?_ ?_
  · refine State.Inv.raise ?_
    refine State.Inv.undegrade ?_
    refine (inv_foldl h fun _ _ h => ?_).frame
    split
    exacts [h, h.setPosition.rehostAll]
  · refine inv_foldl h fun _ _ h => ?_
    split
    exacts [h, h.setPosition.rehostAll]

theorem State.Inv.returned {die} (h : s.Inv) : (s.returned die).Inv := inv_ite h h.unfold

/-! ## Sieves (11 R322, R323) -/

theorem State.Inv.startSieve {die p} (h : s.Inv) : (s.startSieve die p).Inv := h.freeCore.setPhys

/-! ## Re-checks begin (11 R315) -/

theorem State.Inv.setSample {i f} (h : s.Inv) : (s.setSample i f).Inv := h.frame

theorem State.Inv.freeY {i die p} (h : s.Inv) : (s.freeY i die p).Inv := h.freeCore.setSample

theorem State.Inv.takeY {i x} (h : s.Inv) : (s.takeY i x).Inv := by
  unfold State.takeY
  split
  exacts [h, inv_ite h.setSample h.setSample.freeY]

theorem State.Inv.startRecheck {i} (h : s.Inv) : (s.startRecheck i).Inv := by
  unfold State.startRecheck
  split
  exacts [h, h.freeCore.takeY]

theorem State.Inv.recheckAt {die p} {t : State} (h : s.Inv) (found : s.recheckAt die p = some t) : t.Inv := by
  unfold State.recheckAt at found
  split at found <;> cases found
  exacts [h.startRecheck, h.freeY]

/-! ## Tile boundaries (05 R131, R132) -/

theorem State.Inv.boundaryCore {die p} (h : s.Inv) : (s.boundaryCore die p).Inv := by
  unfold State.boundaryCore
  split
  next found => exact h.recheckAt found
  · dsimp only
    split
    exacts [h, inv_ite h.startSieve h]

theorem State.Inv.boundary {k l} (h : s.Inv) : (s.boundary k l).Inv := by
  unfold State.boundary
  split
  · exact h
  · split
    exacts [h, State.Inv.unfold (inv_foldl h fun _ _ h => h.boundaryCore)]

theorem execSeqTb_keeps {k l} (h : s.Inv) : (execSeqTb k l s).Keeps := seqRowWith_keeps h fun _ _ _ _ _ h => h.putCtx.boundary.settleAt

theorem execSeqEnd_keeps {k l} (h : s.Inv) : (execSeqEnd k l s).Keeps :=
  seqRowWith_keeps h fun _ _ _ _ _ h => h.putCtx.settleAt.programOver

/-! ## Accounting (R369, R371) -/

theorem State.Inv.tick (h : s.Inv) : s.tick.Inv := inv_ite h.frame h.frame

/-! ## Leaving (R375, R377) -/

theorem State.Inv.askToLeave {k overrunFrom} (h : s.Inv) : (s.askToLeave k overrunFrom).Inv := h.updCtx

/-! ## Coming onto the cores (R364, R376) -/

theorem State.Inv.becomeRunning {k stored} (h : s.Inv) : (s.becomeRunning k stored).Inv := by
  unfold State.becomeRunning
  split
  · exact h
  · split
    · exact State.Inv.putCtx (inv_foldl h fun _ _ h => inv_ite h.updCtx.raise h.updCtx)
    · exact (State.Inv.putCtx (inv_foldl h fun _ _ h => inv_ite h.updCtx.raise h.updCtx)).startNow

theorem State.Inv.takeCores {k} (h : s.Inv) : (s.takeCores k).Inv := by
  unfold State.takeCores
  split
  · exact h
  · exact inv_ite (inv_ite (inv_foldl h fun _ _ h => inv_ite h.saveAll h) (State.Inv.becomeRunning (inv_foldl h fun _ _ h => inv_ite h.saveAll h))) h

theorem State.Inv.settleCores (h : s.Inv) : s.settleCores.Inv := inv_foldl h fun _ _ h => h.takeCores

/-! ## The decision (R370) -/

theorem State.Inv.schedule (h : s.Inv) : s.schedule.Inv :=
  (State.Inv.settleCores (inv_foldl h fun _ _ h => inv_ite (inv_ite h (inv_ite h.askToLeave h)) h.updCtx)).frame

theorem State.Inv.becomeWaiting {k} (h : s.Inv) : (s.becomeWaiting k).Inv := by
  unfold State.becomeWaiting
  split
  exacts [h, h.putCtx.schedule]

theorem State.Inv.wake {k} (h : s.Inv) : (s.wake k).Inv := by
  unfold State.wake
  split
  exacts [h, inv_ite h.becomeWaiting h]

/-! ## What the tables say -/

theorem State.Inv.writeRing {a tag count size} (h : s.Inv) : (s.writeRing a tag count size).Inv := inv_ite h h.store

/-! ## Creation (R358, 13 R365) -/

theorem State.Inv.makeContext {k size die index d} (h : s.Inv) : (s.makeContext k size die index d).Inv :=
  h.writeRing.writeRing.frame.putCtx.seeClaim

/-! ## The mirage tap -/

theorem State.Inv.setMirage {die m} (h : s.Inv) : (s.setMirage die m).Inv := h.frame

theorem State.Inv.abandon {p} (h : s.Inv) : (s.abandon p).Inv := inv_foldl h.frame fun _ _ h => h.setMirage

theorem State.Inv.tapOpen {k l c t te x initial} (h : s.Inv) : (tapOpen s k l c t te x initial).Inv := by
  unfold Machine.tapOpen
  split
  exacts [h, inv_ite (inv_ite h.setMirage.setMirage h.frame) h.setMirage]

theorem State.Inv.tapCheck {k l c key poisoned} (h : s.Inv) : (tapCheck s k l c key poisoned).Inv := h.abandon

theorem State.Inv.updSamples {p f} (h : s.Inv) : (s.updSamples p f).Inv := h.frame

theorem State.Inv.afterMm {stop k l x c} (h : s.Inv) : (afterMm stop s k l x c).Inv := by
  unfold Machine.afterMm
  split
  · exact h.putCtx
  · split
    · dsimp only
      split
      · exact h.putCtx
      · refine State.Inv.tapCheck ?_
        refine State.Inv.updSamples ?_
        split
        exacts [h.putCtx, h.putCtx.tapOpen]
    · dsimp only
      split
      exacts [h.putCtx, h.putCtx.updSamples.tapCheck]

theorem State.Inv.afterMerge {k l x c} (h : s.Inv) : (afterMerge s k l x c).Inv := by
  unfold Machine.afterMerge
  split
  · exact h.putCtx
  · dsimp only
    split
    exacts [h.putCtx, h.putCtx.updSamples.tapCheck]

theorem State.Inv.tapClose {drain k l x c} (h : s.Inv) : (tapClose drain s k l x c).Inv := by
  unfold Machine.tapClose
  split
  · exact h.putCtx
  · split
    exacts [h.putCtx, h.putCtx.tapCheck.updSamples]

theorem State.Inv.afterClose {k l x c} (h : s.Inv) : (afterClose s k l x c).Inv := by
  unfold Machine.afterClose
  split
  · exact h.putCtx
  · split
    exacts [h.putCtx, h.putCtx.abandon]

/-! ## The rows -/

theorem execMxMm_keeps {k l stop errs} (h : s.Inv) : (execMxMm k l stop errs s).Keeps := by
  unfold Machine.execMxMm
  dsimp only
  exact engineRowWith_keeps h fun _ _ _ _ _ h => h.afterMm

theorem execMxMerge_keeps {k l errs} (h : s.Inv) : (execMxMerge k l errs s).Keeps := engineRowWith_keeps h fun _ _ _ _ _ h => h.afterMerge

theorem execMxClose_keeps {k l} (h : s.Inv) : (execMxClose k l s).Keeps := engineRowWith_keeps h fun _ _ _ _ _ h => h.afterClose

/-! ## Numeric watch (R313, R314) -/

theorem State.Inv.watchRecord {rec' tensor d} (h : s.Inv) : (s.watchRecord rec' tensor d).Inv := h.store.store.store.store

theorem State.Inv.watch {x} (h : s.Inv) : (s.watch x).Inv := by
  unfold State.watch
  split
  · exact h
  · exact inv_ite h (inv_foldl h fun _ _ h => inv_ite ((State.Inv.updCtx (inv_foldl h fun _ _ h => h.watchRecord)).raise)
      (inv_foldl h fun _ _ h => h.watchRecord))

/-! ## MIRAGE_CHECK (R311 to R315) -/

theorem State.Inv.dropSample {i} (h : s.Inv) : (s.dropSample i).Inv := h.frame

theorem State.Inv.disagreement {i x} (h : s.Inv) : (s.disagreement i x).Inv :=
  inv_ite h.report.dropSample (inv_ite h.report.frame h.report.frame.startRecheck)

theorem State.Inv.check {i x} (h : s.Inv) : (s.check i x).Inv := inv_ite h.setMirage.watch.dropSample h.setMirage.watch.disagreement

theorem execMirageCheck_keeps {die i} (h : s.Inv) : (execMirageCheck die i s).Keeps := by
  unfold Machine.execMirageCheck
  refine withUnit_keeps ?_
  split
  · exact h
  · split
    exacts [h, inv_ite h.check h]

/-! ## The mirage unit under suspicion (R317, R331) -/

theorem State.Inv.abandonDie {die} (h : s.Inv) : (s.abandonDie die).Inv := h.frame

theorem State.Inv.selfTest {die} (h : s.Inv) : (s.selfTest die).Inv := h.frame

theorem State.Inv.mirageOut {die} (h : s.Inv) : (s.mirageOut die).Inv := h.abandonDie.setMirage.degrade.raise

theorem State.Inv.reportAs {key cause state level rep} (h : s.Inv) : (s.reportAs key cause state level rep).Inv := by
  unfold State.reportAs
  split
  · exact h.report.suspectState
  · dsimp only
    split
    · exact h.report
    · split
      exacts [h.report, h.report.setSuspect]

theorem State.Inv.mirageTransient {die rep} (h : s.Inv) : (s.mirageTransient die rep).Inv :=
  (inv_ite h.reportAs.chargeEntry.setMirage.mirageOut h.reportAs.chargeEntry.setMirage.selfTest).frame

theorem execMirageSelfTest_keeps {die pass} (h : s.Inv) : (execMirageSelfTest die pass s).Keeps :=
  withUnit_keeps (inv_ite h (inv_ite h.setMirage h.reportAs.mirageOut))

/-! ## Charges and retirement of cores (R317) -/

theorem State.Inv.chargePhys {die p} (h : s.Inv) : (s.chargePhys die p).1.Inv := h.chargeEntry.frame

theorem State.Inv.retireAndSieve {die p} (h : s.Inv) : (s.retireAndSieve die p).Inv := h.retireCore.setPhys

/-! ## RECHECK_VERDICT (R316 to R318) -/

theorem State.Inv.coreVerdict {x state cause} (h : s.Inv) : (s.coreVerdict x state cause).Inv := by
  unfold State.coreVerdict
  extract_lets key level reported judged
  have judged_inv : judged.Inv := by
    unfold judged
    split
    · exact h.reportN
    · split
      exacts [h.reportN, h.reportN.setSuspect.raise]
  split
  · exact judged_inv
  · refine inv_ite ?_ judged_inv
    split
    exacts [judged_inv, judged_inv.failStep]

theorem State.Inv.coreTransient {x} (h : s.Inv) : (s.coreTransient x).1.Inv := by
  unfold State.coreTransient
  dsimp only
  split
  exacts [h.chargePhys.coreVerdict, h.chargePhys.coreVerdict]

theorem State.Inv.toSpare {die p} (h : s.Inv) : (s.toSpare die p).Inv := State.Inv.returned (inv_ite h.setPhys h)

theorem State.Inv.endRecheck {i x retire} (h : s.Inv) : (s.endRecheck i x retire).Inv := by
  unfold State.endRecheck
  split
  · split
    · dsimp only
      split
      exacts [h.dropSample.retireAndSieve, inv_foldl h.dropSample.retireAndSieve fun _ _ h => h.tryPrepare]
    · dsimp only
      split
      exacts [h.dropSample.toSpare, inv_foldl h.dropSample.toSpare fun _ _ h => h.tryPrepare]
  · split
    · dsimp only
      split
      exacts [h.dropSample.toSpare.retireAndSieve, inv_foldl h.dropSample.toSpare.retireAndSieve fun _ _ h => h.tryPrepare]
    · dsimp only
      split
      exacts [h.dropSample.toSpare.toSpare, inv_foldl h.dropSample.toSpare.toSpare fun _ _ h => h.tryPrepare]

theorem State.Inv.nextY {i x} (h : s.Inv) : (s.nextY i x).Inv := by
  unfold State.nextY
  split
  exacts [h.takeY.setSample, h.takeY.setSample.toSpare]

theorem State.Inv.judge {i x v} (h : s.Inv) : (s.judge i x v).Inv := by
  unfold State.judge
  split
  · exact h.mirageTransient.endRecheck
  · exact h.coreTransient.endRecheck.frame
  · exact h.coreVerdict.endRecheck
  · exact inv_ite h.reportAs.selfTest.coreTransient.endRecheck.frame h.reportAs.selfTest.endRecheck
  · exact inv_ite h.nextY h.coreVerdict.selfTest.endRecheck

theorem State.Inv.freeIdle {n x} (h : s.Inv) : (s.freeIdle n x).Inv := by
  unfold State.freeIdle
  split
  exacts [inv_ite h h.startRecheck, inv_ite h h.freeY]

theorem execRecheckVerdict_keeps {i xs ys} (h : s.Inv) : (execRecheckVerdict i xs ys s).Keeps := by
  unfold Machine.execRecheckVerdict
  refine keeps_next ?_
  split
  · exact h
  · split
    · exact h
    · dsimp only
      split
      exacts [h.freeIdle, inv_ite h.freeIdle.judge h.freeIdle]

/-! ## TWIN_MISMATCH (R321) -/

theorem State.Inv.twinSuspect {die p q rep} (h : s.Inv) : (s.twinSuspect die p q rep).Inv := h.report.setPhys

theorem execTwinMismatch_keeps {k l engine index shadow} (h : s.Inv) : (execTwinMismatch k l engine index shadow s).Keeps := by
  unfold Machine.execTwinMismatch
  refine withCore_keeps h fun _ _ => ?_
  split
  · refine inv_ite ?_ h
    refine State.Inv.die ?_
    split
    exacts [h.twinSuspect.twinSuspect, h]
  · exact h

/-! ## Sieves (R322, R323) -/

theorem withPhys_keeps {d p} (h : s.Inv) : (withPhys d p s).Keeps := keeps_ite (keeps_fault _) (keeps_next h)

theorem execSieveDue_keeps {die core} (h : s.Inv) : (execSieveDue die core s).Keeps :=
  withPhys_keeps (inv_ite h (inv_ite (inv_ite h.startSieve h) (inv_ite h.setPhys h)))

theorem execSieveForced_keeps {die core} (h : s.Inv) : (execSieveForced die core s).Keeps := by
  unfold Machine.execSieveForced
  refine withPhys_keeps ?_
  dsimp only
  split
  exacts [h, inv_ite h.setPhys h]

theorem State.Inv.chargeTwin {die p} (h : s.Inv) : (s.chargeTwin die p).Inv :=
  (inv_ite h.chargePhys.reportAs.retireAndSieve h.chargePhys.reportAs).frame

theorem State.Inv.twinPassed {die p} (h : s.Inv) : (s.twinPassed die p).Inv := by
  unfold State.twinPassed
  dsimp only
  split
  exacts [h, inv_ite h.setPhys.setPhys.chargeTwin.chargeTwin h.setPhys]

theorem State.Inv.twinFailed {die p} (h : s.Inv) : (s.twinFailed die p).Inv := by
  unfold State.twinFailed
  split
  exacts [h, h.setPhys.setPhys]

theorem State.Inv.recordSieve {die p pass} (h : s.Inv) : (s.recordSieve die p pass).Inv := h.frame

theorem State.Inv.sieveEnds {die p pass} (h : s.Inv) : (s.sieveEnds die p pass).Inv :=
  inv_ite h.setMirage.setPhys.recordSieve (inv_ite h.setMirage.setPhys.returned.twinPassed
      (inv_ite h.setMirage.setPhys.reportAs.retireCore.recordSieve.twinFailed.raise h.setMirage.setPhys.reportAs.retireCore.recordSieve.twinFailed))

theorem execSieveComplete_keeps {die core pass} (h : s.Inv) : (execSieveComplete die core pass s).Keeps :=
  withPhys_keeps (inv_ite h.sieveEnds h)

/-! ## SUSPECT_CLEAR_TIMEOUT (R326) -/

theorem execSuspectClearTimeout_keeps {i} (h : s.Inv) : (execSuspectClearTimeout i s).Keeps := by
  unfold Machine.execSuspectClearTimeout
  refine withUnit_keeps ?_
  split
  exacts [h, inv_ite h.setSuspect h]

end

end Sys2Proof.Machine

/-! PROOFS. Standing properties over the host and the step (07 R204, 12 R350): rings, resets, commands, rollouts, checkpoints, power, boot;
and each command in turn. -/

namespace Sys2Proof.Machine

set_option Elab.async false

section
variable {s : State}

/-! ## Discarded accesses (17 R444) -/

theorem State.Inv.badAccess {off kind} (h : s.Inv) : (s.badAccess off kind).Inv := h.frame

/-! ## Rings (12 R338 to R340, R355) -/

theorem State.Inv.stopRing {n reply} (h : s.Inv) : (s.stopRing n reply).Inv := inv_ite h.putRing.raise h.putRing.raise

theorem State.Inv.writeSqCtrl {n v} (h : s.Inv) : (s.writeSqCtrl n v).Inv :=
  inv_ite (inv_ite h.putRing h.putRing.badAccess) (inv_ite h.putRing (inv_ite h.putRing.stopRing h.putRing))

theorem State.Inv.writeShadow {n} (h : s.Inv) : (s.writeShadow n).Inv := h.frame

theorem State.Inv.writeRqCtrl {n v} (h : s.Inv) : (s.writeRqCtrl n v).Inv :=
  inv_ite (inv_ite h.putRing h.putRing.badAccess) (inv_ite h.putRing (inv_ite h.putRing.stopRing h.putRing.writeShadow))

theorem State.Inv.doorbell {n v} (h : s.Inv) : (s.doorbell n v).Inv :=
  inv_ite h.frame (inv_ite h.badAccess (inv_ite h.badAccess (inv_ite h.stopRing h.putRing)))

theorem State.Inv.releaseDoorbells (h : s.Inv) : s.releaseDoorbells.Inv := inv_foldl h.frame fun _ _ h => h.doorbell

/-! ## Reply records (12 R339, R341, R344) -/

theorem State.Inv.writeReply {n} (h : s.Inv) : (s.writeReply n).Inv := by
  unfold State.writeReply
  dsimp only
  split
  exacts [h, inv_ite (inv_ite h.frame h.busWrite.putRing.writeShadow) h]

theorem State.Inv.flushReplies (h : s.Inv) : s.flushReplies.Inv := inv_foldl h fun _ _ h => inv_foldl h fun _ _ h => h.writeReply

theorem State.Inv.dropReplies (h : s.Inv) : s.dropReplies.Inv := h.frame

/-! ## Fetches (12 R339, R347) -/

theorem State.Inv.fetched {n bytes} (h : s.Inv) : (s.fetched n bytes).Inv := h.frame

theorem execCommandFetch_keeps {n result} (h : s.Inv) : (execCommandFetch n result s).Keeps := by
  unfold Machine.execCommandFetch
  refine withRing_keeps fun _ => ?_
  refine inv_ite ?_ h
  split
  exacts [h.fetched, h.stopRing, h.stopRing]

theorem execReplyWrite_keeps {n} (h : s.Inv) : (execReplyWrite n s).Keeps := withRing_keeps fun _ => inv_ite h h.writeReply

/-! ## Deaths by a reset (12 R361, R390, R391) -/

theorem State.Inv.killByReset {k} (h : s.Inv) : (s.killByReset k).Inv := by
  unfold State.killByReset
  split
  exacts [h, inv_ite h.completeAll h.raise.completeAll.tellFailures.beginClose]

theorem State.Inv.dropTransfers {k} (h : s.Inv) : (s.dropTransfers k).Inv := h.frame

theorem State.Inv.clearContexts (h : s.Inv) : s.clearContexts.Inv := h.frame

/-! ## The module after a reset of kind 0x07 or 0x08 -/

theorem State.Inv.notifyDeparture (h : s.Inv) : s.notifyDeparture.Inv := inv_foldl h fun _ _ h => h.sendControl

theorem State.Inv.hardRepair {die} (h : s.Inv) : (s.hardRepair die).Inv := inv_ite h h.frame

/-- Memory outlasts a reset of kind 0x07 or 0x08, and the attention log is empty after it (14 R389). -/
theorem State.Inv.moduleCleared {kind} (h : s.Inv) : (s.moduleCleared kind).Inv := by
  have repaired : (List.foldl (fun s d => State.hardRepair s d) s [0, 1, 2, 3]).Inv := inv_foldl h fun _ _ h => h.hardRepair
  exact ⟨repaired.1, Nat.zero_le _⟩

/-! ## The start of a reset (R389, R390, R399) -/

theorem State.Inv.replyAll (h : s.Inv) : s.replyAll.Inv := h.completeAll.flushReplies.dropReplies

theorem State.Inv.loseAreas {die} (h : s.Inv) : (s.loseAreas die).Inv :=
  inv_foldl h fun _ _ h => inv_foldl h fun _ _ h => h.onStep fun _ _ => h.loseStep

theorem State.Inv.enterReset {r} (h : s.Inv) : (s.enterReset r).Inv := by
  have told : ((s.ctxs.map (·.1)).foldl (fun s k => s.killByReset k) s).replyAll.notifyDeparture.Inv :=
    (State.Inv.replyAll (inv_foldl h fun _ _ h => h.killByReset)).notifyDeparture
  unfold State.enterReset
  split
  exacts [h.killByReset, State.Inv.loseAreas (inv_foldl h fun _ _ h => h.killByReset), h.portDown.putPort, told.clearContexts, told.moduleCleared,
    told.moduleCleared, h]

theorem State.Inv.beginReset {r} (h : s.Inv) : (s.beginReset r).Inv := by
  refine inv_ite h.frame (State.Inv.frame (s := State.enterReset _ _) ?_)
  exact State.Inv.enterReset h.frame

theorem State.Inv.resetDomain {kind die num cause cmds ctx} (h : s.Inv) : (s.resetDomain kind die num cause cmds ctx).Inv := h.beginReset

theorem State.Inv.moduleReset {kind cause} (h : s.Inv) : (s.moduleReset kind cause).Inv := h.resetDomain

/-! ## Out of service (R395, R396) -/

theorem State.Inv.goOutOfService (h : s.Inv) : s.goOutOfService.Inv :=
  inv_ite h (((((inv_foldl h fun _ _ h => h.killByReset).frame).raise).completeAll).clearContexts)

/-! ## RESET_COMPLETION (R391, R393, R394) -/

theorem State.Inv.dieFaults {die} (h : s.Inv) : (s.dieFaults die).Inv := h.frame

theorem State.Inv.held {p} (h : s.Inv) : (s.held p).Inv := h.frame

theorem State.Inv.leaveReset {r} (h : s.Inv) : (s.leaveReset r).Inv := by
  unfold State.leaveReset
  split
  · exact State.Inv.raise (inv_ite h.setPhys h.startSieve)
  · exact h.dropTransfers.raise
  · exact State.Inv.raise (inv_foldl h.hardRepair.abandonDie.dieFaults.held.setMirage.undegrade fun _ _ h => h.dropTransfers)
  · exact h.held.raise
  · exact (State.Inv.releaseDoorbells (inv_foldl h.frame fun _ _ h => h.undegrade)).raise
  · exact h.raise
  · exact h.raise
  · exact h

theorem State.Inv.countReset (h : s.Inv) : s.countReset.Inv := h.frame

theorem State.Inv.resetDone {r} (h : s.Inv) : (s.resetDone r).Inv := by
  unfold State.resetDone
  extract_lets rest _ cleared counted left answered
  have answered_inv : answered.Inv := inv_foldl (State.Inv.leaveReset (inv_ite h.frame.countReset h.frame)) fun _ _ h => h.complete
  exact inv_ite answered_inv.goOutOfService answered_inv

theorem State.Inv.retireUntrained {kind die untrained} (h : s.Inv) : (s.retireUntrained kind die untrained).Inv :=
  inv_foldl h fun _ _ h => h.retirePc

theorem execResetCompletion_keeps {kind die num untrained} (h : s.Inv) : (execResetCompletion kind die num untrained s).Keeps := by
  unfold Machine.execResetCompletion
  refine keeps_next ?_
  split
  exacts [h, inv_ite h (inv_ite h h.resetDone.retireUntrained)]

/-! ## RESET_COMPLETION_TIMEOUT (R384) -/

theorem State.Inv.resetDies {k dies cmds} (h : s.Inv) : (s.resetDies k dies cmds).Inv := inv_foldl h fun _ _ h => h.beginReset

theorem State.Inv.escalate {r} (h : s.Inv) : (s.escalate r).Inv := by
  unfold State.escalate
  split
  · exact h.frame.resetDomain
  · exact h.frame.resetDies
  · exact h.frame.moduleReset
  · exact h.frame.moduleReset
  · exact h.frame.moduleReset
  · exact h.frame.goOutOfService
  · exact h.frame

theorem State.Inv.channelFails {r} (h : s.Inv) : (s.channelFails r).Inv :=
  inv_ite h.frame (State.Inv.raise (inv_foldl h.frame fun _ _ h => h.complete))

theorem execResetCompletionTimeout_keeps {kind die num} (h : s.Inv) : (execResetCompletionTimeout kind die num s).Keeps := by
  unfold Machine.execResetCompletionTimeout
  refine keeps_next ?_
  split
  · exact h
  · refine inv_ite h ?_
    split
    exacts [h.portOut, h.channelFails, h.escalate]

theorem execResetCountWindowExpiry_keeps {day} (h : s.Inv) : (execResetCountWindowExpiry day s).Keeps := keeps_next h.frame

theorem execRegulatorPhaseLoss_keeps {rail} (h : s.Inv) : (execRegulatorPhaseLoss rail s).Keeps := by
  unfold Machine.execRegulatorPhaseLoss
  refine withUnit_keeps ?_
  refine inv_ite h ?_
  split
  exacts [h.frame.raise, h.frame.degrade.raise, h.frame.goOutOfService]

/-! ## Services (01 R19, 17 R440) -/

theorem execOasisPairFailure_keeps {p} (h : s.Inv) : (execOasisPairFailure p s).Keeps :=
  withUnit_keeps (inv_ite h (inv_ite h.frame.goOutOfService h.frame.degrade.raise))

theorem State.Inv.restartPair {p} (h : s.Inv) : (s.restartPair p).Inv := inv_ite h h.frame.degrade.raise

theorem execServiceRestartComplete_keeps {p} (h : s.Inv) : (execServiceRestartComplete p s).Keeps := withUnit_keeps (inv_ite h.frame h)

theorem execMesaFailure_keeps (h : s.Inv) : (execMesaFailure s).Keeps := keeps_next h.frame.goOutOfService

/-! ## The checks of R346 -/

theorem State.Inv.markCmd {id f} (h : s.Inv) : (s.markCmd id f).Inv := h.frame

theorem execCommandStart_keeps {id} (h : s.Inv) : (execCommandStart id s).Keeps := by
  unfold Machine.execCommandStart
  refine keeps_next ?_
  split
  · exact h
  · refine inv_ite h ?_
    split
    exacts [h.complete, h.markCmd]

/-! ## Command rows -/

theorem withCmd_keeps {i op} {f : HostCmd → State} (h : s.Inv) (hf : ∀ c, (f c).Inv) : (withCmd i op s f).Keeps := by
  refine keeps_next ?_
  split
  exacts [h, inv_ite (hf _) h]

theorem State.Inv.refuse {id b} (h : s.Inv) : (s.refuse id b).Inv := h.complete

theorem withCtxCmd_keeps {i op} {f : HostCmd → Nat → Ctx → State} (h : s.Inv) (hf : ∀ c k x, (f c k x).Inv) : (withCtxCmd i op s f).Keeps := by
  refine withCmd_keeps h fun c => ?_
  split
  · exact h
  · split
    exacts [h.refuse, hf _ _ _]

theorem State.Inv.checked {i l} {t : State} (h : s.Inv) (ht : t.Inv) : (s.checked i l t).Inv := by
  unfold State.checked
  split
  exacts [h.refuse, ht]

theorem State.Inv.begin {id} (h : s.Inv) : (s.begin' id).Inv := h.frame

/-! ## Host rewards (R300) -/

theorem State.Inv.takeRewards {t last} (h : s.Inv) : (s.takeRewards t last).Inv := inv_ite h h.store

/-! ## The stretch map (R283 to R286) -/

theorem State.Inv.takeRolls {k c st} {r : State × StepRun} (h : s.Inv) (found : s.takeRolls k c st = some r) : r.1.Inv := by
  unfold State.takeRolls at found
  split at found
  · cases found
    exact h
  · dsimp only at found
    split at found <;> cases found
    exact State.Inv.spend (State.Inv.takeRewards (State.Inv.updCtx (inv_ite h h.store)))

/-! ## Phases (01 R26) -/

theorem onFirst_keeps {k p} {f : Ctx → StepRun → State} (h : s.Inv) (hf : ∀ c st, (f c st).Inv) : (onFirst k s p f).Keeps := by
  refine withCtx_keeps h fun c => ?_
  split
  exacts [h, hf _ _]

theorem State.Inv.beginProgram {k c st phase slot} (h : s.Inv) : (beginProgram s k c st phase slot).Inv := h.setStep.startStepProgram

theorem State.Inv.startScoring {k c st} (h : s.Inv) : (startScoring s k c st).Inv :=
  inv_ite h (inv_ite (inv_ite h.beginProgram h) (inv_ite h.beginProgram h))

theorem State.Inv.startBatch {k st b} (h : s.Inv) : (startBatch s k st b).Inv := by
  unfold Machine.startBatch
  dsimp only
  split
  exacts [h.addHold, h.addHold.beginProgram]

theorem State.Inv.startLearner {k c st} (h : s.Inv) : (startLearner s k c st).Inv := by
  refine inv_ite h (inv_ite (inv_ite h.startBatch h) (inv_ite ?_ h))
  split
  · exact h.finishStep
  next found => exact (h.takeRolls found).startBatch

theorem State.Inv.startExchange {k st} (h : s.Inv) : (startExchange s k st).Inv := inv_ite h.setStep h

theorem State.Inv.copyShard {k c st} (h : s.Inv) : (copyShard s k c st).1.Inv := by
  unfold Machine.copyShard
  split
  exacts [h.spend.storeGranules.frame, h.spend.peerWrite.frame]

theorem State.Inv.startGate {k c st} (h : s.Inv) : (startGate s k c st).Inv := inv_ite h.copyShard.beginProgram.tryGate.frame h

theorem execStepPhaseStart_keeps {k phase} (h : s.Inv) : (execStepPhaseStart k phase s).Keeps := by
  unfold execStepPhaseStart
  split
  exacts [onFirst_keeps h fun _ _ => h.startScoring, onFirst_keeps h fun _ _ => h.startLearner, onFirst_keeps h fun _ _ => h.startExchange,
    onFirst_keeps h fun _ _ => h.startGate, withCtx_keeps h fun _ => h]

/-! ## The gate (R272 to R275) -/

theorem State.Inv.countDiscard {k} (h : s.Inv) : (s.countDiscard k).Inv := h.updCtx

theorem withRecord_keeps {k n r} {f : Ctx → StepRun → State} (h : s.Inv) (hf : ∀ c st, (f c st).Inv) : (withRecord k n r s f).Keeps := by
  refine withCtx_keeps h fun c => inv_ite ?_ h
  split
  exacts [h.countDiscard, hf _ _]

theorem execGateReport_keeps {k r} (h : s.Inv) : (execGateReport k r s).Keeps := withRecord_keeps h fun _ _ => inv_ite h.setStep.tryGate h

theorem execGateDecision_keeps {k r} (h : s.Inv) : (execGateDecision k r s).Keeps := withRecord_keeps h fun _ _ => inv_ite h.passDecision h

theorem execPendingVersionAllocation_keeps {k} (h : s.Inv) : (execPendingVersionAllocation k s).Keeps :=
  onFirst_keeps h fun _ _ => h.tryAllocate

/-! ## Shard digests (R259, R260, R279) -/

theorem execShardDigestComplete_keeps {k mirror} (h : s.Inv) : (execShardDigestComplete k mirror s).Keeps := by
  unfold Machine.execShardDigestComplete
  refine onFirst_keeps h fun _ _ => ?_
  split
  · exact h
  · refine inv_ite h ?_
    split
    · exact inv_ite h.putCtx h.putCtx.setStep.tryPrepare
    · exact (inv_ite h.peerWrite.setStep.tryPrepare h.chargeMismatch.setStep.tryPrepare).frame

/-! ## Prepare, log, commit (R276 to R278) -/

theorem execPrepareReport_keeps {k r} (h : s.Inv) : (execPrepareReport k r s).Keeps :=
  withRecord_keeps h fun _ _ => inv_ite h.setStep.tryPrepare h

theorem execDecisionLog_keeps {k} (h : s.Inv) : (execDecisionLog k s).Keeps := by
  unfold Machine.execDecisionLog
  refine onFirst_keeps h fun _ _ => ?_
  split
  exacts [h, h.sendRecs.adoptCommit]

theorem execCommit_keeps {k r} (h : s.Inv) : (execCommit k r s).Keeps := withRecord_keeps h fun _ _ => inv_ite h.sendRecs.adoptCommit h

theorem execCommitTimeReached_keeps {k} (h : s.Inv) : (execCommitTimeReached k s).Keeps := onFirst_keeps h fun _ _ => h.commitNow

/-! ## Failures and doubt (R278, R280) -/

theorem execAbort_keeps {k r} (h : s.Inv) : (execAbort k r s).Keeps := withRecord_keeps h fun _ _ => inv_ite h.sendRecs.adoptAbort h

theorem execFailureReport_keeps {k r} (h : s.Inv) : (execFailureReport k r s).Keeps := withRecord_keeps h fun _ _ => inv_ite h.abortAll h

theorem execDecisionQuery_keeps {k r} (h : s.Inv) : (execDecisionQuery k r s).Keeps := by
  unfold Machine.execDecisionQuery
  refine withCtx_keeps h fun _ => ?_
  split
  · exact h
  · refine inv_ite ?_ (inv_ite h.countDiscard h)
    split
    exacts [h, h.sendRec, h.sendRec]

theorem execDecisionReply_keeps {k r} (h : s.Inv) : (execDecisionReply k r s).Keeps :=
  withRecord_keeps h fun _ _ => inv_ite (inv_ite h.adoptCommit h.adoptAbort) h

theorem execExchangeDeadlineExpiry_keeps {k} (h : s.Inv) : (execExchangeDeadlineExpiry k s).Keeps :=
  onFirst_keeps h fun _ _ => inv_ite h.abortAll (inv_ite (inv_ite h.finishStep h.sendRecs.setStep) h.setStep.failStep)

/-! ## Fences and version digests (R255, 02 R58) -/

theorem execFenceRelease_keeps {k version holder} (h : s.Inv) : (execFenceRelease k version holder s).Keeps := by
  unfold Machine.execFenceRelease
  refine withCtx_keeps h fun _ => ?_
  split
  · exact h
  · split
    exacts [h, h.dropHold.afterRelease]

theorem execWeightDigestComplete_keeps {k} (h : s.Inv) : (execWeightDigestComplete k s).Keeps := by
  unfold Machine.execWeightDigestComplete
  refine withCtx_keeps h fun _ => ?_
  split
  · exact h
  · split
    · exact inv_foldl h.putCtx fun _ _ h => h.tryFinish
    · split
      exacts [h, inv_foldl h.putCtx fun _ _ h => h.tryFinish]

/-! ## Cairns, their signatures and audit rings -/

theorem execTensorDigestComplete_keeps {k tensor places} (h : s.Inv) : (execTensorDigestComplete k tensor places s).Keeps := by
  unfold Machine.execTensorDigestComplete
  refine withCtx_keeps h fun _ => ?_
  split
  · exact h
  · split
    · refine inv_ite h ?_
      split
      exacts [h.putCtx, inv_ite (inv_ite h h.frame) (inv_ite h.produce.updCtx.raise h.produce)]
    · exact h

theorem State.Inv.sign {msg} (h : s.Inv) : (s.sign msg).1.Inv := h.frame

theorem execCairnSignatureComplete_keeps {k} (h : s.Inv) : (execCairnSignatureComplete k s).Keeps := by
  refine withCtx_keeps h fun c => ?_
  split
  exacts [h, inv_ite (State.Inv.produce h.frame) h]

theorem execRingSpaceFreed_keeps {k ring index} (h : s.Inv) : (execRingSpaceFreed k ring index s).Keeps := by
  unfold Machine.execRingSpaceFreed
  refine withCtx_keeps h fun _ => ?_
  split
  exacts [h, inv_ite h ((inv_foldl h.store.flushRing.updCtx fun _ _ h => h.tryFinish).frame)]

/-! ## Registers (R442, R443) -/

theorem State.Inv.resetRequest {v} (h : s.Inv) : (s.resetRequest v).Inv := inv_ite h.moduleReset (inv_ite h.moduleReset h)

theorem State.Inv.write64 {base v} (h : s.Inv) : (s.write64 base v).Inv := by
  unfold State.write64
  refine inv_ite h.frame ?_
  split <;> exact inv_ite h.badAccess h.putRing

theorem State.Inv.writeMsix {off v} (h : s.Inv) : (s.writeMsix off v).Inv := h.frame

theorem State.Inv.write32At {off v} (h : s.Inv) : (s.write32At off v).Inv := by
  unfold State.write32At
  refine inv_ite h.resetRequest ?_
  refine inv_ite h.doorbell ?_
  split
  exacts [h.writeSqCtrl, h.writeRqCtrl, h.putRing, inv_ite h.putRing h]

theorem State.Inv.write32 {off v} (h : s.Inv) : (s.write32 off v).Inv := by
  unfold State.write32
  split
  exacts [h.badAccess, h.badAccess, h.badAccess, h.write32At, h.write32At, h.writeMsix, inv_ite h.frame h.frame.write64]

theorem State.Inv.dropHeld {off} (h : s.Inv) : (s.dropHeld off).Inv := by
  unfold State.dropHeld
  split
  exacts [h, inv_ite h h.frame.badAccess]

theorem State.Inv.write64Any {off v} (h : s.Inv) : (s.write64Any off v).Inv := by
  unfold State.write64Any
  split
  · exact h.frame.write64
  · split
    exacts [h.badAccess, h.badAccess.write32, h.write32.write32]

theorem State.Inv.hostWriteReg {off width v full} (h : s.Inv) : (s.hostWriteReg off width v full).Inv :=
  inv_ite h (inv_ite (inv_ite h.resetRequest h) (inv_ite h.dropHeld.badAccess (inv_ite h.dropHeld.write64Any h.dropHeld.write32)))

theorem State.Inv.host32 {off v} (h : s.Inv) : (s.host32 off v).Inv := h.hostWriteReg

/-! ## Reads (R441, R442) -/

theorem State.Inv.read32 {off} (h : s.Inv) : (s.read32 off).Inv := by
  unfold State.read32
  split
  exacts [inv_ite h.frame h.frame, inv_ite h.frame h.frame, h.frame]

/-! ## The rows -/

theorem execLowHalfRead_keeps {off} (h : s.Inv) : (execLowHalfRead off s).Keeps := keeps_next (inv_ite h.read32 h)

theorem execConfigSpaceWrite_keeps {msixEnable functionMask} (h : s.Inv) : (execConfigSpaceWrite msixEnable functionMask s).Keeps :=
  keeps_next (inv_ite h.frame h)

/-! ## Rounds (R292, R293) -/

theorem State.Inv.startRound {k c r} (h : s.Inv) : (startRound s k c r).Inv := h.putCtx.startProgram.wake

theorem State.Inv.openRound {k c g} (h : s.Inv) : (openRound s k c g).Inv := by
  unfold Machine.openRound
  refine inv_ite h ?_
  split
  · dsimp only
    split
    exacts [h.putCtx.addHold, inv_ite h.putCtx.addHold.startRound h.putCtx.addHold.wake]
  · dsimp only
    split
    exacts [h.store.putCtx.addHold, inv_ite h.store.putCtx.addHold.startRound h.store.putCtx.addHold.wake]

theorem execRoundStart_keeps {k} (h : s.Inv) : (execRoundStart k s).Keeps := by
  unfold Machine.execRoundStart
  refine withCtx_keeps h fun _ => ?_
  split
  · exact h
  · split
    exacts [inv_ite h.startRound (inv_ite h h.openRound), inv_ite h h.openRound]

/-! ## Admission and KV slots (R294) -/

theorem withRollout_keeps {k r i} {f : Ctx → GenTable → RoundRun → RolloutRun → State} (h : s.Inv) (hf : ∀ c g r x, (f c g r x).Inv) :
    (withRollout k r i s f).Keeps := by
  refine withCtx_keeps h fun c => ?_
  split
  · split
    exacts [h, hf _ _ _ _]
  · exact h

theorem State.Inv.setRollout {k round x} (h : s.Inv) : (s.setRollout k round x).Inv := h.updCtx

theorem State.Inv.takeSlot {k g x} (h : s.Inv) : (takeSlot s k g x).1.Inv := by
  unfold Machine.takeSlot
  split
  exacts [h.frame, h.putCtx.store.frame]

theorem State.Inv.takeSlotsGo {k round g n x} (h : s.Inv) : (takeSlotsGo k round g n s x).1.Inv := by
  induction n generalizing s x with
  | zero => exact h
  | succ n ih => exact ih h.takeSlot.setRollout

theorem State.Inv.takeSlots {k round g x n} (h : s.Inv) : (takeSlots s k round g x n).1.Inv := h.takeSlotsGo.frame

theorem execRolloutAdmission_keeps {k round ix} (h : s.Inv) : (execRolloutAdmission k round ix s).Keeps :=
  withRollout_keeps h fun _ _ _ _ => inv_ite h (inv_ite h.takeSlots.setRollout.frame h)

/-! ## Token choice (R295, R296) -/

theorem execTokenChoice_keeps {k round ix logits} (h : s.Inv) : (execTokenChoice k round ix logits s).Keeps :=
  withRollout_keeps h fun _ _ _ _ => inv_ite h (inv_ite h.setRollout (inv_ite h.setRollout.raise h.takeSlots.setRollout.frame))

/-! ## The end of a rollout (R294, R297, R298, R304) -/

theorem State.Inv.closeRound {k round} (h : s.Inv) : (closeRound s k round).Inv := by
  unfold Machine.closeRound
  split
  · exact h
  · split
    exacts [h, inv_ite h.putCtx.settle h]

theorem execRolloutEnd_keeps {k round ix} (h : s.Inv) : (execRolloutEnd k round ix s).Keeps :=
  withRollout_keeps h fun _ _ _ _ => inv_ite h h.spend.spend.putCtx.store.store.setRollout.produce.closeRound

/-! ## Publication (R302 to R304) -/

theorem State.Inv.setPub {k p} (h : s.Inv) : (s.setPub k p).Inv := h.updCtx

theorem State.Inv.deliverVersion {kt version bytes tracked} {t : State} (h : s.Inv) (found : deliverVersion s kt version bytes tracked = some t) : t.Inv := by
  unfold Machine.deliverVersion at found
  split at found
  · cases found
  · split at found
    · cases found
    · split at found <;> cases found
      exact h.putCtx.store

theorem State.Inv.sendVersion {k c l b entry} (h : s.Inv) : (sendVersion s k c l b entry).Inv :=
  h.spend.peerWriteGo.spend.peerWriteGo.frame

theorem State.Inv.publishOne {k c l p} {t : State} (h : s.Inv) (found : publishOne s k c l p = some t) : t.Inv := by
  unfold Machine.publishOne at found
  split at found
  · cases found
  · split at found
    · cases found
    · dsimp only at found
      split at found
      · cases found
        exact h.setPub.sendVersion
      · exact h.setPub.deliverVersion found

/-- What an optional state puts in a state's place keeps the standing properties where each such state has them. -/
theorem inv_getD {o : Option State} (h : s.Inv) (ho : ∀ t, o = some t → t.Inv) : (o.getD s).Inv := by
  cases o with
  | none => exact h
  | some t => exact ho t rfl

theorem execWeightPublication_keeps {k} (h : s.Inv) : (execWeightPublication k s).Keeps := by
  refine withCtx_keeps h fun c => ?_
  split
  · exact h
  · refine inv_getD h fun t found => ?_
    obtain ⟨p, -, published⟩ := List.exists_of_findSome?_eq_some found
    exact h.publishOne published

theorem State.Inv.makeVersionCurrent {kt digest} (h : s.Inv) : (makeVersionCurrent s kt digest).Inv := h.updCtx

theorem State.Inv.endPublication {k p code} (h : s.Inv) : (endPublication s k p code).Inv := by
  unfold Machine.endPublication
  dsimp only
  split
  exacts [h.setPub.endHolds.afterRelease, inv_foldl h.setPub.endHolds.afterRelease fun _ _ h => h.complete]

theorem State.Inv.failPublication {k c p} (h : s.Inv) : (failPublication s k c p).Inv := by
  unfold Machine.failPublication
  dsimp only
  split
  exacts [h.raise.chargeRank.chargeRank.spend.endPublication, h.raise.chargeRank.chargeRank.discardPending.spend.endPublication]

theorem State.Inv.takeArrived {k c a} (h : s.Inv) : (takeArrived s k c a).Inv := by
  unfold Machine.takeArrived
  split
  · exact h
  · split
    · dsimp only
      split
      exacts [h.putCtx, h, h.putCtx.makeVersionCurrent]
    · exact h

theorem State.Inv.resend {k c l b p} (h : s.Inv) : (resend s k c l b p).Inv := by
  refine inv_ite ?_ h.failPublication
  dsimp only
  split
  · exact h.setPub.sendVersion
  · exact inv_getD h.setPub fun t found => h.setPub.discardPending.deliverVersion found

theorem execPublicationDigestCheck_keeps {k entry held} (h : s.Inv) : (execPublicationDigestCheck k entry held s).Keeps := by
  unfold Machine.execPublicationDigestCheck
  refine withCtx_keeps h fun _ => ?_
  refine inv_ite h.takeArrived ?_
  split
  · split
    · exact h
    · split
      · exact inv_ite h.endPublication h.resend
      · dsimp only
        split
        exacts [h.putCtx, h.makeVersionCurrent.endPublication, h.resend]
  · exact h

/-! ## Checkpoints (R305 to R307) -/

theorem State.Inv.hostWrite {k a bytes} (h : s.Inv) : (s.hostWrite k a bytes).Inv := by
  unfold State.hostWrite
  split
  exacts [h, inv_ite h.busWrite h]

theorem State.Inv.writeCheckpoint {k c l b cmd} (h : s.Inv) : (writeCheckpoint s k c l b cmd).Inv := by
  unfold Machine.writeCheckpoint
  refine (State.Inv.updCtx ?_).frame
  refine State.Inv.addHold ?_
  split
  exacts [h.spend.spend.store, h.spend.spend.store.hostWrite]

theorem execCheckpointStart_keeps {k} (h : s.Inv) : (execCheckpointStart k s).Keeps := by
  unfold Machine.execCheckpointStart
  refine withCtx_keeps h fun _ => ?_
  split
  · exact h
  · split
    exacts [h, inv_ite h h.writeCheckpoint]

theorem State.Inv.endCheckpoint {k ck keep} (h : s.Inv) : (endCheckpoint s k ck keep).Inv := h.updCtx.dropHold.afterRelease

theorem execCheckpointComplete_keeps {k} (h : s.Inv) : (execCheckpointComplete k s).Keeps := by
  unfold Machine.execCheckpointComplete
  refine withCtx_keeps h fun _ => ?_
  split
  · exact h
  · split
    exacts [h.endCheckpoint, h.endCheckpoint.complete]

theorem execCheckpointDeadlineExpiry_keeps {k} (h : s.Inv) : (execCheckpointDeadlineExpiry k s).Keeps := by
  unfold Machine.execCheckpointDeadlineExpiry
  refine withCtx_keeps h fun _ => ?_
  split
  exacts [h, inv_ite h.endCheckpoint h]

/-! ## NOP and OPEN_SESSION (12 R354, R355) -/

theorem execNop_keeps {id} (h : s.Inv) : (execNop id s).Keeps := withCmd_keeps h fun _ => h.complete

theorem execOpenSession_keeps {id} (h : s.Inv) : (execOpenSession id s).Keeps := by
  unfold Machine.execOpenSession
  refine withCmd_keeps h fun _ => ?_
  refine h.checked ?_
  split
  exacts [h.complete, inv_ite h.refuse h.frame.complete]

/-! ## LOAD_PROGRAM (05 R155, 12 R357) -/

theorem execLoadProgram_keeps {id} (h : s.Inv) : (execLoadProgram id s).Keeps := by
  unfold Machine.execLoadProgram
  refine withCtxCmd_keeps h fun _ _ _ => ?_
  refine h.checked ?_
  split
  · dsimp only
    split
    exacts [h.spend.complete, h.spend.putCtx.complete]
  · dsimp only
    split
    exacts [h.complete, h.putCtx.complete]

/-! ## MAP_MEMORY (12 R336, R357, R464, 07 R209, 14 R385) -/

theorem State.Inv.changeEntry {id index replaced} (h : s.Inv) : (s.changeEntry id index replaced).Inv := inv_ite h.markCmd h.complete

theorem State.Inv.mapMemory {id c k x} (h : s.Inv) : (s.mapMemory id c k x).Inv := by
  unfold State.mapMemory
  split
  · exact h.checked h.putCtx.complete
  · exact h.checked h.putCtx.complete
  · exact h.checked h.frame.changeEntry
  · exact h.checked h.frame.changeEntry

theorem execMapMemory_keeps {id} (h : s.Inv) : (execMapMemory id s).Keeps := by
  unfold Machine.execMapMemory
  split
  exacts [keeps_ite (keeps_next (inv_ite h h.complete)) (withCtxCmd_keeps h fun _ _ _ => h.mapMemory), keeps_next h]

/-! ## CREATE_CONTEXT (12 R358, 13 R362 to R366) -/

theorem execCreateContext_keeps {id} (h : s.Inv) : (execCreateContext id s).Keeps := by
  unfold Machine.execCreateContext
  refine withCmd_keeps h fun _ => ?_
  split
  · exact h
  · split
    exacts [State.Inv.refuse (inv_ite h.raise h), h.makeContext.complete]

/-! ## SET_POWER_LIMIT (15 R400) -/

theorem execSetPowerLimit_keeps {id} (h : s.Inv) : (execSetPowerLimit id s).Keeps := withCmd_keeps h fun _ => h.checked h.frame.complete

/-! ## Attention (12 R350, R353, R357) -/

theorem execQueryAttention_keeps {id} (h : s.Inv) : (execQueryAttention id s).Keeps :=
  withCmd_keeps h fun _ => h.checked (State.Inv.complete (inv_ite h h.busWrite))

theorem execAckAttention_keeps {id} (h : s.Inv) : (execAckAttention id s).Keeps :=
  withCmd_keeps h fun _ => h.checked (State.Inv.complete ⟨h.1, by unfold Attention.bounded; rw [List.length_map]; exact h.2⟩)

/-! ## READ_CAPTURE (14 R385) -/

theorem execReadCapture_keeps {id} (h : s.Inv) : (execReadCapture id s).Keeps := by
  unfold Machine.execReadCapture
  refine withCmd_keeps h fun _ => ?_
  split
  exacts [h.refuse, h.checked (((inv_ite h.busWrite.spend h.busWrite).frame).complete)]

/-! ## RESET_DOMAIN (12 R357, 14 R389, R399) -/

theorem execResetDomain_keeps {id} (h : s.Inv) : (execResetDomain id s).Keeps := by
  unfold Machine.execResetDomain
  refine withCmd_keeps h fun _ => ?_
  refine h.checked ?_
  refine inv_ite h.complete.resetDomain ?_
  split
  · dsimp only
    split
    exacts [h.begin.refuse, h.begin.resetDomain]
  · exact h.begin.resetDomain

/-! ## Expiry (12 R348, 14 R381 to R384, R399) -/

theorem State.Inv.hang {c k x} (h : s.Inv) : (s.hang c k x).Inv :=
  inv_ite h.complete h.capture.raise.complete.completeAll.tellFailures.beginClose.updCtx.resetDomain

theorem State.Inv.expireReset {c} (h : s.Inv) : (s.expireReset c).Inv := by
  unfold State.expireReset
  split
  exacts [h.complete, inv_ite h.complete.frame.escalate h.complete.frame]

theorem execCommandDeadlineExpiry_keeps {id} (h : s.Inv) : (execCommandDeadlineExpiry id s).Keeps := by
  unfold Machine.execCommandDeadlineExpiry
  refine keeps_next ?_
  split
  · exact h
  · split
    · exact h
    · refine inv_ite h ?_
      refine inv_ite h.complete ?_
      refine inv_ite h.expireReset ?_
      split
      exacts [h.hang, h.restartPair.complete]

/-! ## The calm ratio (R405) -/

theorem execPowerEvaluation_keeps {raw temps} (h : s.Inv) : (execPowerEvaluation raw temps s).Keeps :=
  keeps_next (inv_ite h (inv_ite h.frame.raise h.frame))

/-! ## The interval of 1 ms (R403, R404, R406) -/

theorem execPowerInterval_keeps {measured} (h : s.Inv) : (execPowerInterval measured s).Keeps := keeps_next (inv_ite h.frame h)

theorem execPowerDisagreement_keeps (h : s.Inv) : (execPowerDisagreement s).Keeps := by
  refine keeps_next (inv_ite h ?_)
  extract_lets power again warned
  have raised : warned.Inv := State.Inv.raise h.frame
  split
  exacts [inv_ite (State.Inv.spend raised.frame) (State.Inv.raise (State.Inv.spend raised.frame)), State.Inv.raise raised.frame]

theorem execLimitUnreachable_keeps (h : s.Inv) : (execLimitUnreachable s).Keeps := keeps_next (inv_ite h h.frame.raise)

/-! ## The voltage loop (R410) -/

theorem execVoltageLoopStep_keeps (h : s.Inv) : (execVoltageLoopStep s).Keeps := keeps_next (inv_ite h h.frame)

/-! ## Fast limit, brake, trips (R407, R408, R411, R454) -/

theorem execFastLimitTrip_keeps (h : s.Inv) : (execFastLimitTrip s).Keeps := keeps_next (inv_ite h (inv_ite h.frame.raise h.frame))

theorem execFastLimitEnd_keeps (h : s.Inv) : (execFastLimitEnd s).Keeps := by
  unfold Machine.execFastLimitEnd
  refine keeps_next ?_
  split
  exacts [h, inv_ite h.frame h]

theorem State.Inv.brakeOn (h : s.Inv) : s.brakeOn.Inv := inv_ite h.frame.raise h.frame

theorem execPwrbrakeAssert_keeps (h : s.Inv) : (execPwrbrakeAssert s).Keeps := keeps_next (inv_ite h.frame.brakeOn h.frame)

theorem execPwrbrakeRelease_keeps (h : s.Inv) : (execPwrbrakeRelease s).Keeps := keeps_next h.frame

theorem execRailMonitorExcursion_keeps {die} (h : s.Inv) : (execRailMonitorExcursion die s).Keeps :=
  withUnit_keeps (inv_ite h.resetDomain h)

/-! ## Measurements and signatures (R426, R428) -/

theorem State.Inv.signed (h : s.Inv) : s.signed.Inv := h.frame

/-! ## ATTEST (R428) -/

theorem execAttest_keeps {id} (h : s.Inv) : (execAttest id s).Keeps :=
  withCmd_keeps h fun _ => h.checked (inv_ite h.complete ((State.Inv.busWrite (inv_ite h h.signed)).complete))

/-! ## REINSTATE (R419, R422, R429, 14 R397) -/

theorem State.Inv.reinstate {id} (h : s.Inv) : (s.reinstate id).Inv := h.frame.complete.beginReset

theorem execReinstate_keeps {id host} (h : s.Inv) : (execReinstate id host s).Keeps :=
  withCmd_keeps h fun _ => inv_ite h.complete (h.checked (inv_ite h.complete h.reinstate))

/-! ## SPDM (R427, R432) -/

theorem withSpdm_keeps {n} {t : State} (h : s.Inv) (ht : t.Inv) : (withSpdm n s t).Keeps := keeps_next (inv_ite ht h)

theorem State.Inv.respond {transport m} (h : s.Inv) : (s.respond transport m).Inv := h.frame

theorem State.Inv.answer {transport request ready} {t : State} (h : s.Inv) (ht : t.Inv) : (s.answer transport request ready t).Inv := inv_ite ht h.respond

theorem execGetVersion_keeps {transport} (h : s.Inv) : (execGetVersion transport s).Keeps := withSpdm_keeps h h.frame.respond

theorem execGetCapabilities_keeps {transport} (h : s.Inv) : (execGetCapabilities transport s).Keeps :=
  withSpdm_keeps h (h.answer h.frame.respond)

theorem execNegotiateAlgorithms_keeps {transport sha3Offered mldsaOffered} (h : s.Inv) : (execNegotiateAlgorithms transport sha3Offered mldsaOffered s).Keeps :=
  withSpdm_keeps h (h.answer h.frame.respond)

theorem execGetDigests_keeps {transport} (h : s.Inv) : (execGetDigests transport s).Keeps := withSpdm_keeps h (h.answer h.respond)

theorem execGetCertificate_keeps {transport slot offset len} (h : s.Inv) : (execGetCertificate transport slot offset len s).Keeps :=
  withSpdm_keeps h (h.answer h.respond)

theorem execChallenge_keeps {transport slot nonce} (h : s.Inv) : (execChallenge transport slot nonce s).Keeps :=
  withSpdm_keeps h (h.answer (inv_ite h.signed.respond h.respond))

theorem execGetMeasurements_keeps {transport index sign nonce} (h : s.Inv) : (execGetMeasurements transport index sign nonce s).Keeps :=
  withSpdm_keeps h (h.answer (inv_ite h.respond (inv_ite h.signed.respond h.respond)))

theorem execSpdmUnsupportedRequest_keeps {transport code} (h : s.Inv) : (execSpdmUnsupportedRequest transport code s).Keeps :=
  withSpdm_keeps h h.respond

/-! ## Images (16 R419, R422) -/

theorem State.Inv.bootFails {code t} (h : s.Inv) : (s.bootFails code t).Inv := h.frame

theorem State.Inv.loadImage {t b} (h : s.Inv) : (s.loadImage t b).Inv := h.frame

theorem State.Inv.loadType {t} (h : s.Inv) : (s.loadType t).Inv := inv_ite h.loadImage (inv_ite h.frame.raise h.spend.bootFails)

theorem State.Inv.thenType {t} (h : s.Inv) : (s.thenType t).Inv := inv_ite h h.loadType

theorem State.Inv.atStage {n} (h : s.Inv) : (s.atStage n).Inv := inv_ite h h.frame

/-! ## Stages (R421, R425) -/

theorem State.Inv.readHealth (h : s.Inv) : s.readHealth.Inv := inv_ite h.frame (inv_ite h.frame h.bootFails)

theorem State.Inv.raiseFloors (h : s.Inv) : s.raiseFloors.Inv := inv_ite h h.frame

theorem State.Inv.isReady (h : s.Inv) : s.isReady.Inv := by
  unfold State.isReady
  refine inv_ite h ?_
  extract_lets _ floors retired folded
  have folded_inv : folded.Inv := inv_foldl (inv_foldl h.frame.raiseFloors fun _ _ h => inv_ite h h.degrade) fun _ _ h => inv_ite h.degrade h
  exact inv_ite folded_inv.brakeOn folded_inv

theorem State.Inv.configure (h : s.Inv) : s.configure.Inv := inv_ite h.bootFails (inv_ite h.bootFails h.frame)

theorem State.Inv.bootStage (h : s.Inv) : s.bootStage.Inv := by
  unfold State.bootStage
  refine inv_ite h.frame.bootFails ?_
  split
  · exact h.frame.atStage
  · exact inv_ite h.frame.atStage h.frame.bootFails
  · exact inv_ite h.frame.bootFails (inv_ite h.frame.bootFails h.frame.atStage)
  · exact h.frame.readHealth.atStage
  · exact h.frame.loadType.thenType.atStage
  · exact inv_ite h.frame.atStage h.frame.bootFails
  · exact h.frame.configure
  · exact h.frame.loadType.thenType.isReady
  · exact h.frame

theorem execBoot_keeps (h : s.Inv) : (execBoot s).Keeps := keeps_next (inv_ite h.bootStage h)

theorem execFlashTransactionTimeout_keeps (h : s.Inv) : (execFlashTransactionTimeout s).Keeps :=
  keeps_next (inv_ite (inv_ite h.frame h.frame.bootFails) h)

theorem execFirmwareUpdate_keeps {typ version verifies digestOk serial} (h : s.Inv) : (execFirmwareUpdate typ version verifies digestOk serial s).Keeps :=
  keeps_next (inv_ite h (inv_ite h.frame h.frame))

/-! ## Supply (18 R456 to R459, 15 R413) -/

/-- Without power there is no memory and no log (18 R456). -/
theorem State.Inv.powerLost {pins} : (s.powerLost pins).Inv := ⟨reset_memory_wf, Nat.zero_le _⟩

theorem execInputPowerApplied_keeps (h : s.Inv) : (execInputPowerApplied s).Keeps := keeps_next h.frame

theorem execPwrEnRise_keeps (h : s.Inv) : (execPwrEnRise s).Keeps := keeps_next (inv_ite h (inv_ite h.frame h.frame))

theorem execPwrEnFall_keeps (h : s.Inv) : (execPwrEnFall s).Keeps := keeps_next (inv_ite State.Inv.powerLost h)

theorem execInputVoltageFault_keeps : (execInputVoltageFault s).Keeps := keeps_next State.Inv.powerLost

theorem execThermalTrip_keeps (h : s.Inv) : (execThermalTrip s).Keeps := keeps_next (inv_ite State.Inv.powerLost h)

/-! ## Reset pins and the link (18 R453, R459, 12 R333, R334) -/

theorem State.Inv.pinReset (h : s.Inv) : s.pinReset.Inv := inv_ite h.moduleReset h

theorem State.Inv.bootAgain (h : s.Inv) : s.bootAgain.Inv := h.frame

theorem execModResetNAssert_keeps (h : s.Inv) : (execModResetNAssert s).Keeps := keeps_next (inv_ite h.frame.pinReset.bootAgain h)

theorem execModResetNRelease_keeps (h : s.Inv) : (execModResetNRelease s).Keeps := keeps_next h.frame

theorem execPerstNAssert_keeps (h : s.Inv) : (execPerstNAssert s).Keeps := keeps_next (inv_ite h.frame.pinReset h)

theorem execPerstNRelease_keeps (h : s.Inv) : (execPerstNRelease s).Keeps := keeps_next h.frame

theorem execFunctionLevelReset_keeps (h : s.Inv) : (execFunctionLevelReset s).Keeps := keeps_next (inv_ite h.moduleReset h)

theorem State.Inv.linkDown (h : s.Inv) : s.linkDown.Inv := h.frame

theorem execHotReset_keeps (h : s.Inv) : (execHotReset s).Keeps := keeps_next (inv_ite h.frame.linkDown h)

theorem execLinkTrained_keeps {speed width} (h : s.Inv) : (execLinkTrained speed width s).Keeps :=
  keeps_next (inv_ite (inv_ite h.frame.raise h.frame) h)

theorem execRefclkLoss_keeps (h : s.Inv) : (execRefclkLoss s).Keeps := keeps_next h.frame.linkDown

theorem execRefclkReturn_keeps (h : s.Inv) : (execRefclkReturn s).Keeps := keeps_next h.frame

/-! ## SMBus and TAP (18 R449, R453, R455) -/

theorem execSmbusTransaction_keeps {addr} (h : s.Inv) : (execSmbusTransaction addr s).Keeps := keeps_next (inv_ite h.frame h)

theorem execSmbusClockTimeout_keeps (h : s.Inv) : (execSmbusClockTimeout s).Keeps := keeps_next (inv_ite h.frame h)

theorem execTapInstruction_keeps {ir} (h : s.Inv) : (execTapInstruction ir s).Keeps := keeps_next (inv_ite h.frame h)

/-! ## Schedule, caravan, pre-emption, restore and teardown rows -/

theorem execSliceBoundary_keeps (h : s.Inv) : (execSliceBoundary s).Keeps := keeps_next h.schedule

/-! ## The caravan (R372 to R374) -/

theorem execCaravanTableActivation_keeps (h : s.Inv) : (execCaravanTableActivation s).Keeps := by
  unfold Machine.execCaravanTableActivation
  refine keeps_next ?_
  split
  exacts [h, inv_ite h.frame h]

theorem State.Inv.clearFor {k opens x} (h : s.Inv) : (s.clearFor k opens x).Inv := inv_ite h.askToLeave.frame.raise h.askToLeave

theorem execCaravanLeadTime_keeps {i} (h : s.Inv) : (execCaravanLeadTime i s).Keeps := by
  unfold Machine.execCaravanLeadTime
  refine keeps_next ?_
  split
  · exact h
  · split
    exacts [h, inv_ite (inv_foldl h.frame fun _ _ h => h.clearFor) h]

theorem execCaravanWindowOpen_keeps {i} (h : s.Inv) : (execCaravanWindowOpen i s).Keeps := by
  unfold Machine.execCaravanWindowOpen
  refine keeps_next ?_
  split
  · exact h
  · split
    · exact h
    · refine inv_ite ?_ h
      dsimp only
      split
      exacts [h.frame, inv_ite h.frame.putCtx.settleCores h.frame]

theorem execCaravanWindowClose_keeps {i} (h : s.Inv) : (execCaravanWindowClose i s).Keeps := by
  unfold Machine.execCaravanWindowClose
  refine keeps_next ?_
  split
  · exact h
  · refine inv_ite ?_ h
    split
    · dsimp only
      split
      exacts [h.frame, inv_ite h.frame.askToLeave h.frame.putCtx]
    · dsimp only
      split
      exacts [h.frame, inv_ite h.frame h.frame.putCtx]

/-! ## Pre-emption and restore (R375 to R377, R380) -/

theorem execPreemptionSaveComplete_keeps {k} (h : s.Inv) : (execPreemptionSaveComplete k s).Keeps :=
  withCtx_keeps h fun _ => inv_ite (State.Inv.settleCores (inv_foldl ((State.Inv.saveAll (inv_ite h (inv_foldl h fun _ _ h => h.settleAt))).updCtx) fun _ _ h
      => inv_foldl h fun _ _ h => h.boundaryCore)) h

theorem execRestoreComplete_keeps {k} (h : s.Inv) : (execRestoreComplete k s).Keeps :=
  withCtx_keeps h fun _ => inv_ite h.putCtx.becomeRunning h

/-! ## Teardown (R379) -/

theorem execTeardownTimeout_keeps {k} (h : s.Inv) : (execTeardownTimeout k s).Keeps := by
  unfold Machine.execTeardownTimeout
  refine withCtx_keeps h fun _ => ?_
  refine inv_ite ?_ h
  split
  · exact h.escalate
  · exact h.resetDies
  · refine inv_foldl ?_ fun _ _ h => ?_
    · refine State.Inv.updCtx ?_
      split
      exacts [h.capture, h.capture.complete]
    · exact h.resetDomain

/-! ## BAR2 (12 R335, 07 R195, R213) -/

theorem State.Inv.hostBad (h : s.Inv) : s.hostBad.Inv := h.frame

theorem execBar2Read_keeps {off len} (h : s.Inv) : (execBar2Read off len s).Keeps :=
  keeps_next (inv_ite (inv_ite (inv_ite h.frame.raise h.frame) h.frame.hostBad) h)

theorem execBar2Write_keeps {off bytes} (h : s.Inv) : (execBar2Write off bytes s).Keeps := by
  unfold Machine.execBar2Write
  refine keeps_next ?_
  refine inv_ite ?_ h
  split
  exacts [h.store, h.store, h.hostBad]

/-! ## DESTROY_CONTEXT (12 R361, 13 R378) -/

theorem State.Inv.destroy {id k x} (h : s.Inv) : (s.destroy id k x).Inv := h.completeAll.completeAll.tellFailures.beginClose.updCtx

theorem execDestroyContext_keeps {id} (h : s.Inv) : (execDestroyContext id s).Keeps := withCtxCmd_keeps h fun _ _ _ => h.begin.destroy

/-! ## RUN (12 R359) -/

theorem execRun_keeps {id} (h : s.Inv) : (execRun id s).Keeps := withCtxCmd_keeps h fun _ _ _ => h.checked h.begin.startProgram.wake

/-! ## STEP (01 R26, 12 R359, 09 R256) -/

theorem execStep_keeps {id} (h : s.Inv) : (execStep id s).Keeps := withCtxCmd_keeps h fun _ _ _ => h.checked h.begin.putCtx.wake

/-! ## PUBLISH_WEIGHTS (12 R360, 10 R302, R303) -/

theorem State.Inv.publishTo {k id version p} (h : s.Inv) : (s.publishTo k id version p).Inv := h.setPub.holdToPublish.endHolds

theorem execPublishWeights_keeps {id} (h : s.Inv) : (execPublishWeights id s).Keeps :=
  withCtxCmd_keeps h fun _ _ _ => h.checked (inv_ite h.complete (inv_foldl h.begin fun _ _ h => h.publishTo))

/-! ## CHECKPOINT (12 R360, 10 R305) -/

theorem execCheckpoint_keeps {id} (h : s.Inv) : (execCheckpoint id s).Keeps := withCtxCmd_keeps h fun _ _ _ => h.checked h.begin

/-! ## SET_SHARES (12 R357, 13 R369, R380) -/

theorem execSetShares_keeps {id} (h : s.Inv) : (execSetShares id s).Keeps := withCtxCmd_keeps h fun _ _ _ => h.checked h.putCtx.complete

/-! ## SET_CARAVAN_TABLE (13 R372) -/

theorem execSetCaravanTable_keeps {id} (h : s.Inv) : (execSetCaravanTable id s).Keeps :=
  withCmd_keeps h fun _ => inv_ite h.frame.complete (h.checked h.frame.complete)

/-! ## RESTORE -/

theorem State.Inv.storeEach {l} (h : s.Inv) : (s.storeEach l).Inv := by
  induction l generalizing s with
  | nil => exact h
  | cons x l ih => exact ih h.store

theorem State.Inv.restoreFrom {k id c l z manifest stream} {t : State} (h : s.Inv) (found : s.restoreFrom k id c l z manifest stream = some t) : t.Inv := by
  obtain ⟨-, found⟩ := Option.ite_none_right_eq_some.1 found
  obtain rfl := Option.some.inj found
  refine State.Inv.frame (s := State.updCtx _ k _) ?_
  exact State.Inv.updCtx (State.Inv.store (State.Inv.storeEach (State.Inv.storeEach (State.Inv.store (State.Inv.store (State.Inv.store h))))))

theorem execRestore_keeps {id host} (h : s.Inv) : (execRestore id host s).Keeps := by
  refine withCtxCmd_keeps h fun c k x => h.checked ?_
  split
  · exact h.refuse
  · dsimp only
    split
    next found =>
      obtain ⟨m, -, found⟩ := Option.bind_eq_some_iff.1 found
      obtain ⟨b, -, found⟩ := Option.bind_eq_some_iff.1 found
      exact (h.restoreFrom found).complete
    · exact h.spend.complete

/-! ## Row-engine rows -/

theorem rowRow_keeps {op errs f k l} (h : s.Inv) : (rowRow op errs f k l s).Keeps := engineRow_keeps h

/-! ## Vector rows and gr.draw -/

theorem vectorRow_keeps {op errs f k l} (h : s.Inv) : (vectorRow op errs f k l s).Keeps := engineRow_keeps h

/-! ## Each command, and the step -/

/-- Each command keeps the standing properties: rows of one engine share a lemma, every other has its own. -/
theorem exec_keeps (i : Instr) (h : s.Inv) : Out.Keeps (exec i s) := by
  cases i with dsimp only [exec]
  | vxLd | vxSt | vxAdd | vxSub | vxMul | vxFma | vxMin | vxMax | vxSel | vxCvt | vxCvtmx | vxLdmx | vxRcp | vxRsq | vxExp2 | vxLog2 | vxSqrt
    | vxPadd | vxPmul | vxPfma | vxIadd | vxIsub | vxImul | vxAnd | vxOr | vxXor | vxShl | vxShr | vxSra | vxRsum | vxRmax | vxNfc | vxM48add
    | vxM48fma | vxM48cvt | vxLi => exact vectorRow_keeps h
  | seqNop | seqLoop | seqEndl | seqBrlc | seqFence | seqLi | seqLih | seqAddi | seqAdd | seqSub | seqMul | seqAnd | seqOr | seqXor | seqShl
    | seqShr | seqRdlc | seqRdid | ckRdf | ckClrf | ckCap | ckPoison | gtClr => exact seqRow_keeps h
  | rowStat | rowMerge | rowApply | rowBwd | rowKeep | rowFetch => exact rowRow_keeps h
  | netSend | netMcast | mxStat | grDraw => exact engineRow_keeps h
  | doorbellWrite | rqTailWrite | rqArmWrite | sqEnable | sqDisable | rqEnable | rqDisable | ringErrorClear => exact withRing_keeps fun _ => h.host32
  | wqPost | wqWatch => exact withQueue_keeps (engineRow_keeps h)
  | mxSpill | mxDrain => exact engineRowWith_keeps h fun _ _ _ _ _ h => h.tapClose
  | resetRequestModule | resetRequestRetrain | lowHalfWrite => exact keeps_next h.host32
  | winBaseWrite | registerWrite => exact keeps_next h.hostWriteReg
  | seqWaitSt => exact execSeqWaitSt_keeps h
  | stTargetReached => exact execStTargetReached_keeps h
  | gtVote => exact execGtVote_keeps h
  | gtWait => exact execGtWait_keeps h
  | sequencerDispatch => exact execSequencerDispatch_keeps h
  | instructionCompletion => exact execInstructionCompletion_keeps h
  | watchFire => exact execWatchFire_keeps h
  | waitLimitExpiry => exact execWaitLimitExpiry_keeps h
  | contextFaultStop => exact execContextFaultStop_keeps h
  | teardownQuiescence => exact execTeardownQuiescence_keeps h
  | rippleBoundary => exact execRippleBoundary_keeps h
  | onDiePacketArrival => exact execOnDiePacketArrival_keeps h
  | wadiDescriptorStart => exact execWadiDescriptorStart_keeps h
  | wadiRequestIssue => exact execWadiRequestIssue_keeps h
  | wadiDescriptorCompletion => exact execWadiDescriptorCompletion_keeps h
  | memoryRequest => exact execMemoryRequest_keeps h
  | wadiDataArrival => exact execWadiDataArrival_keeps h
  | wadiResponseTimeout => exact execWadiResponseTimeout_keeps h
  | hostReadCompletion => exact execHostReadCompletion_keeps h
  | memoryRefresh => exact execMemoryRefresh_keeps h
  | patrolScrub => exact execPatrolScrub_keeps h
  | rowRepair => exact execRowRepair_keeps h
  | dataMoveComplete => exact execDataMoveComplete_keeps h
  | stackTemperatureRead => exact execStackTemperatureRead_keeps h
  | dataFrameReceive => exact execDataFrameReceive_keeps h
  | controlFrameReceive => exact execControlFrameReceive_keeps h
  | idleFrameReceive => exact execIdleFrameReceive_keeps h
  | ackTimeout => exact execAckTimeout_keeps h
  | portTraining => exact execPortTraining_keeps h
  | trainingRateFallback => exact execTrainingRateFallback_keeps h
  | laneQualification => exact execLaneQualification_keeps h
  | laneErrorThreshold => exact execLaneErrorThreshold_keeps h
  | laneSwap => exact execLaneSwap_keeps h
  | discoveryFrameReceive => exact execDiscoveryFrameReceive_keeps h
  | discoveryFrameSend => exact execDiscoveryFrameSend_keeps h
  | controlFrameSend => exact execControlFrameSend_keeps h
  | partnerSilenceTimeout => exact execPartnerSilenceTimeout_keeps h
  | departureNotice => exact execDepartureNotice_keeps h
  | routeAbsenceTimeout => exact execRouteAbsenceTimeout_keeps h
  | managementRelay => exact execManagementRelay_keeps h
  | seifPacketArrival => exact execSeifPacketArrival_keeps h
  | writeAcknowledgement => exact execWriteAcknowledgement_keeps h
  | peerWriteTimeout => exact execPeerWriteTimeout_keeps h
  | linkWindowOpen => exact execLinkWindowOpen_keeps h
  | linkWindowClose => exact execLinkWindowClose_keeps h
  | timestamp => exact execTimestamp_keeps h
  | grandmasterAnnouncement => exact execGrandmasterAnnouncement_keeps h
  | holdoverEntry => exact execHoldoverEntry_keeps h
  | holdoverLimit => exact execHoldoverLimit_keeps h
  | trefPpsEdge => exact execTrefPpsEdge_keeps h
  | tref10mDeviation => exact execTref10mDeviation_keeps h
  | tref10mAmplitudeLoss => exact execTref10mAmplitudeLoss_keeps h
  | tref10mRecovery => exact execTref10mRecovery_keeps h
  | collectiveStart => exact execCollectiveStart_keeps h
  | contributionArrival => exact execContributionArrival_keeps h
  | resendRequest => exact execResendRequest_keeps h
  | collectiveCompletion => exact execCollectiveCompletion_keeps h
  | collectiveDeadlineExpiry => exact execCollectiveDeadlineExpiry_keeps h
  | collectiveAbort => exact execCollectiveAbort_keeps h
  | pacingPeriodBoundary => exact execPacingPeriodBoundary_keeps h
  | pacing => exact execPacing_keeps h
  | seqTb => exact execSeqTb_keeps h
  | seqEnd => exact execSeqEnd_keeps h
  | mxMm => exact execMxMm_keeps h
  | mxMerge => exact execMxMerge_keeps h
  | mxClose => exact execMxClose_keeps h
  | mirageCheck => exact execMirageCheck_keeps h
  | mirageSelfTest => exact execMirageSelfTest_keeps h
  | recheckVerdict => exact execRecheckVerdict_keeps h
  | twinMismatch => exact execTwinMismatch_keeps h
  | sieveDue => exact execSieveDue_keeps h
  | sieveForced => exact execSieveForced_keeps h
  | sieveComplete => exact execSieveComplete_keeps h
  | suspectClearTimeout => exact execSuspectClearTimeout_keeps h
  | commandFetch => exact execCommandFetch_keeps h
  | replyWrite => exact execReplyWrite_keeps h
  | resetCompletion => exact execResetCompletion_keeps h
  | resetCompletionTimeout => exact execResetCompletionTimeout_keeps h
  | resetCountWindowExpiry => exact execResetCountWindowExpiry_keeps h
  | regulatorPhaseLoss => exact execRegulatorPhaseLoss_keeps h
  | oasisPairFailure => exact execOasisPairFailure_keeps h
  | serviceRestartComplete => exact execServiceRestartComplete_keeps h
  | mesaFailure => exact execMesaFailure_keeps h
  | commandStart => exact execCommandStart_keeps h
  | stepPhaseStart => exact execStepPhaseStart_keeps h
  | gateReport => exact execGateReport_keeps h
  | gateDecision => exact execGateDecision_keeps h
  | pendingVersionAllocation => exact execPendingVersionAllocation_keeps h
  | shardDigestComplete => exact execShardDigestComplete_keeps h
  | prepareReport => exact execPrepareReport_keeps h
  | decisionLog => exact execDecisionLog_keeps h
  | commit => exact execCommit_keeps h
  | commitTimeReached => exact execCommitTimeReached_keeps h
  | abort => exact execAbort_keeps h
  | failureReport => exact execFailureReport_keeps h
  | decisionQuery => exact execDecisionQuery_keeps h
  | decisionReply => exact execDecisionReply_keeps h
  | exchangeDeadlineExpiry => exact execExchangeDeadlineExpiry_keeps h
  | fenceRelease => exact execFenceRelease_keeps h
  | weightDigestComplete => exact execWeightDigestComplete_keeps h
  | tensorDigestComplete => exact execTensorDigestComplete_keeps h
  | cairnSignatureComplete => exact execCairnSignatureComplete_keeps h
  | ringSpaceFreed => exact execRingSpaceFreed_keeps h
  | lowHalfRead => exact execLowHalfRead_keeps h
  | configSpaceWrite => exact execConfigSpaceWrite_keeps h
  | roundStart => exact execRoundStart_keeps h
  | rolloutAdmission => exact execRolloutAdmission_keeps h
  | tokenChoice => exact execTokenChoice_keeps h
  | rolloutEnd => exact execRolloutEnd_keeps h
  | weightPublication => exact execWeightPublication_keeps h
  | publicationDigestCheck => exact execPublicationDigestCheck_keeps h
  | checkpointStart => exact execCheckpointStart_keeps h
  | checkpointComplete => exact execCheckpointComplete_keeps h
  | checkpointDeadlineExpiry => exact execCheckpointDeadlineExpiry_keeps h
  | nop => exact execNop_keeps h
  | openSession => exact execOpenSession_keeps h
  | loadProgram => exact execLoadProgram_keeps h
  | mapMemory => exact execMapMemory_keeps h
  | createContext => exact execCreateContext_keeps h
  | setPowerLimit => exact execSetPowerLimit_keeps h
  | queryAttention => exact execQueryAttention_keeps h
  | ackAttention => exact execAckAttention_keeps h
  | readCapture => exact execReadCapture_keeps h
  | resetDomain => exact execResetDomain_keeps h
  | commandDeadlineExpiry => exact execCommandDeadlineExpiry_keeps h
  | powerEvaluation => exact execPowerEvaluation_keeps h
  | powerInterval => exact execPowerInterval_keeps h
  | powerDisagreement => exact execPowerDisagreement_keeps h
  | limitUnreachable => exact execLimitUnreachable_keeps h
  | voltageLoopStep => exact execVoltageLoopStep_keeps h
  | fastLimitTrip => exact execFastLimitTrip_keeps h
  | fastLimitEnd => exact execFastLimitEnd_keeps h
  | pwrbrakeAssert => exact execPwrbrakeAssert_keeps h
  | pwrbrakeRelease => exact execPwrbrakeRelease_keeps h
  | railMonitorExcursion => exact execRailMonitorExcursion_keeps h
  | attest => exact execAttest_keeps h
  | reinstate => exact execReinstate_keeps h
  | getVersion => exact execGetVersion_keeps h
  | getCapabilities => exact execGetCapabilities_keeps h
  | negotiateAlgorithms => exact execNegotiateAlgorithms_keeps h
  | getDigests => exact execGetDigests_keeps h
  | getCertificate => exact execGetCertificate_keeps h
  | challenge => exact execChallenge_keeps h
  | getMeasurements => exact execGetMeasurements_keeps h
  | spdmUnsupportedRequest => exact execSpdmUnsupportedRequest_keeps h
  | boot => exact execBoot_keeps h
  | flashTransactionTimeout => exact execFlashTransactionTimeout_keeps h
  | firmwareUpdate => exact execFirmwareUpdate_keeps h
  | inputPowerApplied => exact execInputPowerApplied_keeps h
  | pwrEnRise => exact execPwrEnRise_keeps h
  | pwrEnFall => exact execPwrEnFall_keeps h
  | inputVoltageFault => exact execInputVoltageFault_keeps
  | thermalTrip => exact execThermalTrip_keeps h
  | modResetNAssert => exact execModResetNAssert_keeps h
  | modResetNRelease => exact execModResetNRelease_keeps h
  | perstNAssert => exact execPerstNAssert_keeps h
  | perstNRelease => exact execPerstNRelease_keeps h
  | functionLevelReset => exact execFunctionLevelReset_keeps h
  | hotReset => exact execHotReset_keeps h
  | linkTrained => exact execLinkTrained_keeps h
  | refclkLoss => exact execRefclkLoss_keeps h
  | refclkReturn => exact execRefclkReturn_keeps h
  | smbusTransaction => exact execSmbusTransaction_keeps h
  | smbusClockTimeout => exact execSmbusClockTimeout_keeps h
  | tapInstruction => exact execTapInstruction_keeps h
  | sliceBoundary => exact execSliceBoundary_keeps h
  | caravanTableActivation => exact execCaravanTableActivation_keeps h
  | caravanLeadTime => exact execCaravanLeadTime_keeps h
  | caravanWindowOpen => exact execCaravanWindowOpen_keeps h
  | caravanWindowClose => exact execCaravanWindowClose_keeps h
  | preemptionSaveComplete => exact execPreemptionSaveComplete_keeps h
  | restoreComplete => exact execRestoreComplete_keeps h
  | teardownTimeout => exact execTeardownTimeout_keeps h
  | bar2Read => exact execBar2Read_keeps h
  | bar2Write => exact execBar2Write_keeps h
  | destroyContext => exact execDestroyContext_keeps h
  | run => exact execRun_keeps h
  | step => exact execStep_keeps h
  | publishWeights => exact execPublishWeights_keeps h
  | checkpoint => exact execCheckpoint_keeps h
  | setShares => exact execSetShares_keeps h
  | setCaravanTable => exact execSetCaravanTable_keeps h
  | restore => exact execRestore_keeps h

theorem step_keeps (h : s.Inv) : Out.Keeps (step s) := by
  unfold step
  split
  exacts [keeps_next (inv_ite h.tick h), exec_keeps _ h.frame]

end

/-- Settles O55: a step is a tick or one command, and each command ends in operations that store canonically and log by Attention.add. -/
theorem stepKeepsInv : Obligations.StepKeepsInv := by
  unfold Obligations.StepKeepsInv
  exact fun _ t h e => step_keeps h t e

end Sys2Proof.Machine

/-! PROOFS. Far memory read back, and errors, repairs and temperatures of memory (07 R204 to R212, 15 R414): where an address lies, what a whole granule reads as
after a store, and which counts and flags an error or a retirement leaves. -/

namespace Sys2Proof.Machine

/-! ## Regions (R204) -/

section
variable {a d : Nat}

theorem regionOf_eq_near : regionOf a = .near d ↔ a < nearTop ∧ a / 0x3000000000 = d := by
  unfold regionOf
  split
  next near => simp [near]
  next beyond =>
    refine ⟨fun e => ?_, fun h => absurd h.1 beyond⟩
    split at e
    · cases e
    · split at e
      · cases e
      · split at e <;> cases e

theorem regionOf_eq_far : regionOf a = .far ↔ farBase ≤ a ∧ a < farTop := by
  unfold regionOf
  split
  next near => exact ⟨nofun, fun h => absurd near (Nat.not_lt.2 (Nat.le_trans (by decide) h.1))⟩
  · split
    next far => exact ⟨fun _ => far, fun _ => rfl⟩
    next other =>
      refine ⟨fun e => ?_, fun h => absurd h other⟩
      split at e
      · cases e
      · split at e <;> cases e

theorem nearTop_le_of_far (far : regionOf a = .far) : nearTop ≤ a := Nat.le_trans (by decide) (regionOf_eq_far.1 far).1

/-- Near memory alone has withdrawn bands (R209). -/
theorem withdrawn_beyond (s : State) (beyond : nearTop ≤ a) : s.withdrawn a = false := by
  simp [State.withdrawn, Nat.not_lt.2 beyond]

/-- Near memory alone loses contents to retirements (R209). -/
theorem lostAt_beyond (s : State) (beyond : nearTop ≤ a) : s.lostAt a = false := by
  simp [State.lostAt, Nat.not_lt.2 beyond]

end

/-! ## A whole granule of far memory (R204, R206) -/

section
variable {s : State} {a : Nat} {bytes : List Byte}

/-- A whole granule is one part. -/
theorem store_granule (aligned : a % 64 = 0) (whole : bytes.length = 64) : s.store a bytes = s.storePart a bytes false := by
  have some : bytes.isEmpty = false := List.isEmpty_eq_false_iff.2 (List.ne_nil_of_length_pos (by omega))
  simp [State.store, whole, State.storeGo, some, aligned, List.take_of_length_le, List.drop_eq_nil_of_le]

theorem storePart_farGranule (far : regionOf a = .far) (aligned : a % 64 = 0) (whole : bytes.length = 64) (inService : s.farOut a = false) :
    s.storePart a bytes false = { s with mem := { s.mem with bytes := ssetAll s.mem.bytes a bytes, poison := sset s.mem.poison (a / 64) 0 } } := by
  have beyond := nearTop_le_of_far far
  unfold State.storePart
  rw [if_neg (by simp [withdrawn_beyond s beyond, inService])]
  simp [lostAt_beyond s beyond, aligned, whole]

theorem load_store_farGranule (wf : Memory.wf s.mem) (far : regionOf a = .far) (aligned : a % 64 = 0) (whole : bytes.length = 64) (inService : s.farOut a = false) :
    (s.store a bytes).load a 64 = bytes := by
  rw [store_granule aligned whole, storePart_farGranule far aligned whole inService, ← whole]
  exact sgetAll_ssetAll _ _ _ wf.1

theorem poisonAt_store_farGranule (wf : Memory.wf s.mem) (far : regionOf a = .far) (aligned : a % 64 = 0) (whole : bytes.length = 64)
    (inService : s.farOut a = false) : (s.store a bytes).poisonAt a = false := by
  have beyond := nearTop_le_of_far far
  rw [store_granule aligned whole, storePart_farGranule far aligned whole inService]
  unfold State.poisonAt
  rw [withdrawn_beyond _ beyond, lostAt_beyond _ beyond, sget_sset_same _ _ _ wf.2.1]
  simpa [State.farOut] using inService

theorem load_store_other (wf : Memory.wf s.mem) (aligned : a % 64 = 0) (whole : bytes.length = 64) {b : Nat} (other : b < a ∨ a + 64 ≤ b) :
    (s.store a bytes).load b 1 = s.load b 1 := by
  have kept : sget (s.storePart a bytes false).mem.bytes b = sget s.mem.bytes b := storePart_other _ _ _ _ _ wf.1 (by omega) (by omega)
  simpa [store_granule aligned whole, State.load, sgetAll] using kept

end

/-- Settles O24: a whole granule is stored in one part, whose bytes and poison flag are read back, and which touches no other granule. -/
theorem farMemoryReadsBack : Obligations.FarMemoryReadsBack := by
  unfold Obligations.FarMemoryReadsBack
  exact fun s a bytes wf far aligned whole inService =>
    ⟨load_store_farGranule wf far aligned whole inService, poisonAt_store_farGranule wf far aligned whole inService, fun _ => load_store_other wf aligned whole⟩

/-! ## Reading one granule (R206, R210) -/

section
variable {s : State} {a : Nat} {f : Flips}

theorem granuleCode_nil : granuleCode a [] = .clean := by
  unfold granuleCode
  split <;> decide

/-- No changed bits, no effect: a granule is read with its poison. -/
theorem readGranule_clean : s.readGranule a [] = (s, s.load a 64, s.poisonAt a, none) := by
  unfold State.readGranule
  split
  next poisoned => rw [poisoned]
  next sound => simp [granuleCode_nil, Found.deliver, sound]

theorem readGranule_poisoned (poisoned : s.poisonAt a = true) : s.readGranule a f = (s, s.load a 64, true, none) := if_pos poisoned

theorem readGranule_corrected (sound : s.poisonAt a = false) (found : granuleCode a f = .corrected) :
    s.readGranule a f = ({ s with mem := s.mem.countCe (dieOf a) }, s.load a 64, false, if a < nearTop then some (s.rowAt a) else none) := by
  simp [State.readGranule, sound, found, Found.deliver]

theorem readGranule_uncorrectable (sound : s.poisonAt a = false) (found : granuleCode a f = .uncorrectable) :
    s.readGranule a f = (s.uncorrectable a, zeros 64, true, none) := by
  simp [State.readGranule, sound, found, Found.deliver]

theorem readAccess_one : (s.readAccess [a] [f]).1 = (s.readGranule a f).1.noteRows (s.readGranule a f).2.2.2.toList := by
  simp [State.readAccess, State.readGranules]

theorem readAccess_none (h : (s.readGranule a f).2.2.2 = none) : (s.readAccess [a] [f]).1 = (s.readGranule a f).1 := by
  rw [readAccess_one, h]
  rfl

/-- Changing the history of a row changes the error history alone. -/
theorem updRow_rows (m : Mem) (d pc row : Nat) (f : RowErr → RowErr) : m.updRow d pc row f = { m with rows := (m.updRow d pc row f).rows } := by
  unfold Mem.updRow
  dsimp only
  split <;> rfl

theorem noteRows_rows (rows : List (Nat × Nat × Nat)) : s.noteRows rows = { s with mem := { s.mem with rows := (s.noteRows rows).mem.rows } } := by
  unfold State.noteRows
  generalize rows.dedup = noted
  induction noted generalizing s with
  | nil => rfl
  | cons r noted ih =>
    rw [List.foldl_cons, ih, updRow_rows]

end

/-! ## What an uncorrectable error leaves (R206, R208, R209) -/

/-- The counts of uncorrectable errors are the same. -/
def SameUes (s t : State) : Prop := t.mem.ueNear = s.mem.ueNear ∧ t.mem.ueFar = s.mem.ueFar

theorem SameUes.trans {s t u : State} (h : SameUes s t) (h' : SameUes t u) : SameUes s u := ⟨h'.1.trans h.1, h'.2.trans h.2⟩

theorem storePart_sameUes (s : State) (a : Nat) (b : List Byte) (p : Bool) : SameUes s (s.storePart a b p) := by
  unfold State.storePart
  split
  · exact ⟨rfl, rfl⟩
  · dsimp only
    split <;> exact ⟨rfl, rfl⟩

theorem report_mem (s : State) (key : SuspectKey) (cause : Nat) (rep : Report) : (s.report key cause rep).mem = s.mem := by
  rw [report_reportedOnly]

theorem retireEntry_mem (s : State) (key : SuspectKey) : (s.retireEntry key).mem = s.mem := by
  unfold State.retireEntry
  split
  · rfl
  · split <;> rfl

theorem retirePc_sameUes (s : State) (die pc : Nat) : SameUes s (s.retirePc die pc) := by
  unfold State.retirePc
  split
  · exact ⟨rfl, rfl⟩
  · split
    · exact ⟨rfl, rfl⟩
    · dsimp only
      unfold SameUes
      rw [show ∀ (t : State) e, (t.raise e).mem = t.mem from fun _ _ => rfl, show ∀ (t : State) c, (t.degrade c).mem = t.mem from fun _ _ => rfl,
        retireEntry_mem]
      exact ⟨rfl, rfl⟩

theorem uncorrectable_sameUes (s : State) (g : Nat) : SameUes { s with mem := s.mem.countUe (dieOf g) } (s.uncorrectable g) := by
  have told (t : State) (key : SuspectKey) : SameUes t ((t.storePart (g / 64 * 64) (zeros 64) true).report key 0x0B {}) :=
    (storePart_sameUes ..).trans ⟨by rw [report_mem], by rw [report_mem]⟩
  unfold State.uncorrectable
  dsimp only
  split
  · exact told ..
  · rw [updRow_rows]
    split
    exacts [(told ..).trans (SameUes.trans ⟨rfl, rfl⟩ (retirePc_sameUes ..)), (told ..).trans ⟨rfl, rfl⟩]

/-! ## The granule of an address -/

section
variable {s : State} {a d : Nat}

theorem regionOf_granule : regionOf (a / 64 * 64) = regionOf a := by
  have bound (n : Nat) : (a / 64 * 64 < 64 * n ↔ a < 64 * n) ∧ (64 * n ≤ a / 64 * 64 ↔ 64 * n ≤ a) := by omega
  have near : a / 64 * 64 / 0x3000000000 = a / 0x3000000000 := by omega
  unfold regionOf
  rw [near]
  simp only [show nearTop = 64 * 0x300000000 by rfl, show farBase = 64 * 0x4000000000 by rfl, show farTop = 64 * 0x4380000000 by rfl,
    show viewBase = 64 * 0x8000000000 by rfl, show viewTop = 64 * 0x8002000000 by rfl, show windowBase = 64 * 0x20000000000 by rfl,
    show addrTop = 64 * 0x40000000000 by rfl, bound]

theorem dieOf_granule_near (near : regionOf a = .near d) : dieOf (a / 64 * 64) = some d := by
  obtain ⟨below, die⟩ := regionOf_eq_near.1 (regionOf_granule.trans near)
  rw [dieOf, if_pos below, die]

theorem dieOf_granule_far (far : regionOf a = .far) : dieOf (a / 64 * 64) = none :=
  if_neg (Nat.not_lt.2 (nearTop_le_of_far (regionOf_granule.trans far)))

/-- A value other than zero is read back from any list, canonical or not. -/
theorem sget_sset_nonzero {w : Nat} (m : SMap w) (k : Nat) {v : BitVec w} (nonzero : v ≠ 0) : sget (sset m k v) k = v := by
  induction m with
  | nil => rw [sset, if_neg nonzero, sget, if_pos rfl]
  | cons c m ih =>
    rw [sset, if_neg nonzero, if_neg nonzero]
    split
    · rw [sget, if_pos rfl]
    · split
      · rw [sget, if_pos rfl]
      next other => rw [sget, if_neg (Ne.symm other), ih]

theorem poisonAt_flagged (flagged : sget s.mem.poison (a / 64) ≠ 0) : s.poisonAt a = true := by
  rw [State.poisonAt, bne_iff_ne.2 flagged, Bool.or_true]

/-- A granule beyond near memory that is stored as poison is flagged. -/
theorem storePart_flags (b : List Byte) (beyond : nearTop ≤ a) (inService : s.farOut a = false) : sget (s.storePart a b true).mem.poison (a / 64) = 1 := by
  rw [State.storePart, if_neg (by simp [withdrawn_beyond s beyond, inService])]
  exact sget_sset_nonzero _ _ (by decide)

theorem uncorrectable_far_poison (far : regionOf a = .far) (inService : s.farOut (a / 64 * 64) = false) :
    (s.uncorrectable (a / 64 * 64)).poisonAt (a / 64 * 64) = true := by
  have beyond := nearTop_le_of_far (regionOf_granule.trans far)
  apply poisonAt_flagged
  unfold State.uncorrectable
  rw [dieOf_granule_far far]
  dsimp only
  rw [report_mem, show a / 64 * 64 / 64 * 64 = a / 64 * 64 by omega, storePart_flags (s := { s with mem := s.mem.countUe none }) _ beyond inService]
  decide

end

/-! ## What a scrub leaves (R206) -/

section
variable {s : State} {a : Nat} {err : Flips}

theorem patrolScrub_served (served : (∃ d, regionOf a = .near d ∧ s.mem.moving.getD d false = false) ∨ regionOf a = .far) :
    exec (.patrolScrub a err) s = .next (s.readAccess [a / 64 * 64] [err]).1 := by
  dsimp only [exec]
  unfold execPatrolScrub
  obtain ⟨d, near, still⟩ | far := served
  · rw [near]
    exact congrArg _ (if_neg (Bool.eq_false_iff.1 still))
  · rw [far]

theorem scrub_corrected_far (far : regionOf a = .far) (sound : s.poisonAt (a / 64 * 64) = false) (found : granuleCode (a / 64 * 64) err = .corrected) :
    (s.readAccess [a / 64 * 64] [err]).1 = { s with mem := { s.mem with ceFar := satAdd 32 s.mem.ceFar 1 } } := by
  have beyond := nearTop_le_of_far (regionOf_granule.trans far)
  have read := readGranule_corrected sound found
  rw [if_neg (Nat.not_lt.2 beyond), dieOf_granule_far far] at read
  rw [readAccess_none (by rw [read]), read]
  rfl

theorem scrub_corrected (sound : s.poisonAt (a / 64 * 64) = false) (found : granuleCode (a / 64 * 64) err = .corrected) :
    ∃ rows, (s.readAccess [a / 64 * 64] [err]).1 = { s with mem := { s.mem.countCe (dieOf (a / 64 * 64)) with rows := rows } } := by
  rw [readAccess_one, readGranule_corrected sound found, noteRows_rows]
  exact ⟨_, rfl⟩

end

/-! ## Repairs (R208, R209) -/

section
variable {s : State} {die pc row : Nat} {r : RowErr}

theorem rowRepair_needed (inside : die < 4) (found : s.mem.rows.find? (fun y => y.die == die && y.pc == pc && y.row == row) = some r)
    (needed : r.needsRepair s.st.now.toNat = true) (still : s.mem.moving.getD die false = false) :
    let off : State := { s with freeCount := s.freeCount + 1
                                mem := { s.mem with rows := s.mem.rows.filter (fun y => !(y.die == die && y.pc == pc && y.row == row)) } }
    exec (.rowRepair die pc row) s = .next (if Config.repairLeft s.freeCount then
        ({ off with mem := { off.mem with
            softRepairs := s.mem.softRepairs ++ [(die, pc, row)], moving := updAt s.mem.moving die (fun _ => true) } } : State).raise
            { level := 1, source := 4, reg := some (0x80020 + 4 * die), count := row }
      else off.retirePc die pc) := by
  dsimp only [exec]
  unfold execRowRepair withUnit
  rw [if_neg (Nat.not_le.2 inside), found]
  simp only [needed, still, Bool.not_false, Bool.and_self, if_true]
  rfl

end

/-- Settles O23: every command by its effect on the state that it finds; the scrub by what the code of its granule finds. -/
theorem memoryUpkeep : Obligations.MemoryUpkeep := by
  unfold Obligations.MemoryUpkeep
  intro s
  refine ⟨fun far unit bank inside => if_neg (Nat.not_le.2 inside), fun a err served => ⟨?_, ?_, ?_⟩, ?_, ?_, fun die inside => if_neg (Nat.not_le.2 inside),
    fun stack celsius inside => if_neg (Nat.not_le.2 inside)⟩
  case refine_1 =>
    rintro (rfl | poisoned) <;> rw [patrolScrub_served served]
    · rw [readAccess_none (by rw [readGranule_clean]), readGranule_clean]
    · rw [readAccess_none (by rw [readGranule_poisoned poisoned]), readGranule_poisoned poisoned]
  case refine_2 =>
    intro sound found
    refine ⟨_, patrolScrub_served served, ?_⟩
    obtain ⟨rows, eq⟩ := scrub_corrected sound found
    refine ⟨?_, ?_, fun far => scrub_corrected_far far sound found, fun d near => ?_⟩ <;> rw [eq]
    case refine_3 => rw [dieOf_granule_near near]; rfl
    all_goals unfold Mem.countCe; split <;> rfl
  case refine_3 =>
    intro sound found
    have read := readGranule_uncorrectable sound found
    obtain ⟨near, far⟩ := uncorrectable_sameUes s (a / 64 * 64)
    refine ⟨?_, uncorrectable_far_poison, fun isFar => ?_, fun d isNear => ?_⟩
    · rw [patrolScrub_served served, readAccess_none (by rw [read]), read]
    · rw [far, dieOf_granule_far isFar]
      rfl
    · rw [near, dieOf_granule_near isNear]
      rfl
  case refine_4 =>
    intro a d err near moving
    dsimp only [exec]
    unfold execPatrolScrub
    rw [near]
    exact congrArg _ (if_pos moving)
  case refine_5 =>
    intro die pc row r inside found needed still
    have repair := rowRepair_needed inside found needed still
    exact ⟨fun left => repair.trans (by rw [if_pos left]), fun none => repair.trans (by rw [if_neg (Bool.eq_false_iff.1 none)])⟩

end Sys2Proof.Machine

/-! PROOFS. Requests at their endpoints (07 R199, R203, R206, R209): what a memory controller answers where its code finds nothing, and each request by how it
stands. -/

namespace Sys2Proof.Machine

section
variable {s : State} {i : Nat} {r : Request}

/-! ## Reads that find no errors (R206) -/

theorem readGranules_clean (s : State) (reads : List (Nat × Flips)) (clean : ∀ x ∈ reads, x.2 = []) :
    s.readGranules reads = (s, reads.flatMap (fun x => s.load x.1 64), reads.map (fun x => s.poisonAt x.1), []) := by
  induction reads with
  | nil => rfl
  | cons x reads ih =>
    obtain ⟨first, rest⟩ := List.forall_mem_cons.1 clean
    simp [State.readGranules, first, readGranule_clean, ih rest]

theorem readAccess_clean (s : State) (addrs : List Nat) (errs : List Flips) (clean : ∀ f ∈ errs, f = []) :
    s.readAccess addrs errs = (s, addrs.flatMap (fun a => s.load a 64), addrs.map s.poisonAt) := by
  have none (x : Nat × Flips) (h : x ∈ addrs.zip (errs ++ addrs.map (fun _ => []))) : x.2 = [] := by
    rcases List.mem_append.1 (List.of_mem_zip h).2 with given | padded
    · exact clean _ given
    · exact (List.mem_map.1 padded).elim fun _ e => e.2.symm
  have all : (addrs.zip (errs ++ addrs.map (fun _ => []))).map (·.1) = addrs := List.map_fst_zip (by simp)
  have bytes := congrArg (fun l => l.flatMap (fun a => s.load a 64)) all
  have poison := congrArg (List.map s.poisonAt) all
  rw [List.flatMap_map] at bytes
  rw [List.map_map] at poison
  unfold State.readAccess
  rw [readGranules_clean s _ none]
  exact congrArg₂ (fun b p => (s, b, p)) bytes poison

/-! ## Each request by how it stands -/

/-- The request that an id names. -/
def State.Requested (s : State) (i : Nat) (r : Request) : Prop := s.net.requests.find? (fun y => y.id == i) = some r

theorem mem_requests_putRequest {y : Request} (found : s.Requested i r) (same : y.id = r.id) : y ∈ (s.putRequest y).net.requests :=
  List.mem_map.2 ⟨r, List.mem_of_find?_eq_some found, if_pos (by simp [same])⟩

theorem memoryRequest_here (errs : List Flips) (found : s.Requested i r) (here : r.here = true) (free : s.memWaits r = false) :
    exec (.memoryRequest i errs) s = .next (serve s r errs) := by
  dsimp only [exec]
  unfold execMemoryRequest
  rw [show s.net.requests.find? _ = some r from found]
  simp [here, free]

theorem memoryRequest_write (errs : List Flips) (found : s.Requested i r) (here : r.here = true) (free : s.memWaits r = false) (write : r.write = true) :
    exec (.memoryRequest i errs) s = .next ((s.storeOffsets r.addr r.offsets r.bytes r.poison).endRequest r) := by
  rw [memoryRequest_here errs found here free, serve, if_pos write]

theorem memoryRequest_read (errs : List Flips) (found : s.Requested i r) (here : r.here = true) (free : s.memWaits r = false) (read : r.write = false) :
    let access := s.readAccess (r.offsets.map (fun o => r.addr + 64 * o)) errs
    exec (.memoryRequest i errs) s = .next (access.1.answerRead r access.2.1 access.2.2) := by
  rw [memoryRequest_here errs found here free, serve, if_neg (Bool.eq_false_iff.1 read)]

theorem memoryRequest_waits (errs : List Flips) (found : s.Requested i r) (waits : r.here = false ∨ s.memWaits r = true) :
    exec (.memoryRequest i errs) s = .next s := by
  dsimp only [exec]
  unfold execMemoryRequest
  rw [show s.net.requests.find? _ = some r from found]
  exact congrArg _ (if_pos (by simpa using waits))

theorem wadiDataArrival_back (found : s.Requested i r) (served : r.served = true) (back : r.route = []) (still : r.moving = false) (read : r.write = false) :
    exec (.wadiDataArrival i) s = .next (s.finishRead r) := by
  dsimp only [exec]
  unfold execWadiDataArrival
  rw [show s.net.requests.find? _ = some r from found]
  simp [served, back, still, read]

theorem wadiResponseTimeout_lost (found : s.Requested i r) (memory : (∃ d, r.target = .near d) ∨ r.target = .far) (unanswered : r.served = false)
    (noReset : ∀ y ∈ s.rst.inProgress, y.kind ≠ 3 ∧ y.kind ≠ 5) (late : r.issued + 100 * millisecond ≤ s.st.now.toNat) :
    exec (.wadiResponseTimeout i) s = .next (s.loseTransfer r (s.channelOf r)) := by
  have calm : s.rst.inProgress.any (fun x => x.kind == 3 || x.kind == 5) = false := by simpa using noReset
  dsimp only [exec]
  unfold execWadiResponseTimeout
  rw [show s.net.requests.find? _ = some r from found]
  dsimp only
  rw [calm, unanswered, decide_eq_true late]
  obtain ⟨d, near⟩ | far := memory
  · rw [near]
    rfl
  · rw [far]
    rfl

theorem hostReadCompletion_host {n bus : Nat} (status : HostStatus) (data : List Byte) (found : s.Requested i r) (host : r.target = .host n bus)
    (read : r.write = false) (here : r.here = true) :
    exec (.hostReadCompletion i status data) s = .next (match status with
      | .success => s.answerRead r ((data ++ zeros (64 * r.offsets.length)).take (64 * r.offsets.length)) (r.offsets.map (fun _ => false))
      | _ => s.answerPoison r) := by
  dsimp only [exec]
  unfold execHostReadCompletion
  rw [show s.net.requests.find? _ = some r from found]
  dsimp only
  rw [host]
  dsimp only
  rw [read, here]
  rfl

end

/-- Settles O21: each command by how the request that it names stands; a read whose code finds nothing answers what memory holds. -/
theorem transferRequests : Obligations.TransferRequests := by
  unfold Obligations.TransferRequests
  intro s i r found
  refine ⟨fun errs => memoryRequest_write errs found, fun errs => memoryRequest_read errs found, fun errs clean here free read => ?_,
    fun errs => memoryRequest_waits errs found, wadiDataArrival_back found, wadiResponseTimeout_lost found, fun n e data host read here => ⟨?_, ?_⟩⟩
  · refine ⟨_, _, memoryRequest_read errs found here free read, ?_, rfl⟩
    rw [readAccess_clean _ _ _ clean, List.flatMap_map, List.map_map]
    exact mem_requests_putRequest found rfl
  · exact hostReadCompletion_host .success data found host read here
  · intro status failed
    rw [hostReadCompletion_host status data found host read here]
    cases status with
    | success => exact absurd rfl failed
    | _ => rfl

end Sys2Proof.Machine

/-! PROOFS. Wadi descriptors on a running core (07 R198 to R200, 11 R320): how a queue's oldest accepted descriptor starts, what the issue of a span leaves, and how
completed descriptors are counted. -/

namespace Sys2Proof.Machine

/-! ## How a descriptor starts (R196, R198) -/

/-- The rectangles of a descriptor: its own, or those of its list (R196). -/
def Core.rectsOf (y : Core) (d : Desc) : List Rect := if d.listCount = 0 then [d.inline'] else y.listRects d

/-- A started descriptor, with the spans of its rectangles; the versions of the translation entries are those of now where it has a list (12 R464). -/
def Desc.startedWith (d : Desc) (rects : List Rect) (entries : List Span → List (Nat × Nat)) : Desc :=
  { d with phase := .started, spans := rects.flatMap Rect.spans,
           entryVersions := if d.listCount = 0 then d.entryVersions else entries (rects.flatMap Rect.rowSpans) }

/-- May a descriptor start: it is not ordered, or all before it have completed (R198)? -/
def WadiQueue.Ready (w : WadiQueue) (d : Desc) : Prop := d.ordered = false ∨ ∀ y ∈ w.descs.takeWhile (fun y => y.id != d.id), y.phase = .completed

/-- Does the list of a descriptor lie inside the scratchpad? -/
def Desc.Listed (d : Desc) : Prop := 64 * d.listAddr + 32 * d.listCount ≤ 64 * spGranules

section
variable {q : Nat} {ok : Bool → Nat → Nat → Bool} {entries : List Span → List (Nat × Nat)} {y : Core} {d : Desc}

theorem ready_iff {w : WadiQueue} : w.Ready d ↔ (d.ordered && !(w.descs.takeWhile (fun y => y.id != d.id)).all (fun y => y.phase == .completed)) = false := by
  unfold WadiQueue.Ready
  cases d.ordered <;> simp

variable (oldest : (y.wq q).descs.find? (fun y => y.phase == .accepted) = some d)
include oldest

theorem startDesc_waits (blocked : ¬ (y.wq q).Ready d) : startDesc q ok entries y = .wait := by
  rw [ready_iff, Bool.not_eq_false] at blocked
  simp only [startDesc, oldest, blocked, if_true]

section
variable (ready : (y.wq q).Ready d)
include ready

theorem startDesc_moves : startDesc q ok entries y ≠ .wait := by
  rw [ready_iff] at ready
  simp only [startDesc, oldest, ready, Bool.false_eq_true, if_false]
  split
  · nofun
  · split
    · nofun
    · split <;> nofun

theorem startDesc_beyond (list : d.listCount ≠ 0) (beyond : ¬ d.Listed) : startDesc q ok entries y = .fault 0x0A := by
  rw [ready_iff] at ready
  simp only [startDesc, oldest, ready, Bool.false_eq_true, if_false]
  exact if_pos ⟨list, Nat.lt_of_not_le beyond⟩

theorem startDesc_poisoned (list : d.listCount ≠ 0) (listed : d.Listed) (poisoned : y.spPoisoned (64 * d.listAddr) (32 * d.listCount) = true) :
    startDesc q ok entries y = .poison d.listAddr := by
  rw [ready_iff] at ready
  simp only [startDesc, oldest, ready, Bool.false_eq_true, if_false]
  rw [if_neg (fun h => Nat.not_lt.2 listed h.2), if_pos ⟨list, poisoned⟩]

theorem startDesc_refused {f : Nat} (list : d.listCount ≠ 0) (listed : d.Listed) (clean : y.spPoisoned (64 * d.listAddr) (32 * d.listCount) = false)
    (refused : (y.rectsOf d).findSome? (Rect.check (ok d.write)) = some f) : startDesc q ok entries y = .fault f := by
  rw [ready_iff] at ready
  rw [Core.rectsOf, if_neg list] at refused
  simp only [startDesc, oldest, ready, Bool.false_eq_true, if_false]
  rw [if_neg (fun h => Nat.not_lt.2 listed h.2), if_neg (by simp [clean]), if_neg list, if_neg list, refused]

/-- A descriptor without a list has been checked where it was posted (R200). -/
theorem startDesc_starts (checked : d.listCount ≠ 0 → d.Listed ∧ y.spPoisoned (64 * d.listAddr) (32 * d.listCount) = false ∧
      (y.rectsOf d).findSome? (Rect.check (ok d.write)) = none) :
    startDesc q ok entries y = .ok (y.setWq q { y.wq q with
      descs := updWhere (y.wq q).descs (fun y => y.id == d.id) (fun _ => d.startedWith (y.rectsOf d) entries) }) := by
  rw [ready_iff] at ready
  have inside : ¬ (d.listCount ≠ 0 ∧ 64 * d.listAddr + 32 * d.listCount > 64 * spGranules) := fun h => Nat.not_lt.2 (checked h.1).1 h.2
  have clean : ¬ (d.listCount ≠ 0 ∧ y.spPoisoned (64 * d.listAddr) (32 * d.listCount) = true) := fun h => by simp [(checked h.1).2.1] at h
  have sound : (if d.listCount = 0 then none else (y.rectsOf d).findSome? (Rect.check (ok d.write))) = none :=
    ite_eq_left_iff.2 fun list => (checked list).2.2
  unfold Core.rectsOf at sound
  simp only [startDesc, oldest, ready, Bool.false_eq_true, if_false]
  rw [if_neg inside, if_neg clean, sound]
  rfl

end

end

/-! ## WADI_DESCRIPTOR_START (R198, R199) -/

@[simp] theorem strike_wq (x : Core) (n : Nat) (hit : List (Nat × Flips)) (q : Nat) : (x.strike n hit).wq q = x.wq q := by
  rw [strike_eq]
  rfl

section
variable {s : State} {k l q : Nat} {c : Ctx} {x : Core} {d : Desc} (h : CoreTurn s k l c x) (queue : q < 16) (errs : List (Nat × Flips))
include h queue

theorem CoreTurn.descriptorStart_waits (oldest : (x.wq q).descs.find? (fun y => y.phase == .accepted) = some d) (blocked : ¬ (x.wq q).Ready d) :
    exec (.wadiDescriptorStart k l q errs) s = .next s := by
  dsimp only [exec]
  rw [execWadiDescriptorStart, withQueue_below queue, withCore_turn h, if_pos (by simp [h.live, h.notStopped, h.notFolded]), startDesc_waits oldest blocked]

/-- Whether a descriptor starts is decided on the core as it stands, how it starts on the core as the list has been read (R193). -/
theorem CoreTurn.descriptorStart_ready (oldest : (x.wq q).descs.find? (fun y => y.phase == .accepted) = some d) (ready : (x.wq q).Ready d) :
    let hit := errorsOn errs (startReads q x)
    let z := x.strike s.freeCount hit
    let found := s.foundErrors k l c hit
    let c' := c.putCore l z
    exec (.wadiDescriptorStart k l q errs) s =
      .next (found.putCtx k (c'.absorb found.st.now l (engWadi q) d.idx 0x02 (startDesc q (found.remoteOk k c') (found.entriesOf k) z))) := by
  dsimp only [exec]
  rw [execWadiDescriptorStart, withQueue_below queue, withCore_turn h, if_pos (by simp [h.live, h.notStopped, h.notFolded]), oldest]
  split
  next waits => exact absurd waits (startDesc_moves oldest ready)
  next => rfl

end

/-! ## WADI_REQUEST_ISSUE (R199, R200, 11 R320) -/

section
variable {s : State} {k l q : Nat} {c : Ctx} {x : Core} {d : Desc} {sp : Span} {more : List Span}

/-- In twin mode a write is held until the shadow's digest is the same (11 R320). -/
def Ctx.holdsSpan (c : Ctx) (x : Core) (free : Nat) (errs : List (Nat × Flips)) (d : Desc) (sp : Span) (shadow : W64) : Bool :=
  c.desc.twin && (x.strike free (errorsOn errs [(64 * sp.granule, 64 * sp.len)])).holdsWrite d sp shadow

theorem CoreTurn.requestIssue (h : CoreTurn s k l c x) (queue : q < 16) (errs : List (Nat × Flips)) (shadow : W64)
    (next : (x.wq q).descs.find? (fun d => d.phase == .started && !d.spans.isEmpty) = some d) (spans : d.spans = sp :: more) :
    let hit := errorsOn errs (if d.write then [(64 * sp.granule, 64 * sp.len)] else [])
    let z := x.strike s.freeCount hit
    exec (.wadiRequestIssue k l q errs shadow) s = .next (if c.holdsSpan x s.freeCount errs d sp shadow then s
      else issueSpan (s.foundErrors k l c hit) k l q (c.putCore l z) z d sp) := by
  dsimp only [exec]
  rw [execWadiRequestIssue, withQueue_below queue, withCore_turn h, next]
  dsimp only
  rw [spans]
  exact congrArg _ (if_pos (by simp [h.live, h.going, h.notFolded]))

theorem issueSpan_skipped (skipped : d.skipped = true) (write : d.write = true) :
    issueSpan s k l q c x d sp = s.withCoreAs k l c (x.updDesc q d.id (fun y => { y with spans := y.spans.drop 1 })) :=
  if_pos (by simp [skipped, write])

theorem issueSpan_moves (moves : d.skipped = false ∨ d.write = false) :
    issueSpan s k l q c x d sp = ((spanRequests s k l q c x d sp).map (·.id)).foldl
      (fun s i => match s.net.requests.find? (fun r => r.id == i) with | none => s | some r => s.startRequest r)
      (s.enterSpan k l q c x d (spanRequests s k l q c x d sp)) :=
  if_neg (by simpa [or_iff_not_imp_left] using moves)

/-- Requests are numbered from the next number on. -/
theorem id_of_spanRequests {r : Request} (one : spanRequests s k l q c x d sp = [r]) : r.id = s.net.nextId := by
  have first : (spanRequests s k l q c x d sp)[0]? = some r := by rw [one]; rfl
  rw [spanRequests, List.getElem?_mapIdx] at first
  obtain ⟨part, -, rfl⟩ := Option.map_eq_some_iff.1 first
  rfl

/-- A request with a number of its own, whose route is known, is found and sent on its way. -/
theorem startRequest_entered {r : Request} {there back : List Hop} {old : List Request} (entered : s.net.requests = old ++ [r])
    (fresh : ∀ y ∈ old, y.id < r.id) (aimed : r.target ≠ .nowhere) (routed : s.memRoutes r = some (there, back)) :
    (match s.net.requests.find? (fun y => y.id == r.id) with | none => s | some r => s.startRequest r) =
      { s with net := { s.net with requests := old ++ [{ r with route := there }] } } := by
  have unseen : old.find? (fun y => y.id == r.id) = none := List.find?_eq_none.2 fun y hy => by simpa using (fresh y hy).ne
  have found : s.net.requests.find? (fun y => y.id == r.id) = some r := by simp [entered, unseen]
  have others : updWhere old (fun y => y.id == r.id) (fun _ => { r with route := there }) = old :=
    (List.map_congr_left fun y hy => if_neg (by simpa using (fresh y hy).ne)).trans (List.map_id' old)
  have sent : updWhere s.net.requests (fun y => y.id == r.id) (fun _ => { r with route := there }) = old ++ [{ r with route := there }] := by
    rw [entered, updWhere, List.map_append]
    exact congrArg₂ _ others (by simp)
  rw [found]
  dsimp only
  rw [State.startRequest, if_neg aimed, routed]
  dsimp only [State.putRequest]
  rw [sent]

theorem issueSpan_one {r : Request} {there back : List Hop} (moves : d.skipped = false ∨ d.write = false) (one : spanRequests s k l q c x d sp = [r])
    (aimed : r.target ≠ .nowhere) (fresh : ∀ y ∈ s.net.requests, y.id < s.net.nextId)
    (routed : (s.enterSpan k l q c x d (spanRequests s k l q c x d sp)).memRoutes r = some (there, back)) :
    issueSpan s k l q c x d sp =
      { s.withCoreAs k l c (x.updDesc q d.id (fun y => { y with spans := y.spans.drop 1, inFlight := y.inFlight + 1 })) with
        net := { s.net with requests := s.net.requests ++ [{ r with route := there }], nextId := s.net.nextId + 1 } } := by
  rw [← id_of_spanRequests one] at fresh
  rw [one] at routed
  rw [issueSpan_moves moves, one]
  exact startRequest_entered (s := s.enterSpan k l q c x d [r]) rfl fresh aimed routed

theorem foundErrors_net (hit : List (Nat × Flips)) : (s.foundErrors k l c hit).net = s.net := by rw [foundErrors_eq]

end

/-! ## WADI_DESCRIPTOR_COMPLETION (R199, R200) -/

theorem CoreTurn.descriptorCompletion {s : State} {k l q : Nat} {c : Ctx} {x : Core} {d : Desc} (h : CoreTurn s k l c x) (queue : q < 16)
    (finished : (x.wq q).descs.find? (fun d => d.phase == .started && d.spans.isEmpty && d.inFlight == 0) = some d) :
    let done := countCompleted (updWhere (x.wq q).descs (fun y => y.id == d.id) (fun y => { y with phase := .completed })) (x.wq q).c
    exec (.wadiDescriptorCompletion k l q) s = .next (s.withCoreAs k l c (x.setWq q { x.wq q with descs := done.1, c := done.2 })) := by
  dsimp only [exec]
  rw [execWadiDescriptorCompletion, withQueue_below queue, withCore_turn h, h.running, completeDesc, finished]
  rfl

/-- Settles O20: the start by what the list says on the core that has read it, the issue by the requests of the span, the completion by posting order. -/
theorem descriptorsRun : Obligations.DescriptorsRun := by
  unfold Obligations.DescriptorsRun
  intro s k l q c x d errs h queue
  refine ⟨fun oldest => ?_, fun sp more shadow next spans => ?_, h.descriptorCompletion queue⟩
  · intro before hit z found c' rects listed ready started
    have struck : (z.wq q).descs.find? (fun y => y.phase == .accepted) = some d := by rw [strike_wq]; exact oldest
    have readyStill : (x.wq q).Ready d ↔ (z.wq q).Ready d := by rw [strike_wq]
    have starts (may : (x.wq q).Ready d) := h.descriptorStart_ready queue errs oldest may
    have going : c'.stopping = false := h.going
    refine ⟨fun may checked => ?_, fun may list beyond => ?_, fun may list inside poisoned => ?_, fun may list inside clean f refused => ?_,
      h.descriptorStart_waits queue errs oldest⟩ <;> rw [starts may]
    · rw [startDesc_starts struck (readyStill.1 may) checked, absorb_ok going, strike_wq]
      rfl
    · rw [startDesc_beyond struck (readyStill.1 may) list beyond]
      rfl
    · rw [startDesc_poisoned struck (readyStill.1 may) list inside poisoned]
      rfl
    · rw [startDesc_refused (ok := found.remoteOk k c') struck (readyStill.1 may) list inside clean refused]
      rfl
  · intro range hit z found c' held rs entered
    have issue := h.requestIssue queue errs shadow next spans
    have free (none : held = false) := issue.trans (congrArg _ (if_neg (Bool.eq_false_iff.1 none)))
    refine ⟨fun some => issue.trans (congrArg _ (if_pos some)), fun none skipped write => ?_, fun none moves => ?_,
      fun r there back none moves one aimed fresh routed => ?_⟩
    · exact (free none).trans (congrArg _ (issueSpan_skipped skipped write))
    · exact (free none).trans (congrArg _ (issueSpan_moves moves))
    · have net : found.net = s.net := foundErrors_net hit
      rw [← net] at fresh ⊢
      exact (free none).trans (congrArg _ (issueSpan_one moves one aimed fresh routed))

end Sys2Proof.Machine

/-! PROOFS. What leaves a Seif port and what a report posts on it: the parts of a port that a send, a post and a step's messages leave (08 R215 to R219, R224, R235). -/

namespace Sys2Proof.Machine

/-! ## Sends (R215, R217, R219, R235) -/

/-- A port after sends: what acknowledgement, its frame slots and its lanes say may differ, and a port that is not up sends nothing. -/
structure Port.Sends (x y : Port) : Prop where
  same : y = { x with nak := y.nak, txSeq := y.txSeq, slots := y.slots, buffer := y.buffer, ackTime := y.ackTime, spare := y.spare, replaced := y.replaced
                      swapTx := y.swapTx, swapRx := y.swapRx }
  still : x.state ≠ 3 → y = x

namespace Port.Sends
variable {x y z : Port}

theorem refl (x : Port) : x.Sends x := ⟨rfl, fun _ => rfl⟩

theorem state (h : x.Sends y) : y.state = x.state := by rw [h.same]

theorem trans (h : x.Sends y) (h' : y.Sends z) : x.Sends z :=
  ⟨by rw [h'.same, h.same], fun down => (h'.still (h.state ▸ down)).trans (h.still down)⟩

end Port.Sends

/-- Packets have left ports: of Seif only ports, ready packets, windows and the output differ. -/
structure Pumped (s t : State) : Prop where
  sent : SentOnly s t
  seif : t.seif = { s.seif with ports := t.seif.ports, ready := t.seif.ready, windows := t.seif.windows, out := t.seif.out }
  ports : ∀ q, (portGet s.seif q).Sends (portGet t.seif q)

namespace Pumped
variable {s t u : State}

theorem refl (s : State) : Pumped s s := ⟨rfl, rfl, fun _ => .refl _⟩

theorem trans (h : Pumped s t) (h' : Pumped t u) : Pumped s u :=
  ⟨h.sent.trans h'.sent, by rw [h'.seif, h.seif], fun q => (h.ports q).trans (h'.ports q)⟩

theorem foldl {α : Type} {f : State → α → State} (one : ∀ s a, Pumped s (f s a)) (l : List α) (s : State) : Pumped s (l.foldl f s) := by
  induction l generalizing s with
  | nil => exact .refl s
  | cons a l ih => exact (one s a).trans (ih _)

theorem mem (h : Pumped s t) : t.mem = s.mem := h.sent.mem
theorem ctxs (h : Pumped s t) : t.ctxs = s.ctxs := h.sent.ctxs
theorem st (h : Pumped s t) : t.st = s.st := by rw [h.sent]
theorem cfg (h : Pumped s t) : t.cfg = s.cfg := by rw [h.sent]
theorem claims (h : Pumped s t) : t.seif.claims = s.seif.claims := by rw [h.seif]
theorem routes (h : Pumped s t) : t.seif.routes = s.seif.routes := by rw [h.seif]

end Pumped

section
variable {s : State} {p : Nat}

/-- Ready packets, windows and the output are no part of a port. -/
theorem pumped_seif (ready : List ReadyPacket) (windows : List OpenWindow) (out : List (Nat × Frame)) :
    Pumped s { s with seif := { s.seif with ready := ready, windows := windows, out := out } } := ⟨rfl, rfl, fun _ => .refl _⟩

theorem pumped_spend (s : State) : Pumped s s.spend := ⟨rfl, rfl, fun _ => .refl _⟩

/-- A port that is up is replaced by one after sends. -/
theorem pumped_putPort {y : Port} (up : (portGet s.seif p).state = 3)
    (same : y = { portGet s.seif p with nak := y.nak, txSeq := y.txSeq, slots := y.slots, buffer := y.buffer, ackTime := y.ackTime, spare := y.spare
                                        replaced := y.replaced, swapTx := y.swapTx, swapRx := y.swapRx }) : Pumped s (s.putPort p y) where
  sent := rfl
  seif := rfl
  ports q := by
    by_cases here : q = p
    · subst here
      rw [portGet_putPort]
      exact ⟨same, fun down => absurd up down⟩
    · rw [portGet_putPort_other _ _ _ _ here]
      exact .refl _

theorem spareIn_pumped (lane : Nat) (up : (portGet s.seif p).state = 3) : Pumped s (s.spareIn p lane) :=
  (pumped_putPort up rfl).trans ⟨rfl, rfl, fun _ => .refl _⟩

theorem sent_same (x : Port) (now : W64) (f : Frame) : x.sent now f =
    { x with nak := false, txSeq := (x.sent now f).txSeq, slots := (x.sent now f).slots, buffer := (x.sent now f).buffer, ackTime := (x.sent now f).ackTime } := by
  by_cases data : f.typ = 1
  · simp only [Port.sent, if_pos data]
  · simp only [Port.sent, if_neg data]

theorem sendFrame_pumped (typ : Nat) (b : List Byte) (up : (portGet s.seif p).state = 3) : Pumped s (s.sendFrame p typ b) := by
  have framed : Pumped s (s.putPort p ((portGet s.seif p).sent s.st.now ((portGet s.seif p).frame typ b))) :=
    pumped_putPort up (by rw [sent_same])
  have still := (framed.ports p).state.trans up
  unfold State.sendFrame
  refine framed.trans ?_
  dsimp only
  split
  · exact pumped_seif _ _ _
  · split
    · exact (pumped_seif _ _ _).trans (spareIn_pumped _ still)
    · exact pumped_seif _ _ _

theorem sendBytes_pumped (n : Nat) (b : List Byte) (up : (portGet s.seif p).state = 3) : Pumped s (State.sendBytes n s p b) := by
  induction n generalizing s b with
  | zero => exact .refl s
  | succ n ih =>
    unfold State.sendBytes
    split
    · exact .refl s
    · have first := sendFrame_pumped 1 (b.take 992) up
      exact first.trans (ih _ ((first.ports p).state.trans up))

theorem sendPackets_pumped (l : List ReadyPacket) (up : (portGet s.seif p).state = 3) : Pumped s (s.sendPackets p l) :=
  (pumped_seif _ _ _).trans (sendBytes_pumped _ _ up)

theorem pump_pumped (s : State) (k p flow : Nat) : Pumped s (s.pump k p flow) := by
  unfold State.pump
  split
  · exact .refl s
  · dsimp only
    split
    · exact .refl s
    next up => exact ((pumped_spend s).trans (sendPackets_pumped _ (by simpa using (not_or.1 up).1))).trans (pumped_seif _ _ _)

theorem pumpLoose_pumped (s : State) (p : Nat) : Pumped s (s.pumpLoose p) := by
  unfold State.pumpLoose
  dsimp only
  split
  · exact .refl s
  next up => exact sendPackets_pumped _ (by simpa using (not_or.1 up).1)

theorem pumpAll_pumped (s : State) : Pumped s s.pumpAll := by
  unfold State.pumpAll
  refine Pumped.trans (t := s.seif.windows.foldl (fun s w => s.pump w.ctx w.port w.flow) s) ?_ ?_
  · exact Pumped.foldl (fun s (w : OpenWindow) => pump_pumped s w.ctx w.port w.flow) _ _
  · exact Pumped.foldl pumpLoose_pumped _ _

theorem addReady_pumped (s : State) (x : ReadyPacket) : Pumped s (s.addReady x) := by
  unfold State.addReady
  dsimp only
  split
  · exact (pumped_seif _ _ _).trans (pumpLoose_pumped _ _)
  · exact (pumped_seif _ _ _).trans (pump_pumped _ _ _ _)

end

/-- Routes are new, and packets have left where the new routes let them (R226). -/
structure Rerouted (s t : State) : Prop where
  sent : SentOnly s t
  seif : t.seif = { s.seif with ports := t.seif.ports, routes := t.seif.routes, ready := t.seif.ready, windows := t.seif.windows, out := t.seif.out }
  ports : ∀ q, (portGet s.seif q).Sends (portGet t.seif q)

theorem recomputeRoutes_rerouted (s : State) : Rerouted s s.recomputeRoutes := by
  unfold State.recomputeRoutes
  dsimp only
  generalize pumped : State.pumpAll _ = t
  have sends := pumped ▸ pumpAll_pumped _
  exact ⟨(sentOnly_seif s _).trans sends.sent, by rw [sends.seif], sends.ports⟩

namespace Rerouted
variable {s t : State}

theorem mem (h : Rerouted s t) : t.mem = s.mem := h.sent.mem
theorem st (h : Rerouted s t) : t.st = s.st := by rw [h.sent]
theorem claims (h : Rerouted s t) : t.seif.claims = s.seif.claims := by rw [h.seif]

end Rerouted

/-! ## Posts and reports (R216, 11 R326, R327) -/

/-- A report has been posted: of Seif only messages that wait on ports have joined those that waited. -/
structure Posted (s t : State) : Prop where
  only : ReportedOnly s t
  seif : t.seif = { s.seif with ports := t.seif.ports }
  ports : ∀ q, portGet t.seif q = { portGet s.seif q with outbox := (portGet t.seif q).outbox }
  waits : ∀ q, (portGet s.seif q).outbox ⊆ (portGet t.seif q).outbox

namespace Posted
variable {s t u : State}

theorem refl (s : State) : Posted s s := ⟨rfl, rfl, fun _ => rfl, fun _ => List.Subset.refl _⟩

theorem trans (h : Posted s t) (h' : Posted t u) : Posted s u :=
  ⟨h.only.trans h'.only, by rw [h'.seif, h.seif], fun q => by rw [h'.ports q, h.ports q], fun q => List.Subset.trans (h.waits q) (h'.waits q)⟩

theorem foldl {α : Type} {f : State → α → State} (one : ∀ s a, Posted s (f s a)) (l : List α) (s : State) : Posted s (l.foldl f s) := by
  induction l generalizing s with
  | nil => exact .refl s
  | cons a l ih => exact (one s a).trans (ih _)

theorem mem (h : Posted s t) : t.mem = s.mem := by rw [h.only]
theorem st (h : Posted s t) : t.st = s.st := by rw [h.only]
theorem cfg (h : Posted s t) : t.cfg = s.cfg := by rw [h.only]
theorem ctxs (h : Posted s t) : t.ctxs = s.ctxs := by rw [h.only]
theorem power (h : Posted s t) : t.power = s.power := by rw [h.only]
theorem colls (h : Posted s t) : t.colls = s.colls := by rw [h.only]
theorem routes (h : Posted s t) : t.seif.routes = s.seif.routes := by rw [h.seif]
theorem claims (h : Posted s t) : t.seif.claims = s.seif.claims := by rw [h.seif]
theorem pacing (h : Posted s t) : t.seif.pacing = s.seif.pacing := by rw [h.seif]

end Posted

section
variable {s : State}

/-- The suspect table and the attention log are no part of a port. -/
theorem posted_noted (f : Faults) (a : Attention) : Posted s { s with faults := f, attn := a } := ⟨rfl, rfl, fun _ => rfl, fun _ => List.Subset.refl _⟩

theorem post_posted (s : State) (p : Nat) (b : List Byte) : Posted s (s.post p b) := by
  unfold State.post
  dsimp only
  split
  · exact .refl s
  · refine ⟨rfl, rfl, fun q => ?_, fun q => ?_⟩ <;> by_cases here : q = p
    · subst here
      rw [portGet_putPort]
    · rw [portGet_putPort_other _ _ _ _ here]
    · subst here
      rw [portGet_putPort]
      exact List.subset_append_left _ _
    · rw [portGet_putPort_other _ _ _ _ here]
      exact List.Subset.refl _

theorem postTo_posted (s : State) (job : W64) (rank : Nat) (b : List Byte) : Posted s (s.postTo job rank b) := by
  unfold State.postTo
  split
  · exact .refl s
  · exact post_posted ..

theorem sendRelays_posted (s : State) : Posted s s.sendRelays := by
  unfold State.sendRelays
  refine (posted_noted _ _).trans (Posted.foldl (fun s r => ?_) _ _)
  split
  · exact .refl s
  · exact postTo_posted ..

theorem relay_posted (s : State) (key : SuspectKey) (cause : Nat) (rep : Report) : Posted s (s.relay key cause rep) := by
  unfold State.relay
  split
  · split
    · exact .refl s
    · exact .refl s
    · exact (posted_noted _ _).trans (sendRelays_posted _)
  · exact .refl s

theorem reportN_posted (s : State) (key : SuspectKey) (cause n : Nat) (rep : Report) : Posted s (s.reportN key cause n rep) := by
  have only := reportN_reportedOnly s key cause n rep
  have seif : (s.reportN key cause n rep).seif = s.seif := by
    unfold State.reportN
    split
    · split <;> rfl
    · split
      · dsimp only
        split
        · split <;> rfl
        · rfl
      · rfl
  exact ⟨only, by rw [seif], fun q => by rw [seif], fun q => by rw [seif]; exact List.Subset.refl _⟩

theorem report_posted (s : State) (key : SuspectKey) (cause : Nat) (rep : Report) : Posted s (s.report key cause rep) :=
  (reportN_posted ..).trans (relay_posted ..)

theorem reportPort_posted (s : State) (p cause : Nat) : Posted s (s.reportPort p cause) :=
  (reportN_posted ..).trans (Posted.foldl (fun s _ => relay_posted s ..) _ _)

end

end Sys2Proof.Machine

/-! PROOFS. Ports that go down, train and spare a lane (08 R217 to R219, R222, 14 R389). -/

namespace Sys2Proof.Machine

section
variable {s : State} {p : Nat}

/-! ## Partners that depart (R222) -/

theorem partnerDeparts_alone (alone : (portGet s.seif p).partner = none) : s.partnerDeparts p = s := by
  unfold State.partnerDeparts
  dsimp only
  rw [alone]

/-- The time tree looks for another parent; ports, memory and the count stay (R232). -/
theorem reparent_eq (s : State) : s.reparent = { s with st := { s.st with parent := s.reparent.st.parent, thetas := [], hops := s.reparent.st.hops } } := rfl

/-- A port whose partner has departed. -/
def Port.alone (x : Port) (now : W64) : Port := { x with partner := none, version := 0, changed := now, heard := none }

/-- What a departure leaves: the port has no partner, no claim is seen over it, and packets have left where the new routes let them. -/
structure Departed (s t : State) (p : Nat) : Prop where
  port : ((portGet s.seif p).alone s.st.now).Sends (portGet t.seif p)
  claims : t.seif.claims = (s.unsee p).seif.claims
  mem : t.mem = s.mem
  now : t.st.now = s.st.now

theorem partnerDeparts_departed {d : Discovery} (known : (portGet s.seif p).partner = some d) : Departed s (s.partnerDeparts p) p := by
  unfold State.partnerDeparts
  dsimp only
  rw [known]
  dsimp only
  generalize rerouted : State.recomputeRoutes _ = t
  have routed : Rerouted ((s.putPort p ((portGet s.seif p).alone s.st.now)).unsee p) t := rerouted ▸ recomputeRoutes_rerouted _
  have port := routed.ports p
  rw [show portGet ((s.putPort p _).unsee p).seif p = _ from portGet_putPort s p _] at port
  have now : t.st.now = s.st.now := congrArg SysTime.now routed.st
  split <;> exact ⟨port, routed.claims, routed.mem, now⟩

theorem not_mem_of_unseen {t : State} (h : t.seif.claims = (s.unsee p).seif.claims) : ∀ c ∈ t.seif.claims, p ∉ c.ports := by
  intro c hc
  rw [h] at hc
  obtain ⟨c, -, rfl⟩ := List.mem_map.1 hc
  simp

/-! ## Ports that go down (R218, R222, 14 R389) -/

/-- A port that goes down into a state: counters, attempts and rate stay. -/
def Port.downTo (x : Port) (state : Nat) (now : W64) : Port :=
  { Port.down with state := state, retried := x.retried, attempts := x.attempts, changed := now, fecCorr := x.fecCorr, fecUncorr := x.fecUncorr, replays := x.replays
                   drop := x.drop, fast := x.fast }

theorem partnerDeparts_kept (s : State) (p : Nat) : let y := portGet (s.partnerDeparts p).seif p
    (∀ state now, y.downTo state now = (portGet s.seif p).downTo state now) ∧ (s.partnerDeparts p).mem = s.mem ∧ (s.partnerDeparts p).st.now = s.st.now := by
  cases known : (portGet s.seif p).partner with
  | none =>
    rw [partnerDeparts_alone known]
    exact ⟨fun _ _ => rfl, rfl, rfl⟩
  | some d =>
    have gone := partnerDeparts_departed known
    exact ⟨fun _ _ => by rw [gone.port.same]; rfl, gone.mem, gone.now⟩

theorem portDown_eq (s : State) (p state : Nat) : let t := s.partnerDeparts p
    s.portDown p state = (t.putPort p ((portGet t.seif p).downTo state t.st.now)).recomputeRoutes := rfl

/-- A port that is down sends nothing, so it stays as it went down. -/
theorem portDown_port {state : Nat} (down : state ≠ 3) : portGet (s.portDown p state).seif p = (portGet s.seif p).downTo state s.st.now := by
  obtain ⟨kept, -, now⟩ := partnerDeparts_kept s p
  rw [portDown_eq]
  generalize s.partnerDeparts p = t at kept now
  have sends := (recomputeRoutes_rerouted (t.putPort p ((portGet t.seif p).downTo state t.st.now))).ports p
  rw [portGet_putPort] at sends
  exact (sends.still down).trans (by rw [kept, now])

theorem portDown_mem (state : Nat) : (s.portDown p state).mem = s.mem := by
  obtain ⟨-, mem, -⟩ := partnerDeparts_kept s p
  rw [portDown_eq]
  exact (recomputeRoutes_rerouted _).mem.trans mem

/-- A reset takes the port down and trains it anew, first at 224 Gb/s (R218, 14 R389). -/
theorem portReset_eq (s : State) (p cause : Nat) (cmd : Option Nat) : let t := s.portDown p 1
    ∃ r, s.portReset p cause cmd = { t.putPort p { portGet t.seif p with fast := true, attempts := 0 } with rst := r } := by
  unfold State.portReset
  generalize s.portDown p 1 = t
  dsimp only
  split
  · exact ⟨_, rfl⟩
  · split
    · exact ⟨t.rst, rfl⟩
    · exact ⟨_, rfl⟩

theorem portReset_port (cause : Nat) (cmd : Option Nat) :
    portGet (s.portReset p cause cmd).seif p = { (portGet s.seif p).downTo 1 s.st.now with fast := true, attempts := 0 } := by
  obtain ⟨r, eq⟩ := portReset_eq s p cause cmd
  have down : portGet (s.portDown p 1).seif p = _ := portDown_port (by decide)
  rw [eq, ← down]
  generalize s.portDown p 1 = t
  exact portGet_putPort _ _ _

theorem portReset_mem (cause : Nat) (cmd : Option Nat) : (s.portReset p cause cmd).mem = s.mem := by
  obtain ⟨r, eq⟩ := portReset_eq s p cause cmd
  have down : (s.portDown p 1).mem = s.mem := portDown_mem 1
  rw [eq, ← down]
  generalize s.portDown p 1 = t
  rfl

/-- A port out of service is in state 5 (R218). -/
theorem portOut_state (s : State) (p : Nat) : (portGet (s.portOut p).seif p).state = 5 := by
  have told := (reportPort_posted (s.portDown p 5) p 0x0C).ports p
  have completed : ∀ (ids : List Nat) (t : State), (ids.foldl (fun s id => s.complete id 0x00 0 []) t).seif = t.seif :=
    foldl_keeps State.seif _ fun t id => complete_seif t id ..
  unfold State.portOut
  dsimp only
  rw [raise_seif]
  dsimp only
  rw [completed, told, portDown_port (by decide)]
  rfl

end

/-! ## Lanes (R219) -/

section
variable {s : State} {p : Nat}

theorem spareIn_port (lane : Nat) : portGet (s.spareIn p lane).seif p = { portGet s.seif p with spare := true, replaced := lane, swapTx := none, swapRx := none } :=
  portGet_putPort _ _ _

/-- A message that a port of its version carries waits there (R216, R221). -/
theorem post_carried {b : List Byte} (carried : b.headD 0 ∉ [0x04, 0x05, 0x09]) :
    s.post p b = s.putPort p { portGet s.seif p with outbox := (portGet s.seif p).outbox ++ [message b] } := by
  unfold State.post
  exact if_neg fun h => carried h.2

theorem dataFrame_seq (x : Port) (b : List Byte) : (x.frame 1 b).seq = x.txSeq := by
  simp [Port.frame]

/-- The spare takes a lane's place at the data frame that the swap names (R219). -/
theorem sendFrame_swaps {lane : Nat} (b : List Byte) (swap : (portGet s.seif p).swapTx = some (lane, (portGet s.seif p).txSeq)) :
    (portGet (s.sendFrame p 1 b).seif p).spare = true ∧ (portGet (s.sendFrame p 1 b).seif p).replaced = lane := by
  unfold State.sendFrame
  dsimp only
  rw [swap]
  dsimp only
  rw [if_pos ⟨rfl, dataFrame_seq _ _⟩, spareIn_port]
  exact ⟨rfl, rfl⟩

end

end Sys2Proof.Machine

/-! PROOFS. Steps of the queue (95), and training, spare lanes and acknowledgements of a Seif port (08 R217 to R219). -/

namespace Sys2Proof.Machine

/-- Settles O1: the step's two cases are its definition. -/
theorem stepRunsFront : Obligations.StepRunsFront := by
  unfold Obligations.StepRunsFront
  refine ⟨fun i rest s => rfl, fun s idle => ?_⟩
  unfold step
  rw [idle]

/-! ## Each command of training and lanes (R217 to R219) -/

/-- A port that trains anew after its reset; its counters stay (R217, R219). -/
def Retrained (s t : State) (p : Nat) : Prop :=
  (portGet t.seif p).state = 1 ∧ (portGet t.seif p).fast = true ∧ (portGet t.seif p).buffer = [] ∧ (portGet t.seif p).partner = none ∧ (portGet t.seif p).spare = false
    ∧ (portGet t.seif p).fecCorr = (portGet s.seif p).fecCorr ∧ t.mem = s.mem

theorem portReset_retrained (s : State) (p cause : Nat) (cmd : Option Nat) : Retrained s (s.portReset p cause cmd) p := by
  unfold Retrained
  rw [portReset_port, portReset_mem]
  exact ⟨rfl, rfl, rfl, rfl, rfl, rfl, rfl⟩

theorem retrain_retrained (s : State) (p : Nat) : Retrained s (s.retrain p) p := by
  unfold Retrained State.retrain
  rw [raise_seif, raise_mem]
  exact portReset_retrained s p 0 none

/-- A swap is asked for in a message that waits on the port, and stands at the next data frame (R219). -/
theorem laneSwap_asked (s : State) (p lane : Nat) : let x := portGet s.seif p
    let bytes := [0x03, BitVec.ofNat 8 lane] ++ leBytes 2 x.txSeq.toNat
    let y := portGet (((s.reportPort p 0x0C).post p bytes).updPort p (fun y => { y with swapTx := some (lane, x.txSeq) })).seif p
    y.swapTx = some (lane, x.txSeq) ∧ y.spare = x.spare ∧ message bytes ∈ y.outbox := by
  have told := (reportPort_posted s p 0x0C).ports p
  dsimp only
  generalize s.reportPort p 0x0C = t at told
  rw [post_carried (show (0x03 : Byte) ∉ _ by decide), State.updPort, portGet_putPort, portGet_putPort]
  refine ⟨rfl, ?_, by simp⟩
  rw [told]

section
variable {s : State} {p : Nat} (hp : p < 18)
include hp

theorem portTraining_exec : exec (.portTraining p) s = .next (if (portGet s.seif p).state ≤ 1
    then s.putPort p { portGet s.seif p with state := 1, fast := true, changed := s.st.now } else s) := by
  dsimp only [exec]
  rw [execPortTraining, withPort_ok s hp]

theorem trainingRateFallback_exec : exec (.trainingRateFallback p) s = .next (if (portGet s.seif p).state = 1 ∧ (portGet s.seif p).fast = true
    then s.putPort p { portGet s.seif p with fast := false } else s) := by
  dsimp only [exec]
  rw [execTrainingRateFallback, withPort_ok s hp]

theorem laneQualification_idle (bad : BitVec 9) (idle : (portGet s.seif p).state ≠ 1) : exec (.laneQualification p bad) s = .next s := by
  dsimp only [exec]
  rw [execLaneQualification, withPort_ok s hp, if_pos idle]

section
variable {bad : BitVec 9} (training : (portGet s.seif p).state = 1)
include training

theorem laneQualification_clean (clean : badLanes bad = []) : exec (.laneQualification p bad) s =
    .next (s.putPort p { portGet s.seif p with state := 2, spare := false, replaced := 0, attempts := 0, changed := s.st.now }) := by
  dsimp only [exec]
  rw [execLaneQualification, withPort_ok s hp, if_neg (not_not.2 training), clean]

theorem laneQualification_spares {lane : Nat} (one : badLanes bad = [lane]) : exec (.laneQualification p bad) s =
    .next (s.putPort p { portGet s.seif p with state := 2, spare := decide (lane < 8), replaced := lane, attempts := 0, changed := s.st.now }) := by
  dsimp only [exec]
  rw [execLaneQualification, withPort_ok s hp, if_neg (not_not.2 training), one]

theorem laneQualification_fails (two : 2 ≤ (badLanes bad).length) : exec (.laneQualification p bad) s = .next (if 3 ≤ (portGet s.seif p).attempts + 1 then s.portOut p
    else s.putPort p { portGet s.seif p with attempts := (portGet s.seif p).attempts + 1, fast := true }) := by
  dsimp only [exec]
  rw [execLaneQualification, withPort_ok s hp, if_neg (not_not.2 training)]
  split
  next none => simp [none] at two
  next one => simp [one] at two
  next => rfl

end

/-- A lane that is in use is reported first (R219). -/
theorem laneErrorThreshold_used {lane : Nat} (used : lane < 9 ∧ (portGet s.seif p).state = 3 ∧ (lane = 8 → (portGet s.seif p).spare = true)) :
    let x := portGet s.seif p
    let told := s.reportPort p 0x0C
    exec (.laneErrorThreshold p lane) s = .next (if x.spare = true ∨ x.swapTx ≠ none ∨ x.swapRx ≠ none ∨ x.replaced = 8 then told.portReset p 0 none
      else (told.post p ([0x03, BitVec.ofNat 8 lane] ++ leBytes 2 x.txSeq.toNat)).updPort p (fun y => { y with swapTx := some (lane, x.txSeq) })) := by
  obtain ⟨active, up, spare⟩ := used
  have inUse : ¬ (9 ≤ lane ∨ (portGet s.seif p).state ≠ 3 ∨ (lane = 8 ∧ (portGet s.seif p).spare = false)) := by
    rintro (beyond | down | ⟨last, unspared⟩)
    · omega
    · exact down up
    · exact absurd (spare last) (by simp [unspared])
  dsimp only [exec]
  rw [execLaneErrorThreshold, withPort_ok s hp, if_neg inUse]
  refine congrArg _ ?_
  refine ite_congr (propext ?_) (fun _ => rfl) (fun _ => rfl)
  simp [Option.isSome_iff_ne_none, or_assoc]

theorem laneErrorThreshold_unused {lane : Nat} (unused : ¬ (lane < 9 ∧ (portGet s.seif p).state = 3 ∧ (lane = 8 → (portGet s.seif p).spare = true))) :
    exec (.laneErrorThreshold p lane) s = .next s := by
  dsimp only [exec]
  rw [execLaneErrorThreshold, withPort_ok s hp, if_pos]
  by_contra inUse
  obtain ⟨active, up, spare⟩ := by simpa only [not_or, not_and, not_le, Bool.not_eq_false, not_not] using inUse
  exact unused ⟨active, up, spare⟩

theorem withMessage_found {typ i : Nat} {m : List Byte} (found : (portGet s.seif p).message? typ = some (i, m)) (f : State → List Byte → State) :
    withMessage p typ s f = .next (f (s.putPort p { portGet s.seif p with inbox := (portGet s.seif p).inbox.eraseIdx i }) m) := by
  unfold withMessage
  rw [withPort_ok s hp, found]

theorem withMessage_none {typ : Nat} (none : (portGet s.seif p).message? typ = none) (f : State → List Byte → State) : withMessage p typ s f = .next s := by
  unfold withMessage
  rw [withPort_ok s hp, none]

/-- A swap that a partner names is made at once where its frame has come, and waits for it otherwise; a port whose spare is taken makes none (R219). -/
theorem laneSwap_found {i : Nat} {m : List Byte} (found : (portGet s.seif p).message? 3 = some (i, m)) :
    let x := portGet s.seif p
    let s' := s.putPort p { x with inbox := x.inbox.eraseIdx i }
    let lane := msgNat m 1 1
    let seq := BitVec.ofNat 12 (msgNat m 2 2)
    exec (.laneSwap p) s = .next (if x.spare = true ∨ x.swapTx ≠ none ∨ 8 ≤ lane then s'
      else if (x.rxNext - seq - 1).toNat < 2048 then s'.spareIn p lane
      else s.putPort p { x with inbox := x.inbox.eraseIdx i, swapRx := some (lane, seq) }) := by
  dsimp only [exec]
  rw [execLaneSwap, withMessage_found hp found]
  dsimp only
  rw [portGet_putPort, putPort_putPort]
  refine congrArg _ (ite_congr (propext ?_) (fun _ => rfl) (fun _ => rfl))
  simp [Option.isSome_iff_ne_none, or_assoc]

theorem laneSwap_none (none : (portGet s.seif p).message? 3 = none) : exec (.laneSwap p) s = .next s := by
  dsimp only [exec]
  rw [execLaneSwap, withMessage_none hp none]

theorem ackTimeout_exec : exec (.ackTimeout p) s = .next (if (portGet s.seif p).buffer ≠ [] ∧ (portGet s.seif p).ackTime.toNat + 100 * microsecond ≤ s.st.now.toNat
    then s.retrain p else s) := by
  dsimp only [exec]
  rw [execAckTimeout, withPort_ok s hp]
  refine congrArg _ (ite_congr (propext ?_) (fun _ => rfl) (fun _ => rfl))
  simp

end

/-- Settles O25: each command by the state of the port that it finds. -/
theorem portTrainingAndLanes : Obligations.PortTrainingAndLanes := by
  unfold Obligations.PortTrainingAndLanes
  rintro s p x hp rfl
  refine ⟨fun low => ?_, fun high => ?_, fun training fast => ?_, fun other => ?_, fun bad => ⟨laneQualification_idle hp bad, fun training => ⟨?_, fun lane => ?_, ?_, ?_⟩⟩,
    fun lane => ⟨laneErrorThreshold_unused hp, fun used busy => ?_, fun used free => ?_⟩, fun lane seq payload swap next => ?_, fun i m found => ⟨?_, ?_, ?_⟩,
    laneSwap_none hp, fun waits late => ?_, fun other => ?_⟩
  · rw [portTraining_exec hp, if_pos low]
  · rw [portTraining_exec hp, if_neg (by omega)]
  · rw [trainingRateFallback_exec hp, if_pos ⟨training, fast⟩]
  · rw [trainingRateFallback_exec hp, if_neg (fun both => other.elim (· both.1) fun slow => by simp [slow] at both)]
  · exact laneQualification_clean hp training
  · exact laneQualification_spares hp training
  · intro two again
    rw [laneQualification_fails hp training two, if_neg (by omega)]
  · intro two third
    rw [laneQualification_fails hp training two, if_pos third]
    exact ⟨rfl, portOut_state s p⟩
  · rw [laneErrorThreshold_used hp used]
    refine ⟨_, congrArg _ (if_pos busy), ?_⟩
    have told := reportPort_posted s p 0x0C
    have again := portReset_retrained (s.reportPort p 0x0C) p 0 none
    unfold Retrained at again
    rw [told.ports p, told.mem] at again
    exact again
  · rw [laneErrorThreshold_used hp used]
    obtain ⟨swap, spare, waits⟩ := laneSwap_asked s p lane
    exact ⟨_, congrArg _ (if_neg free), swap, spare.trans (by simpa using fun h => free (.inl h)), waits, rfl⟩
  · exact sendFrame_swaps payload (next ▸ swap)
  · intro taken
    rw [laneSwap_found hp found, if_pos taken]
  · intro free come
    rw [laneSwap_found hp found, if_neg free, if_pos come, spareIn_port]
    exact ⟨rfl, rfl, rfl⟩
  · intro free ahead
    rw [laneSwap_found hp found, if_neg free, if_neg (by omega)]
  · exact ⟨_, by rw [ackTimeout_exec hp, if_pos ⟨waits, late⟩], retrain_retrained s p⟩
  · rw [ackTimeout_exec hp, if_neg (fun both => other.elim both.1 fun early => by omega)]

end Sys2Proof.Machine

/-! PROOFS. Frames that a Seif port receives (08 R215 to R217, R219, R221, R222): what every frame does, and each type of frame. -/

namespace Sys2Proof.Machine

/-! ## What every frame does (R215, R217) -/

/-- Does a port take frames: trained, in discovery, up or incompatible? -/
def Port.Live (x : Port) : Prop := 2 ≤ x.state ∧ x.state ≤ 4

/-- A frame asks for nothing again: no NAK, no acknowledgement, or nothing that it has not acknowledged. -/
def Port.NoResend (x : Port) (f : Frame) : Prop := f.nak = false ∨ f.ackValid = false ∨ x.unacked f.ack = []

section
variable {s : State} {p typ n : Nat} {f : Frame} {act : State → State}

section
variable (live : (portGet s.seif p).Live)
include live

theorem receive_live (fec : Option Nat) : s.receive p typ fec f act = (match fec with
    | none => s.putPort p { portGet s.seif p with fecUncorr := satAdd 32 (portGet s.seif p).fecUncorr 1, nak := (portGet s.seif p).nak || typ == 1 }
    | some n =>
      if f.typ.toNat = typ ∧ frameOk f = true
      then act ((s.putPort p { portGet s.seif p with fecCorr := satAdd 32 (portGet s.seif p).fecCorr n, lastRx := s.st.now }).takeAck p f)
      else s.putPort p { portGet s.seif p with fecCorr := satAdd 32 (portGet s.seif p).fecCorr n, nak := (portGet s.seif p).nak || typ == 1 }) := by
  unfold State.receive
  exact if_neg (by obtain ⟨low, high⟩ := live; omega)

theorem receive_uncorrectable : s.receive p typ none f act =
    s.putPort p { portGet s.seif p with fecUncorr := satAdd 32 (portGet s.seif p).fecUncorr 1, nak := (portGet s.seif p).nak || typ == 1 } := receive_live live none

theorem receive_broken (broken : frameOk f = false ∨ f.typ.toNat ≠ typ) : s.receive p typ (some n) f act =
    s.putPort p { portGet s.seif p with fecCorr := satAdd 32 (portGet s.seif p).fecCorr n, nak := (portGet s.seif p).nak || typ == 1 } :=
  (receive_live live (some n)).trans (if_neg fun valid => broken.elim (fun wrong => by simp [wrong] at valid) (· valid.1))

theorem receive_valid (isType : f.typ.toNat = typ) (ok : frameOk f = true) : s.receive p typ (some n) f act =
    act ((s.putPort p { portGet s.seif p with fecCorr := satAdd 32 (portGet s.seif p).fecCorr n, lastRx := s.st.now }).takeAck p f) :=
  (receive_live live (some n)).trans (if_pos ⟨isType, ok⟩)

end

/-- An acknowledgement drops what it acknowledges, and without a NAK nothing is sent again (R217). -/
theorem takeAck_heard (noResend : (portGet s.seif p).NoResend f) :
    (s.putPort p { portGet s.seif p with fecCorr := satAdd 32 (portGet s.seif p).fecCorr n, lastRx := s.st.now }).takeAck p f =
      s.putPort p ((portGet s.seif p).heardFrame n f s.st.now) := by
  unfold State.takeAck Port.heardFrame
  cases valid : f.ackValid with
  | false => rfl
  | true =>
    dsimp only
    rw [if_neg (show ¬ (!true) = true by decide), portGet_putPort, if_neg, putPort_putPort]
    · rfl
    · rintro ⟨nak, rest⟩
      rcases noResend with quiet | unread | empty
      · simp [quiet] at nak
      · simp [unread] at valid
      · exact rest empty

/-- A NAK sends the rest again; the eighth time of one frame retrains the port (R217). -/
theorem takeAck_resends (valid : f.ackValid = true) (nak : f.nak = true) (rest : (portGet s.seif p).unacked f.ack ≠ []) :
    let x := portGet s.seif p
    let m := if x.resentSeq = f.ack then x.resent + 1 else 1
    let s' := s.putPort p { x.heardFrame n f s.st.now with resent := m, resentSeq := f.ack, replays := satAdd 32 x.replays (x.unacked f.ack).length }
    (s.putPort p { x with fecCorr := satAdd 32 x.fecCorr n, lastRx := s.st.now }).takeAck p f =
      if 8 ≤ m then s'.retrain p else { s' with seif := { s'.seif with out := s'.seif.out ++ (x.unacked f.ack).map (fun g => (p, g)) } } := by
  unfold State.takeAck Port.heardFrame
  rw [valid]
  dsimp only
  rw [if_neg (show ¬ (!true) = true by decide), portGet_putPort, if_pos ⟨nak, rest⟩, putPort_putPort]
  rfl

end

/-! ## Each type of frame (R216, R217, R219, R222) -/

section
variable {s : State} {p n : Nat} (hp : p < 18) (f : Frame)
include hp

theorem dataFrameReceive_down (down : (portGet s.seif p).state ≠ 3) (fec : Option Nat) : exec (.dataFrameReceive p fec f) s = .next s := by
  dsimp only [exec]
  rw [execDataFrameReceive, withPort_ok s hp, if_pos down]

theorem dataFrameReceive_up (up : (portGet s.seif p).state = 3) (fec : Option Nat) : ∃ act, exec (.dataFrameReceive p fec f) s = .next (s.receive p 1 fec f act) ∧
    ∀ y : Port, y.state = 3 → act (s.putPort p y) = if f.seq = y.rxNext then
        let t := s.putPort p { y with rxNext := y.rxNext + 1, nak := false, stream := y.stream ++ f.payload, times := y.times ++ [(f.payload.length, s.st.now.toNat)] }
        match y.swapRx with
        | none => t
        | some (lane, seq) => if f.seq = seq then t.spareIn p lane else t
      else s.putPort p { y with nak := true } := by
  dsimp only [exec]
  rw [execDataFrameReceive, withPort_ok s hp, if_neg (not_not.2 up)]
  refine ⟨_, rfl, fun y still => ?_⟩
  rw [portGet_putPort, if_neg (not_not.2 still), putPort_putPort, putPort_putPort]
  split
  · cases y.swapRx <;> rfl
  · rfl

theorem controlFrameReceive_exec (fec : Option Nat) : ∃ act, exec (.controlFrameReceive p fec f) s = .next (s.receive p 2 fec f act) ∧
    ∀ y, act (s.putPort p y) = s.putPort p { y with inbox := y.inbox ++ (messagesOf f.payload).map (· ++ leBytes 8 s.st.now.toNat) } := by
  dsimp only [exec]
  rw [execControlFrameReceive, withPort_ok s hp]
  exact ⟨_, rfl, fun y => by rw [portGet_putPort, putPort_putPort]; rfl⟩

theorem idleFrameReceive_exec (fec : Option Nat) : exec (.idleFrameReceive p fec f) s = .next (s.receive p 3 fec f id) := by
  dsimp only [exec]
  rw [execIdleFrameReceive, withPort_ok s hp]

theorem discoveryFrameReceive_exec (fec : Option Nat) : ∃ act, exec (.discoveryFrameReceive p fec f) s = .next (s.receive p 4 fec f act) ∧
    ∀ t : State, (portGet t.seif p).state ≠ 1 → recordOk f.payload = true → act t = t.discover p (parseDiscovery f.payload) := by
  dsimp only [exec]
  rw [execDiscoveryFrameReceive, withPort_ok s hp]
  exact ⟨_, rfl, fun t trained ok => by rw [if_neg trained, if_pos ok]⟩

end

end Sys2Proof.Machine

/-! PROOFS. Discovery records (08 R220 to R223), and every frame that a port receives. -/

namespace Sys2Proof.Machine

/-! ## Discovery (R221 to R223) -/

section
variable {s : State} {p : Nat} {d : Discovery}

/-- No claim is withdrawn where none of the serial's is seen over the port (R223). -/
theorem withdrawClaims_unseen (unseen : ∀ c ∈ s.seif.claims, c.serial = d.serial → p ∉ c.ports) : s.withdrawClaims p d = s := by
  have none : s.seif.claims.filter (fun c => c.serial == d.serial && c.ports.contains p && !d.claims.any (fun x => x.1 == c.job && x.2.1.toNat == c.rank)) = [] := by
    rw [List.filter_eq_nil_iff]
    intro c hc
    have := unseen c hc
    by_cases same : c.serial = d.serial <;> simp_all
  unfold State.withdrawClaims
  rw [none]
  simp

/-- A claim that is seen changes the claims and the attention log alone (R223). -/
theorem seeClaim_eq (s : State) (job : W64) (rank modules : Nat) (serial : W64) (port : Option Nat) : let t := s.seeClaim job rank modules serial port
    t = { s with seif := { s.seif with claims := t.seif.claims }, attn := t.attn } := by
  unfold State.seeClaim
  split
  · split <;> rfl
  · dsimp only
    split <;> rfl

theorem seeClaims_kept {α : Type} (job : α → W64) (rank modules : α → Nat) (serial : W64) (port : Option Nat) (l : List α) (s : State) :
    let t := l.foldl (fun s c => s.seeClaim (job c) (rank c) (modules c) serial port) s
    t.seif.ports = s.seif.ports ∧ t.mem = s.mem := by
  have kept := foldl_keeps (fun t : State => (t.seif.ports, t.mem)) (fun s c => s.seeClaim (job c) (rank c) (modules c) serial port)
    (fun t c => by rw [seeClaim_eq]) l s
  exact ⟨congrArg Prod.fst kept, congrArg Prod.snd kept⟩

/-- A port whose new partner's record has come (R221, R222). -/
def Port.joined (x : Port) (d : Discovery) (now : W64) : Port :=
  let v := commonVersion x.fast d.versions
  { x with partner := some d, version := v, state := if v = 0 then 4 else 3, fast := x.fast && v != 3, changed := now }

/-- A partner joins: the port runs in the version that both have, and packets leave where the new routes let them (R221 to R223). -/
theorem discover_joins (alone : (portGet s.seif p).partner = none)
    (trained : ¬ (!(portGet s.seif p).fast ∧ d.versions.getLsbD 1 ∧ !(portGet s.seif p).retried))
    (unseen : ∀ c ∈ s.seif.claims, c.serial = d.serial → p ∉ c.ports) :
    ((portGet s.seif p).joined d s.st.now).Sends (portGet (s.discover p d).seif p) ∧ (s.discover p d).mem = s.mem := by
  unfold State.discover
  dsimp only
  rw [alone]
  dsimp only
  rw [if_neg trained, alone, withdrawClaims_unseen (s := s.putPort p _) unseen]
  generalize claimed : List.foldl _ _ d.claims = u
  obtain ⟨ports, mem⟩ := claimed ▸ seeClaims_kept (fun c : W64 × BitVec 16 × BitVec 16 => c.1) (fun c => c.2.1.toNat) (fun c => c.2.2.toNat) d.serial (some p) d.claims
    (s.putPort p ((portGet s.seif p).joined d s.st.now))
  have sends := (recomputeRoutes_rerouted u).ports p
  have still := (recomputeRoutes_rerouted u).mem.trans mem
  rw [portGet, ports, ← portGet, portGet_putPort] at sends
  generalize u.recomputeRoutes = t at sends still
  split <;> split <;> exact ⟨sends, still⟩

/-- A port that runs at 112 Gb/s with a partner that has version 4 trains once more (R221). -/
theorem discover_retries (alone : (portGet s.seif p).partner = none) (slow : (portGet s.seif p).fast = false) (four : d.versions.getLsbD 1 = true)
    (fresh : (portGet s.seif p).retried = false) : let x := portGet s.seif p
    s.discover p d = s.putPort p { Port.down with state := 1, fast := true, retried := true, changed := s.st.now, fecCorr := x.fecCorr, fecUncorr := x.fecUncorr
                                                  replays := x.replays, drop := x.drop } := by
  unfold State.discover
  dsimp only
  rw [alone]
  exact if_pos (by simp [slow, four, fresh])

end

/-! ## Valid frames by their type -/

section
variable (x : Port) (n : Nat) (f : Frame) (now : W64)

/-- What a valid frame changes of its port before its type acts: the counts, the time and what is acknowledged (R217). -/
theorem heardFrame_eq : let y := x.heardFrame n f now
    y = { x with fecCorr := satAdd 32 x.fecCorr n, lastRx := now, buffer := y.buffer, acked := y.acked, ackTime := y.ackTime } := by
  unfold Port.heardFrame
  dsimp only
  split <;> rfl

@[simp] theorem heardFrame_state : (x.heardFrame n f now).state = x.state := by rw [heardFrame_eq]
@[simp] theorem heardFrame_fast : (x.heardFrame n f now).fast = x.fast := by rw [heardFrame_eq]
@[simp] theorem heardFrame_retried : (x.heardFrame n f now).retried = x.retried := by rw [heardFrame_eq]
@[simp] theorem heardFrame_partner : (x.heardFrame n f now).partner = x.partner := by rw [heardFrame_eq]
@[simp] theorem heardFrame_rxNext : (x.heardFrame n f now).rxNext = x.rxNext := by rw [heardFrame_eq]
@[simp] theorem heardFrame_stream : (x.heardFrame n f now).stream = x.stream := by rw [heardFrame_eq]
@[simp] theorem heardFrame_times : (x.heardFrame n f now).times = x.times := by rw [heardFrame_eq]
@[simp] theorem heardFrame_inbox : (x.heardFrame n f now).inbox = x.inbox := by rw [heardFrame_eq]
@[simp] theorem heardFrame_swapRx : (x.heardFrame n f now).swapRx = x.swapRx := by rw [heardFrame_eq]
@[simp] theorem heardFrame_fecCorr : (x.heardFrame n f now).fecCorr = satAdd 32 x.fecCorr n := by rw [heardFrame_eq]
@[simp] theorem heardFrame_fecUncorr : (x.heardFrame n f now).fecUncorr = x.fecUncorr := by rw [heardFrame_eq]
@[simp] theorem heardFrame_replays : (x.heardFrame n f now).replays = x.replays := by rw [heardFrame_eq]
@[simp] theorem heardFrame_drop : (x.heardFrame n f now).drop = x.drop := by rw [heardFrame_eq]
@[simp] theorem heardFrame_lastRx : (x.heardFrame n f now).lastRx = now := by rw [heardFrame_eq]

end

section
variable {s : State} {p n : Nat} (hp : p < 18) {f : Frame} (ok : frameOk f = true) (quiet : (portGet s.seif p).NoResend f)

include hp ok quiet

theorem dataFrameReceive_valid (up : (portGet s.seif p).state = 3) (data : f.typ = 1) :
    let x := portGet s.seif p
    let y := x.heardFrame n f s.st.now
    let got := s.putPort p { y with rxNext := x.rxNext + 1, nak := false, stream := x.stream ++ f.payload, times := x.times ++ [(f.payload.length, s.st.now.toNat)] }
    exec (.dataFrameReceive p (some n) f) s = .next (if f.seq = x.rxNext then (match x.swapRx with
        | none => got
        | some (lane, seq) => if f.seq = seq then got.spareIn p lane else got)
      else s.putPort p { y with nak := true }) := by
  obtain ⟨act, run, acts⟩ := dataFrameReceive_up hp f up (some n)
  rw [run, receive_valid ⟨by omega, by omega⟩ (by rw [data]; rfl) ok, takeAck_heard quiet, acts _ (by rw [heardFrame_state]; exact up)]
  simp only [heardFrame_rxNext, heardFrame_stream, heardFrame_times, heardFrame_swapRx] <;> rfl

theorem controlFrameReceive_valid (live : (portGet s.seif p).Live) (control : f.typ = 2) : exec (.controlFrameReceive p (some n) f) s =
    .next (s.putPort p { (portGet s.seif p).heardFrame n f s.st.now with
      inbox := (portGet s.seif p).inbox ++ (messagesOf f.payload).map (· ++ leBytes 8 s.st.now.toNat) }) := by
  obtain ⟨act, run, acts⟩ := controlFrameReceive_exec (s := s) hp f (some n)
  rw [run, receive_valid live (by rw [control]; rfl) ok, takeAck_heard quiet, acts, heardFrame_inbox]

theorem idleFrameReceive_valid (live : (portGet s.seif p).Live) (idle : f.typ = 3) :
    exec (.idleFrameReceive p (some n) f) s = .next (s.putPort p ((portGet s.seif p).heardFrame n f s.st.now)) := by
  rw [idleFrameReceive_exec hp, receive_valid live (by rw [idle]; rfl) ok, takeAck_heard quiet]
  rfl

theorem discoveryFrameReceive_valid (waits : (portGet s.seif p).state = 2) (discovery : f.typ = 4) (record : recordOk f.payload = true) :
    exec (.discoveryFrameReceive p (some n) f) s = .next ((s.putPort p ((portGet s.seif p).heardFrame n f s.st.now)).discover p (parseDiscovery f.payload)) := by
  obtain ⟨act, run, acts⟩ := discoveryFrameReceive_exec (s := s) hp f (some n)
  rw [run, receive_valid ⟨by omega, by omega⟩ (by rw [discovery]; rfl) ok, takeAck_heard quiet, acts _ _ record]
  rw [portGet_putPort, heardFrame_state]
  exact fun training => absurd (waits.symm.trans training) (by decide)

end

/-- Settles O26: each frame by the state of its port, its check and its type. -/
theorem portFrames : Obligations.PortFrames := by
  unfold Obligations.PortFrames
  rintro s p n x f hp rfl y noResend live bad broken
  have upLive (up : (portGet s.seif p).state = 3) : (portGet s.seif p).Live := ⟨by omega, by omega⟩
  refine ⟨fun up => ?_, fun down => dataFrameReceive_down hp f down, fun on => ⟨?_, ?_, ?_⟩, fun up wrong => ?_, fun on wrong => ⟨?_, ?_, ?_⟩,
    fun ok quiet => ⟨fun up data => ⟨fun inOrder other => ?_, fun inOrder lane swap => ?_, fun gap => ?_⟩, controlFrameReceive_valid hp ok quiet,
      idleFrameReceive_valid hp ok quiet, fun waits discovery record alone => ⟨fun trained unseen => ?_, fun slow four fresh => ?_⟩⟩,
    fun ok idle valid nak rest on => ⟨fun more => ?_, fun eighth => ?_⟩⟩
  · obtain ⟨act, run, -⟩ := dataFrameReceive_up hp f up none
    rw [run, receive_uncorrectable (upLive up)]
    rfl
  · obtain ⟨act, run, -⟩ := controlFrameReceive_exec (s := s) hp f none
    rw [run, receive_uncorrectable on]
    rfl
  · rw [idleFrameReceive_exec hp, receive_uncorrectable on]
    rfl
  · obtain ⟨act, run, -⟩ := discoveryFrameReceive_exec (s := s) hp f none
    rw [run, receive_uncorrectable on]
    rfl
  · obtain ⟨act, run, -⟩ := dataFrameReceive_up hp f up (some n)
    have notData : frameOk f = false ∨ f.typ.toNat ≠ 1 := wrong.imp_right fun other same => other (BitVec.eq_of_toNat_eq same)
    rw [run, receive_broken (upLive up) notData]
    rfl
  · obtain ⟨act, run, -⟩ := controlFrameReceive_exec (s := s) hp f (some n)
    rw [run, receive_broken on (.inl wrong)]
    rfl
  · rw [idleFrameReceive_exec hp, receive_broken on (.inl wrong)]
    rfl
  · obtain ⟨act, run, -⟩ := discoveryFrameReceive_exec (s := s) hp f (some n)
    rw [run, receive_broken on (.inl wrong)]
    rfl
  · rw [dataFrameReceive_valid hp ok quiet up data, if_pos inOrder]
    refine congrArg _ ?_
    split
    · rfl
    next lane seq swap => exact if_neg fun here => other lane (by rw [swap, here])
  · rw [dataFrameReceive_valid hp ok quiet up data, if_pos inOrder, swap]
    exact congrArg _ (if_pos rfl)
  · rw [dataFrameReceive_valid hp ok quiet up data, if_neg gap]
  · rw [discoveryFrameReceive_valid hp ok quiet waits discovery record]
    have port : portGet (s.putPort p y).seif p = y := portGet_putPort ..
    obtain ⟨sends, mem⟩ := discover_joins (s := s.putPort p y) (p := p) (d := parseDiscovery f.payload) (by rw [port, heardFrame_partner]; exact alone)
      (by rw [port, heardFrame_fast, heardFrame_retried]; simpa [or_iff_not_imp_left] using trained) unseen
    rw [port] at sends
    refine ⟨_, rfl, mem, ?_⟩
    rw [sends.same]
    simp [Port.joined, y]
  · rw [discoveryFrameReceive_valid hp ok quiet waits discovery record]
    have port : portGet (s.putPort p y).seif p = y := portGet_putPort ..
    rw [discover_retries (s := s.putPort p y) (by rw [port, heardFrame_partner]; exact alone) (by rw [port, heardFrame_fast]; exact slow) four
      (by rw [port, heardFrame_retried]; exact fresh), putPort_putPort, port]
    simp [y]
  · rw [idleFrameReceive_exec hp, receive_valid on (by rw [idle]; rfl) ok, takeAck_resends valid nak rest]
    exact congrArg _ (if_neg (Nat.not_le.2 more))
  · rw [idleFrameReceive_exec hp, receive_valid on (by rw [idle]; rfl) ok, takeAck_resends valid nak rest]
    exact congrArg _ (if_pos eighth)

end Sys2Proof.Machine

/-! PROOFS. Control and discovery frames that a Seif port sends behind its idle frames (08 R216, R220, R229, R231, R232, 11 R327). -/

namespace Sys2Proof.Machine

/-! ## Frames other than data frames (R215, R216) -/

/-- Port `p` is `y`, and frames have left it. -/
def State.emits (s : State) (p : Nat) (y : Port) (fs : List Frame) : State :=
  { s.putPort p y with seif := { (s.putPort p y).seif with out := s.seif.out ++ fs.map (fun f => (p, f)) } }

section
variable {s : State} {p : Nat}

@[simp] theorem portGet_emits (y : Port) (fs : List Frame) : portGet (s.emits p y fs).seif p = y := portGet_putPort _ _ _

theorem emits_emits (y z : Port) (fs gs : List Frame) : (s.emits p y fs).emits p z gs = s.emits p z (fs ++ gs) := by
  simp [State.emits, State.putPort]

theorem emits_putPort (y z : Port) (fs : List Frame) : (s.emits p y fs).putPort p z = s.emits p z fs := by
  simp [State.emits, State.putPort]

/-- A frame that is no data frame carries the NAK away and changes nothing else of its port (R217). -/
theorem sendFrame_emits {typ : Nat} (other : typ = 2 ∨ typ = 3 ∨ typ = 4) (b : List Byte) :
    s.sendFrame p typ b = s.emits p { portGet s.seif p with nak := false } [(portGet s.seif p).frame typ b] := by
  have noData : typ ≠ 1 := by omega
  have noSeq : ((portGet s.seif p).frame typ b).typ ≠ 1 := by rcases other with rfl | rfl | rfl <;> simp [Port.frame]
  have sent : (portGet s.seif p).sent s.st.now ((portGet s.seif p).frame typ b) = { portGet s.seif p with nak := false } := if_neg noSeq
  unfold State.sendFrame
  dsimp only
  rw [sent]
  split
  · rfl
  · exact if_neg fun both => noData both.1

/-- Idle frames are alike but for the first, which may carry a NAK (R216). -/
theorem sendIdle_emits {n : Nat} (some : n ≠ 0) : let x := portGet s.seif p
    let calm : Port := { x with nak := false }
    s.sendIdle p n = s.emits p calm ([x.frame 3 []] ++ List.replicate (n - 1) (calm.frame 3 [])) := by
  unfold State.sendIdle
  dsimp only
  rw [if_neg some, sendFrame_emits (.inr (.inl rfl))]
  simp [State.emits, State.putPort, portGet]

/-- The frames of a control slot: idle frames in the slots that had no data, then the frame itself (R216). -/
def Port.controlSlot (x : Port) (typ : Nat) (b : List Byte) : List Frame :=
  let idle := if x.state = 4 then 0 else 90 - x.slots
  let calm : Port := { x with nak := false }
  if idle = 0 then [x.frame typ b] else [x.frame 3 []] ++ List.replicate (idle - 1) (calm.frame 3 []) ++ [calm.frame typ b]

theorem sendControl_emits {typ : Nat} (other : typ = 2 ∨ typ = 3 ∨ typ = 4) (b : List Byte) :
    s.sendControl p typ b = s.emits p { portGet s.seif p with nak := false, slots := 0 } ((portGet s.seif p).controlSlot typ b) := by
  unfold State.sendControl Port.controlSlot
  dsimp only
  generalize (if (portGet s.seif p).state = 4 then 0 else 90 - (portGet s.seif p).slots) = idle
  by_cases none : idle = 0
  · rw [if_pos none, none, show s.sendIdle p 0 = s from if_pos rfl, sendFrame_emits other, portGet_emits, emits_putPort]
  · rw [if_neg none, sendIdle_emits none, sendFrame_emits other, portGet_emits, emits_emits, portGet_emits, emits_putPort]

theorem emits_others (y : Port) (fs : List Frame) (q : Nat) (hq : q ≠ p) : portGet (s.emits p y fs).seif q = portGet s.seif q :=
  portGet_putPort_other _ _ _ _ hq

end

/-! ## Each send (R216, R220, 11 R327) -/

section
variable {s : State} {p : Nat} (hp : p < 18)
include hp

theorem discoveryFrameSend_exec : exec (.discoveryFrameSend p) s = .next (if (portGet s.seif p).talks
    then s.sendControl p 4 (discoveryBytes (s.ownRecord p)) else s) := by
  dsimp only [exec]
  rw [execDiscoveryFrameSend, withPort_ok s hp]

theorem controlFrameSend_exec : let ready := (if s.st.gm = 0 ∨ s.st.mode = 3 then s.elect else s).sendRelays
    let y := portGet ready.seif p
    exec (.controlFrameSend p) s = .next (if (portGet s.seif p).talks
      then (ready.putPort p { y with outbox := y.outbox.drop 29 }).sendControl p 2 (timestampMessage y ready.st.now ++ announcement ready.st ++ (y.outbox.take 29).flatMap id)
      else s) := by
  dsimp only [exec]
  rw [execControlFrameSend, withPort_ok s hp]

end

/-- Settles O27: the frames of a control slot, on the port as it stands or once relays and messages are ready. -/
theorem portSends : Obligations.PortSends := by
  unfold Obligations.PortSends
  rintro s p x hp rfl idle frames sends
  have emits (t u : State) (y : Port) (typ : Nat) (b : List Byte) (h : u = t.emits p { y with nak := false, slots := 0 } (y.controlSlot typ b)) : sends t u y typ b := by
    rw [h]
    exact ⟨rfl, portGet_emits _ _, emits_others _ _, rfl, rfl, rfl, rfl⟩
  refine ⟨fun talks => ?_, fun talks => ?_, fun silent => ⟨?_, ?_⟩⟩
  · rw [discoveryFrameSend_exec hp, if_pos talks]
    exact ⟨_, rfl, emits _ _ _ _ _ (sendControl_emits (.inr (.inr rfl)) _)⟩
  · intro ready y
    rw [controlFrameSend_exec hp, if_pos talks]
    refine ⟨_, rfl, emits _ _ _ _ _ ?_⟩
    rw [sendControl_emits (.inl rfl), portGet_putPort]
    simp [State.emits, State.putPort, ready, y]
  · rw [discoveryFrameSend_exec hp, if_neg (by simp [silent])]
  · rw [controlFrameSend_exec hp, if_neg (by simp [silent])]

end Sys2Proof.Machine

/-! PROOFS. Partners, ranks and reports that leave a job or pass on through this module (08 R222, R223, R247, 11 R327). -/

namespace Sys2Proof.Machine

/-! ## Partners (R222, R223) -/

/-- The partner of a port has gone: the port waits for discovery again, and no claim is seen over it. -/
def Gone (s t : State) (p : Nat) : Prop :=
  (portGet t.seif p).partner = none ∧ (portGet t.seif p).state = 2 ∧ (portGet t.seif p).version = 0 ∧ (∀ c ∈ t.seif.claims, p ∉ c.ports) ∧ t.mem = s.mem

theorem partnerDeparts_gone {s : State} {p : Nat} {d : Discovery} (known : (portGet s.seif p).partner = some d) :
    let t := s.partnerDeparts p
    Gone s (t.putPort p { portGet t.seif p with state := 2 }) p := by
  have gone := partnerDeparts_departed known
  generalize s.partnerDeparts p = t at gone
  refine ⟨?_, ?_, ?_, not_mem_of_unseen gone.claims, gone.mem⟩ <;> rw [portGet_putPort]
  · rw [gone.port.same]
    rfl
  · rw [gone.port.same]
    rfl

section
variable {s : State} {p : Nat} (hp : p < 18)
include hp

theorem partnerSilenceTimeout_exec : let t := s.partnerDeparts p
    exec (.partnerSilenceTimeout p) s = .next (if (portGet s.seif p).partner ≠ none ∧ (portGet s.seif p).lastRx.toNat + 100 * microsecond ≤ s.st.now.toNat
      then t.putPort p { portGet t.seif p with state := 2 } else s) := by
  dsimp only [exec]
  rw [execPartnerSilenceTimeout, withPort_ok s hp]
  refine congrArg _ (ite_congr (propext ?_) (fun _ => rfl) (fun _ => rfl))
  simp [Option.isSome_iff_ne_none]

theorem departureNotice_found {i : Nat} {m : List Byte} {d : Discovery} (found : (portGet s.seif p).message? 7 = some (i, m)) (known : (portGet s.seif p).partner = some d) :
    let held := s.seif.claims.filter (fun c => c.serial == d.serial && c.ports.contains p && !c.refused)
    let t := (s.putPort p { portGet s.seif p with inbox := (portGet s.seif p).inbox.eraseIdx i }).partnerDeparts p
    exec (.departureNotice p) s = .next (held.foldl (fun u c => u.rankDeparts c.job c.rank) (t.putPort p { portGet t.seif p with state := 2 })) := by
  dsimp only [exec]
  rw [execDepartureNotice, withMessage_found hp found, portGet_putPort]
  dsimp only
  rw [known]
  rfl

end

/-! ## What the end of a rank leaves of the routes (R247) -/

section
variable {s : State}

theorem addReady_routes (x : ReadyPacket) : (s.addReady x).seif.routes = s.seif.routes := (addReady_pumped s x).routes

theorem peerWriteGo_routes (track : Bool) (k : Nat) (job : W64) (src rank flow n : Nat) (s : State) (a : Nat) (b : List Byte) (p : List Bool) :
    (State.peerWriteGo track k job src rank flow n s a b p).seif.routes = s.seif.routes := by
  induction n generalizing s a b p with
  | zero => rfl
  | succ n ih =>
    unfold State.peerWriteGo
    split
    · rfl
    · exact (ih _ _ _ _).trans (addReady_routes _)

theorem sendRec_routes (s : State) (k : Nat) (c : Ctx) (dest : Nat) (r : StepRec) : (s.sendRec k c dest r).1.seif.routes = s.seif.routes := by
  unfold State.sendRec
  split
  · rfl
  · exact peerWriteGo_routes ..

theorem tellFailure_routes (k : Nat) (c : Ctx) (st : StepRun) (again poison : Bool) : (tellFailure s k c st again poison).seif.routes = s.seif.routes := by
  unfold tellFailure
  split
  · exact foldl_keeps (fun t : State => t.seif.routes) _ (fun t d => sendRec_routes t k c d _) _ _
  · exact sendRec_routes ..

@[simp] theorem settle_seif (s : State) (k : Nat) : (s.settle k).seif = s.seif := by
  unfold State.settle
  split
  · rfl
  · rw [updCtx_seif]

@[simp] theorem finishStep_seif (s : State) (k : Nat) (st : StepRun) (code : Nat) (tail : List Byte) : (s.finishStep k st code tail).seif = s.seif := by
  unfold State.finishStep
  rw [settle_seif, complete_seif, updCtx_seif]

@[simp] theorem setStep_seif (s : State) (k : Nat) (st : StepRun) : (s.setStep k st).seif = s.seif := updCtx_seif ..
@[simp] theorem discardPending_seif (s : State) (k : Nat) : (s.discardPending k).seif = s.seif := updCtx_seif ..
@[simp] theorem stopStep_seif (s : State) (k : Nat) (st : StepRun) : (s.stopStep k st).seif = s.seif := updCtx_seif ..

@[simp] theorem adoptAbort_seif (s : State) (k : Nat) (st : StepRun) (again : Bool) : (adoptAbort s k st again).seif = s.seif := by
  unfold adoptAbort
  dsimp only
  split
  · split
    · rw [setStep_seif, raise_seif]
    · rw [setStep_seif, stopStep_seif]
      dsimp only
      rw [discardPending_seif, raise_seif]
  · rw [finishStep_seif, discardPending_seif, raise_seif]

theorem loseStep_routes (k : Nat) (c : Ctx) (st : StepRun) : (loseStep s k c st).seif.routes = s.seif.routes := by
  unfold loseStep
  split
  · rfl
  · split
    · unfold abortAll
      dsimp only
      rw [adoptAbort_seif, tellFailure_routes]
    · split
      · exact tellFailure_routes ..
      · rw [adoptAbort_seif, tellFailure_routes]

/-- What a change of a step keeps, acting on the step keeps. -/
theorem onStep_keeps {β : Type} (g : State → β) (k cmd : Nat) {f : Ctx → StepRun → State} (kept : ∀ c st, g (f c st) = g s) : g (s.onStep k cmd f) = g s := by
  unfold State.onStep
  split
  · rfl
  · exact kept _ _

theorem tellJob_posted (s : State) (c : Ctx) (bytes : Nat → List Byte) : Posted s (s.tellJob c bytes) := Posted.foldl (fun s _ => postTo_posted s ..) _ _

/-- Collectives that end are gone, and their participants are told (R246). -/
theorem abortColls_posted (s : State) (k : Nat) (c : Ctx) (again : Bool) : Posted { s with colls := s.colls.filter (fun x => x.ctx != k) } (s.abortColls k c again) :=
  Posted.foldl (fun s _ => tellJob_posted s ..) _ _

theorem abortColls_routes (k : Nat) (c : Ctx) (again : Bool) : (s.abortColls k c again).seif.routes = s.seif.routes := (abortColls_posted s k c again).routes

theorem endRequest_routes (r : Request) : (s.endRequest r).seif.routes = s.seif.routes := by
  unfold State.endRequest
  dsimp only
  split <;> rfl

theorem warned_seif (write : Bool) (s : State) (e : Event) : (if write = true then s.raise e else s).seif = s.seif := by
  split <;> rfl

theorem endPeers_routes (s : State) (job : W64) (rank : Nat) : (s.endPeers job rank).seif.routes = s.seif.routes := by
  unfold State.endPeers
  refine foldl_keeps (fun t : State => t.seif.routes) _ (fun t (x : PeerXfer) => (congrArg Seif.routes (warned_seif x.write _ _)).trans ?_) _ _
  split
  · rfl
  · split
    · exact endRequest_routes _
    · rfl

theorem find?_updWhere {α : Type} {p : α → Bool} {f : α → α} (kept : ∀ a, p a = true → p (f a) = true) (l : List α) : (updWhere l p f).find? p = (l.find? p).map f := by
  unfold updWhere
  induction l with
  | nil => rfl
  | cons a l ih =>
    by_cases here : p a = true
    · simp [here, kept a here]
    · simp [here, ih]

theorem mem_of_nfind {α : Type} {l : List (Nat × α)} {k : Nat} {v : α} (found : nfind l k = some v) : (k, v) ∈ l := by
  induction l with
  | nil => cases found
  | cons a l ih =>
    unfold nfind at found
    split at found
    next here => exact List.mem_cons.2 (.inl (Prod.ext here.symm (Option.some.inj found).symm))
    next => exact List.mem_cons_of_mem _ (ih found)

/-- A job that no context here takes part in has no transfers here (R227). -/
theorem endPeers_absent {job : W64} {rank : Nat} (absent : ∀ k c, s.ctx? k = some c → c.desc.job ≠ job) : s.endPeers job rank = s := by
  unfold State.endPeers
  extract_lets +onlyGivenNames gone
  have none : gone = [] := by
    unfold gone
    rw [List.filter_eq_nil_iff]
    intro p _
    cases found : s.ctx? p.ctx with
    | none => simp
    | some c => simp [absent _ _ found]
  rw [none]
  simp

/-- The route of a rank that has departed (R247). -/
def State.routeGone (s : State) (job : W64) (rank : Nat) : State :=
  { s with seif := { s.seif with routes := updWhere s.seif.routes (fun y => y.job == job && y.rank == rank) (fun y => { y with departed := true, port := none }) } }

/-- The steps of a context that exchange with a rank that has departed end, with its collectives (R247). -/
def State.losesRank (s : State) (k : Nat) : State :=
  match s.ctx? k with
  | none => s
  | some x => (x.steps.filter StepRun.open').foldl (fun s st => s.onStep k st.cmd (fun y st => loseStep s k y st)) (s.abortColls k x false)

theorem losesRank_routes (s : State) (k : Nat) : (s.losesRank k).seif.routes = s.seif.routes := by
  unfold State.losesRank
  split
  · rfl
  · refine (foldl_keeps (fun t : State => t.seif.routes) _ (fun u st => ?_) _ _).trans (abortColls_routes ..)
    exact onStep_keeps (fun t : State => t.seif.routes) _ _ fun y st => loseStep_routes ..

section
variable {job : W64} {rank : Nat} {r : Route} (route : s.route? job rank = some r) (there : r.departed = false)
include route there

theorem rankDeparts_eq : let t := s.routeGone job rank
    s.rankDeparts job rank = ((t.resident.filter (fun c => c.2.desc.job == job && c.2.desc.rank != rank && decide (rank < c.2.desc.modules))).foldl
      (fun s c => s.losesRank c.1) t).endPeers job rank := by
  unfold State.rankDeparts
  rw [route]
  exact if_neg (by simp [there])

theorem rankDeparts_routes : (s.rankDeparts job rank).seif.routes = (s.routeGone job rank).seif.routes := by
  rw [rankDeparts_eq route there]
  exact (endPeers_routes ..).trans (foldl_keeps (fun t : State => t.seif.routes) _ (fun t (c : Nat × Ctx) => losesRank_routes t c.1) _ _)

theorem rankDeparts_departed : (s.rankDeparts job rank).hasDeparted job rank = true := by
  unfold State.hasDeparted State.route?
  rw [rankDeparts_routes route there]
  dsimp only [State.routeGone]
  rw [find?_updWhere (p := fun y : Route => y.job == job && y.rank == rank) (f := fun y : Route => { y with departed := true, port := none }) (fun _ same => same), show s.seif.routes.find? _ = some r from route]
  rfl

/-- A rank of a job that no context here takes part in departs from its route alone (R247). -/
theorem rankDeparts_absent (absent : ∀ c ∈ s.ctxs, c.2.desc.job ≠ job) : s.rankDeparts job rank = s.routeGone job rank := by
  have noneMine : (s.routeGone job rank).resident.filter (fun c => c.2.desc.job == job && c.2.desc.rank != rank && decide (rank < c.2.desc.modules)) = [] := by
    rw [List.filter_eq_nil_iff]
    intro c hc
    have := absent c (List.mem_filter.1 hc).1
    simp [this]
  rw [rankDeparts_eq route there, noneMine]
  exact endPeers_absent fun k c found => absent _ (mem_of_nfind found)

end

end

/-! ## Absent routes (R247) -/

section
variable {s : State} {job : W64} {rank since : Nat} (absent : s.absentSince job rank = some since)
include absent

theorem routeAbsenceTimeout_early (early : s.st.now.toNat ≤ since + 3 * second / 2) : exec (.routeAbsenceTimeout job rank) s = .next s := by
  dsimp only [exec]
  rw [execRouteAbsenceTimeout, absent]
  exact congrArg _ (if_neg (Nat.not_lt.2 early))

/-- A rank that has no route yet gets one, to depart from (R247). -/
def State.withRoute (s : State) (job : W64) (rank since : Nat) : State :=
  if (s.route? job rank).isSome then s else { s with seif := { s.seif with routes := s.seif.routes ++ [(Route.mk job rank none (BitVec.ofNat 64 since) false)] } }

theorem routeAbsenceTimeout_late (late : since + 3 * second / 2 < s.st.now.toNat) :
    exec (.routeAbsenceTimeout job rank) s = .next ((s.withRoute job rank since).rankDeparts job rank) := by
  dsimp only [exec]
  rw [execRouteAbsenceTimeout, absent]
  exact congrArg _ (if_pos late)

/-- A rank that is absent has a route to depart from, and has not departed yet (R247). -/
theorem absent_route : ∃ r, (s.withRoute job rank since).route? job rank = some r ∧ r.departed = false := by
  unfold State.withRoute
  cases route : s.route? job rank with
  | none =>
    refine ⟨Route.mk job rank none (BitVec.ofNat 64 since) false, ?_, rfl⟩
    have unseen : s.seif.routes.find? (fun r => r.job == job && r.rank == rank) = none := route
    simp [State.route?, unseen]
  | some r =>
    refine ⟨r, route, ?_⟩
    unfold State.absentSince at absent
    rw [route] at absent
    by_contra gone
    simp [gone] at absent

end

/-! ## Relays (R247, 11 R327) -/

section
variable {s : State} {p : Nat} (hp : p < 18) {i : Nat} {m : List Byte} (found : (portGet s.seif p).message? 6 = some (i, m))
include hp found

/-- A relayed report is taken in at rank 0 of its job, and goes on toward rank 0 elsewhere (11 R327). -/
theorem managementRelay_report (report : msgNat m 1 1 = 1) : let job := BitVec.ofNat 64 (msgNat m 4 8)
    let s' := s.putPort p { portGet s.seif p with inbox := (portGet s.seif p).inbox.eraseIdx i }
    exec (.managementRelay p) s = .next (if s.ownRank job = some 0
      then s'.reportN (relayKey m) (msgNat m 3 1) (msgNat m 20 4) { rank := msgNat m 12 2 % 32768, job := job, serial := BitVec.ofNat 64 (msgNat m 24 8) }
      else s'.postTo job 0 (m.take 32)) := by
  dsimp only [exec]
  rw [execManagementRelay, withMessage_found hp found]
  dsimp only
  have noDeparture (n : Nat) : ¬ (1 = 2 ∧ msgNat m 3 1 = n) := fun h => absurd h.1 (by decide)
  rw [report, if_neg (noDeparture 2), if_neg (noDeparture 1), if_pos rfl]
  rfl

/-- A relayed departure makes its rank depart (R247). -/
theorem managementRelay_departure (told : msgNat m 1 1 = 2) (departure : msgNat m 3 1 = 2) : let job := BitVec.ofNat 64 (msgNat m 4 8)
    let t := (s.putPort p { portGet s.seif p with inbox := (portGet s.seif p).inbox.eraseIdx i }).rankDeparts job (msgNat m 12 2 % 32768)
    t.ownRank job = some 0 → exec (.managementRelay p) s = .next t := by
  intro job t root
  dsimp only [exec]
  rw [execManagementRelay, withMessage_found hp found]
  dsimp only
  rw [told, departure, if_pos (⟨rfl, rfl⟩ : 2 = 2 ∧ 2 = 2)]
  exact congrArg _ ((if_pos root).trans (if_neg (by decide)))

end

/-- Settles O28: a partner by what its port last heard, a rank by how long it has had no route, a relay by what it tells and where it is told. -/
theorem partnersDepart : Obligations.PartnersDepart := by
  unfold Obligations.PartnersDepart
  rintro s p x hp rfl gone
  refine ⟨fun d known silent => ?_, fun other => ?_, fun d i m found known => ?_, fun job rank since absent => ⟨fun late => ?_, fun early => ?_⟩, fun i m found => ?_⟩
  · rw [partnerSilenceTimeout_exec hp, if_pos ⟨by simp [known], silent⟩]
    exact ⟨_, rfl, partnerDeparts_gone known⟩
  · rw [partnerSilenceTimeout_exec hp, if_neg (fun both => other.elim both.1 fun early => by omega)]
  · have still : (portGet (s.putPort p { portGet s.seif p with inbox := (portGet s.seif p).inbox.eraseIdx i }).seif p).partner = some d := by
      rw [portGet_putPort]
      exact known
    obtain ⟨gone, ran⟩ := And.intro (partnerDeparts_gone still) (departureNotice_found hp found known)
    exact ⟨_, gone, ran⟩
  · obtain ⟨r, route, there⟩ := absent_route absent
    refine ⟨_, routeAbsenceTimeout_late absent late, rankDeparts_departed route there, fun r' known none => ?_⟩
    have same : s.withRoute job rank since = s := if_pos (by simp [known])
    rw [same] at route ⊢
    exact rankDeparts_absent route there none
  · exact routeAbsenceTimeout_early absent early
  · refine ⟨fun report root => ?_, fun report other => ?_, fun told departure _ => managementRelay_departure hp found told departure⟩
    · rw [managementRelay_report hp found report, if_pos root]
    · rw [managementRelay_report hp found report, if_neg other]

end Sys2Proof.Machine

/-! PROOFS. System Time (08 R228 to R233, 18 R453). -/

namespace Sys2Proof.Machine

/-! ## Elections (R232) -/

/-- What an election leaves as it was: all but the grandmaster, the way to it, the mode and the holdover. -/
structure Elected (s t : State) : Prop where
  mem : t.mem = s.mem
  ctxs : t.ctxs = s.ctxs
  seif : t.seif = s.seif
  cfg : t.cfg = s.cfg
  pins : t.pins = s.pins
  now : t.st.now = s.st.now
  pps : t.st.ppsValid = s.st.ppsValid
  ten : t.st.tenValid = s.st.tenValid
  capable : t.st.capable = s.st.capable
  rejects : t.st.ppsReject = s.st.ppsReject

theorem elect_elected (s : State) : Elected s s.elect := by
  unfold State.elect
  dsimp only
  split <;> split <;> exact ⟨rfl, rfl, rfl, rfl, rfl, rfl, rfl, rfl, rfl, rfl⟩

/-! ## The reference inputs (R233) -/

/-- The reference inputs are set, and no more of System Time's count and of the rest of the module changes than an election changes. -/
structure RefsSet (s t : State) (pulse clock : Bool) : Prop where
  mem : t.mem = s.mem
  pins : t.pins = s.pins
  now : t.st.now = s.st.now
  pps : t.st.ppsValid = pulse
  ten : t.st.tenValid = clock
  capable : t.st.capable = (pulse && clock)
  rejects : t.st.ppsReject = s.st.ppsReject

theorem setRefs_set (s : State) (pps ten : Bool) : RefsSet s (s.setRefs pps ten) pps ten := by
  unfold State.setRefs
  extract_lets -lift lost old set warned
  have kept : RefsSet s warned pps ten := by
    dsimp only [warned]
    split <;> exact ⟨rfl, rfl, rfl, rfl, rfl, rfl, rfl⟩
  split
  · exact kept
  · have elected := elect_elected warned
    exact ⟨elected.mem.trans kept.mem, elected.pins.trans kept.pins, elected.now.trans kept.now, elected.pps.trans kept.pps, elected.ten.trans kept.ten,
      elected.capable.trans kept.capable, elected.rejects.trans kept.rejects⟩

/-- A pulse that does not count is counted as rejected; the third in a row takes the input away (R233). -/
theorem rejectPps_kept (s : State) : let t := s.rejectPps
    t.st.ppsReject = satAdd 32 s.st.ppsReject 1 ∧ (s.st.ppsValid = true → t.st.ppsValid = decide (s.st.ppsBad < 2)) ∧ t.st.now = s.st.now ∧ t.mem = s.mem := by
  unfold State.rejectPps
  extract_lets t r u
  by_cases third : 3 ≤ s.st.ppsBad + 1 ∧ s.st.ppsValid = true
  · have gone := setRefs_set r false s.st.tenValid
    have u_eq : u = r.setRefs false s.st.tenValid := if_pos third
    rw [u_eq]
    exact ⟨gone.rejects, fun _ => gone.pps.trans (decide_eq_false (by omega)).symm, gone.now, gone.mem⟩
  · have u_eq : u = r := if_neg third
    rw [u_eq]
    exact ⟨rfl, fun valid => valid.trans (decide_eq_true (by simp only [valid, and_true] at third; omega)).symm, rfl, rfl⟩

theorem tref10mDeviation_valid {s : State} (valid : s.st.tenValid = true) : exec .tref10mDeviation s = .next (s.setRefs s.st.ppsValid false) := by
  dsimp only [exec]
  exact congrArg _ (if_pos valid)

/-- The 10 MHz input's amplitude is seen as gone, and the input with it where it was valid (R233). -/
theorem tref10mAmplitudeLoss_kept (s : State) : ∃ t, exec .tref10mAmplitudeLoss s = .next t ∧ t.pins.tenMAmplitude = false
    ∧ (s.st.tenValid = true → t.st.tenValid = false ∧ t.st.capable = false) := by
  dsimp only [exec]
  by_cases valid : s.st.tenValid = true
  · have set := setRefs_set { s with pins := { s.pins with tenMAmplitude := false } } s.st.ppsValid false
    exact ⟨_, congrArg Host.Outcome.next (if_pos valid), by rw [set.pins], fun _ => ⟨set.ten, set.capable.trans (Bool.and_false _)⟩⟩
  · exact ⟨_, congrArg Host.Outcome.next (if_neg valid), rfl, fun yes => absurd yes valid⟩

/-! ## The grandmaster's phase (R233) -/

/-- A whole second, in units of 1/16 ns, reached by adding what is missing to the next one. -/
theorem toNat_nextSecond {now : W64} (small : now.toNat + second < 2 ^ 64) :
    (now + BitVec.ofNat 64 ((second - now.toNat % second) % second)).toNat = now.toNat + (second - now.toNat % second) % second := by
  have less : (second - now.toNat % second) % second < second := Nat.mod_lt _ (by decide)
  rw [BitVec.toNat_add, BitVec.toNat_ofNat, Nat.mod_eq_of_lt (a := (second - now.toNat % second) % second) (by omega), Nat.mod_eq_of_lt (by omega)]

section
variable {s : State} (capable : s.st.capable = true) (own : s.st.gm = s.cfg.serial)

theorem alignPps_other (other : s.st.capable = false ∨ s.st.gm ≠ s.cfg.serial) : s.alignPps = s := if_pos other

include capable own

theorem not_other : ¬ (s.st.capable = false ∨ s.st.gm ≠ s.cfg.serial) := fun other => other.elim (by simp [capable]) (fun ne => ne own)

/-- Before lock, with no context resident, the count steps forward to the second of the pulse (R229, R233). -/
theorem alignPps_steps (free : s.st.locked = false) (none : s.resident = []) (small : s.st.now.toNat + second < 2 ^ 64) :
    s.alignPps.st.now.toNat = s.st.now.toNat + (second - s.st.now.toNat % second) % second := by
  unfold State.alignPps
  dsimp only
  rw [if_neg (not_other capable own), if_pos ⟨free, by rw [none]; rfl⟩]
  exact toNat_nextSecond small

/-- After it the count is not moved (R230). -/
theorem alignPps_steers (settled : s.st.locked = true ∨ s.resident ≠ []) : s.alignPps.st.now = s.st.now ∧ s.alignPps.mem = s.mem := by
  have steers : ¬ (s.st.locked = false ∧ s.resident.isEmpty) := by
    rintro ⟨free, none⟩
    exact settled.elim (by simp [free]) (fun ne => ne (List.isEmpty_iff.mp none))
  unfold State.alignPps
  dsimp only
  rw [if_neg (not_other capable own), if_neg steers]
  exact ⟨rfl, rfl⟩

end

/-! ## Pulses (R233) -/

section
variable {s : State} {high : Nat} (long : 20 ≤ high) (seven : s.resetting 7 = false) (eight : s.resetting 8 = false)

theorem trefPpsEdge_unseen (unseen : ¬ (20 ≤ high ∧ s.resetting 7 = false ∧ s.resetting 8 = false)) : exec (.trefPpsEdge high) s = .next s := by
  dsimp only [exec]
  refine congrArg _ (if_pos ?_)
  by_contra no
  simp only [Bool.or_eq_true, decide_eq_true_eq, not_or, Bool.not_eq_true, Nat.not_lt] at no
  exact unseen ⟨no.1.1, no.1.2, no.2⟩

include long seven eight

theorem edge_seen : ¬ ((decide (high < 20) || s.resetting 7 || s.resetting 8) = true) := by
  simp [seven, eight, long]

/-- A pulse too short or too long is rejected (R233). -/
theorem trefPpsEdge_unsound (unsound : ¬ (100 ≤ high ∧ high ≤ 500000000)) : exec (.trefPpsEdge high) s = .next s.rejectPps := by
  dsimp only [exec]
  exact congrArg _ ((if_neg (edge_seen long seven eight)).trans (if_pos (by omega)))

variable (sound : 100 ≤ high ∧ high ≤ 500000000)
include sound

theorem trefPpsEdge_valid (valid : s.st.ppsValid = true) : exec (.trefPpsEdge high) s =
    .next (if s.st.inPlace = true then ({ s with st := { s.st with ppsBad := 0, ppsLast := some s.st.now.toNat } } : State).alignPps else s.rejectPps) := by
  dsimp only [exec]
  refine congrArg Host.Outcome.next ((if_neg (edge_seen long seven eight)).trans ((if_neg (by omega)).trans ((if_pos valid).trans ?_)))
  cases s.st.inPlace <;> rfl

/-- Is a pulse a whole number of seconds after the one before? -/
def SysTime.consistent (t : SysTime) : Prop := ∃ l, t.ppsLast = some l ∧ l < t.now.toNat ∧ secondError (t.now.toNat - l) ≤ microsecond

/-- A pulse of an input that is not valid yet, which is the given good one in a row. -/
def State.notePps (s : State) (good : Nat) : State := { s with st := { s.st with ppsGood := good, ppsBad := 0, ppsLast := some s.st.now.toNat } }

/-- What such a pulse does: the eighth in a row makes the input valid (R233). -/
def State.countPps (s : State) (good : Nat) : State :=
  if 8 ≤ good then (({ s.notePps good with st := { (s.notePps good).st with slewing := true } } : State).setRefs true s.st.tenValid).alignPps else s.notePps good

theorem trefPpsEdge_invalid (invalid : s.st.ppsValid = false) {good : Nat} (counted : (s.st.consistent ∧ good = s.st.ppsGood + 1) ∨ (¬ s.st.consistent ∧ good = 1)) :
    exec (.trefPpsEdge high) s = .next (s.countPps good) := by
  dsimp only [exec]
  refine congrArg Host.Outcome.next ((if_neg (edge_seen long seven eight)).trans ((if_neg (by omega)).trans ((if_neg (by simp [invalid])).trans ?_)))
  extract_lets +onlyGivenNames consistent good'
  have meant : consistent = true ↔ s.st.consistent := by
    dsimp only [consistent]
    unfold SysTime.consistent
    split <;> simp [*, and_comm]
  have good_eq : good' = good := by
    obtain ⟨yes, rfl⟩ | ⟨no, rfl⟩ := counted
    · exact if_pos (meant.mpr yes)
    · exact if_neg (fun yes => no (meant.mp yes))
  change s.countPps good' = s.countPps good
  rw [good_eq]

end

/-! ## Timestamps (R228 to R230) -/

/-- The offset that a timestamp measures. -/
def thetaOf (m : List Byte) : Int := (((msgNat m 24 8 : Nat) - (msgNat m 16 8 : Nat)) - ((msgNat m 32 8 : Nat) - (msgNat m 8 8 : Nat))) / 2

/-- The delay that it measures. -/
def delayOf (m : List Byte) : Int := (((msgNat m 24 8 : Nat) - (msgNat m 16 8 : Nat)) + ((msgNat m 32 8 : Nat) - (msgNat m 8 8 : Nat))) / 2

/-- A port after a timestamp: what the next one echoes is kept, and the delay where it echoes one. -/
def Port.stamped (x : Port) (i : Nat) (m : List Byte) (delay : Int) : Port :=
  { x with inbox := x.inbox.eraseIdx i, echoTx := BitVec.ofNat 64 (msgNat m 8 8), arrival := BitVec.ofNat 64 (msgNat m 32 8), delay := delay }

theorem timestamp_found {s : State} {p : Nat} (hp : p < 18) {i : Nat} {m : List Byte} (found : (portGet s.seif p).message? 1 = some (i, m)) : let x := portGet s.seif p
    let s' := s.putPort p (x.stamped i m (if (msgNat m 16 8 : Int) = 0 then x.delay else delayOf m))
    exec (.timestamp p) s = .next (if msgNat m 16 8 ≠ 0 ∧ s.st.parent = some p then s'.steer (thetaOf m) else s') := by
  intro x
  have delay : (if (msgNat m 16 8 : Int) = 0 then x.delay else delayOf m) = if (msgNat m 16 8 != 0) = true then delayOf m else x.delay := by
    by_cases zero : msgNat m 16 8 = 0 <;> simp [zero]
  dsimp only [exec]
  rw [execTimestamp, withMessage_found hp found, delay]
  dsimp only
  rw [portGet_putPort, putPort_putPort]
  refine congrArg _ (ite_congr (propext ?_) (fun _ => rfl) (fun _ => rfl))
  simp

section
variable {s : State} {theta : Int}

/-- The offsets of which the mean is taken, the newest included (R229). -/
def SysTime.lastThetas (t : SysTime) (theta : Int) : List Int := (t.thetas ++ [theta]).drop (t.thetas.length + 1 - 64)

/-- Initial lock steps the count by the mean (R229). -/
theorem steer_steps (free : s.st.locked = false) (none : s.resident = []) (forward : 0 ≤ meanOf (s.st.lastThetas theta)) : s.steer theta =
    { s with st := { s.st with now := s.st.now + BitVec.ofInt 64 (meanOf (s.st.lastThetas theta)), thetas := [], offset := 0, ratePpm := 0, mode := 2, locked := true } } :=
  if_pos ⟨free, by rw [none]; rfl, forward⟩

theorem steer_follows (no : ¬ (s.st.locked = false ∧ s.resident = [] ∧ 0 ≤ meanOf (s.st.lastThetas theta))) : s.steer theta =
    let mean := meanOf (s.st.lastThetas theta)
    let near := decide (-oneNs ≤ mean ∧ mean ≤ oneNs)
    ({ s with st := { s.st.follow mean s.fresh with thetas := s.st.lastThetas theta, mode := if near then 2 else 1, locked := s.st.locked || near } } : State).spend :=
  if_neg (fun h => no ⟨h.1, List.isEmpty_iff.mp h.2.1, h.2.2⟩)

end

/-- The rate goes against the offset, by at most 100 ppm (R230). -/
theorem follow_rate (t : SysTime) (offset : Int) (free : Nat) : let r := (t.follow offset free).ratePpm
    (offset < 0 → -100 ≤ r ∧ r ≤ 0) ∧ (0 < offset → 0 ≤ r ∧ r ≤ 100) ∧ (offset = 0 → r = 0) := by
  unfold SysTime.follow
  dsimp only
  have small : free % 101 < 101 := Nat.mod_lt _ (by decide)
  refine ⟨fun late => ?_, fun early => ?_, fun same => ?_⟩
  · rw [if_pos late]
    omega
  · rw [if_neg (by omega), if_pos early]
    omega
  · rw [if_neg (by omega), if_neg (by omega)]

/-! ## Holdover (R232, R453) -/

theorem holdoverLimit_warns {s : State} {h : Nat} (held : s.st.holdover = some h) (mode : s.st.mode = 3) (long : h + 10 * millisecond < s.st.now.toNat)
    (quiet : s.st.holdoverWarned = false) :
    exec .holdoverLimit s = .next (({ s with st := { s.st with holdoverWarned := true } } : State).raise { level := 2, source := 3, reg := some 0x4000C }) := by
  dsimp only [exec]
  unfold execHoldoverLimit
  have due : s.st.mode = 3 ∧ h + 10 * millisecond < s.st.now.toNat ∧ s.st.holdoverWarned = false := ⟨mode, long, quiet⟩
  split
  next none => exact absurd (none.symm.trans held) (by simp)
  next t since =>
    obtain rfl : t = h := Option.some.inj (since.symm.trans held)
    exact congrArg Host.Outcome.next (if_pos due)

/-- Settles O29: timestamps by who sent them and whether the count may step, pulses by their form and place, and the inputs by what is set. -/
theorem systemTimeFollowsItsParent : Obligations.SystemTimeFollowsItsParent := by
  unfold Obligations.SystemTimeFollowsItsParent
  intro s
  refine ⟨?stamps, ⟨fun enters => ?_, fun no => ?_⟩, fun h => holdoverLimit_warns, fun high => ⟨trefPpsEdge_unseen, ?inPlace, ?rejected, ?fresh⟩, alignPps_other, ?steps,
    alignPps_steers, fun valid => ?_, tref10mAmplitudeLoss_kept s, ?_⟩
  case stamps =>
    rintro p i x m hp rfl found
    refine ⟨fun other => ?_, fun echoed parent steps => ?_, fun echoed parent no => ?_⟩
    · rw [timestamp_found hp found, if_neg]
      · rfl
      · exact fun both => other.elim (by exact_mod_cast both.1) (fun ne => ne both.2)
    · rw [timestamp_found hp found, if_pos ⟨by exact_mod_cast echoed, parent⟩]
      exact congrArg _ (steer_steps steps.1 steps.2.1 steps.2.2)
    · refine ⟨_, (timestamp_found hp found).trans (congrArg _ ((if_pos ⟨by exact_mod_cast echoed, parent⟩).trans (steer_follows no))), ?_⟩
      refine ⟨portGet_putPort .., rfl, rfl, rfl, ?_, rfl, follow_rate s.st ..⟩
      exact ite_congr (decide_eq_true_eq) (fun _ => rfl) (fun _ => rfl)
  · dsimp only [exec]
    exact congrArg _ (if_pos enters)
  · dsimp only [exec]
    exact congrArg _ (if_neg no)
  case inPlace =>
    rintro ⟨long, seven, eight⟩ sound valid place
    rw [trefPpsEdge_valid long seven eight sound valid, if_pos place]
  case rejected =>
    rintro ⟨long, seven, eight⟩ bad
    refine ⟨s.rejectPps, ?_, rejectPps_kept s⟩
    by_cases sound : 100 ≤ high ∧ high ≤ 500000000
    · obtain ⟨valid, place⟩ := bad.resolve_left (not_not_intro sound)
      rw [trefPpsEdge_valid long seven eight sound valid, if_neg (by simp [place])]
    · exact trefPpsEdge_unsound long seven eight sound
  case fresh =>
    rintro ⟨long, seven, eight⟩ sound invalid
    refine ⟨fun no => ?_, fun yes few => ?_, fun yes many => ?_⟩
    · rw [trefPpsEdge_invalid long seven eight sound invalid (.inr ⟨no, rfl⟩)]
      rfl
    · rw [trefPpsEdge_invalid long seven eight sound invalid (.inl ⟨yes, rfl⟩), State.countPps, if_neg (by omega)]
      rfl
    · rw [trefPpsEdge_invalid long seven eight sound invalid (.inl ⟨yes, rfl⟩), State.countPps, if_pos many]
      rfl
  case steps =>
    intro capable own free none away small
    rw [alignPps_steps capable own free none small]
    unfold second at *
    omega
  · have set := setRefs_set s s.st.ppsValid false
    exact ⟨_, tref10mDeviation_valid valid, set.ten, set.capable.trans (Bool.and_false _), set.pps, set.pins⟩
  · have set := setRefs_set { s with pins := { s.pins with tenMAmplitude := true } } s.st.ppsValid true
    exact ⟨_, rfl, set.ten, set.capable.trans (Bool.and_true _), by rw [set.pins], set.mem⟩

end Sys2Proof.Machine

/-! PROOFS. The election of the grandmaster (08 R231, R232). -/

namespace Sys2Proof.Machine

/-! ## Better candidates (R231) -/

theorem better_iff {a b : Candidate} : Candidate.better a b = true ↔
    a.1 < b.1 ∨ (a.1 = b.1 ∧ (a.2.1 < b.2.1 ∨ (a.2.1 = b.2.1 ∧ a.2.2.1.toNat < b.2.2.1.toNat))) := decide_eq_true_iff

theorem better_irrefl (a : Candidate) : Candidate.better a a = false := by
  rw [← Bool.not_eq_true, better_iff]
  omega

/-- What is not better than a candidate that is no worse than a third is not better than the third. -/
theorem not_better_trans {a b c : Candidate} (ab : Candidate.better a b = false) (bc : Candidate.better b c = false) : Candidate.better a c = false := by
  rw [← Bool.not_eq_true, better_iff] at *
  omega

theorem not_better_of_better {a b : Candidate} (ab : Candidate.better a b = true) : Candidate.better b a = false := by
  rw [← Bool.not_eq_true, better_iff]
  rw [better_iff] at ab
  omega

/-- Only class, priority and serial count. -/
theorem better_congr {b c : Candidate} (cls : b.1 = c.1) (priority : b.2.1 = c.2.1) (serial : b.2.2.1 = c.2.2.1) (a : Candidate) :
    Candidate.better a b = Candidate.better a c := by
  unfold Candidate.better
  rw [cls, priority, serial]

/-- The better of a candidate so far and the next announced one. -/
def Candidate.pick (b : Candidate) (x : Nat × Candidate) : Candidate := if Candidate.better x.2 b then x.2 else b

theorem pick_least (b : Candidate) (x : Nat × Candidate) :
    Candidate.better b (b.pick x) = false ∧ Candidate.better x.2 (b.pick x) = false ∧ (b.pick x = b ∨ b.pick x = x.2) := by
  unfold Candidate.pick
  by_cases better : Candidate.better x.2 b = true
  · rw [if_pos better]
    exact ⟨not_better_of_better better, better_irrefl _, .inr rfl⟩
  · rw [if_neg better]
    exact ⟨better_irrefl _, Bool.not_eq_true _ ▸ better, .inl rfl⟩

/-- The candidate picked in the end is one of them, and none is better. -/
theorem foldl_pick_least (l : List (Nat × Candidate)) (b : Candidate) : let best := l.foldl Candidate.pick b
    (∀ a ∈ l, Candidate.better a.2 best = false) ∧ Candidate.better b best = false ∧ (best = b ∨ ∃ a ∈ l, best = a.2) := by
  induction l generalizing b with
  | nil => exact ⟨fun a none => absurd none (by simp), better_irrefl b, .inl rfl⟩
  | cons x l ih =>
    obtain ⟨rest, next, one⟩ := ih (b.pick x)
    obtain ⟨before, here, picked⟩ := pick_least b x
    rw [List.foldl_cons]
    refine ⟨fun a mem => ?_, not_better_trans before next, ?_⟩
    · obtain rfl | mem := List.mem_cons.mp mem
      · exact not_better_trans here next
      · exact rest a mem
    · obtain same | ⟨a, mem, same⟩ := one
      · rw [same]
        exact picked.imp id fun taken => ⟨x, List.mem_cons_self, taken⟩
      · exact .inr ⟨a, List.mem_cons_of_mem _ mem, same⟩

/-! ## What an election finds (R232) -/

/-- The best candidate announced, or the module itself. -/
def State.bestCandidate (s : State) : Candidate := s.announced.foldl Candidate.pick s.ownCandidate

/-- The grandmaster elected is the best candidate, with its class and priority, the module's own where the serial is its own. -/
theorem elect_grandmaster (s : State) : s.elect.st.gm = s.bestCandidate.2.2.1
    ∧ (s.bestCandidate.2.2.1 = s.cfg.serial → s.elect.st.gmClass = s.ownCandidate.1 ∧ s.elect.st.gmPriority = s.ownCandidate.2.1)
    ∧ (s.bestCandidate.2.2.1 ≠ s.cfg.serial → s.elect.st.gmClass = s.bestCandidate.1 ∧ s.elect.st.gmPriority = s.bestCandidate.2.1) := by
  have picked : s.announced.foldl (fun b x => if Candidate.better x.2 b then x.2 else b) s.ownCandidate = s.bestCandidate := rfl
  have serial : s.ownCandidate.2.2.1 = s.cfg.serial := rfl
  unfold State.elect
  dsimp only
  rw [picked, serial]
  by_cases own : s.bestCandidate.2.2.1 = s.cfg.serial
  · rw [if_pos own]
    split <;> exact ⟨own.symm, fun _ => ⟨rfl, rfl⟩, fun no => absurd own no⟩
  · rw [if_neg own]
    split <;> exact ⟨rfl, fun yes => absurd yes own, fun _ => ⟨rfl, rfl⟩⟩

/-- What was announced is read from the ports and the time, which an election leaves. -/
theorem elect_announced (s : State) : s.elect.announced = s.announced := by
  have kept := elect_elected s
  unfold State.announced State.upPorts
  rw [kept.seif, kept.now]

theorem elect_ownCandidate (s : State) : s.elect.ownCandidate = s.ownCandidate := by
  have kept := elect_elected s
  unfold State.ownCandidate
  rw [kept.capable, kept.cfg]

/-- Where what is announced under the module's own serial is what the module itself would announce, the grandmaster elected is no worse than any candidate. -/
theorem elect_best {s : State} (own : ∀ a ∈ s.announced, a.2.2.2.1 = s.cfg.serial → a.2.1 = s.ownCandidate.1 ∧ a.2.2.1 = s.ownCandidate.2.1) (hops : Nat) :
    let best : Candidate := (s.elect.st.gmClass, s.elect.st.gmPriority, s.elect.st.gm, hops)
    (∀ a ∈ s.announced, Candidate.better a.2 best = false) ∧ Candidate.better s.ownCandidate best = false
      ∧ (s.elect.st.gm = s.cfg.serial ∨ ∃ a ∈ s.announced, a.2.2.2.1 = s.elect.st.gm) := by
  intro best
  obtain ⟨least, notOwn, one⟩ : _ ∧ _ ∧ (s.bestCandidate = s.ownCandidate ∨ ∃ a ∈ s.announced, s.bestCandidate = a.2) := foldl_pick_least s.announced s.ownCandidate
  obtain ⟨gm, self, other⟩ := elect_grandmaster s
  have rank : s.elect.st.gmClass = s.bestCandidate.1 ∧ s.elect.st.gmPriority = s.bestCandidate.2.1 := by
    by_cases mine : s.bestCandidate.2.2.1 = s.cfg.serial
    · rw [(self mine).1, (self mine).2]
      obtain same | ⟨a, mem, same⟩ := one
      · rw [same]
        exact ⟨rfl, rfl⟩
      · rw [same] at mine ⊢
        exact ⟨(own a mem mine).1.symm, (own a mem mine).2.symm⟩
    · exact other mine
  have as (a : Candidate) : Candidate.better a best = Candidate.better a s.bestCandidate := better_congr rank.1 rank.2 gm a
  refine ⟨fun a mem => (as a.2).trans (least a mem), (as _).trans notOwn, ?_⟩
  rw [gm]
  exact one.imp (fun same => by rw [same]; rfl) fun ⟨a, mem, same⟩ => ⟨a, mem, by rw [same]⟩

/-- Note when the grandmaster was heard last. -/
def State.hearGrandmaster (s : State) (serial : W64) (at' : Nat) : State :=
  if serial = s.st.gm then { s with st := { s.st with gmHeard := max s.st.gmHeard at' } } else s

/-- Nothing else of System Time changes with it. -/
theorem hearGrandmaster_kept (s : State) (serial : W64) (at' : Nat) : ∃ h, s.hearGrandmaster serial at' = { s with st := { s.st with gmHeard := h } } ∧ (s.st.gm = serial → at' ≤ h) := by
  unfold State.hearGrandmaster
  by_cases heard : serial = s.st.gm
  · rw [if_pos heard]
    exact ⟨_, rfl, fun _ => le_max_right ..⟩
  · rw [if_neg heard]
    exact ⟨_, rfl, fun same => absurd same.symm heard⟩

theorem grandmasterAnnouncement_found {s : State} {p : Nat} (hp : p < 18) {i : Nat} {m : List Byte} (found : (portGet s.seif p).message? 2 = some (i, m)) :
    exec (.grandmasterAnnouncement p) s = .next ((s.putPort p { portGet s.seif p with
      inbox := (portGet s.seif p).inbox.eraseIdx i, heard := some (msgNat m 1 1, msgNat m 2 1, BitVec.ofNat 64 (msgNat m 8 8), msgNat m 3 1),
      heardAt := msgNat m 32 8 }).elect.hearGrandmaster (BitVec.ofNat 64 (msgNat m 8 8)) (msgNat m 32 8)) := by
  dsimp only [exec]
  rw [execGrandmasterAnnouncement, withMessage_found hp found]
  dsimp only
  rw [portGet_putPort, putPort_putPort]
  rfl

/-- Settles O30: the election folds the candidates to their least, and noting the announcement changes none of them. -/
theorem grandmasterIsTheBest : Obligations.GrandmasterIsTheBest := by
  unfold Obligations.GrandmasterIsTheBest
  rintro s p i x m hp rfl found
  refine ⟨_, grandmasterAnnouncement_found hp found, ?_⟩
  generalize port_eq : ({ portGet s.seif p with
    inbox := (portGet s.seif p).inbox.eraseIdx i, heard := some (msgNat m 1 1, msgNat m 2 1, BitVec.ofNat 64 (msgNat m 8 8), msgNat m 3 1), heardAt := msgNat m 32 8 } : Port) = y
  have kept := elect_elected (s.putPort p y)
  have announced := elect_announced (s.putPort p y)
  have own := elect_ownCandidate (s.putPort p y)
  have best := elect_best (s := s.putPort p y)
  obtain ⟨h, noted, heard⟩ := hearGrandmaster_kept (s.putPort p y).elect (BitVec.ofNat 64 (msgNat m 8 8)) (msgNat m 32 8)
  rw [noted]
  generalize (s.putPort p y).elect = e at *
  refine ⟨by rw [kept.seif, portGet_putPort], kept.now, kept.mem, heard, fun same => ?_⟩
  change ∀ a ∈ e.announced, _ at same
  rw [announced] at same
  have found := best same e.st.hops
  rw [← announced] at found
  exact found

end Sys2Proof.Machine

/-! PROOFS. Matched pacing (08 R248). -/

namespace Sys2Proof.Machine

/-! ## What a period's start changes -/

theorem ReportedOnly.foldl {α : Type} {f : State → α → State} (one : ∀ s a, ReportedOnly s (f s a)) (l : List α) (s : State) : ReportedOnly s (l.foldl f s) := by
  induction l generalizing s with
  | nil => rfl
  | cons a l ih => exact (one s a).trans (ih _)

theorem setPacing_reportedOnly (s : State) (q : Pacing) : ReportedOnly s (s.setPacing q) := rfl

theorem warnPacing_reportedOnly (s : State) (k : Nat) (c : Ctx) (period : Nat) : ReportedOnly s (warnPacing s k c period) := by
  refine ReportedOnly.foldl (fun s r => ?_) _ s
  cases s.pacing? k with
  | none => rfl
  | some q =>
    dsimp only
    split
    · split <;> rfl
    · rfl

theorem passPacing_reportedOnly (s : State) (c : Ctx) (q : Pacing) (period : Nat) : ReportedOnly s (s.passPacing c q period) := by
  unfold State.passPacing
  dsimp only
  split
  · exact (setPacing_reportedOnly ..).trans (ReportedOnly.foldl (fun s r => postTo_reportedOnly s ..) _ _)
  · exact (setPacing_reportedOnly ..).trans (postTo_reportedOnly ..)

theorem pacingCtx_reportedOnly (s : State) (k : Nat) (c : Ctx) (n ratio : Nat) : ReportedOnly s (pacingCtx s k c n ratio) := by
  unfold pacingCtx
  extract_lets +onlyGivenNames q q' old noted warned late
  have first : ReportedOnly s warned := by
    refine ReportedOnly.trans (t := noted) ?_ (warnPacing_reportedOnly ..)
    dsimp only [noted]
    split <;> rfl
  have second : ReportedOnly s late := by
    dsimp only [late]
    split
    · split
      · exact first
      · exact first.trans (passPacing_reportedOnly ..)
    · exact first
  split
  · exact second
  · split
    · exact second.trans (passPacing_reportedOnly ..)
    · exact second

/-- The state at a period's start, with what each paced context's ratio adds and what goes on (R248). -/
def State.periodBegun (s : State) : State :=
  s.paced.foldl (fun t c => match t.ctx? c.1 with | none => t | some x => pacingCtx t c.1 x (pacingPeriod s.st.now) s.power.periodMax) s

theorem periodBegun_reportedOnly (s : State) : ReportedOnly s s.periodBegun := by
  refine ReportedOnly.foldl (fun t c => ?_) _ s
  cases t.ctx? c.1 with
  | none => rfl
  | some x => exact pacingCtx_reportedOnly ..

/-! ## What goes down (R248) -/

/-- A message is posted for each rank that a port reaches which knows it. -/
theorem mem_outbox_foldl_postTo {job : W64} {b : List Byte} {l : List Nat} {r e : Nat} (listed : r ∈ l) {s : State} (egress : s.egress job r = some e)
    (knows : (portGet s.seif e).version ≠ 3) : message b ∈ (portGet (l.foldl (fun s r => s.postTo job r b) s).seif e).outbox := by
  induction l generalizing s with
  | nil => exact absurd listed (by simp)
  | cons a l ih =>
    rw [List.foldl_cons]
    have posted := postTo_posted s job a b
    obtain rfl | later := List.mem_cons.mp listed
    · refine (Posted.foldl (fun s r => postTo_posted s job r b) l _).waits e ?_
      unfold State.postTo State.post
      rw [egress]
      dsimp only
      rw [if_neg (fun v3 => knows v3.1), portGet_putPort]
      exact List.mem_append_right _ (List.mem_singleton.mpr rfl)
    · refine ih later ?_ ?_
      · unfold State.egress State.route? at egress ⊢
        rwa [posted.routes]
      · rwa [posted.ports e]

/-! ## Ratios that arrive (R248) -/

/-- A record with a ratio from above. -/
def Pacing.maximum (q : Pacing) (period ratio : Nat) : Pacing := { q with maxima := (q.maxima.drop (q.maxima.length - 15)) ++ [(period, ratio)] }

theorem setPacing_pacing {s : State} {k : Nat} {q q' : Pacing} (kept : s.pacing? k = some q) (ctx : q'.ctx = k) : (s.setPacing q').pacing? k = some q' := by
  subst ctx
  have same : (updWhere s.seif.pacing (fun y => y.ctx == q'.ctx) (fun _ => q')).find? (fun y => y.ctx == q'.ctx) = (s.seif.pacing.find? (fun y => y.ctx == q'.ctx)).map (fun _ => q') :=
    find?_updWhere (p := fun y : Pacing => y.ctx == q'.ctx) (fun _ _ => beq_self_eq_true _) _
  exact same.trans (congrArg _ kept)

section
variable {s : State} {p : Nat} (hp : p < 18) {i k : Nat} {m : List Byte} {c : Ctx} {q : Pacing} (found : (portGet s.seif p).message? 5 = some (i, m))
  (job : s.jobCtx (BitVec.ofNat 64 (msgNat m 4 8)) = some (k, c)) (kept : s.pacing? k = some q)
include hp found job kept

/-- The ratio from above is kept, passed on and applied. -/
theorem pacing_down (down : msgNat m 1 1 ≠ 0) : exec (.pacing p) s =
    .next ((childRanks c.desc.modules c.desc.rank).foldl (fun s r => s.postTo (BitVec.ofNat 64 (msgNat m 4 8)) r (m.take 32))
      ((s.putPort p { portGet s.seif p with inbox := (portGet s.seif p).inbox.eraseIdx i }).setPacing (q.maximum (msgNat m 12 8) (msgNat m 20 1)))).applyMax := by
  dsimp only [exec]
  rw [execPacing, withMessage_found hp found]
  generalize taken : s.putPort p { portGet s.seif p with inbox := (portGet s.seif p).inbox.eraseIdx i } = u
  have job' : u.jobCtx (BitVec.ofNat 64 (msgNat m 4 8)) = some (k, c) := taken ▸ job
  have kept' : u.pacing? k = some q := taken ▸ kept
  dsimp only
  rw [job']
  dsimp only
  rw [kept']
  exact congrArg Host.Outcome.next (if_neg down)

/-- The children that the port reaches and that have not reported the period yet. -/
def State.reporters (s : State) (p : Nat) (c : Ctx) (q : Pacing) (job : W64) (period : Nat) : List Nat :=
  (childRanks c.desc.modules c.desc.rank).filter (fun r => s.egress job r == some p && !q.reports.any (fun x => x.1 == r && x.2.1 == period))

/-- It stands in the record, applies, and is told to every child that a port reaches which knows the message. -/
theorem pacing_down_kept (ctx : q.ctx = k) (down : msgNat m 1 1 ≠ 0) : ∃ t, exec (.pacing p) s = .next t ∧ t.mem = s.mem ∧ t.power.kJob = t.jobMax (pacingPeriod s.st.now)
    ∧ (∃ y, t.pacing? k = some y ∧ y.maxima = (q.maxima.drop (q.maxima.length - 15)) ++ [(msgNat m 12 8, msgNat m 20 1)])
    ∧ ∀ r ∈ childRanks c.desc.modules c.desc.rank, ∀ e, s.egress (BitVec.ofNat 64 (msgNat m 4 8)) r = some e → (portGet s.seif e).version ≠ 3 → message (m.take 32) ∈ (portGet t.seif e).outbox := by
  refine ⟨_, pacing_down hp found job kept down, ?_⟩
  generalize taken : s.putPort p { portGet s.seif p with inbox := (portGet s.seif p).inbox.eraseIdx i } = u
  have mem : u.mem = s.mem := taken ▸ rfl
  have now : u.st = s.st := taken ▸ rfl
  have version (e : Nat) : (portGet u.seif e).version = (portGet s.seif e).version := taken ▸ by
    by_cases here : e = p
    · rw [here, portGet_putPort]
    · rw [portGet_putPort_other _ _ _ _ here]
  have egress (job : W64) (r : Nat) : u.egress job r = s.egress job r := taken ▸ rfl
  have kept' : u.pacing? k = some q := taken ▸ kept
  have set := setPacing_pacing (q' := q.maximum (msgNat m 12 8) (msgNat m 20 1)) kept' ctx
  have posted := Posted.foldl (fun (s : State) r => postTo_posted s (BitVec.ofNat 64 (msgNat m 4 8)) r (m.take 32))
    (childRanks c.desc.modules c.desc.rank) (u.setPacing (q.maximum (msgNat m 12 8) (msgNat m 20 1)))
  have sent {r e : Nat} (child : r ∈ childRanks c.desc.modules c.desc.rank) (out : s.egress (BitVec.ofNat 64 (msgNat m 4 8)) r = some e) (knows : (portGet s.seif e).version ≠ 3) :=
    mem_outbox_foldl_postTo (b := m.take 32) child (s := u.setPacing (q.maximum (msgNat m 12 8) (msgNat m 20 1))) ((egress ..).trans out)
      (fun v3 => knows ((version e).symm.trans v3))
  generalize (childRanks c.desc.modules c.desc.rank).foldl _ (u.setPacing _) = t at posted sent
  refine ⟨posted.mem.trans mem, ?_, ⟨q.maximum (msgNat m 12 8) (msgNat m 20 1), ?_, rfl⟩, fun r child e out knows => sent child out knows⟩
  · have same : t.st = s.st := posted.st.trans now
    unfold State.applyMax
    rw [same]
    rfl
  · unfold State.pacing? at set ⊢
    rw [← posted.pacing] at set
    exact set

theorem pacing_up_none (up : msgNat m 1 1 = 0) (none : s.reporters p c q (BitVec.ofNat 64 (msgNat m 4 8)) (msgNat m 12 8) = []) :
    exec (.pacing p) s = .next (s.putPort p { portGet s.seif p with inbox := (portGet s.seif p).inbox.eraseIdx i }) := by
  dsimp only [exec]
  rw [execPacing, withMessage_found hp found]
  generalize taken : s.putPort p { portGet s.seif p with inbox := (portGet s.seif p).inbox.eraseIdx i } = u
  have job' : u.jobCtx (BitVec.ofNat 64 (msgNat m 4 8)) = some (k, c) := taken ▸ job
  have kept' : u.pacing? k = some q := taken ▸ kept
  have none' : u.reporters p c q (BitVec.ofNat 64 (msgNat m 4 8)) (msgNat m 12 8) = [] := taken ▸ none
  dsimp only
  rw [job']
  dsimp only
  rw [kept']
  refine congrArg Host.Outcome.next ((if_pos up).trans ?_)
  split
  · rfl
  next some => exact absurd (some.symm.trans none') (by simp)

/-- The first of them is taken to have reported. -/
theorem pacing_up_some {r : Nat} {more : List Nat} (up : msgNat m 1 1 = 0) (some : s.reporters p c q (BitVec.ofNat 64 (msgNat m 4 8)) (msgNat m 12 8) = r :: more) :
    let u := s.putPort p { portGet s.seif p with inbox := (portGet s.seif p).inbox.eraseIdx i }
    let q' := { q with reports := (q.reports.drop (q.reports.length - 255)) ++ [(r, msgNat m 12 8, msgNat m 20 1, msgNat m 22 2)] }
    exec (.pacing p) s = .next (if q'.complete c (msgNat m 12 8) ∧ !q'.sent.contains (msgNat m 12 8) then (u.setPacing q').passPacing c q' (msgNat m 12 8) else u.setPacing q') := by
  dsimp only [exec]
  rw [execPacing, withMessage_found hp found]
  generalize taken : s.putPort p { portGet s.seif p with inbox := (portGet s.seif p).inbox.eraseIdx i } = u
  have job' : u.jobCtx (BitVec.ofNat 64 (msgNat m 4 8)) = Option.some (k, c) := taken ▸ job
  have kept' : u.pacing? k = Option.some q := taken ▸ kept
  have some' : u.reporters p c q (BitVec.ofNat 64 (msgNat m 4 8)) (msgNat m 12 8) = r :: more := taken ▸ some
  dsimp only
  rw [job']
  dsimp only
  rw [kept']
  refine congrArg Host.Outcome.next ((if_pos up).trans ?_)
  split
  next none => exact absurd (none.symm.trans some') (by simp)
  next r' more' there =>
    rw [(List.cons.inj (there.symm.trans some')).1]

end

/-- Settles O33: the period's start folds over the paced contexts; a ratio acts by its direction and the children that still owe one. -/
theorem pacingPeriods : Obligations.PacingPeriods := by
  unfold Obligations.PacingPeriods
  intro s
  refine ⟨fun none => ?_, ?_, ?_⟩
  · dsimp only [exec]
    unfold execPacingPeriodBoundary
    rw [none]
    rfl
  · have only := periodBegun_reportedOnly s
    have begun : exec .pacingPeriodBoundary s = .next ({ s.periodBegun with power := { s.periodBegun.power with periodMax := 0 } } : State).applyMax := rfl
    generalize s.periodBegun = t at only begun
    refine ⟨_, begun, rfl, ?_, by rw [only]; rfl⟩
    unfold State.applyMax
    rw [only]
    rfl
  · rintro p i k x m c q hp rfl found job kept ctx
    refine ⟨fun down => ?_, pacing_up_none hp found job kept, fun r more up some => ⟨fun whole fresh => ?_, fun held => ?_⟩⟩
    · exact pacing_down_kept hp found job kept ctx down
    · rw [pacing_up_some hp found job kept up some]
      exact congrArg _ (if_pos ⟨whole, by rw [fresh]; rfl⟩)
    · rw [pacing_up_some hp found job kept up some]
      refine congrArg _ (if_neg fun both => ?_)
      obtain ⟨whole, fresh⟩ := both
      exact held.elim (fun no => absurd (no.symm.trans whole) (by decide)) fun sent => by rw [sent] at fresh; exact absurd fresh (by decide)

end Sys2Proof.Machine

/-! PROOFS. Collectives (08 R238 to R246). -/

namespace Sys2Proof.Machine

/-! ## Starts (R238 to R240) -/

/-- A collective that has just started. -/
def Coll.begun (k : Nat) (c : Ctx) (now : W64) (d : CollDesc) : Coll :=
  { ctx := k, step := c.stepNow, started := now, desc := d, h := (collKeys c.digestJob c.stepNow d.id).1, k := (collKeys c.digestJob c.stepNow d.id).2,
    leaves := [], done := [], mismatches := [], inbox := [], flags := 0, nonFinite := 0 }

/-- What a descriptor of a known format does in an idle context (R238): it is refused, its input is poisoned, or its chunks are contributed. -/
def State.startColl (s : State) (k : Nat) (c : Ctx) (d : CollDesc) (f : Format) : State :=
  match d.bad, s.inputPoison c d f with
  | some code, _ => refuseColl s k code c
  | none, some a => s.putCtx k (c.raisePoison a 0x05)
  | none, none => (List.range d.chunks).foldl (fun s j => contributeChunk s k c d.id j) { s with colls := s.colls ++ [Coll.begun k c s.st.now d] }

section
variable {s : State} {k : Nat} {c : Ctx} (hk : k < 64) (there : s.ctx? k = some c) {desc : List Byte}
include hk there

theorem collectiveStart_noFormat (none : Format.ofCode (parseColl desc).format = none) : exec (.collectiveStart k desc) s = .next (refuseColl s k badField c) := by
  dsimp only [exec]
  rw [execCollectiveStart, withCtx_some hk there]
  dsimp only
  rw [none]

theorem collectiveStart_exec {f : Format} (format : Format.ofCode (parseColl desc).format = some f) : exec (.collectiveStart k desc) s =
    .next (if c.status = .running ∧ c.stopping = false ∧ s.coll? k (parseColl desc).id = none then s.startColl k c (parseColl desc) f else s) := by
  dsimp only [exec]
  rw [execCollectiveStart, withCtx_some hk there]
  dsimp only
  rw [format]
  dsimp only
  generalize parseColl desc = d
  by_cases idle : c.status = .running ∧ c.stopping = false ∧ s.coll? k d.id = none
  · rw [if_pos idle, if_neg (by simp [idle])]
    rfl
  · rw [if_neg idle, if_pos]
    by_contra busy
    simp only [Bool.or_eq_true, bne_iff_ne, not_or, ne_eq, not_not, Bool.not_eq_true, Option.isSome_eq_false_iff, Option.isNone_iff_eq_none] at busy
    exact idle ⟨busy.1.1, busy.1.2, busy.2⟩

end

/-! ## Contributions (R241 to R243) -/

section
variable {s : State} {k : Nat} {c : Ctx} {x : Coll} {p : SeifPacket}

/-- A contribution whose digest holds is placed. -/
theorem takeContribution_holds {f : Format} (holds : x.digest c.digestJob (p.target.toNat / 2 ^ 32) p.srcRank.toNat p.segment.toNat p.payload = p.digest)
    (format : Format.ofCode x.desc.format = some f) : let chunk := p.target.toNat / 2 ^ 32
    takeContribution s k c x p = if x.done.contains chunk then s
      else if p.kind = 5 then putResult s c x chunk p.payload Ev.none
      else if x.desc.reduces then addLeaf s k c x chunk (if x.desc.cls = 1 then p.segment.toNat else p.srcRank.toNat) p.payload
      else putMoved s x f chunk p.payload := by
  unfold takeContribution
  dsimp only
  rw [if_neg (not_not_intro holds), format]

theorem takeContribution_mismatch (no : x.digest c.digestJob (p.target.toNat / 2 ^ 32) p.srcRank.toNat p.segment.toNat p.payload ≠ p.digest) :
    takeContribution s k c x p = mismatch s k c x p (p.target.toNat / 2 ^ 32) := if_pos no

theorem contributionArrival_exec (hk : k < 64) (there : s.ctx? k = some c)
    (found : (s.colls.filter (fun x => x.ctx == k)).findSome? (fun x => (x.inbox.find? (s.placeable k c x)).map (fun p => (x, p))) = some (x, p)) :
    let x' := { x with inbox := x.inbox.erase p }
    exec (.contributionArrival k) s = .next (takeContribution (s.setColl x') k c x' p) := by
  dsimp only [exec]
  rw [execContributionArrival, withCtx_some hk there]
  dsimp only
  rw [found]

end

/-! ## Requests to send again, and aborts (R243, R246) -/

section
variable {s : State} {p : Nat} (hp : p < 18) {i k : Nat} {m : List Byte} {c : Ctx} {x : Coll}
  (mine : s.ownRank (BitVec.ofNat 64 (msgNat m 4 8)) = some (msgNat m 2 2)) (job : s.jobCtx (BitVec.ofNat 64 (msgNat m 4 8)) = some (k, c))
  (known : s.coll? k (BitVec.ofNat 32 (msgNat m 12 4)) = some x)

theorem forMe_mine (mine : s.ownRank (BitVec.ofNat 64 (msgNat m 4 8)) = some (msgNat m 2 2)) (f : State → State) : forMe s m f = f s := if_pos mine

include hp mine job known

/-- What is asked for again is sent again, unless it is poisoned. -/
theorem resendRequest_exec {f : Format} (found : (portGet s.seif p).message? 4 = some (i, m)) (format : Format.ofCode x.desc.format = some f) :
    let s' := s.putPort p { portGet s.seif p with inbox := (portGet s.seif p).inbox.eraseIdx i }
    let sent := sentParts s' c x f (msgNat m 16 4) (msgNat m 2 2) (msgNat m 20 4) (msgNat m 24 2)
    (sent = none → exec (.resendRequest p) s = .next s')
    ∧ (∀ kind ps a, sent = some (kind, ps) → s'.partsPoison ps = some a → exec (.resendRequest p) s = .next (s'.putCtx k (c.raisePoison a 0x05)))
    ∧ (∀ kind ps, sent = some (kind, ps) → s'.partsPoison ps = none → exec (.resendRequest p) s =
      .next (s'.contribute k c x kind (msgNat m 16 4) (msgNat m 2 2) (msgNat m 20 4) (msgNat m 24 2) (s'.readParts ps))) := by
  dsimp only [exec]
  rw [execResendRequest, withMessage_found hp found]
  generalize taken : s.putPort p { portGet s.seif p with inbox := (portGet s.seif p).inbox.eraseIdx i } = u
  have mine' : u.ownRank (BitVec.ofNat 64 (msgNat m 4 8)) = some (msgNat m 2 2) := taken ▸ mine
  have job' : u.jobCtx (BitVec.ofNat 64 (msgNat m 4 8)) = some (k, c) := taken ▸ job
  have known' : u.coll? k (BitVec.ofNat 32 (msgNat m 12 4)) = some x := taken ▸ known
  rw [forMe_mine mine']
  dsimp only
  rw [job']
  dsimp only
  rw [known']
  dsimp only
  rw [format]
  refine ⟨fun none => ?_, fun kind ps a some poison => ?_, fun kind ps some clean => ?_⟩
  · dsimp only
    rw [none]
  · dsimp only
    rw [some]
    dsimp only
    rw [poison]
  · dsimp only
    rw [some]
    dsimp only
    rw [clean]

theorem collectiveAbort_exec (found : (portGet s.seif p).message? 9 = some (i, m)) :
    let s' := s.putPort p { portGet s.seif p with inbox := (portGet s.seif p).inbox.eraseIdx i }
    exec (.collectiveAbort p) s = .next (s'.endColl k (msgNat m 1 1 == 1)) := by
  dsimp only [exec]
  rw [execCollectiveAbort, withMessage_found hp found]
  generalize taken : s.putPort p { portGet s.seif p with inbox := (portGet s.seif p).inbox.eraseIdx i } = u
  have mine' : u.ownRank (BitVec.ofNat 64 (msgNat m 4 8)) = some (msgNat m 2 2) := taken ▸ mine
  have job' : u.jobCtx (BitVec.ofNat 64 (msgNat m 4 8)) = some (k, c) := taken ▸ job
  have known' : u.coll? k (BitVec.ofNat 32 (msgNat m 12 4)) = some x := taken ▸ known
  rw [forMe_mine mine']
  dsimp only
  rw [job']
  dsimp only
  rw [known']

end

/-! ## Ends (R242, R246) -/

section
variable {s : State} {k : Nat} {c : Ctx} (there : s.ctx? k = some c)
include there

theorem endColl_idle (idle : c.steps = []) (again : Bool) : s.endColl k again = { s with colls := s.colls.filter (fun y => y.ctx != k) } := by
  have there' : ({ s with colls := s.colls.filter (fun y => y.ctx != k) } : State).ctx? k = some c := there
  unfold State.endColl
  dsimp only
  rw [there']
  dsimp only
  rw [idle]
  rfl

theorem failColl_idle (idle : c.steps = []) (again : Bool) : let t := s.failColl k again
    t.colls = s.colls.filter (fun y => y.ctx != k) ∧ t.mem = s.mem ∧ t.ctxs = s.ctxs := by
  have aborted := abortColls_posted s k c again
  unfold State.failColl
  rw [there]
  dsimp only
  generalize s.abortColls k c again = t at aborted
  have there' : t.ctx? k = some c := (congrArg (fun l => nfind l k) aborted.ctxs).trans there
  rw [endColl_idle there' idle]
  refine ⟨?_, aborted.mem, aborted.ctxs⟩
  dsimp only
  rw [aborted.colls]
  simp

theorem step?_unique {st : StepRun} (listed : st ∈ c.steps) (unique : ∀ y ∈ c.steps, y.cmd = st.cmd → y = st) : s.step? k st.cmd = some (c, st) := by
  have found : c.steps.find? (fun y => y.cmd == st.cmd) = some st := by
    cases search : c.steps.find? (fun y => y.cmd == st.cmd) with
    | none => exact absurd (beq_self_eq_true st.cmd) (List.find?_eq_none.mp search st listed)
    | some y => rw [unique y (List.mem_of_find?_eq_some search) (beq_iff_eq.mp (List.find?_some (p := fun y : StepRun => y.cmd == st.cmd) search))]
  unfold State.step?
  rw [there]
  dsimp only
  rw [found]
  rfl

/-- A step once a collective of its is complete: it has the collective's flags, a reduction's shards, and what it says of values that are not finite (R242). -/
def StepRun.told (st : StepRun) (s : State) (c : Ctx) (x : Coll) : StepRun :=
  let ranks := s.localRanks c
  let m := c.desc.modules
  let shard := ranks.map (fun r => (x.desc.shardAt x.desc.outFormat m x.desc.output ranks r, partialSize x.desc.outFormat (x.desc.shardLen m r)))
  { st with collFlags := Nat.lor st.collFlags x.flags, shards := if x.desc.op = 1 then st.shards ++ shard else st.shards,
            collFinite := if st.phase = .exchange ∨ st.phase = .gate then st.collFinite && x.nonFinite == 0 else st.collFinite }

/-- The state without a collective. -/
def State.dropColl (s : State) (k : Nat) (x : Coll) : State := { s with colls := s.colls.filter (fun y => !(y.ctx == k && y.desc.id == x.desc.id)) }

section
variable (hk : k < 64) {cid : Nat} {x : Coll} (known : s.coll? k (BitVec.ofNat 32 cid) = some x)
include hk known

theorem collectiveCompletion_missing (missing : ¬ ∀ j ∈ x.desc.needs c.desc.modules (s.localRanks c), j ∈ x.done) : exec (.collectiveCompletion k cid) s = .next s := by
  dsimp only [exec]
  rw [execCollectiveCompletion, withCtx_some hk there]
  dsimp only
  rw [known]
  exact congrArg Host.Outcome.next (if_neg (by simpa using missing))

theorem collectiveCompletion_stepless (complete : ∀ j ∈ x.desc.needs c.desc.modules (s.localRanks c), j ∈ x.done) (idle : c.steps = []) :
    exec (.collectiveCompletion k cid) s = .next (s.dropColl k x) := by
  dsimp only [exec]
  rw [execCollectiveCompletion, withCtx_some hk there]
  dsimp only
  rw [known]
  refine congrArg Host.Outcome.next ((if_pos (by simpa using complete)).trans ?_)
  rw [idle]
  rfl

/-- The one open step is told. -/
theorem collectiveCompletion_step {st : StepRun} (complete : ∀ j ∈ x.desc.needs c.desc.modules (s.localRanks c), j ∈ x.done)
    (one : c.steps.filter StepRun.open' = [st]) (unique : ∀ y ∈ c.steps, y.cmd = st.cmd → y = st) :
    exec (.collectiveCompletion k cid) s = .next (tryPrepare (tryGate ((s.dropColl k x).setStep k (st.told s c x)) k st.cmd) k st.cmd) := by
  have listed : st ∈ c.steps := List.mem_of_mem_filter (one ▸ List.mem_singleton_self st)
  have step : (s.dropColl k x).step? k st.cmd = some (c, st) := step?_unique (s := s.dropColl k x) there listed unique
  dsimp only [exec]
  rw [execCollectiveCompletion, withCtx_some hk there]
  dsimp only
  rw [known]
  refine congrArg Host.Outcome.next ((if_pos (by simpa using complete)).trans ?_)
  rw [one, List.foldl_cons, List.foldl_nil]
  unfold State.onStep
  change (match (s.dropColl k x).step? k st.cmd with | none => _ | some (c, st) => _) = _
  rw [step]
  refine congrArg (fun y => tryPrepare (tryGate ((s.dropColl k x).setStep k y) k st.cmd) k st.cmd) ?_
  unfold StepRun.told
  by_cases exchanges : st.phase = .exchange ∨ st.phase = .gate
  · rw [if_pos (by simpa using exchanges), if_pos exchanges]
    rfl
  · rw [if_neg (by simpa using exchanges), if_neg exchanges]
    rfl

theorem collectiveDeadline_exec : exec (.collectiveDeadlineExpiry k cid) s = .next (if x.started.toNat + 2 * second ≤ s.st.now.toNat then s.failColl k true else s) := by
  dsimp only [exec]
  rw [execCollectiveDeadlineExpiry, withCtx_some hk there, known]

end

end

theorem startColl_refused {s : State} {k code : Nat} {c : Ctx} {d : CollDesc} {f : Format} (bad : d.bad = some code) : s.startColl k c d f = refuseColl s k code c := by
  unfold State.startColl
  rw [bad]

theorem startColl_poisoned {s : State} {k a : Nat} {c : Ctx} {d : CollDesc} {f : Format} (good : d.bad = none) (poison : s.inputPoison c d f = some a) :
    s.startColl k c d f = s.putCtx k (c.raisePoison a 0x05) := by
  unfold State.startColl
  rw [good, poison]

theorem startColl_starts {s : State} {k : Nat} {c : Ctx} {d : CollDesc} {f : Format} (good : d.bad = none) (clean : s.inputPoison c d f = none) :
    s.startColl k c d f = (List.range d.chunks).foldl (fun s j => contributeChunk s k c d.id j) { s with colls := s.colls ++ [Coll.begun k c s.st.now d] } := by
  unfold State.startColl
  rw [good, clean]

/-- Settles O32: a start by its descriptor, a contribution by its digest, the rest by what the message or the time says of the collective. -/
theorem collectivesRun : Obligations.CollectivesRun := by
  unfold Obligations.CollectivesRun
  intro s k c hk there
  refine ⟨fun desc => ⟨collectiveStart_noFormat hk there, fun f format => ⟨?busy, ?refused, ?poisoned, ?starts⟩⟩, fun x p found => ⟨?holds, ?again, ?third⟩, ?resend,
    fun cid x known => ⟨?alone, ?told, ?missing, ?early, ?late⟩, ?abort⟩
  case busy => exact fun busy => (collectiveStart_exec hk there format).trans (congrArg _ (if_neg busy))
  case refused => exact fun idle code bad => (collectiveStart_exec hk there format).trans (congrArg _ ((if_pos idle).trans (startColl_refused bad)))
  case poisoned => exact fun idle good a poison => (collectiveStart_exec hk there format).trans (congrArg _ ((if_pos idle).trans (startColl_poisoned good poison)))
  case starts => exact fun idle good clean => (collectiveStart_exec hk there format).trans (congrArg _ ((if_pos idle).trans (startColl_starts good clean)))
  case holds =>
    intro f holds format
    have taken := (contributionArrival_exec hk there found).trans (congrArg _ (takeContribution_holds (x := { x with inbox := x.inbox.erase p }) holds format))
    refine ⟨fun done => ?_, fun fresh result => ?_, fun fresh other reduces => ?_, fun fresh other moves => ?_⟩
    · exact taken.trans (congrArg _ (if_pos done))
    · exact taken.trans (congrArg _ ((if_neg (ne_true_of_eq_false fresh)).trans (if_pos result)))
    · exact taken.trans (congrArg _ ((if_neg (ne_true_of_eq_false fresh)).trans ((if_neg other).trans (if_pos reduces))))
    · exact taken.trans (congrArg _ ((if_neg (ne_true_of_eq_false fresh)).trans ((if_neg other).trans (if_neg (ne_true_of_eq_false moves)))))
  case again =>
    intro no few
    exact (contributionArrival_exec hk there found).trans (congrArg _ ((takeContribution_mismatch (x := { x with inbox := x.inbox.erase p }) no).trans (if_neg (Nat.not_le.mpr few))))
  case third =>
    intro no many
    exact (contributionArrival_exec hk there found).trans (congrArg _ ((takeContribution_mismatch (x := { x with inbox := x.inbox.erase p }) no).trans (if_pos many)))
  case resend =>
    rintro p i y m x f hp rfl found mine job known format
    exact resendRequest_exec hp mine job known found format
  case alone => exact fun complete idle => collectiveCompletion_stepless there hk known complete idle
  case told => exact fun st complete one unique => collectiveCompletion_step there hk known complete one unique
  case missing => exact collectiveCompletion_missing there hk known
  case early => exact fun early => (collectiveDeadline_exec there hk known).trans (congrArg _ (if_neg (Nat.not_le.mpr early)))
  case late => exact fun late => ⟨(collectiveDeadline_exec there hk known).trans (congrArg _ (if_pos late)), fun idle => failColl_idle there idle true⟩
  case abort =>
    rintro p i y m x hp rfl found mine job known
    exact ⟨collectiveAbort_exec hp mine job known found, fun idle => endColl_idle (s := s.putPort p _) there idle _⟩

end Sys2Proof.Machine

/-! PROOFS. Packets between peers, their acknowledgements, and link windows (08 R224 to R227, R234 to R236). -/

namespace Sys2Proof.Machine

/-! ## What a send leaves of windows and ready packets (R234, R235) -/

/-- Windows and ready packets, which a frame does not change. -/
def Seif.queues (s : Seif) : List OpenWindow × List ReadyPacket := (s.windows, s.ready)

theorem sendFrame_queues (s : State) (p typ : Nat) (b : List Byte) : (s.sendFrame p typ b).seif.queues = s.seif.queues := by
  unfold State.sendFrame
  dsimp only
  split
  · rfl
  · split <;> rfl

theorem sendBytes_queues (n : Nat) (s : State) (p : Nat) (b : List Byte) : (State.sendBytes n s p b).seif.queues = s.seif.queues := by
  induction n generalizing s b with
  | zero => rfl
  | succ n ih =>
    unfold State.sendBytes
    split
    · rfl
    · rw [ih, sendFrame_queues]

theorem sendPackets_windows (s : State) (p : Nat) (l : List ReadyPacket) : (s.sendPackets p l).seif.windows = s.seif.windows :=
  congrArg Prod.fst (sendBytes_queues _ { s with seif := { s.seif with ready := l.foldl (fun r y => r.erase y) s.seif.ready } } _ _)

theorem sendPackets_ready (s : State) (p : Nat) (l : List ReadyPacket) : (s.sendPackets p l).seif.ready = l.foldl (fun r y => r.erase y) s.seif.ready :=
  congrArg Prod.snd (sendBytes_queues _ { s with seif := { s.seif with ready := l.foldl (fun r y => r.erase y) s.seif.ready } } _ _)

theorem foldl_erase_sublist (l r : List ReadyPacket) : (l.foldl (fun r y => r.erase y) r).Sublist r := by
  induction l generalizing r with
  | nil => exact .refl r
  | cons y l ih => exact (ih _).trans List.erase_sublist

/-- A window that carries packets stays, with what it has carried and what it can still carry (R235). -/
theorem pump_window (s : State) (k port flow : Nat) {w : OpenWindow} (opened : w ∈ s.seif.windows) :
    ∃ w' ∈ (s.pump k port flow).seif.windows, w' = { w with sent := w'.sent, left := w'.left } := by
  unfold State.pump
  split
  · exact ⟨w, opened, rfl⟩
  · dsimp only
    split
    · exact ⟨w, opened, rfl⟩
    · rw [sendPackets_windows]
      refine ⟨_, List.mem_map_of_mem opened, ?_⟩
      split <;> rfl

theorem pumpLoose_windows (s : State) (p : Nat) : (s.pumpLoose p).seif.windows = s.seif.windows := by
  unfold State.pumpLoose
  dsimp only
  split
  · rfl
  · exact sendPackets_windows ..

theorem pumpLoose_ready (s : State) (p : Nat) : (s.pumpLoose p).seif.ready.Sublist s.seif.ready := by
  unfold State.pumpLoose
  dsimp only
  split
  · exact .refl _
  · rw [sendPackets_ready]
    exact foldl_erase_sublist ..

/-! ## Link windows (R234 to R236) -/

theorem noteLate_seif (s : State) (k : Nat) (c : Ctx) : (s.noteLate k c).seif = s.seif := by
  unfold State.noteLate
  dsimp only
  split <;> rfl

theorem noteLate_mem (s : State) (k : Nat) (c : Ctx) : (s.noteLate k c).mem = s.mem := by
  unfold State.noteLate
  dsimp only
  split <;> rfl

theorem noted_seif (late : Bool) (s : State) (k : Nat) (c : Ctx) : (if late = true then s.noteLate k c else s).seif = s.seif := by
  split
  · exact noteLate_seif ..
  · rfl

theorem noted_mem (late : Bool) (s : State) (k : Nat) (c : Ctx) : (if late = true then s.noteLate k c else s).mem = s.mem := by
  split
  · exact noteLate_mem ..
  · rfl

/-- The state without a window. -/
def State.closeWindow (s : State) (k i : Nat) : State := { s with seif := { s.seif with windows := s.seif.windows.filter (fun y => !(y.ctx == k && y.entry == i)) } }

/-- The window of an entry, as it opens. -/
def State.newWindow (s : State) (k i : Nat) (e : LinkEntry) (opens closes : Nat) : OpenWindow :=
  { ctx := k, entry := i, port := e.port, flow := e.flow, opened := BitVec.ofNat 64 opens, closes := BitVec.ofNat 64 closes, expected := e.expected, sent := 0,
    left := 992 * frameSlots (portGet s.seif e.port).version (closes - s.st.now.toNat), first := none, empty := (s.readyFor k e.port e.flow).isEmpty }

/-- Does a window stand for an entry while it is open? -/
def OpenWindow.Stands (w : OpenWindow) (k i : Nat) (e : LinkEntry) (opens closes : Nat) : Prop :=
  w.ctx = k ∧ w.entry = i ∧ w.port = e.port ∧ w.flow = e.flow ∧ w.opened = BitVec.ofNat 64 opens ∧ w.closes = BitVec.ofNat 64 closes ∧ w.expected = e.expected

theorem pump_newWindow (s : State) (k i : Nat) (e : LinkEntry) (opens closes : Nat) :
    ∃ w ∈ (({ s with seif := { s.seif with windows := s.seif.windows ++ [s.newWindow k i e opens closes] } } : State).pump k e.port e.flow).seif.windows, w.Stands k i e opens closes := by
  obtain ⟨w, carried, same⟩ := pump_window { s with seif := { s.seif with windows := s.seif.windows ++ [s.newWindow k i e opens closes] } } k e.port e.flow
    (List.mem_append_right s.seif.windows (List.mem_singleton_self _))
  exact ⟨w, carried, congrArg OpenWindow.ctx same, congrArg OpenWindow.entry same, congrArg OpenWindow.port same, congrArg OpenWindow.flow same,
    congrArg OpenWindow.opened same, congrArg OpenWindow.closes same, congrArg OpenWindow.expected same⟩

section
variable {s : State} {k i : Nat} {c : Ctx} (hk : k < 64) (there : s.ctx? k = some c)
include hk there

theorem linkWindowOpen_opens {opens closes : Nat} (going : c.status ≠ .closing) (base : c.desc.windows ≠ 0) (listed : i < s.loadNat (c.desc.windows + 20) 4)
    (shut : ∀ w ∈ s.seif.windows, ¬ (w.ctx = k ∧ w.entry = i)) (now : s.windowNow c.desc.windows (s.linkEntry c.desc.windows i) = some (opens, closes)) :
    let e := s.linkEntry c.desc.windows i
    ∃ t, exec (.linkWindowOpen k i) s = .next t ∧ t.mem = s.mem ∧ ∃ w ∈ t.seif.windows, w.Stands k i e opens closes := by
  dsimp only [exec]
  rw [execLinkWindowOpen, withCtx_some hk there]
  dsimp only
  rw [if_neg (by simpa [base, going, listed] using shut), now]
  exact ⟨_, rfl, (pump_pumped ..).mem, pump_newWindow ..⟩

variable {w : OpenWindow} (known : s.seif.windows.find? (fun y => y.ctx == k && y.entry == i) = some w)
include known

theorem linkWindowClose_early (early : s.st.now.toNat < w.closes.toNat) : exec (.linkWindowClose k i) s = .next s := by
  dsimp only [exec]
  rw [execLinkWindowClose, withCtx_some hk there, known]
  exact congrArg Host.Outcome.next (if_pos (decide_eq_true early))

/-- A window that has closed is gone, and packets of jobs not here may leave its port (R226, R236). -/
theorem linkWindowClose_closes (late : w.closes.toNat ≤ s.st.now.toNat) : ∃ t, exec (.linkWindowClose k i) s = .next t ∧ t.mem = s.mem
    ∧ t.seif.windows = s.seif.windows.filter (fun y => !(y.ctx == k && y.entry == i)) ∧ t.seif.ready.Sublist s.seif.ready := by
  dsimp only [exec]
  rw [execLinkWindowClose, withCtx_some hk there, known]
  have shut : ¬ w.isOpen s.st.now = true := by simpa [OpenWindow.isOpen] using late
  refine ⟨_, congrArg Host.Outcome.next (if_neg shut), (pumpLoose_pumped ..).mem.trans (noted_mem ..), (pumpLoose_windows ..).trans (congrArg Seif.windows (noted_seif ..)), ?_⟩
  have left := pumpLoose_ready (if (w.expected && ((w.empty && w.first.any (fun t => c.lateBy (t - w.opened.toNat))) || w.sent == 0)) = true then (s.closeWindow k i).noteLate k c
    else s.closeWindow k i) w.port
  rwa [noted_seif] at left

end

end Sys2Proof.Machine

/-! PROOFS. Packets between peers and the ends of their transfers (08 R224 to R227). -/

namespace Sys2Proof.Machine

/-! ## Acknowledgements and their absence (R227) -/

section
variable {s : State} {tag j : Nat} {tr : PeerXfer} {r : Request}

/-- The state without a peer transfer. -/
def State.dropPeer (s : State) (tag : Nat) : State := { s with seif := { s.seif with peers := s.seif.peers.filter (fun y => y.tag != tag) } }

/-- An acknowledgement ends its transfer, and the request that it served. -/
theorem acknowledged_request (known : s.seif.peers.find? (fun y => y.tag == tag && y.write) = some tr) (request : tr.request = some j)
    (waits : s.net.requests.find? (fun y => y.id == j) = some r) : s.acknowledged tag = (s.dropPeer tag).endRequest r := by
  unfold State.acknowledged
  rw [known]
  dsimp only
  rw [request]
  dsimp only
  rw [waits]
  rfl

section
variable {p : Nat} (hp : p < 18) {i : Nat} {m : List Byte} (found : (portGet s.seif p).message? 8 = some (i, m))
include hp found

theorem writeAcknowledgement_mine (mine : s.ownRank (BitVec.ofNat 64 (msgNat m 4 8)) = some (msgNat m 2 2)) :
    exec (.writeAcknowledgement p) s = .next ((s.putPort p { portGet s.seif p with inbox := (portGet s.seif p).inbox.eraseIdx i }).acknowledged (msgNat m 12 4)) := by
  dsimp only [exec]
  rw [execWriteAcknowledgement, withMessage_found hp found]
  exact congrArg Host.Outcome.next (if_pos mine)

theorem writeAcknowledgement_other (other : s.ownRank (BitVec.ofNat 64 (msgNat m 4 8)) ≠ some (msgNat m 2 2)) : exec (.writeAcknowledgement p) s =
    .next ((s.putPort p { portGet s.seif p with inbox := (portGet s.seif p).inbox.eraseIdx i }).postTo (BitVec.ofNat 64 (msgNat m 4 8)) (msgNat m 2 2) (m.take 32)) := by
  dsimp only [exec]
  rw [execWriteAcknowledgement, withMessage_found hp found]
  exact congrArg Host.Outcome.next (if_neg other)

end

variable (known : s.seif.peers.find? (fun y => y.tag == tag && y.write) = some tr)
include known

theorem peerWriteTimeout_early (early : s.st.now.toNat < tr.issued.toNat + 100 * millisecond) : exec (.peerWriteTimeout tag) s = .next s := by
  dsimp only [exec]
  rw [execPeerWriteTimeout, known]
  exact congrArg Host.Outcome.next (if_neg (Nat.not_le.mpr early))

theorem peerWriteTimeout_own (late : tr.issued.toNat + 100 * millisecond ≤ s.st.now.toNat) (own : tr.request = none) :
    exec (.peerWriteTimeout tag) s = .next ((s.dropPeer tag).raise { level := 2, source := 3, ctx := some tr.ctx, count := tr.rank }) := by
  dsimp only [exec]
  rw [execPeerWriteTimeout, known]
  refine congrArg Host.Outcome.next ((if_pos late).trans ?_)
  rw [own]
  rfl

theorem peerWriteTimeout_request (late : tr.issued.toNat + 100 * millisecond ≤ s.st.now.toNat) (request : tr.request = some j)
    (waits : s.net.requests.find? (fun y => y.id == j) = some r) :
    exec (.peerWriteTimeout tag) s = .next (((s.dropPeer tag).endRequest r).raise { level := 2, source := 3, ctx := some tr.ctx, count := tr.rank }) := by
  dsimp only [exec]
  rw [execPeerWriteTimeout, known]
  refine congrArg Host.Outcome.next ((if_pos late).trans ?_)
  rw [request]
  dsimp only [Option.bind_some]
  rw [waits]
  rfl

end

/-! ## Arrivals (R225) -/

/-- The port once a packet has been taken from its stream. -/
def Port.taken (x : Port) : Port := { x with stream := x.stream.drop (wireLen x.stream), times := (takeTimes x.times (wireLen x.stream) 0).1 }

theorem seifPacketArrival_exec {s : State} {p : Nat} (hp : p < 18) (header : 64 ≤ (portGet s.seif p).stream.length)
    (whole : wireLen (portGet s.seif p).stream ≤ (portGet s.seif p).stream.length) : let x := portGet s.seif p
    exec (.seifPacketArrival p) s = .next (packetChecks (s.putPort p x.taken) p (takeTimes x.times (wireLen x.stream) 0).2 (x.stream.take (wireLen x.stream))) := by
  dsimp only [exec]
  rw [execSeifPacketArrival, withPort_ok s hp]
  exact congrArg Host.Outcome.next (if_pos ⟨header, whole⟩)

/-- Whether a claim refuses a packet's sender is read from the port's partner and the claims. -/
theorem putPort_refusedFrom {s : State} {p : Nat} {x : Port} (partner : x.partner = (portGet s.seif p).partner) (y : SeifPacket) :
    (s.putPort p x).refusedFrom p y = s.refusedFrom p y := by
  unfold State.refusedFrom
  rw [portGet_putPort, partner]
  rfl

section
variable {s : State} {p arrived : Nat} {b : List Byte}

theorem packetChecks_badCrc (bad : crc32 (b.take 60) ≠ (parsePacket b).crc.toNat) : packetChecks s p arrived b = (s.dropSeif p).reportPort p 0x0A := if_pos bad

variable (crc : crc32 (b.take 60) = (parsePacket b).crc.toNat)
include crc

theorem packetChecks_badHeader (bad : badHeader (parsePacket b) = true) :
    packetChecks s p arrived b = (s.dropSeif p).suspectRank (parsePacket b).job (parsePacket b).srcRank.toNat 0x0A none :=
  (if_neg (not_not_intro crc)).trans (if_pos bad)

variable (good : badHeader (parsePacket b) = false)
include good

theorem packetChecks_refused (refused : s.refusedFrom p (parsePacket b) = true) : packetChecks s p arrived b = s.dropSeif p :=
  (if_neg (not_not_intro crc)).trans ((if_neg (ne_true_of_eq_false good)).trans (if_pos refused))

/-- Packets that pass the checks: for this rank, for another of the job, or of a job that is not here (R226). -/
def State.routePacket (s : State) (p arrived : Nat) (x : SeifPacket) : State :=
  match s.jobCtx x.job with
  | some (k, c) =>
    if x.dstRank.toNat = c.desc.rank then deliverPacket s p k arrived c x
    else match s.route? x.job x.dstRank.toNat with
      | some _ => s.ready k x
      | none => (s.dropSeif p).raise { level := 1, source := 3, ctx := some k, reg := some (0x70380 + 4 * p) }
  | none =>
    if s.seif.routes.any (fun r => r.job == x.job) then
      (match s.route? x.job x.dstRank.toNat with
       | some r => s.addReady ⟨64, r.port.getD 18, x, s.st.now⟩
       | none => (s.dropSeif p).raise { level := 1, source := 3, reg := some (0x70380 + 4 * p) })
    else s.dropSeif p

theorem packetChecks_sound (admitted : s.refusedFrom p (parsePacket b) = false) : packetChecks s p arrived b = s.routePacket p arrived (parsePacket b) :=
  (if_neg (not_not_intro crc)).trans ((if_neg (ne_true_of_eq_false good)).trans (if_neg (ne_true_of_eq_false admitted)))

end

section
variable {s : State} {p arrived k : Nat} {c : Ctx} {y : SeifPacket} (job : s.jobCtx y.job = some (k, c))

theorem routePacket_unknown (absent : s.jobCtx y.job = none) (none : ∀ r ∈ s.seif.routes, r.job ≠ y.job) : s.routePacket p arrived y = s.dropSeif p := by
  unfold State.routePacket
  rw [absent]
  exact if_neg (by simpa using none)

theorem routePacket_passes {r : Route} (absent : s.jobCtx y.job = none) (route : s.route? y.job y.dstRank.toNat = some r) :
    s.routePacket p arrived y = s.addReady ⟨64, r.port.getD 18, y, s.st.now⟩ := by
  have known : s.seif.routes.any (fun r => r.job == y.job) = true := by
    have same := List.find?_some (p := fun r : Route => r.job == y.job && r.rank == y.dstRank.toNat) route
    exact List.any_eq_true.mpr ⟨r, List.mem_of_find?_eq_some route, (Bool.and_eq_true_iff.mp same).1⟩
  unfold State.routePacket
  rw [absent]
  dsimp only
  rw [if_pos known, route]

include job

theorem routePacket_here (mine : y.dstRank.toNat = c.desc.rank) : s.routePacket p arrived y = deliverPacket s p k arrived c y := by
  unfold State.routePacket
  rw [job]
  exact if_pos mine

theorem routePacket_on {r : Route} (other : y.dstRank.toNat ≠ c.desc.rank) (route : s.route? y.job y.dstRank.toNat = some r) : s.routePacket p arrived y = s.ready k y := by
  unfold State.routePacket
  rw [job]
  dsimp only
  rw [if_neg other, route]

theorem routePacket_lost (other : y.dstRank.toNat ≠ c.desc.rank) (route : s.route? y.job y.dstRank.toNat = none) :
    s.routePacket p arrived y = (s.dropSeif p).raise { level := 1, source := 3, ctx := some k, reg := some (0x70380 + 4 * p) } := by
  unfold State.routePacket
  rw [job]
  dsimp only
  rw [if_neg other, route]

end

/-! ## Packets by their kind (R225) -/

section
variable {s : State} {p k arrived : Nat} {c : Ctx} {y : SeifPacket}

theorem deliverPacket_write (kind : y.kind = 1) : deliverPacket s p k arrived c y = deliverWrite (s.histogram c p y.srcRank.toNat arrived) p k c y := by
  unfold deliverPacket
  rw [kind]
  rfl

theorem deliverPacket_read (kind : y.kind = 2) : deliverPacket s p k arrived c y = deliverRead (s.histogram c p y.srcRank.toNat arrived) k c y := by
  unfold deliverPacket
  rw [kind]
  rfl

theorem deliverPacket_data (kind : y.kind = 3) : deliverPacket s p k arrived c y = deliverData (s.histogram c p y.srcRank.toNat arrived) y := by
  unfold deliverPacket
  rw [kind]
  rfl

theorem deliverPacket_coll (kind : y.kind = 4 ∨ y.kind = 5) : deliverPacket s p k arrived c y = deliverColl (s.histogram c p y.srcRank.toNat arrived) p k y := by
  unfold deliverPacket
  obtain four | five := kind
  · rw [four]
    rfl
  · rw [five]
    rfl

/-- A context without a histogram area has nothing counted (R237). -/
theorem histogram_none (none : c.desc.hist = 0) (rank : Nat) : s.histogram c p rank arrived = s := if_pos none

/-! ### Writes and reads -/

/-- Is an access at an address of memory that may be mapped for peers, and granted? (R225) -/
def Ctx.opensTo (c : Ctx) (a n : Nat) : Prop := (a % 64 = 0 ∧ (regionOf a = .far ∨ a < nearTop)) ∧ c.granted 2 a n = true

theorem opensTo_iff {a n : Nat} : (a % 64 = 0 ∧ c.granted 2 a n = true ∧ (regionOf a = .far ∨ a < nearTop)) ↔ c.opensTo a n := by
  unfold Ctx.opensTo
  tauto

theorem not_opensTo {a n : Nat} (closed : ¬ (a % 64 = 0 ∧ (regionOf a = .far ∨ a < nearTop)) ∨ c.granted 2 a n = false) : ¬ c.opensTo a n :=
  fun ⟨mapped, granted⟩ => closed.elim (fun no => no mapped) fun no => absurd (no.symm.trans granted) (by decide)

theorem deliverWrite_supplies (supplies : suppliesColl c y = true) : deliverWrite s p k c y =
    (deliverColl s p k (parsePacket y.payload)).postTo y.job y.srcRank.toNat (ackMessage y.job y.srcRank.toNat y.tag.toNat) := if_pos supplies

theorem deliverWrite_stores (plain : suppliesColl c y = false) (opens : c.opensTo y.target.toNat (64 * y.len.toNat)) : deliverWrite s p k c y =
    ((s.storeGranules y.target.toNat y.payload (poisonList y)).postTo y.job y.srcRank.toNat (ackMessage y.job y.srcRank.toNat y.tag.toNat)).controlWrite k y.target.toNat y.payload :=
  (if_neg (ne_true_of_eq_false plain)).trans (if_pos (opensTo_iff.mpr opens))

theorem deliverWrite_refused (plain : suppliesColl c y = false) (closed : ¬ c.opensTo y.target.toNat (64 * y.len.toNat)) :
    deliverWrite s p k c y = (s.dropSeif p).suspectRank y.job y.srcRank.toNat 0x0A (some k) :=
  (if_neg (ne_true_of_eq_false plain)).trans (if_neg (fun opens => closed (opensTo_iff.mp opens)))

/-- The answer to a read goes out on its flow. -/
def State.answerPeer (s : State) (k : Nat) (c : Ctx) (y : SeifPacket) (data : List Byte) (poison : List Bool) : State :=
  s.ready k { writePacket y.job c.desc.rank y.srcRank.toNat y.flow.toNat y.tag.toNat y.target.toNat data poison with kind := 3 }

theorem deliverRead_answers (opens : c.opensTo y.target.toNat (64 * (s.fresh % 64 + 1))) : let n := s.fresh % 64 + 1
    deliverRead s k c y = s.spend.answerPeer k c y (s.spend.load y.target.toNat (64 * n)) ((List.range n).map (fun i => s.spend.poisonAt (y.target.toNat + 64 * i))) :=
  if_pos (opensTo_iff.mpr opens)

theorem deliverRead_refused (closed : ¬ c.opensTo y.target.toNat (64 * (s.fresh % 64 + 1))) : let n := s.fresh % 64 + 1
    deliverRead s k c y = (s.spend.answerPeer k c y (zeros (64 * n)) (List.replicate n true)).suspectRank y.job y.srcRank.toNat 0x0A (some k) :=
  if_neg (fun opens => closed (opensTo_iff.mp opens))

/-! ### Data and contributions -/

theorem deliverData_answers {tr : PeerXfer} {i : Nat} {r : Request} (known : s.seif.peers.find? (fun t => t.tag == y.tag.toNat && !t.write) = some tr) (request : tr.request = some i)
    (waits : s.net.requests.find? (fun r => r.id == i) = some r) : deliverData s y = (s.dropPeer tr.tag).answerRead r
      ((y.payload ++ zeros (64 * r.offsets.length)).take (64 * r.offsets.length)) ((poisonList y ++ List.replicate r.offsets.length true).take r.offsets.length) := by
  unfold deliverData
  rw [known]
  dsimp only
  rw [request]
  dsimp only [Option.bind_some]
  rw [waits]
  rfl

/-- The collective that a contribution is for. -/
def State.collOf (s : State) (k : Nat) (y : SeifPacket) : Option Coll := s.colls.find? (fun u => u.ctx == k && u.desc.id.toNat == y.target.toNat % 2 ^ 32)

theorem deliverColl_unknown (unknown : s.collOf k y = none) : deliverColl s p k y = (s.dropSeif p).suspectRank y.job y.srcRank.toNat 0x0A (some k) := by
  unfold deliverColl
  dsimp only
  rw [show s.colls.find? _ = none from unknown]

theorem deliverColl_beyond {z : Coll} (known : s.collOf k y = some z) (beyond : z.desc.chunks ≤ y.target.toNat / 2 ^ 32) :
    deliverColl s p k y = (s.dropSeif p).suspectRank y.job y.srcRank.toNat 0x0A (some k) := by
  unfold deliverColl
  dsimp only
  rw [show s.colls.find? _ = some z from known]
  exact if_pos beyond

/-- A contribution waits in its collective. -/
theorem deliverColl_waits {z : Coll} (known : s.collOf k y = some z) (within : y.target.toNat / 2 ^ 32 < z.desc.chunks) :
    deliverColl s p k y = { s with colls := updWhere s.colls (fun u => u.ctx == k && u.desc.id.toNat == y.target.toNat % 2 ^ 32) (fun u => { u with inbox := u.inbox ++ [y] }) } := by
  unfold deliverColl
  dsimp only
  rw [show s.colls.find? _ = some z from known]
  exact if_neg (Nat.not_le.mpr within)

end

/-! ## Arrivals by what the checks find (R225, R226) -/

/-- The first packet of a port's stream. -/
def Port.packet (x : Port) : SeifPacket := parsePacket (x.stream.take (wireLen x.stream))

/-- Does the packet at the front of a port's stream pass the checks? (R225) -/
def State.Sound (s : State) (p : Nat) : Prop :=
  let x := portGet s.seif p
  crc32 ((x.stream.take (wireLen x.stream)).take 60) = x.packet.crc.toNat ∧ badHeader x.packet = false ∧ s.refusedFrom p x.packet = false

/-- The state once the packet at the front of a port's stream has been taken. -/
def State.takePacket (s : State) (p : Nat) : State := s.putPort p (portGet s.seif p).taken

/-- When the last bit of the packet at the front arrived. -/
def Port.arrived (x : Port) : Nat := (takeTimes x.times (wireLen x.stream) 0).2

section
variable {s : State} {p : Nat} (hp : p < 18) (header : 64 ≤ (portGet s.seif p).stream.length) (whole : wireLen (portGet s.seif p).stream ≤ (portGet s.seif p).stream.length)
include hp header whole

theorem seifPacketArrival_sound (sound : s.Sound p) :
    exec (.seifPacketArrival p) s = .next ((s.takePacket p).routePacket p (portGet s.seif p).arrived (portGet s.seif p).packet) := by
  obtain ⟨crc, good, admitted⟩ := sound
  exact (seifPacketArrival_exec hp header whole).trans (congrArg _ (packetChecks_sound crc good ((putPort_refusedFrom (by rfl) _).trans admitted)))

/-- A packet for this rank is delivered. -/
theorem seifPacketArrival_mine {k : Nat} {c : Ctx} (sound : s.Sound p) (job : s.jobCtx (portGet s.seif p).packet.job = some (k, c))
    (mine : (portGet s.seif p).packet.dstRank.toNat = c.desc.rank) :
    exec (.seifPacketArrival p) s = .next (deliverPacket (s.takePacket p) p k (portGet s.seif p).arrived c (portGet s.seif p).packet) :=
  (seifPacketArrival_sound hp header whole sound).trans (congrArg _ (routePacket_here job mine))

end

/-- Settles O31: a packet by its checks, its destination and its kind; a transfer by its acknowledgement or its age; a window by its place in the frame. -/
theorem peerPacketsAndWindows : Obligations.PeerPacketsAndWindows := by
  unfold Obligations.PeerPacketsAndWindows
  intro s
  refine ⟨?arrival, ?acknowledged, ?passed, fun tag tr known => ⟨peerWriteTimeout_early known, fun late => ⟨peerWriteTimeout_own known late, fun i r => peerWriteTimeout_request known late⟩⟩,
    ?opens, fun k i c w hk there known => ⟨linkWindowClose_early hk there known, linkWindowClose_closes hk there known⟩⟩
  case arrival =>
    rintro p x k c hp rfl header whole b y a taken s' h sound mine mapped refused
    have here : mine → exec (.seifPacketArrival p) s = .next (deliverPacket s' p k taken.2 c y) :=
      fun ⟨sound, job, mine⟩ => seifPacketArrival_mine hp header whole sound job mine
    have checked := seifPacketArrival_exec hp header whole
    have passes (sound : sound) : exec (.seifPacketArrival p) s = .next (s'.routePacket p taken.2 y) := seifPacketArrival_sound hp header whole sound
    have noHistogram (none : c.desc.hist = 0) : h = s' := histogram_none none _
    refine ⟨?stores, ?refuses, ?supplies, ?reads, ?data, ?waits, ?unknown, ?crc, ?header, ?claim, ?on, ?loose, ?absent⟩
    case stores =>
      intro for_me write plain mapped granted
      exact (here for_me).trans (congrArg _ ((deliverPacket_write write).trans (deliverWrite_stores plain ⟨mapped, granted⟩)))
    case refuses =>
      intro for_me write plain closed
      exact (here for_me).trans (congrArg _ ((deliverPacket_write write).trans (deliverWrite_refused plain (not_opensTo closed))))
    case supplies =>
      intro for_me write supplies
      exact (here for_me).trans (congrArg _ ((deliverPacket_write write).trans (deliverWrite_supplies supplies)))
    case reads =>
      intro for_me read n reply
      refine ⟨fun mapped granted => ?_, fun closed => ?_⟩
      · exact (here for_me).trans (congrArg _ ((deliverPacket_read read).trans (deliverRead_answers ⟨mapped, granted⟩)))
      · exact (here for_me).trans (congrArg _ ((deliverPacket_read read).trans (deliverRead_refused (not_opensTo closed))))
    case data =>
      intro tr i r for_me none data known request waits
      have delivered := (deliverPacket_data (s := s') (p := p) (k := k) (arrived := taken.2) (c := c) data).trans (congrArg (deliverData · y) (noHistogram none))
      exact (here for_me).trans (congrArg _ (delivered.trans (deliverData_answers (s := s') known request waits)))
    case waits =>
      intro z for_me none coll known
      have delivered := (deliverPacket_coll (s := s') (p := p) (k := k) (arrived := taken.2) (c := c) coll).trans (congrArg (deliverColl · p k y) (noHistogram none))
      refine ⟨fun within => ?_, fun beyond => ?_⟩
      · exact (here for_me).trans (congrArg _ (delivered.trans (deliverColl_waits (s := s') known within)))
      · exact (here for_me).trans (congrArg _ (delivered.trans (deliverColl_beyond (s := s') known beyond)))
    case unknown =>
      intro for_me coll unknown
      exact (here for_me).trans (congrArg _ ((deliverPacket_coll coll).trans (deliverColl_unknown unknown)))
    case crc => exact fun bad => checked.trans (congrArg _ (packetChecks_badCrc bad))
    case header => exact fun crc bad => checked.trans (congrArg _ (packetChecks_badHeader crc bad))
    case claim => exact fun crc good refused => checked.trans (congrArg _ (packetChecks_refused crc good ((putPort_refusedFrom (by rfl) _).trans refused)))
    case on =>
      intro sound job other
      exact ⟨fun r route => (passes sound).trans (congrArg _ (routePacket_on (s := s') job other route)),
        fun none => (passes sound).trans (congrArg _ (routePacket_lost (s := s') job other none))⟩
    case loose => exact fun r sound absent route => (passes sound).trans (congrArg _ (routePacket_passes (s := s') absent route))
    case absent => exact fun sound absent none => (passes sound).trans (congrArg _ (routePacket_unknown (s := s') absent none))
  case acknowledged =>
    rintro p i x m tr j r hp rfl found mine known request waits
    exact (writeAcknowledgement_mine hp found mine).trans (congrArg _ (acknowledged_request (s := s.putPort p _) known request waits))
  case passed =>
    rintro p i x m hp rfl found other
    exact writeAcknowledgement_other hp found other
  case opens =>
    exact fun k i c opens closes hk there going base listed shut now => linkWindowOpen_opens hk there going base listed shut now

end Sys2Proof.Machine

/-! PROOFS. Commits and aborts of a STEP: when a commit takes effect, what it leaves of the versions, how an attempt ends, who answers a query, and which records are
discarded (09 R254, R255, R273, R277 to R281). -/

namespace Sys2Proof.Machine

/-! ## Publication keeps the versions that others hold (09 R255, R303) -/

/-- Someone other than a publication holds the version in a buffer. -/
def VersionBuf.fenced (b : VersionBuf) : Prop := ∃ h ∈ b.holders, h ≠ .publication

/-- What counting and releasing publications can do to a buffer. -/
structure VersionBuf.Republished (b y : VersionBuf) : Prop where
  addr : y.addr = b.addr
  current : y.state = .current ↔ b.state = .current
  pending : y.state = .pending ↔ b.state = .pending
  version : b.state = .current → y.version = b.version
  held : b.state = .held → b.fenced → y.state = .held ∧ y.version = b.version ∧ y.fenced

theorem VersionBuf.Republished.refl (b : VersionBuf) : b.Republished b := ⟨rfl, .rfl, .rfl, fun _ => rfl, fun h f => ⟨h, rfl, f⟩⟩

theorem VersionBuf.Republished.trans {b y z : VersionBuf} (h : b.Republished y) (h' : y.Republished z) : b.Republished z where
  addr := h'.addr.trans h.addr
  current := h'.current.trans h.current
  pending := h'.pending.trans h.pending
  version cur := (h'.version (h.current.2 cur)).trans (h.version cur)
  held isHeld fenced := by
    obtain ⟨isHeld', version, fenced'⟩ := h.held isHeld fenced
    obtain ⟨isHeld'', version', fenced''⟩ := h'.held isHeld' fenced'
    exact ⟨isHeld'', version'.trans version, fenced''⟩

/-- A learner of which only the buffers differ, each republished in its place. -/
def Learner.Republished (l m : Learner) : Prop := ∃ g : VersionBuf → VersionBuf, (∀ b : VersionBuf, b.Republished (g b)) ∧ m = { l with buffers := l.buffers.map g }

theorem Learner.Republished.refl (l : Learner) : l.Republished l := ⟨id, .refl, by rw [List.map_id]⟩

theorem Learner.Republished.trans {l m n : Learner} (h : l.Republished m) (h' : m.Republished n) : l.Republished n := by
  obtain ⟨g, hg, rfl⟩ := h
  obtain ⟨g', hg', rfl⟩ := h'
  exact ⟨g' ∘ g, fun b => (hg b).trans (hg' (g b)), by rw [List.map_map]⟩

/-- A change of holders that keeps all but publications. -/
theorem hold_republished (l : Learner) (version : Nat) {f : List Holder → List Holder} (keeps : ∀ hs, ∀ h ∈ hs, h ≠ .publication → h ∈ f hs) :
    l.Republished (l.hold version f) := by
  refine ⟨_, fun b => ?_, rfl⟩
  have fenced : b.fenced → ∃ h ∈ f b.holders, h ≠ .publication := fun ⟨h, hb, other⟩ => ⟨h, keeps _ h hb other, other⟩
  dsimp only
  split
  · split
    next freed =>
      obtain ⟨none, isHeld⟩ : f b.holders = [] ∧ b.state = .held := by simpa using freed
      refine ⟨rfl, by simp [isHeld], by simp [isHeld], by simp [isHeld], fun _ fence => ?_⟩
      obtain ⟨h, there, -⟩ := fenced fence
      simp [none] at there
    next => exact ⟨rfl, .rfl, .rfl, fun _ => rfl, fun isHeld fence => ⟨isHeld, rfl, fenced fence⟩⟩
  · exact .refl b

theorem mem_erase_publication (hs : List Holder) : ∀ h ∈ hs, h ≠ .publication → h ∈ hs.erase .publication := fun _ there other => (List.mem_erase_of_ne other).2 there

theorem mem_add_publication (hs : List Holder) : ∀ h ∈ hs, h ≠ .publication → h ∈ (if hs.contains .publication then hs else hs ++ [.publication]) := by
  intro h there _
  split
  · exact there
  · exact List.mem_append_left _ there

theorem foldl_hold_republished (bs : List VersionBuf) (l : Learner) :
    l.Republished (bs.foldl (fun l b => l.hold b.version (fun hs => hs.erase .publication)) l) := by
  induction bs generalizing l with
  | nil => exact .refl l
  | cons b bs ih => exact (hold_republished l b.version mem_erase_publication).trans (ih _)

section
variable {s : State} {k : Nat} {c : Ctx} {l : Learner} (hc : s.ctx? k = some c) (hl : c.learn = some l)
include hc hl

theorem holdToPublish_ctx? (version : Nat) : ∃ m, l.Republished m ∧ (s.holdToPublish k version).ctx? k = some { c with learn := some m } :=
  ⟨_, hold_republished l version mem_add_publication, (ctx?_updCtx _ _ _ c hc).trans (by rw [hl]; rfl)⟩

theorem endHolds_ctx? : ∃ m, l.Republished m ∧ (s.endHolds k).ctx? k = some { c with learn := some m } :=
  ⟨_, foldl_hold_republished _ l, (ctx?_updCtx _ _ _ c hc).trans (by rw [hl]; rfl)⟩

/-- A version that goes to its targets changes the publication list and its counts alone. -/
theorem publishAll_ctx? (version : Nat) :
    ∃ m pubs, l.Republished m ∧ (s.publishAll k version).ctx? k = some { c with learn := some m, pubs := pubs } := by
  unfold State.publishAll
  simp only [hc]
  split
  · exact ⟨l, c.pubs, .refl l, hc.trans (by rw [← hl])⟩
  · obtain ⟨m, listed, hm⟩ := holdToPublish_ctx? (ctx?_putCtx s k { c with pubs := c.pubs.map (fun p => { p with waiting := version }) }) hl version
    obtain ⟨n, released, hn⟩ := endHolds_ctx? hm rfl
    exact ⟨n, _, listed.trans released, hn⟩

end

/-! ## Versions after a commit (09 R254, R278) -/

/-- What a commit and the publication of its version can do to a buffer: the pending version becomes current, no other is, and the former one is held while anyone
but a publication holds it. -/
structure VersionBuf.Promoted (b y : VersionBuf) : Prop where
  addr : y.addr = b.addr
  notPending : y.state ≠ .pending
  current : y.state = .current ↔ b.state = .pending
  version : b.state = .pending → y.version = b.version
  held : b.state = .current → b.fenced → y.state = .held ∧ y.version = b.version ∧ y.fenced

theorem VersionBuf.Promoted.republished {b y z : VersionBuf} (h : b.Promoted y) (h' : y.Republished z) : b.Promoted z where
  addr := h'.addr.trans h.addr
  notPending pending := h.notPending (h'.pending.1 pending)
  current := h'.current.trans h.current
  version pending := (h'.version (h.current.2 pending)).trans (h.version pending)
  held isCurrent fenced := by
    obtain ⟨isHeld, version, fenced'⟩ := h.held isCurrent fenced
    obtain ⟨isHeld', version', fenced''⟩ := h'.held isHeld fenced'
    exact ⟨isHeld', version'.trans version, fenced''⟩

theorem makeCurrent_promotes (l : Learner) (copy : List (List Byte)) :
    ∃ g : VersionBuf → VersionBuf, (∀ b : VersionBuf, b.Promoted (g b)) ∧ (l.makeCurrent copy).buffers = l.buffers.map g := by
  refine ⟨_, fun b => ?_, rfl⟩
  split
  next pending => exact ⟨rfl, nofun, ⟨fun _ => pending, fun _ => rfl⟩, fun _ => rfl, fun current => absurd (pending.symm.trans current) nofun⟩
  next current =>
    have other : b.state ≠ .pending := by simp [current]
    split
    next nobody => exact ⟨rfl, nofun, ⟨nofun, (absurd · other)⟩, (absurd · other), fun _ ⟨x, there, _⟩ => by simp [List.isEmpty_iff.1 nobody] at there⟩
    next => exact ⟨rfl, nofun, ⟨nofun, (absurd · other)⟩, (absurd · other), fun _ fence => ⟨rfl, rfl, fence⟩⟩
  next notPending notCurrent =>
    exact ⟨rfl, notPending, ⟨(absurd · notCurrent), (absurd · notPending)⟩, (absurd · notPending), (absurd · notCurrent)⟩

theorem currentVersion_eq {c : Ctx} {l : Learner} {v : Nat} (hl : c.learn = some l) (one : ∃ b ∈ l.buffers, b.state = .current)
    (all : ∀ b ∈ l.buffers, b.state = .current → b.version = v) : c.currentVersion = v := by
  obtain ⟨b, there, isCurrent⟩ := one
  unfold Ctx.currentVersion
  simp only [hl]
  split
  next none => exact absurd (List.find?_eq_none.1 none b there) (by simp [isCurrent])
  next x found => exact all x (List.mem_of_find?_eq_some found) (by simpa using List.find?_some found)

/-- A STEP whose commit has taken effect (09 R278). -/
def StepRun.committed (st : StepRun) (count : Nat) : StepRun :=
  { st with phase := .digest, outcome := some .committed, sentAt := none, inDoubt := false, progDone := true, count := count }

/-- What the step driver keeps from a commit on: count, step, tracked entries, products, the digest still to come, and the buffers in their new states
(09 R254, R263, R271, R275, R278). -/
structure Learner.Committed (s : State) (c : Ctx) (st : StepRun) (l m : Learner) : Prop where
  stepCount : m.stepCount = l.stepCount + 1
  lastStep : m.lastStep = some st.counter
  tracked : m.tracked = l.tracked.map (fun e => e.update st.combined)
  groups : m.groups = (l.groups.zip st.scalars).map (fun x => { x.1 with p1 := x.2.q1, p2 := x.2.q2 })
  hashing : m.hashing = l.hashing ++ [(st.pending, setDigest (s.versionDigest l.pendingBuf (c.weightTensors l)))]
  buffers : ∃ f : VersionBuf → VersionBuf, (∀ b : VersionBuf, b.Promoted (f b)) ∧ m.buffers = l.buffers.map f

section
variable {s : State} {c : Ctx} {st : StepRun} {l m : Learner} (h : l.Committed s c st m)
include h

theorem Learner.Committed.republished {n : Learner} (h' : m.Republished n) : l.Committed s c st n := by
  obtain ⟨g, republished, rfl⟩ := h'
  obtain ⟨f, promoted, buffers⟩ := h.buffers
  exact { h with buffers := ⟨g ∘ f, fun b => (promoted b).republished (republished (f b)), by rw [← List.map_map, ← buffers]⟩ }

theorem Learner.Committed.nonePending {c' : Ctx} (hm : c'.learn = some m) : c'.nonePending := by
  obtain ⟨f, promoted, buffers⟩ := h.buffers
  intro m' hm' y there
  obtain rfl : m = m' := Option.some.inj (hm.symm.trans hm')
  rw [buffers] at there
  obtain ⟨b, -, rfl⟩ := List.mem_map.1 there
  exact (promoted b).notPending

/-- The pending version becomes current. -/
theorem Learner.Committed.currentVersion {c' : Ctx} (hm : c'.learn = some m) (one : ∃ b ∈ l.buffers, b.state = .pending)
    (same : ∀ b ∈ l.buffers, b.state = .pending → b.version = st.pending) : c'.currentVersion = st.pending := by
  obtain ⟨f, promoted, buffers⟩ := h.buffers
  obtain ⟨b, there, pending⟩ := one
  refine currentVersion_eq hm ⟨f b, buffers ▸ List.mem_map_of_mem there, (promoted b).current.2 pending⟩ fun y mem isCurrent => ?_
  rw [buffers] at mem
  obtain ⟨x, there, rfl⟩ := List.mem_map.1 mem
  have pending := (promoted x).current.1 isCurrent
  exact ((promoted x).version pending).trans (same x there pending)

/-- The former version stays where others hold it. -/
theorem Learner.Committed.held (b : VersionBuf) (there : b ∈ l.buffers) (isCurrent : b.state = .current) (fence : ∃ x ∈ b.holders, x ≠ .publication) :
    ∃ y ∈ m.buffers, y.addr = b.addr ∧ y.version = b.version ∧ y.state = .held := by
  obtain ⟨f, promoted, buffers⟩ := h.buffers
  obtain ⟨isHeld, version, -⟩ := (promoted b).held isCurrent fence
  exact ⟨f b, buffers ▸ List.mem_map_of_mem there, (promoted b).addr, version, isHeld⟩

end

/-- A STEP that knows its commit time. -/
def StepRun.decided (st : StepRun) (time : W64) : StepRun := { st with commitTime := some time, phase := .decided, sentAt := none, inDoubt := false }

theorem regenerates_congr {c d : Ctx} (desc : d.desc = c.desc) : d.regenerates = c.regenerates := by
  unfold Ctx.regenerates
  rw [desc]

/-! ## A commit takes effect (09 R278, R279) -/

/-- A commit writes the learner's state, the table and the buffer, publishes the version and gives the STEP its outcome. -/
theorem commitState_eq (s : State) (k : Nat) (c : Ctx) (l : Learner) (st : StepRun) : ∃ (m : Learner) (due : Bool) (t : State),
    commitState s k c l st = t.setStep k (st.committed (l.stepCount + 1).toNat)
    ∧ t.ctxs = ((s.putCtx k { c with learn := some m, ckptDue := due }).publishAll k st.pending).ctxs ∧ l.Committed s c st m :=
  ⟨_, _, _, rfl, (store_ctxs _ _ _).trans ((store_ctxs _ _ _).trans ((stores_ctxs _ _ _ _).trans (store_ctxs _ _ _))), rfl, rfl, rfl, rfl, rfl, makeCurrent_promotes l _⟩

section
variable {s : State} {k : Nat} {c : Ctx} {st : StepRun} {later : List StepRun} (h : StepTurn s k c st later)
include h

theorem StepTurn.commitState (l : Learner) : ∃ c' m, StepTurn (commitState s k c l st) k c' (st.committed (l.stepCount + 1).toNat) later
    ∧ c'.desc = c.desc ∧ l.Committed s c st m ∧ c'.learn = some m := by
  obtain ⟨m, due, t, heq, ctxs, committed⟩ := commitState_eq s k c l st
  obtain ⟨n, pubs, republished, hn⟩ := publishAll_ctx? (ctx?_putCtx s k { c with learn := some m, ckptDue := due }) rfl st.pending
  have turn := h.moved (t := t) ((congrArg (nfind · k) ctxs).trans hn) h.steps rfl
  rw [heq, turn.setStep (x := st.committed _) rfl]
  exact ⟨_, n, turn.withStep rfl, rfl, committed.republished republished, rfl⟩

section
variable {l : Learner} (hl : c.learn = some l) (going : st.outcome = none)
include hl going

theorem StepTurn.commitNow_poisoned {a : Nat} (found : s.pendingPoison c l st = some a) : commitNow s k st.cmd = s.putCtx k (c.raisePoison a 0x06) := by
  unfold commitNow
  rw [h.onStep]
  simp only [hl, going, found, Option.isSome_none, Bool.false_eq_true, if_false]

theorem StepTurn.commitNow_clean (clean : s.pendingPoison c l st = none) :
    commitNow s k st.cmd = if c.regenerates then Machine.commitState s k c l st else Machine.tryFinish (Machine.commitState s k c l st) k st.cmd := by
  unfold commitNow
  rw [h.onStep]
  simp only [hl, going, clean, Option.isSome_none, Bool.false_eq_true, if_false]

/-- The STEP completes at its commit, or waits for the digest that its regeneration record names (02 R62). -/
theorem StepTurn.commitNow (clean : s.pendingPoison c l st = none) : ∃ c' m, (commitNow s k st.cmd).ctx? k = some c'
    ∧ l.Committed s c st m ∧ c'.learn = some m ∧ (c.regenerates = false → c'.steps = later)
    ∧ (c.regenerates = true → c'.steps = st.committed (l.stepCount + 1).toNat :: later) := by
  obtain ⟨d, m, turn, desc, committed, hm⟩ := h.commitState l
  rw [h.commitNow_clean hl going clean]
  cases regenerates : c.regenerates with
  | true => exact ⟨d, m, turn.hasCtx, committed, hm, nofun, fun _ => turn.steps⟩
  | false =>
    obtain ⟨c', hc', learn, -, leaves⟩ := turn.tryFinish (o := .committed) rfl (by decide)
    exact ⟨c', m, hc', committed, learn.trans hm, fun _ => leaves rfl ((regenerates_congr desc).trans regenerates), nofun⟩

end

/-- COMMIT_TIME_REACHED acts on the oldest STEP once its commit time is there. -/
theorem StepTurn.commitTimeReached {time : W64} (decided : st.phase = .decided) (going : st.outcome = none) (at' : st.commitTime = some time)
    (due : time.toNat ≤ s.st.now.toNat) : exec (.commitTimeReached k) s = .next (Machine.commitNow s k st.cmd) :=
  h.onFirst (by simp [decided, going, at', due]) _

/-! ## Commit records (09 R277, R278) -/

theorem StepTurn.adoptCommit_waits {x : StepRun} (hx : x.cmd = st.cmd) {time : W64} (early : s.st.now.toNat ≤ time.toNat) :
    adoptCommit s k x time = s.withStep k c (x.decided time) later := by
  unfold adoptCommit
  rw [h.setStep (x := { x with commitTime := some time, phase := .decided, sentAt := none, inDoubt := false }) hx]
  exact if_neg (Nat.not_lt.2 early)

end

theorem adoptCommit_late {s : State} {k : Nat} {x : StepRun} {time : W64} (late : time.toNat < s.st.now.toNat) :
    adoptCommit s k x time = (commitNow (s.setStep k (x.decided time)) k x.cmd).raise
      { level := 1, source := 6, ctx := some k, step := some (BitVec.ofNat 64 x.counter) } := by
  have now : (s.setStep k (x.decided time)).st.now = s.st.now := by unfold State.setStep; rw [updCtx_st]
  exact if_pos (now ▸ late)

@[simp] theorem sendRecs_st (s : State) (k : Nat) (c : Ctx) (dests : List Nat) (r : StepRec) : (s.sendRecs k c dests r).st = s.st := by
  rw [sendRecs_sentOnly s k c dests r]

/-! ## Aborts (09 R280, R281) -/

/-- After a retried attempt: before phase 4 the STEP takes the next attempt's number, from there on it starts again from the retained inputs, with no version pending. -/
def State.Retried (t : State) (k : Nat) (x : StepRun) (later : List StepRun) : Prop := ∃ c', t.ctx? k = some c'
  ∧ (x.early = true → c'.steps = { x with attempt := x.attempt + 1 } :: later) ∧ (x.early = false → c'.steps = x.next :: later ∧ c'.nonePending)

/-- After an attempt that is not retried: the STEP is gone, and no version is pending. -/
def State.Ended (t : State) (k : Nat) (later : List StepRun) : Prop := ∃ c', t.ctx? k = some c' ∧ c'.steps = later ∧ c'.nonePending

/-- JOB_FATAL_FAULT looks at the command of its STEP alone. -/
theorem finishStep_fatal {s : State} {k : Nat} {x y : StepRun} (hx : x.cmd = y.cmd) (tail : List Byte) : s.finishStep k x 0x31 tail = s.finishStep k y 0x31 tail := by
  simp [State.finishStep, hx]

section
variable {s : State} {k : Nat} {c : Ctx} {st : StepRun} {later : List StepRun} (h : StepTurn s k c st later)
include h

theorem StepTurn.withColls (colls : List Coll) : StepTurn { s with colls := colls } k c st later := ⟨h.context, h.hasCtx, h.steps, h.distinct⟩

theorem StepTurn.stopStep (x : StepRun) : ∃ run, StepTurn (s.stopStep k x) k { c with run := run } st later :=
  ⟨_, h.moved (ctx?_updCtx _ _ _ c h.hasCtx) h.steps rfl⟩

section
variable {x : StepRun} (hx : x.cmd = st.cmd)
include hx

theorem StepTurn.adoptAbort_retries (again : x.attempt < 2) : (adoptAbort s k x true).Retried k x later := by
  have raised := h.raise { level := 2, source := 6, ctx := some k, step := some (BitVec.ofNat 64 x.counter), count := x.attempt }
  unfold adoptAbort
  dsimp only
  rw [if_pos ⟨rfl, again⟩]
  cases early : x.early with
  | true =>
    rw [if_pos rfl, raised.setStep (x := { x with attempt := x.attempt + 1 }) hx]
    exact ⟨_, ctx?_putCtx _ _ _, fun _ => rfl, fun bad => absurd (early.symm.trans bad) nofun⟩
  | false =>
    have discarded := raised.moved (discardPending_ctx? raised.hasCtx) raised.steps rfl
    obtain ⟨run, stopped⟩ := (discarded.withColls _).stopStep x
    rw [if_neg nofun]
    refine (congrArg (State.Retried · k x later) (stopped.setStep (x := x.next) hx)).mpr ?_
    exact ⟨_, ctx?_putCtx _ _ _, fun bad => absurd (early.symm.trans bad) nofun, fun _ => ⟨rfl, nonePending_of_discard (fun _ => rfl) rfl⟩⟩

theorem StepTurn.adoptAbort_ends {again : Bool} (last : again = false ∨ 2 ≤ x.attempt) : (adoptAbort s k x again).Ended k later := by
  have raised := h.raise { level := 2, source := 6, ctx := some k, step := some (BitVec.ofNat 64 x.counter), count := x.attempt }
  have discarded := raised.moved (discardPending_ctx? raised.hasCtx) raised.steps rfl
  unfold adoptAbort
  dsimp only
  rw [if_neg (by rintro ⟨rfl, early⟩; exact last.elim nofun (Nat.not_le.2 early)), finishStep_fatal hx]
  obtain ⟨c', hc', steps, learn⟩ := discarded.finishStep 0x31 (zeros 16)
  exact ⟨c', hc', steps, nonePending_of_discard (fun _ => rfl) learn⟩

end

theorem StepTurn.told (again poison : Bool) : StepTurn (tellFailure s k c st again poison) k c st later :=
  h.moved ((tellFailure_ctx? _ _ _ _ _ _ _).trans h.hasCtx) h.steps rfl

/-- The root retries a failed attempt that may be executed again, and ends any other (09 R280). -/
theorem StepTurn.abortAll_retries (again : st.attempt < 2) : (abortAll s k c st true).Retried k st later := by
  unfold abortAll
  simp only [again, decide_true, Bool.and_true]
  exact (h.told _ _).adoptAbort_retries rfl again

theorem StepTurn.abortAll_ends {again : Bool} (last : again = false ∨ 2 ≤ st.attempt) : (abortAll s k c st again).Ended k later := by
  have none : (again && decide (st.attempt < 2)) = false := by
    rw [Bool.and_eq_false_iff, decide_eq_false_iff_not, Nat.not_lt]
    exact last
  unfold abortAll
  simp only [none]
  exact (h.told _ _).adoptAbort_ends rfl (.inl rfl)

/-! ## Records of a decision (09 R277, R278, R280) -/

/-- The decision goes down the tree and has its time. -/
theorem StepTurn.decisionLog {l : Learner} {acked : W64} (hl : c.learn = some l) (ack : st.logAck = some acked) (fresh : st.logged = false) :
    let time := BitVec.ofNat 64 (to4096 (acked.toNat + l.commitLead * microsecond))
    exec (.decisionLog k) s = .next
      (adoptCommit (s.sendRecs k c (childRanks c.desc.modules 0) (stepRecord c st 4 c.desc.modules 1 time [])) k { st with logged := true } time) := by
  refine (h.onFirst (p := fun st => st.logAck.isSome && !st.logged) (by simp [ack, fresh]) _).trans ?_
  simp only [hl, ack, Option.getD_some]

section
variable {r : StepRec} (hr : c.recordStep r = some st)
include hr

theorem StepTurn.commit (hk : r.kind = 4) (parent : c.fromParent r = true) (prepared : st.phase = .prepared) :
    exec (.commit k r) s = .next (adoptCommit (s.sendRecs k c (childRanks c.desc.modules c.desc.rank) { r with source := BitVec.ofNat 16 c.desc.rank }) k st r.commitTime) :=
  (h.withRecord hr (kind_toNat (by decide) hk) _).trans (congrArg _ (if_pos (by simp [parent, prepared])))

theorem StepTurn.decisionReply (hk : r.kind = 9) (doubt : st.inDoubt = true) (source : r.source.toNat = 0 ∨ r.source.toNat = 1 % c.desc.modules) :
    exec (.decisionReply k r) s = .next
      (if recFlag r 0 then adoptCommit s k st r.commitTime else adoptAbort s k { st with inDoubt := false } (recFlag r 5)) :=
  (h.withRecord hr (kind_toNat (by decide) hk) _).trans (congrArg _ (if_pos (by simpa [doubt] using source)))

theorem StepTurn.abort (hk : r.kind = 5) (parent : c.fromParent r = true) (going : st.outcome = none) (undecided : st.commitTime = none) :
    exec (.abort k r) s = .next
      (adoptAbort (s.sendRecs k c (childRanks c.desc.modules c.desc.rank) { r with source := BitVec.ofNat 16 c.desc.rank }) k st (recFlag r 5)) :=
  (h.withRecord hr (kind_toNat (by decide) hk) _).trans (congrArg _ (if_pos (by simp [parent, going, undecided])))

theorem StepTurn.failureReport (hk : r.kind = 6) (root : c.desc.rank = 0) (going : st.outcome = none) (unlogged : st.logAck = none) :
    exec (.failureReport k r) s = .next (abortAll s k c st (recFlag r 5)) :=
  (h.withRecord hr (kind_toNat (by decide) hk) _).trans (congrArg _ (if_pos (by simp [root, going, unlogged])))

end

end

/-! ## Queries (09 R278) -/

section
variable {s : State} {k : Nat} {c : Ctx} (hk : k < 64) (hc : s.ctx? k = some c)
include hk hc

section
variable {l : Learner} (hl : c.learn = some l) {r : StepRec} (query : r.kind = 8)
include hl query

theorem decisionQuery_discarded (bad : c.headerOk r = false) : exec (.decisionQuery k r) s = .next (s.countDiscard k) := by
  refine (withCtx_some hk hc _).trans (congrArg _ ?_)
  simp [hl, query, bad]

/-- A rank that may answer says what it knows. -/
theorem decisionQuery_answered (good : c.headerOk r = true) (knower : c.desc.rank = 0 ∨ c.desc.rank = 1 % c.desc.modules) :
    let reply := fun (flags : W32) (time : W64) =>
      (s.sendRec k c r.source.toNat { r with source := BitVec.ofNat 16 c.desc.rank, kind := 9, flags := flags, commitTime := time, stats := [] }).1
    exec (.decisionQuery k r) s = .next (match c.knows l r.stepCounter.toNat r.attempt.toNat with
      | .nothing => s | .commit time => reply 1 time | .abort true => reply 32 0 | .abort false => reply 0 0) := by
  refine (withCtx_some hk hc _).trans (congrArg _ ?_)
  simp only [hl]
  rw [if_pos (by simpa [good, query] using knower)]
  rcases c.knows l r.stepCounter.toNat r.attempt.toNat with _ | _ | _ | _ <;> rfl

end

/-- A record that names no attempt in progress, or fails its checks, is discarded and counted (09 R273). -/
theorem withRecord_discards {r : StepRec} {kind : Nat} (hr : c.recordStep r = none) (hkind : r.kind.toNat = kind) (f : Ctx → StepRun → State) :
    withRecord k kind r s f = .next (s.countDiscard k) := by
  unfold withRecord
  rw [withCtx_some hk hc, if_pos hkind, hr]

end

/-- Rank 1 mod M answers "aborted" for a step of which it has neither a run nor a log. -/
theorem knows_unlogged {c : Ctx} {l : Learner} {n a : Nat} (child : c.desc.rank ≠ 0) (gone : ∀ x ∈ c.steps, x.counter ≠ n) (older : l.lastStep ≠ some n)
    (unlogged : l.decisionLog.contains (n, a) = false) : c.knows l n a = .abort false := by
  have none : c.steps.find? (fun x => x.counter == n) = none := List.find?_eq_none.2 (fun x there => by simpa using gone x there)
  unfold Ctx.knows
  rw [none]
  dsimp only
  rw [if_neg older, if_neg child, unlogged]
  exact if_neg nofun

/-- Who has a commit time answers with it. -/
theorem knows_commit {c : Ctx} {st : StepRun} {later : List StepRun} (steps : c.steps = st :: later) (l : Learner) {time : W64} (decided : st.commitTime = some time) :
    c.knows l st.counter st.attempt = .commit time := by
  unfold Ctx.knows
  simp [steps, decided]

/-- Settles O35: a commit by its state's buffers and its STEP's outcome, an abort by its attempt, a record by its checks. -/
theorem commitAndAbort : Obligations.CommitAndAbort := by
  unfold Obligations.CommitAndAbort
  intro s k c st later h decided retried ended passed late
  refine ⟨?final, fun r hr => ⟨?commit, ?reply, ?abort, ?failure⟩, ?reached, fun l r hl query => ?query, fun r hr => ?discarded⟩
  case final =>
    intro l acked hl ack fresh time fits ahead
    have turn := h.sent (childRanks c.desc.modules 0) (stepRecord c st 4 c.desc.modules 1 (BitVec.ofNat 64 time) [])
    have waits : s.st.now.toNat ≤ (BitVec.ofNat 64 time).toNat := by rwa [BitVec.toNat_ofNat, Nat.mod_eq_of_lt fits]
    refine ⟨_, h.decisionLog hl ack fresh, ?_⟩
    rw [turn.adoptCommit_waits (x := { st with logged := true }) rfl (by rwa [sendRecs_st])]
    exact ⟨sendRecs_mem _ _ _ _ _, ctx?_putCtx _ _ _⟩
  case commit =>
    intro kind parent prepared
    have turn := h.sent (childRanks c.desc.modules c.desc.rank) { r with source := BitVec.ofNat 16 c.desc.rank }
    have taken := h.commit hr kind parent prepared
    refine ⟨fun ahead => ⟨_, taken, ?_⟩, fun past => taken.trans (congrArg _ (adoptCommit_late (by rwa [sendRecs_st])))⟩
    rw [turn.adoptCommit_waits (x := st) rfl (by rwa [sendRecs_st])]
    exact ⟨sendRecs_mem _ _ _ _ _, ctx?_putCtx _ _ _⟩
  case reply =>
    intro kind doubt source
    have followed := h.decisionReply hr kind doubt source
    refine ⟨fun commits ahead => ?_, fun commits past => ?_, fun aborts again first => ?_, fun aborts last => ?_⟩
    · rw [if_pos commits, h.adoptCommit_waits (x := st) rfl ahead] at followed
      exact ⟨_, followed, rfl, ctx?_putCtx _ _ _⟩
    · rw [if_pos commits, adoptCommit_late past] at followed
      exact followed
    · rw [if_neg (by simp [aborts]), again] at followed
      exact ⟨_, followed, h.adoptAbort_retries (x := { st with inDoubt := false }) rfl first⟩
    · rw [if_neg (by simp [aborts])] at followed
      exact ⟨_, followed, h.adoptAbort_ends (x := { st with inDoubt := false }) rfl last⟩
  case abort =>
    intro kind parent going undecided
    have turn := h.sent (childRanks c.desc.modules c.desc.rank) { r with source := BitVec.ofNat 16 c.desc.rank }
    have aborted := h.abort hr kind parent going undecided
    refine ⟨fun again first => ?_, fun last => ⟨_, aborted, turn.adoptAbort_ends rfl last⟩⟩
    rw [again] at aborted
    exact ⟨_, aborted, turn.adoptAbort_retries rfl first⟩
  case failure =>
    intro kind root going unlogged
    have failed := h.failureReport hr kind root going unlogged
    refine ⟨fun again first => ?_, fun last => ⟨_, failed, h.abortAll_ends last⟩⟩
    rw [again] at failed
    exact ⟨_, failed, h.abortAll_retries first⟩
  case reached =>
    intro l time hl phase going at' due one same
    have reached := h.commitTimeReached phase going at' due
    refine ⟨fun clean => ?_, fun a found => reached.trans (congrArg _ (h.commitNow_poisoned hl going found))⟩
    obtain ⟨c', m, hc', committed, hm, leaves, stays⟩ := h.commitNow hl going clean
    exact ⟨_, c', m, reached, hc', hm, committed.nonePending hm, committed.currentVersion hm one same, committed.stepCount, committed.lastStep, committed.tracked,
      committed.groups, committed.hashing, committed.held, leaves, stays⟩
  case query =>
    exact ⟨decisionQuery_discarded h.context h.hasCtx hl query, decisionQuery_answered h.context h.hasCtx hl query, fun n a => knows_unlogged,
      fun n time counter decided => counter ▸ knows_commit h.steps l decided⟩
  case discarded =>
    have discards {kind : Nat} (small : kind < 256) (f : Ctx → StepRun → State) (hk : r.kind = BitVec.ofNat 8 kind) : withRecord k kind r s f = .next (s.countDiscard k) :=
      withRecord_discards h.context h.hasCtx hr (kind_toNat small hk) f
    exact ⟨discards (by decide) _, discards (by decide) _, discards (by decide) _, discards (by decide) _, discards (by decide) _, discards (by decide) _,
      discards (by decide) _⟩

end Sys2Proof.Machine

/-! PROOFS. Versions, digests and audit rings (02 R57 to R64, 09 R254, R255, 16 R430). -/

namespace Sys2Proof.Machine

/-! ## Fences (09 R254, R255) -/

/-- A held version whose last holder leaves is free. -/
theorem hold_erase_last {l : Learner} {version : Nat} {b : VersionBuf} {h : Holder} (there : b ∈ l.buffers) (number : b.version = version) (held : b.state = .held)
    (last : b.holders = [h]) : ∃ y ∈ (l.hold version (fun hs => hs.erase h)).buffers, y.addr = b.addr ∧ y.state = .free ∧ y.holders = [] := by
  refine ⟨_, List.mem_map_of_mem there, ?_⟩
  have none : b.holders.erase h = [] := by rw [last, List.erase_cons_head]
  simp [number, held, none]

section
variable {s : State} {k : Nat} {c : Ctx} (hk : k < 64) (hc : s.ctx? k = some c)
include hk hc

/-- The first finished holder of the kind lets go of its version. -/
theorem fenceRelease_releases {l : Learner} {version holder : Nat} {b : VersionBuf} {h : Holder} (hl : c.learn = some l) (found : l.bufferOf version = some b)
    (finished : b.holders.find? (c.releasable holder version) = some h) : exec (.fenceRelease k version holder) s =
      .next ((s.putCtx k { c with learn := some (l.hold version (fun hs => hs.erase h)) }).afterRelease k) := by
  refine (withCtx_some hk hc _).trans (congrArg _ ?_)
  simp only [hl, Option.bind_some, found, finished]
  unfold State.dropHold
  rw [updCtx_some _ _ _ c hc, hl, Option.map_some]

/-! ## Weight-version digests (02 R58, R62) -/

section
variable {l : Learner} (hl : c.learn = some l)
include hl

theorem weightDigestComplete_committed {v : Nat} {d : List Byte} {rest : List (Nat × List Byte)} (hashing : l.hashing = (v, d) :: rest) :
    let steps := updWhere c.steps (fun st => st.outcome == some .committed && st.pending == v && st.digest.isNone) (fun st => { st with digest := some d })
    exec (.weightDigestComplete k) s = .next (steps.foldl (fun t st => tryFinish t k st.cmd)
      (s.putCtx k { c with learn := some { (l.digested v d) with hashing := rest }, steps := steps })) := by
  refine (withCtx_some hk hc _).trans (congrArg _ ?_)
  simp only [hl, hashing]

theorem weightDigestComplete_loaded {b : VersionBuf} (idle : l.hashing = []) (found : l.buffers.find? (fun y => y.state == .current && y.digest.isNone) = some b) :
    exec (.weightDigestComplete k) s = .next (c.steps.foldl (fun t st => tryFinish t k st.cmd)
      (s.putCtx k { c with learn := some (l.digested b.version (setDigest (s.versionDigest b.addr (c.weightTensors l)))) })) := by
  refine (withCtx_some hk hc _).trans (congrArg _ ?_)
  simp only [hl, idle, found]

end

/-! ## Cairns (02 R59 to R61, 16 R430) -/

section
variable {p : Program} {tensor : W32} {t : TensorEntry} {places : Places} {weight : List Byte} (hp : c.program = some p)
  (found : p.tensors.find? (fun y => y.id == tensor) = some t) (consumed : c.consumedDigest = some weight) (due : c.cairnDue p t places = true)
include hp found consumed due

theorem tensorDigestComplete_poisoned {a : Nat} (poisoned : s.tensorPoison places (t :: p.stepInputs) = some a) :
    exec (.tensorDigestComplete k tensor places) s = .next (s.putCtx k (c.raisePoison a 0x04)) := by
  refine (withCtx_some hk hc _).trans (congrArg _ ?_)
  simp only [hp, found, consumed, due, poisoned, Bool.not_true, Bool.false_eq_true, if_false]

/-- The record of a tensor that is due and clean waits for its signature, or is written at once. -/
theorem tensorDigestComplete_clean (clean : s.tensorPoison places (t :: p.stepInputs) = none) :
    let written := s.produce k 0 (cairnRecord s c p t places weight false)
    exec (.tensorDigestComplete k tensor places) s = .next (
      if t.flags / 8 % 2 = 1 ∧ c.desc.sigAddr ≠ 0 then
        if 1024 ≤ s.mesa.signQueue.length then s
        else { s with mesa := { s.mesa with signQueue := s.mesa.signQueue ++ [(k, cairnRecord s c p t places weight true)] } }
      else if t.flags / 8 % 2 == 1 && !c.unsignedWarned then
        (written.updCtx k (fun c => { c with unsignedWarned := true })).raise { level := 2, source := 6, ctx := some k }
      else written) := by
  refine (withCtx_some hk hc _).trans (congrArg _ ?_)
  simp only [hp, found, consumed, due, clean, Bool.not_true, Bool.false_eq_true, if_false]

end

/-- A signature of Mesa goes into the ring behind its record. -/
theorem cairnSignatureComplete_signs {record : List Byte} {more : List (Nat × List Byte)} (queue : s.mesa.signQueue = (k, record) :: more) (works : s.mesa.failed = false) :
    exec (.cairnSignatureComplete k) s = .next (({ s with mesa := { s.mesa with signQueue := more, signed := s.mesa.signed + 1 } } : State).produce k 0
      (record ++ (List.range 2420).map (Config.signature s.mesa.signed (cairnMessage s.cfg.serial (record.take 32))))) := by
  refine (withCtx_some hk hc _).trans (congrArg _ ?_)
  simp only [queue, works, List.head?_cons, true_and, if_true, List.drop_one, List.tail_cons, State.sign]

/-! ## Ring space (02 R64) -/

theorem ringSpaceFreed_flushes {ring : Nat} {r : DataRing} (index : W64) (found : nfind c.rings ring = some r) (notRequests : ring ≠ 2) (notReplies : ring ≠ 4) :
    let written := State.flushRing r.waiting.length (s.store (r.addr + 16) (leBytes 8 index.toNat)) c ring { r with consumer := index }
    exec (.ringSpaceFreed k ring index) s = .next (c.steps.foldl (fun t st => tryFinish t k st.cmd)
      (written.1.updCtx k (fun c => { c with rings := nset c.rings ring written.2 }))) := by
  refine (withCtx_some hk hc _).trans (congrArg _ ?_)
  simp only [found]
  exact if_neg (by simp [notRequests, notReplies])

end

theorem cairnDue_iff (c : Ctx) (p : Program) (t : TensorEntry) (places : Places) : c.cairnDue p t places = true ↔
    c.desc.audit % 2 = 1 ∧ t.flags / 4 % 2 = 1 ∧ c.stopping = false ∧ t.slices * t.rows * t.cols ≤ (nfind c.drained t.id.toNat).getD 0
      ∧ ∀ x ∈ t :: p.stepInputs, ∃ a, places.find x.id = some a := by
  unfold Ctx.cairnDue Ctx.allDrained
  simp only [Bool.and_eq_true, beq_iff_eq, Bool.not_eq_true', decide_eq_true_eq, List.all_eq_true, Option.isSome_iff_exists, and_assoc]

/-- Settles O36: each clause is what the command does on its context. -/
theorem versionsDigestsAndRings : Obligations.VersionsDigestsAndRings := by
  unfold Obligations.VersionsDigestsAndRings
  intro s k c hk hc finishing
  refine ⟨fun l version holder b h hl found finished => ⟨fenceRelease_releases hk hc hl found finished, fun held last => ?freed⟩,
    fun l v d rest hl hashing => weightDigestComplete_committed hk hc hl hashing, fun l b hl idle found => weightDigestComplete_loaded hk hc hl idle found,
    fun p tensor t places weight hp found consumed due => ?cairn, cairnDue_iff c, fun record more queue works => cairnSignatureComplete_signs hk hc queue works,
    fun ring r index found notRequests notReplies => ⟨ringSpaceFreed_flushes hk hc index found notRequests notReplies, fun nobody => ?waits⟩⟩
  case freed =>
    have number : b.version = version := (by simpa using List.find?_some found : b.version = version ∧ _).1
    exact hold_erase_last (List.mem_of_find?_eq_some found) number held last
  case cairn =>
    refine ⟨fun a poisoned => tensorDigestComplete_poisoned hk hc hp found consumed due poisoned, fun clean => ?_⟩
    have done := tensorDigestComplete_clean hk hc hp found consumed due clean
    refine ⟨fun plain => ?_, fun signed nowhere warned => ?_, fun signed nowhere fresh => ?_, fun signed room space => ?_, fun signed room full => ?_⟩
    · rw [done, if_neg (by simp [plain]), if_neg (by simp [plain])]
    · rw [done, if_neg (by simp [nowhere]), if_neg (by simp [warned])]
    · rw [done, if_neg (by simp [nowhere]), if_pos (by simp [signed, fresh])]
    · rw [done, if_pos ⟨signed, room⟩, if_neg (Nat.not_le.2 space)]
    · rw [done, if_pos ⟨signed, room⟩, if_pos full]
  case waits =>
    rw [nobody]
    rfl

end Sys2Proof.Machine

/-! PROOFS. Rounds and rollouts (10 R292 to R298, R304): what the schedule leaves of a sampler, slots of a rollout's KV cache, the order of logits, and each command. -/

namespace Sys2Proof.Machine

/-! ## What the schedule leaves of a context's rounds (13 R364 to R377) -/

/-- What neither the cores nor the schedule change of a context: its versions, its rounds, and the prompts returned to it. -/
def Ctx.generation (c : Ctx) : Option Learner × List RoundRun × Nat × List PromptEntry := (c.learn, c.rounds, c.nextRound, c.returned)

def State.generation (s : State) (j : Nat) : Option (Option Learner × List RoundRun × Nat × List PromptEntry) := (s.ctx? j).map Ctx.generation

section
variable {s : State} {k : Nat} {c : Ctx} (j : Nat)

theorem generation_some (hc : s.ctx? k = some c) : s.generation k = some c.generation := congrArg (Option.map Ctx.generation) hc

theorem generation_of_ctxs {t : State} (same : t.ctxs = s.ctxs) : t.generation j = s.generation j := by
  unfold State.generation State.ctx?
  rw [same]

theorem putCtx_generation (same : s.generation k = some c.generation) : (s.putCtx k c).generation j = s.generation j := by
  by_cases here : j = k
  · rw [here, same]
    exact generation_some (ctx?_putCtx s k c)
  · unfold State.generation
    rw [ctx?_putCtx_other s k j c here]

theorem putCtx_generation_of {d : Ctx} (hc : s.ctx? k = some c) (same : d.generation = c.generation) : (s.putCtx k d).generation j = s.generation j :=
  putCtx_generation j ((generation_some hc).trans (congrArg some same.symm))

theorem updCtx_generation (s : State) (k : Nat) {f : Ctx → Ctx} (keeps : ∀ c, (f c).generation = c.generation) : (s.updCtx k f).generation j = s.generation j := by
  unfold State.updCtx
  split
  · rfl
  next c hc => exact putCtx_generation_of j hc (keeps c)

theorem saveOne_generation (s : State) (k l : Nat) : (s.saveOne k l).generation j = s.generation j := by
  unfold State.saveOne
  split
  · rfl
  next c hc =>
    split
    · rfl
    next x hx =>
      have saved : (s.saveCore c l x).1.ctx? k = some c := (congrArg (nfind · k) (saveCore_ctxs s c l x)).trans hc
      exact (putCtx_generation_of (d := c.putCore l (s.saveCore c l x).2) j saved rfl).trans (generation_of_ctxs j (saveCore_ctxs s c l x))

theorem park_generation (s : State) (k l : Nat) : (s.park k l).generation j = s.generation j := by
  refine (updCtx_generation j _ k fun c => ?_).trans (saveOne_generation j s k l)
  split <;> rfl

theorem saveAll_generation (s : State) (k : Nat) : (s.saveAll k).generation j = s.generation j := by
  unfold State.saveAll
  split
  · rfl
  · exact foldl_keeps (State.generation · j) _ (fun t (x : Nat × Core) => saveOne_generation j t k x.1) _ s

theorem restoreOne_generation (c : Ctx) (s : State) (l : Nat) : (c.restoreOne s l).generation = c.generation := by
  unfold Ctx.restoreOne
  split
  · rfl
  · dsimp only
    split <;> rfl

theorem restoreThe_generation (c : Ctx) (s : State) (p : Core → Bool) : (c.restoreThe s p).generation = c.generation := by
  refine foldl_keeps Ctx.generation _ (fun d x => ?_) _ c
  split
  · exact restoreOne_generation d s x.1
  · rfl

theorem startNow_generation (s : State) (k : Nat) (key : BitVec 128) (version : Nat) : (startNow s k key version).generation j = s.generation j := by
  unfold startNow
  split
  · rfl
  next c hc =>
    split
    · rfl
    · refine (foldl_keeps (State.generation · j) _ (fun t (y : Nat × Core) => park_generation j t k y.1) _ _).trans (putCtx_generation_of j hc ?_)
      exact restoreThe_generation c s _

theorem startProgram_generation (s : State) (k : Nat) (run : RunPhase) (key : BitVec 128) (version : Nat) :
    (startProgram s k run key version).generation j = s.generation j := by
  unfold startProgram
  split
  · rfl
  next c hc =>
    split
    · rfl
    · have put := putCtx_generation_of (d := { c with run := some run, deferred := some (key, version) }) j hc rfl
      dsimp only
      split
      · exact (startNow_generation j _ k key version).trans put
      · exact put

theorem replan_generation (s : State) (c : Ctx) : (s.replan c).generation = c.generation := by
  unfold State.replan
  split <;> rfl

theorem becomeRunning_generation (s : State) (k : Nat) (stored : Bool) : (s.becomeRunning k stored).generation j = s.generation j := by
  unfold State.becomeRunning
  split
  · rfl
  next c hc =>
    dsimp only
    generalize placed : List.foldl _ s _ = t
    have measured (i : Nat) : t.generation i = s.generation i := by
      rw [← placed]
      refine foldl_keeps (State.generation · i) _ (fun (t : State) (x : Nat × Ctx) => ?_) _ s
      have cleared := updCtx_generation i t x.1 (f := fun y => { y with asked := none }) (fun _ => rfl)
      split
      · exact cleared
      · exact cleared
    have put := (putCtx_generation (c := { (t.replan c) with status := .running, placed := t.st.now, resume := false, preempt := false, asked := none, lateFrom := none })
      j ((measured k).trans ((generation_some hc).trans (congrArg some (replan_generation t c).symm)))).trans (measured j)
    split
    · exact put
    · exact (startNow_generation j _ k _ _).trans put

theorem takeCores_generation (s : State) (k : Nat) : (s.takeCores k).generation j = s.generation j := by
  unfold State.takeCores
  split
  · rfl
  · split
    · have saved (l : List (Nat × Ctx)) : (l.foldl (fun (t : State) x => if x.2.status == .idle then t.saveAll x.1 else t) s).generation j = s.generation j := by
        refine foldl_keeps (State.generation · j) _ (fun t x => ?_) l s
        split
        · exact saveAll_generation j t x.1
        · rfl
      dsimp only
      split
      · exact saved _
      · exact (becomeRunning_generation j _ k false).trans (saved _)
    · rfl

theorem askToLeave_generation (s : State) (k overrunFrom : Nat) : (s.askToLeave k overrunFrom).generation j = s.generation j := by
  refine updCtx_generation j s k fun c => ?_
  split <;> rfl

theorem schedule_generation (s : State) : s.schedule.generation j = s.generation j := by
  unfold State.schedule State.settleCores
  dsimp only
  refine (foldl_keeps (State.generation · j) _ (fun t (x : Nat × Ctx) => takeCores_generation j t x.1) _ _).trans
    (foldl_keeps (State.generation · j) _ (fun (t : State) (x : Nat × Ctx) => ?_) _ s)
  split
  · split
    · rfl
    · split
      · exact askToLeave_generation j t x.1 _
      · rfl
  · exact updCtx_generation j t x.1 fun _ => rfl

theorem wake_generation (s : State) (k : Nat) : (s.wake k).generation j = s.generation j := by
  unfold State.wake State.becomeWaiting
  split
  · rfl
  next c hc =>
    split
    · exact (schedule_generation j _).trans (putCtx_generation_of j hc rfl)
    · rfl

end

/-! ## ROUND_START (10 R292, R293, 09 R278) -/

/-- The round that a context opens for its prompt entries. -/
def Ctx.newRound (c : Ctx) (es : List PromptEntry) : RoundRun :=
  let seed := roundSeed c.desc.job c.nextRound
  { number := c.nextRound, seed := seed, version := c.currentVersion, key := grainKey "VXGRKEY2" c.desc.job seed, rollouts := rolloutsOf es
    aborting := false, started := c.run.isNone }

theorem startRound_generation (s : State) (k : Nat) (c : Ctx) (r : RoundRun) : (startRound s k c r).generation k =
    some (c.learn, updWhere c.rounds (fun y => y.number == r.number) (fun y => { y with started := true }), c.nextRound, c.returned) := by
  unfold startRound
  rw [wake_generation, startProgram_generation]
  exact generation_some (ctx?_putCtx s k _)

/-- A new round holds the current version, takes its prompts, and starts its program where the cores have none. -/
theorem openRound_generation {s : State} {k : Nat} {c : Ctx} {g : GenTable} {es : List PromptEntry} (taken : (c.returned ++ s.promptsIn c).take g.perRound = es) (prompts : es ≠ [])
    (room : c.rounds.length < g.roundLimit) (started : ∀ y ∈ c.rounds, y.started = true) : (openRound s k c g).generation k =
      some (c.learn.map (fun l => l.hold c.currentVersion (fun hs => hs ++ [.round c.nextRound])), c.rounds ++ [c.newRound es], c.nextRound + 1,
        c.returned.drop es.length) := by
  unfold openRound
  dsimp only
  rw [taken, if_neg (by simp [prompts, room])]
  unfold State.addHold
  rw [updCtx_some _ _ _ _ (ctx?_putCtx _ _ _), putCtx_putCtx]
  simp only [ctx?_putCtx]
  cases idle : c.run.isNone with
  | true =>
    have others : updWhere c.rounds (fun y => y.number == c.nextRound) (fun y => { y with started := true }) = c.rounds := by
      refine (List.map_congr_left fun y there => ?_).trans (List.map_id c.rounds)
      have already : { y with started := true } = y := by rw [← started y there]
      dsimp only
      rw [already, ite_self]
      rfl
    rw [if_pos rfl, startRound_generation]
    unfold updWhere at others ⊢
    rw [List.map_append, others]
    simp [Ctx.newRound, idle]
  | false =>
    rw [if_neg nofun, wake_generation, generation_some (ctx?_putCtx _ _ _)]
    simp [Ctx.newRound, idle, Ctx.generation]

section
variable {s : State} {k : Nat} {c : Ctx} {g : GenTable} (hk : k < 64) (hc : s.ctx? k = some c) (hg : c.gen = some g)
include hk hc hg

theorem roundStart_waiting {r : RoundRun} (waits : c.rounds.find? (fun y => !y.started) = some r) (idle : c.run = none) :
    exec (.roundStart k) s = .next (startRound s k c r) := by
  refine (withCtx_some hk hc _).trans (congrArg _ ?_)
  simp only [hg, waits, idle, Option.isNone_none, if_true]

theorem roundStart_new (allStarted : c.rounds.find? (fun y => !y.started) = none) :
    exec (.roundStart k) s = .next (if s.doubtful = true then s else openRound s k c g) := by
  refine (withCtx_some hk hc _).trans (congrArg _ ?_)
  simp only [hg, allStarted]

end

/-! ## A rollout of a context -/

/-- The rollout of an index in the round of a number. -/
def Ctx.rollout? (c : Ctx) (round ix : Nat) : Option RolloutRun := (c.rounds.find? (fun y => y.number == round)).bind (fun r => r.rollouts.find? (fun y => y.index == ix))

/-- A rollout is put in its place. -/
def RoundRun.setRollout (r : RoundRun) (x : RolloutRun) : RoundRun := { r with rollouts := updWhere r.rollouts (fun y => y.index == x.index) (fun _ => x) }
def Ctx.setRollout (c : Ctx) (round : Nat) (x : RolloutRun) : Ctx := { c with rounds := updWhere c.rounds (fun r => r.number == round) (fun r => r.setRollout x) }

theorem setRollout_ctx? {s : State} {k : Nat} {c : Ctx} (hc : s.ctx? k = some c) (round : Nat) (x : RolloutRun) :
    (s.setRollout k round x).ctx? k = some (c.setRollout round x) := ctx?_updCtx _ _ _ c hc

theorem rollout?_setRollout {c : Ctx} {round ix : Nat} {x y : RolloutRun} (index : x.index = ix) (here : c.rollout? round ix = some y) :
    (c.setRollout round x).rollout? round ix = some x := by
  subst index
  unfold Ctx.rollout? at here ⊢
  obtain ⟨r, found, inRound⟩ := Option.bind_eq_some_iff.1 here
  have put : (c.setRollout round x).rounds.find? (fun r => r.number == round) = some (r.setRollout x) :=
    (find?_updWhere (p := fun r : RoundRun => r.number == round) (f := (·.setRollout x)) (fun _ same => same) c.rounds).trans (congrArg _ found)
  have inPlace : (r.setRollout x).rollouts.find? (fun y => y.index == x.index) = some x :=
    (find?_updWhere (p := fun y : RolloutRun => y.index == x.index) (fun _ _ => beq_self_eq_true _) r.rollouts).trans (congrArg _ inRound)
  rw [put, Option.bind_some, inPlace]

theorem rollout?_eq {c : Ctx} {round ix : Nat} {r : RoundRun} {x : RolloutRun} (hr : c.rounds.find? (fun y => y.number == round) = some r)
    (hx : r.rollouts.find? (fun y => y.index == ix) = some x) : c.rollout? round ix = some x := by
  unfold Ctx.rollout?
  rw [hr, Option.bind_some, hx]

theorem withRollout_found {s : State} {k : Nat} {c : Ctx} {g : GenTable} {round ix : Nat} {r : RoundRun} {x : RolloutRun} (hk : k < 64) (hc : s.ctx? k = some c)
    (hg : c.gen = some g) (hr : c.rounds.find? (fun y => y.number == round) = some r) (hx : r.rollouts.find? (fun y => y.index == ix) = some x)
    (f : Ctx → GenTable → RoundRun → RolloutRun → State) : withRollout k round ix s f = .next (f c g r x) := by
  refine (withCtx_some hk hc _).trans (congrArg _ ?_)
  simp only [hg, hr, hx]

/-- In a state, the rollout of an index has a property. -/
def State.RolloutHas (t : State) (k round ix : Nat) (p : RolloutRun → Prop) : Prop := ∃ c' r' x', t.ctx? k = some c' ∧ c'.rounds.find? (fun y => y.number == round) = some r'
  ∧ r'.rollouts.find? (fun y => y.index == ix) = some x' ∧ p x'

theorem rolloutHas_of {t : State} {k round ix : Nat} {d : Ctx} {y : RolloutRun} {p : RolloutRun → Prop} (hd : t.ctx? k = some d) (here : d.rollout? round ix = some y)
    (hp : p y) : t.RolloutHas k round ix p := by
  obtain ⟨r, found, inRound⟩ := Option.bind_eq_some_iff.1 here
  exact ⟨d, r, y, hd, found, inRound, hp⟩

/-! ## KV slots (10 R294) -/

/-- A rollout that has taken slots: so many of the pool, so many of the spill area. -/
def RolloutRun.grown (x : RolloutRun) (near spill : Nat) (slots : List (Bool × Nat)) : RolloutRun :=
  { x with slotsNear := x.slotsNear + near, slotsSpill := x.slotsSpill + spill, kvSlots := x.kvSlots ++ slots }

/-- A context whose rollouts have taken slots. -/
def Ctx.gave (c : Ctx) (near spill : Nat) : Ctx := { c with kvUsed := c.kvUsed + near, spillUsed := c.spillUsed + spill }

theorem takeSlot_near {s : State} {k : Nat} {c : Ctx} {g : GenTable} (x : RolloutRun) (hc : s.ctx? k = some c) (room : c.kvUsed < g.pool) :
    ∃ slot, (takeSlot s k g x).1.ctx? k = some (c.gave 1 0) ∧ (takeSlot s k g x).2 = x.grown 1 0 [slot] := by
  unfold takeSlot
  simp only [hc, Nat.not_le.2 room, decide_false, Bool.false_eq_true, if_false, store_ctx?, ctx?_putCtx]
  exact ⟨_, rfl, rfl⟩

theorem takeSlot_spill {s : State} {k : Nat} {c : Ctx} {g : GenTable} (x : RolloutRun) (hc : s.ctx? k = some c) (full : g.pool ≤ c.kvUsed) :
    ∃ slot, (takeSlot s k g x).1.ctx? k = some (c.gave 0 1) ∧ (takeSlot s k g x).2 = x.grown 0 1 [slot] := by
  unfold takeSlot
  simp only [hc, full, decide_true, if_true, store_ctx?, ctx?_putCtx]
  exact ⟨_, rfl, rfl⟩

/-- Of n slots, those that the pool still has are taken there, and the others in the spill area. -/
theorem takeSlotsGo_takes {k round : Nat} {g : GenTable} (n : Nat) {s : State} {c : Ctx} {x y : RolloutRun} (hc : s.ctx? k = some c) (here : c.rollout? round x.index = some y) :
    let near := min n (g.pool - c.kvUsed)
    ∃ d z slots, (takeSlotsGo k round g n s x).1.ctx? k = some d ∧ d.rollout? round x.index = some z ∧ d.kvUsed = c.kvUsed + near ∧ d.spillUsed = c.spillUsed + (n - near)
      ∧ slots.length = n ∧ (takeSlotsGo k round g n s x).2 = x.grown near (n - near) slots := by
  induction n generalizing s c x y with
  | zero => exact ⟨c, y, [], hc, here, by simp, by simp, rfl, by simp [takeSlotsGo, RolloutRun.grown]⟩
  | succ n ih =>
    have one : ∃ near spill slot, near + spill = 1 ∧ near = min 1 (g.pool - c.kvUsed) ∧ (takeSlot s k g x).1.ctx? k = some (c.gave near spill)
        ∧ (takeSlot s k g x).2 = x.grown near spill [slot] := by
      rcases Nat.lt_or_ge c.kvUsed g.pool with room | full
      · obtain ⟨slot, there, grown⟩ := takeSlot_near x hc room
        exact ⟨1, 0, slot, rfl, by omega, there, grown⟩
      · obtain ⟨slot, there, grown⟩ := takeSlot_spill x hc full
        exact ⟨0, 1, slot, rfl, by omega, there, grown⟩
    obtain ⟨near, spill, slot, whole, first, there, grown⟩ := one
    have share : min (n + 1) (g.pool - c.kvUsed) = near + min n (g.pool - (c.kvUsed + near)) := by omega
    have others : n + 1 - (near + min n (g.pool - (c.kvUsed + near))) = spill + (n - min n (g.pool - (c.kvUsed + near))) := by omega
    unfold takeSlotsGo
    simp only [grown, share, others]
    have put := setRollout_ctx? there round (x.grown near spill [slot])
    obtain ⟨d, z, slots, hd, hz, kvUsed, spillUsed, number, all⟩ := ih put (rollout?_setRollout (c := c.gave near spill) rfl here)
    refine ⟨d, z, slot :: slots, hd, hz, kvUsed.trans (Nat.add_assoc ..), spillUsed.trans (Nat.add_assoc ..), by simp [number], all.trans ?_⟩
    simp [RolloutRun.grown, Ctx.setRollout, Ctx.gave, Nat.add_assoc]

/-- Slots for the first n stretches are taken, and the rollout is put in its place. -/
theorem takeSlots_put {k round : Nat} {g : GenTable} (n : Nat) {s : State} {c : Ctx} {x y : RolloutRun} (hc : s.ctx? k = some c) (here : c.rollout? round x.index = some y)
    {f : RolloutRun → RolloutRun} (same : ∀ z, (f z).index = z.index) :
    let more := n - (x.slotsNear + x.slotsSpill)
    let near := min more (g.pool - c.kvUsed)
    ∃ d slots, ((takeSlots s k round g x n).1.setRollout k round (f (takeSlots s k round g x n).2)).ctx? k = some d ∧ d.kvUsed = c.kvUsed + near
      ∧ d.spillUsed = c.spillUsed + (more - near) ∧ slots.length = more ∧ d.rollout? round x.index = some (f (x.grown near (more - near) slots)) := by
  obtain ⟨d, z, slots, hd, hz, kvUsed, spillUsed, number, all⟩ := takeSlotsGo_takes (k := k) (g := g) (n - (x.slotsNear + x.slotsSpill)) hc here
  refine ⟨_, slots, setRollout_ctx? hd round _, kvUsed, spillUsed, number, ?_⟩
  unfold takeSlots
  rw [all]
  exact rollout?_setRollout (same _) hz

/-! ## Logits in their order (10 R295) -/

/-- The larger logit goes first, of equal ones that of the lower index. -/
def Leads (a b : Nat × W32) : Prop := orderKey b.2 < orderKey a.2 ∨ orderKey b.2 = orderKey a.2 ∧ a.1 ≤ b.1

theorem Leads.refl (a : Nat × W32) : Leads a a := .inr ⟨rfl, Nat.le_refl _⟩
theorem Leads.trans {a b c : Nat × W32} (h : Leads a b) (h' : Leads b c) : Leads a c := by
  unfold Leads at *
  omega

theorem mem_insertLogit (x : Nat × W32) (l : List (Nat × W32)) (z : Nat × W32) : z ∈ insertLogit x l ↔ z = x ∨ z ∈ l := by
  induction l with
  | nil => simp [insertLogit]
  | cons y r ih =>
    unfold insertLogit
    split
    · simp
    · split
      · simp
      · simp [ih, or_left_comm]

/-- The head of a list leads all of it. -/
def HeadLeads (l : List (Nat × W32)) : Prop := ∀ y ∈ l.head?, ∀ z ∈ l, Leads y z

theorem insertLogit_headLeads (x : Nat × W32) {l : List (Nat × W32)} (h : HeadLeads l) : HeadLeads (insertLogit x l) := by
  cases l with
  | nil =>
    rintro y ⟨⟩ z there
    rw [List.mem_singleton.1 there]
    exact .refl x
  | cons y r =>
    have led : ∀ z ∈ y :: r, Leads y z := h y rfl
    have before (first : Leads x y) : HeadLeads (x :: y :: r) := by
      rintro _ ⟨⟩ z there
      rcases List.mem_cons.1 there with rfl | there
      · exact .refl z
      · exact first.trans (led z there)
    unfold insertLogit
    split
    next larger => exact before (.inl larger)
    next notLarger =>
      split
      next equal => exact before (.inr ⟨equal.1, Nat.le_of_lt equal.2⟩)
      next notBefore =>
        have behind : Leads y x := by
          unfold Leads
          omega
        rintro _ ⟨⟩ z there
        rcases List.mem_cons.1 there with rfl | there
        · exact .refl z
        · rcases (mem_insertLogit x r z).1 there with rfl | there
          · exact behind
          · exact led z (List.mem_cons_of_mem _ there)

theorem sortLogits_spec (l : List (Nat × W32)) : HeadLeads (l.foldr insertLogit []) ∧ ∀ z, z ∈ l.foldr insertLogit [] ↔ z ∈ l := by
  induction l with
  | nil => exact ⟨nofun, fun z => .rfl⟩
  | cons a l ih => exact ⟨insertLogit_headLeads a ih.1, fun z => by rw [List.foldr_cons, mem_insertLogit, ih.2, List.mem_cons]⟩

/-- At temperature 0 the token is the lowest index of the largest logit. -/
theorem chooseToken_greedy {x : List W32} (logits : x ≠ []) (topk : Nat) (topp draw : W32) :
    let i := chooseToken x 0 topk topp draw
    i < x.length ∧ (∀ j, j < x.length → orderKey (x.getD j 0) ≤ orderKey (x.getD i 0)) ∧ ∀ j, j < i → orderKey (x.getD j 0) < orderKey (x.getD i 0) := by
  obtain ⟨led, members⟩ := sortLogits_spec (x.mapIdx (fun i v => (i, v)))
  have listed (j : Nat) (v : W32) : (j, v) ∈ sortLogits x ↔ ∃ inside : j < x.length, x[j] = v := by
    unfold sortLogits
    rw [members, List.mem_mapIdx]
    grind
  cases sorted : sortLogits x with
  | nil =>
    obtain ⟨v, r, rfl⟩ := List.exists_cons_of_ne_nil logits
    exact absurd ((listed 0 v).2 ⟨Nat.zero_lt_succ _, rfl⟩) (by simp [sorted])
  | cons y rest =>
    obtain ⟨i, v⟩ := y
    have chosen : chooseToken x 0 topk topp draw = i := by
      unfold chooseToken
      simp [sorted]
    obtain ⟨inside, rfl⟩ := (listed i v).1 (by simp [sorted])
    have first (j : Nat) (hj : j < x.length) : Leads (i, x[i]) (j, x[j]) := by
      refine led (i, x[i]) ?_ (j, x[j]) ((listed j _).2 ⟨hj, rfl⟩)
      exact congrArg List.head? sorted
    rw [chosen]
    unfold Leads at first
    refine ⟨inside, fun j hj => ?_, fun j hj => ?_⟩
    · rw [List.getD_eq_getElem _ _ hj, List.getD_eq_getElem _ _ inside]
      exact (first j hj).elim Nat.le_of_lt (fun equal => Nat.le_of_eq equal.1)
    · have hj' := hj.trans inside
      rw [List.getD_eq_getElem _ _ hj', List.getD_eq_getElem _ _ inside]
      exact (first j hj').elim id (fun equal => absurd equal.2 (Nat.not_le.2 hj))

/-! ## What a round's end leaves of the slots (10 R294, R298, R304) -/

/-- A round that is over leaves the list of rounds; slots in use stay as they were. -/
theorem closeRound_ctx? {s : State} {k : Nat} {c : Ctx} (hc : s.ctx? k = some c) (round : Nat) :
    ∃ d, (closeRound s k round).ctx? k = some d ∧ d.kvUsed = c.kvUsed ∧ d.spillUsed = c.spillUsed ∧ ∀ r ∈ d.rounds, r ∈ c.rounds := by
  unfold closeRound
  simp only [hc]
  split
  · exact ⟨c, hc, rfl, rfl, fun _ there => there⟩
  · split
    · obtain ⟨status, settled⟩ := settle_ctx? (ctx?_putCtx s k _)
      exact ⟨_, settled, rfl, rfl, fun _ there => List.mem_of_mem_filter there⟩
    · exact ⟨c, hc, rfl, rfl, fun _ there => there⟩

/-- Every rollout of its index in its round is the one that was put there. -/
theorem eq_of_setRollout {c : Ctx} {round : Nat} {x : RolloutRun} {r : RoundRun} (there : r ∈ (c.setRollout round x).rounds) (number : r.number = round) {y : RolloutRun}
    (inRound : y ∈ r.rollouts) (index : y.index = x.index) : y = x := by
  obtain ⟨r', -, rfl⟩ := List.mem_map.1 there
  by_cases here : r'.number = round
  · simp only [here, beq_self_eq_true, if_true] at inRound
    obtain ⟨y', -, rfl⟩ := List.mem_map.1 inRound
    by_cases same : y'.index = x.index
    · simp [same]
    · simp [same] at index
  · simp [here] at number

/-! ## Commands on a rollout (10 R294 to R298, R304) -/

/-- A rollout with the token of its next position (R295 to R297). -/
def RolloutRun.withToken (z : RolloutRun) (g : GenTable) (r : RoundRun) (logits : List W32) (pos : Nat) : RolloutRun :=
  let tok := chooseToken logits g.temperature g.topK g.topP (tokenDraw r.key g.drawTensor z.index pos)
  let n := z.tokens.length + 1
  { z with
    tokens := z.tokens ++ [BitVec.ofNat 32 tok]
    logProbs := z.logProbs ++ [tokenLogProb logits tok (if g.temperature = 0 then one32 else g.temperature)]
    ended := if g.stops.contains (BitVec.ofNat 32 tok) then 1 else if n = g.answerLimit ∨ 16777216 ≤ z.promptLen + n then 2 else 0 }

section
variable {s : State} {k round ix : Nat} {c : Ctx} {g : GenTable} {r : RoundRun} {x : RolloutRun} (hk : k < 64) (hc : s.ctx? k = some c) (hg : c.gen = some g)
  (hr : c.rounds.find? (fun y => y.number == round) = some r) (hx : r.rollouts.find? (fun y => y.index == ix) = some x)
include hk hc hg hr hx

theorem rolloutAdmission_admits (waits : x.admitted = false) (going : x.ended = 0) (stays : r.aborting = false) (room : c.reserved g + g.maxSlots x ≤ g.spillSlots) :
    let taken := takeSlots s k round g { x with admitted := true } (ceilDiv x.promptLen 8192)
    exec (.rolloutAdmission k round ix) s = .next (taken.1.setRollout k round taken.2) := by
  refine (withRollout_found hk hc hg hr hx _).trans (congrArg _ ?_)
  rw [if_neg (by simp [waits, going, stays]), if_pos room]

theorem rolloutAdmission_waits (full : g.spillSlots < c.reserved g + g.maxSlots x) : exec (.rolloutAdmission k round ix) s = .next s := by
  refine (withRollout_found hk hc hg hr hx _).trans (congrArg _ ?_)
  rw [if_neg (Nat.not_le.2 full), ite_self]

section
variable {logits : List W32} (admitted : x.admitted = true) (going : x.ended = 0) (whole : logits.length = g.vocab)
include admitted going whole

theorem tokenChoice_aborts (aborts : r.aborting = true) : exec (.tokenChoice k round ix logits) s = .next (s.setRollout k round { x with ended := 4 }) := by
  refine (withRollout_found hk hc hg hr hx _).trans (congrArg _ ?_)
  rw [if_neg (by simp [admitted, going, whole]), if_pos aborts]

theorem tokenChoice_nonFinite (stays : r.aborting = false) (bad : ∃ y ∈ logits, finite32 y = false) : exec (.tokenChoice k round ix logits) s =
    .next ((s.setRollout k round { x with ended := 3 }).raise { level := 1, source := 6, ctx := some k }) := by
  refine (withRollout_found hk hc hg hr hx _).trans (congrArg _ ?_)
  rw [if_neg (by simp [admitted, going, whole]), if_neg (by simp [stays]), if_pos (by simpa using bad)]

theorem tokenChoice_chooses (stays : r.aborting = false) (finite : ∀ y ∈ logits, finite32 y = true) :
    let pos := x.promptLen + x.tokens.length
    let taken := takeSlots s k round g x (pos / 8192 + 1)
    exec (.tokenChoice k round ix logits) s = .next (taken.1.setRollout k round (taken.2.withToken g r logits pos)) := by
  refine (withRollout_found hk hc hg hr hx _).trans (congrArg _ ?_)
  rw [if_neg (by simp [admitted, going, whole]), if_neg (by simp [stays]), if_neg (by simpa using finite)]
  rfl

end

theorem rolloutEnd_records (done : x.ended ≠ 0) (fresh : x.recorded = false) :
    let tokens := s.promptBytes x ++ bytes32 x.tokens
    let freed := s.spend.spend.putCtx k { c with kvUsed := c.kvUsed - x.slotsNear, spillUsed := c.spillUsed - x.slotsSpill }
    let written := ((freed.store s.freeAddr tokens).store s.spend.freeAddr (bytes32 x.logProbs)).setRollout k round
      { x with recorded := true, slotsNear := 0, slotsSpill := 0, kvSlots := [] }
    exec (.rolloutEnd k round ix) s = .next (closeRound (written.produce k 3 (rolloutRecord g r x s.freeAddr s.spend.freeAddr (sha3 tokens))) k round) := by
  refine (withRollout_found hk hc hg hr hx _).trans (congrArg _ ?_)
  rw [if_neg (by simp [done, fresh])]

theorem rolloutEnd_frees (done : x.ended ≠ 0) (fresh : x.recorded = false) : ∃ t d, exec (.rolloutEnd k round ix) s = .next t ∧ t.ctx? k = some d
    ∧ d.kvUsed = c.kvUsed - x.slotsNear ∧ d.spillUsed = c.spillUsed - x.slotsSpill
    ∧ ∀ r' ∈ d.rounds, r'.number = round → ∀ y ∈ r'.rollouts, y.index = ix → y.recorded = true ∧ y.kvSlots = [] := by
  have index : x.index = ix := by simpa using List.find?_some hx
  have freed := ctx?_putCtx s.spend.spend k { c with kvUsed := c.kvUsed - x.slotsNear, spillUsed := c.spillUsed - x.slotsSpill }
  obtain ⟨rings, produced⟩ := produce_ctx? 3 (rolloutRecord g r x s.freeAddr s.spend.freeAddr (sha3 (s.promptBytes x ++ bytes32 x.tokens)))
    (setRollout_ctx? ((store_ctx? _ s.spend.freeAddr (bytes32 x.logProbs) k).trans ((store_ctx? _ s.freeAddr (s.promptBytes x ++ bytes32 x.tokens) k).trans freed)) round
      { x with recorded := true, slotsNear := 0, slotsSpill := 0, kvSlots := [] })
  obtain ⟨d, hd, kvUsed, spillUsed, rounds⟩ := closeRound_ctx? produced round
  refine ⟨_, d, rolloutEnd_records hk hc hg hr hx done fresh, hd, kvUsed, spillUsed, fun r' there number y inRound same => ?_⟩
  rw [eq_of_setRollout (rounds r' there) number inRound (same.trans index.symm)]
  exact ⟨rfl, rfl⟩

end

/-- Settles O37: a round by what the schedule leaves of it, a rollout by the place that each command puts it in. -/
theorem rolloutsRun : Obligations.RolloutsRun := by
  unfold Obligations.RolloutsRun
  intro s k c g hk hc hg
  refine ⟨fun r waits idle => roundStart_waiting hk hc hg waits idle, fun allStarted prompts room => ?opens, fun round ix r x hr hx => ?rollouts⟩
  case opens =>
    have new := roundStart_new hk hc hg allStarted
    refine ⟨fun doubtful => by rw [new, if_pos doubtful], fun sure => ⟨openRound s k c g, ?_⟩⟩
    have opened := openRound_generation (s := s) (k := k) (g := g) rfl prompts room (fun y there => by simpa using List.find?_eq_none.1 allStarted y there)
    obtain ⟨d, hd, same⟩ := Option.map_eq_some_iff.1 opened
    obtain ⟨learn, rounds, next, returned⟩ : _ ∧ _ ∧ _ ∧ _ := by simpa only [Ctx.generation, Prod.mk.injEq] using same
    exact ⟨d, by rw [new, if_neg (by simp [sure])], hd, next, returned, learn, _, rounds, rfl, rfl, rfl, rfl, rfl, rfl⟩
  case rollouts =>
    have index : x.index = ix := by simpa using List.find?_some hx
    have here : c.rollout? round ix = some x := rollout?_eq hr hx
    refine ⟨fun waits going stays room => ?admits, fun waits full => rolloutAdmission_waits hk hc hg hr hx full, fun logits admitted going whole => ?token,
      fun done fresh => rolloutEnd_frees hk hc hg hr hx done fresh⟩
    case admits =>
      obtain ⟨d, slots, hd, kvUsed, spillUsed, number, put⟩ := takeSlots_put (g := g) (ceilDiv x.promptLen 8192) (x := { x with admitted := true }) hc (index ▸ here)
        (f := id) (fun _ => rfl)
      refine ⟨_, d, rolloutAdmission_admits hk hc hg hr hx waits going stays room, hd, kvUsed, spillUsed, rolloutHas_of hd (index ▸ put) ?_⟩
      exact ⟨rfl, rfl, rfl, by simp [RolloutRun.grown, number], rfl, going⟩
    case token =>
      refine ⟨tokenChoice_aborts hk hc hg hr hx admitted going whole, tokenChoice_nonFinite hk hc hg hr hx admitted going whole, fun stays finite => ⟨?_, fun greedy nonempty => ?_⟩⟩
      · obtain ⟨d, slots, hd, -, -, -, put⟩ := takeSlots_put (g := g) ((x.promptLen + x.tokens.length) / 8192 + 1) hc (index ▸ here)
          (f := fun z => z.withToken g r logits (x.promptLen + x.tokens.length)) (fun _ => rfl)
        refine ⟨_, tokenChoice_chooses hk hc hg hr hx admitted going whole stays finite, rolloutHas_of hd (index ▸ put) ?_⟩
        refine ⟨rfl, rfl, fun stop => if_pos stop, fun noStop limit => ?_, fun noStop below short => ?_⟩
        · exact (if_neg (Bool.eq_false_iff.1 noStop)).trans (if_pos limit)
        · exact (if_neg (Bool.eq_false_iff.1 noStop)).trans (if_neg (by simpa using ⟨below, short⟩))
      · rw [greedy]
        exact chooseToken_greedy nonempty _ _ _

end Sys2Proof.Machine

/-! PROOFS. What publication rests on (09 R254 to R257, 10 R302 to R304): what a release leaves of a context and of its versions, how a version arrives and becomes
current, and the target of a list entry. -/

namespace Sys2Proof.Machine

/-! ## The first free buffer (09 R254) -/

theorem updAt_append {α : Type} (before : List α) (a : α) (after : List α) (f : α → α) : updAt (before ++ a :: after) before.length f = before ++ f a :: after := by
  induction before with
  | nil => rfl
  | cons b before ih => exact congrArg (b :: ·) ih

theorem findIdx?_append {α : Type} {p : α → Bool} {before after : List α} {a : α} (first : ∀ b ∈ before, p b = false) (found : p a = true) :
    (before ++ a :: after).findIdx? p = some before.length := by
  induction before with
  | nil => simp [List.findIdx?_cons, found]
  | cons b before ih =>
    rw [List.cons_append, List.findIdx?_cons, first b List.mem_cons_self, ih fun x there => first x (List.mem_cons_of_mem b there)]
    rfl

/-- The first free buffer becomes pending in its place. -/
theorem pend_first {l : Learner} {f : VersionBuf} (found : l.buffers.find? (fun y => y.state == .free) = some f) (v : Nat) : ∃ before after,
    l.buffers = before ++ f :: after ∧ l.pend v = { l with buffers := before ++ { f with state := .pending, version := v, digest := none } :: after } := by
  obtain ⟨free, before, after, split, first⟩ := List.find?_eq_some_iff_append.1 found
  have place : l.buffers.findIdx? (fun y => y.state == .free) = some before.length := by
    rw [split]
    exact findIdx?_append (fun b there => by simpa using first b there) free
  refine ⟨before, after, split, ?_⟩
  unfold Learner.pend
  simp only [place]
  rw [split, updAt_append]

theorem pend_full {l : Learner} (full : l.buffers.find? (fun y => y.state == .free) = none) (v : Nat) : l.pend v = l := by
  have place : l.buffers.findIdx? (fun y => y.state == .free) = none := List.findIdx?_eq_none_iff.2 (fun y there => by simpa using List.find?_eq_none.1 full y there)
  unfold Learner.pend
  simp only [place]

/-- A buffer is as it was, or is the one that has become pending. -/
theorem mem_pend {l : Learner} {v : Nat} {y : VersionBuf} (there : y ∈ (l.pend v).buffers) : y ∈ l.buffers ∨ y.state = .pending ∧ y.version = v := by
  cases found : l.buffers.find? (fun y => y.state == .free) with
  | none => exact .inl (pend_full found v ▸ there)
  | some f =>
    obtain ⟨before, after, split, pended⟩ := pend_first found v
    rw [pended] at there
    rw [split]
    rcases List.mem_append.1 there with there | there
    · exact .inl (List.mem_append_left _ there)
    · rcases List.mem_cons.1 there with rfl | there
      · exact .inr ⟨rfl, rfl⟩
      · exact .inl (List.mem_append_right _ (List.mem_cons_of_mem _ there))

/-! ## What a release leaves (09 R255, R257) -/

/-- The version of a buffer is the current one, or one that is held. -/
def VersionBuf.settled (b : VersionBuf) : Prop := b.state = .current ∨ b.state = .held

/-- A context in which steps may have been granted pending versions: its steps and free buffers alone differ. -/
structure Ctx.Granted (c d : Ctx) : Prop where
  rest : ∃ learn steps, d = { c with learn := learn, steps := steps }
  versions : ∀ m, d.learn = some m → ∃ l, c.learn = some l ∧ ∀ y ∈ m.buffers, y.settled → y ∈ l.buffers

theorem Ctx.Granted.refl (c : Ctx) : c.Granted c := ⟨⟨c.learn, c.steps, rfl⟩, fun m hm => ⟨m, hm, fun _ there _ => there⟩⟩

theorem Ctx.Granted.trans {c d e : Ctx} (h : c.Granted d) (h' : d.Granted e) : c.Granted e where
  rest := by
    obtain ⟨learn, steps, rfl⟩ := h.rest
    obtain ⟨learn', steps', rfl⟩ := h'.rest
    exact ⟨learn', steps', rfl⟩
  versions m hm := by
    obtain ⟨n, hn, kept'⟩ := h'.versions m hm
    obtain ⟨l, hl, kept⟩ := h.versions n hn
    exact ⟨l, hl, fun y there settled => kept y (kept' y there settled) settled⟩

theorem tryAllocate_granted {s : State} {k : Nat} {c : Ctx} (hc : s.ctx? k = some c) (cmd : Nat) : ∃ d, (tryAllocate s k cmd).ctx? k = some d ∧ c.Granted d := by
  unfold tryAllocate State.onStep State.step?
  rw [hc]
  dsimp only
  cases c.steps.find? (fun x => x.cmd == cmd) with
  | none => exact ⟨c, hc, .refl c⟩
  | some st =>
    dsimp only [Option.map_some]
    split
    · exact ⟨c, hc, .refl c⟩
    next l hl =>
      split
      · refine ⟨_, ctx?_updCtx _ k _ _ (ctx?_putCtx s k _), ⟨⟨_, _, rfl⟩, fun m hm => ⟨l, hl, fun y there settled => ?_⟩⟩⟩
        obtain rfl : l.pend _ = m := Option.some.inj hm
        exact (mem_pend there).resolve_right fun ⟨pending, _⟩ => by simp [VersionBuf.settled, pending] at settled
      · exact ⟨c, hc, .refl c⟩

theorem tryAllocate_keeps {β : Type} (g : State → β) {s : State} {k : Nat} (put : ∀ t d, g (t.putCtx k d) = g t) (cmd : Nat) : g (tryAllocate s k cmd) = g s := by
  refine onStep_keeps g k cmd fun c st => ?_
  split
  · rfl
  · split
    · dsimp only
      unfold State.setStep
      rw [updCtx_some _ _ _ _ (ctx?_putCtx _ _ _)]
      exact (put _ _).trans (put _ _)
    · rfl

theorem afterRelease_granted {s : State} {k : Nat} {c : Ctx} (hc : s.ctx? k = some c) : ∃ d, (s.afterRelease k).ctx? k = some d ∧ c.Granted d := by
  unfold State.afterRelease
  simp only [hc]
  suffices all : ∀ (steps : List StepRun) (t : State) (d : Ctx), t.ctx? k = some d → c.Granted d →
      ∃ e, (steps.foldl (fun t st => tryAllocate t k st.cmd) t).ctx? k = some e ∧ c.Granted e from all c.steps s c hc (.refl c)
  intro steps
  induction steps with
  | nil => exact fun t d hd granted => ⟨d, hd, granted⟩
  | cons st steps ih =>
    intro t d hd granted
    obtain ⟨e, he, more⟩ := tryAllocate_granted hd st.cmd
    exact ih _ e he (granted.trans more)

theorem afterRelease_keeps {β : Type} (g : State → β) {s : State} {k : Nat} (put : ∀ t d, g (t.putCtx k d) = g t) : g (s.afterRelease k) = g s := by
  unfold State.afterRelease
  split
  · rfl
  · exact foldl_keeps g _ (fun t (st : StepRun) => tryAllocate_keeps g put st.cmd) _ s

/-! ## Counts of publications (09 R255) -/

theorem hold_erase_publication {l : Learner} {v : Nat} {y : VersionBuf} (there : y ∈ (l.hold v (fun hs => hs.erase .publication)).buffers) (settled : y.settled) :
    ∃ b ∈ l.buffers, b.settled ∧ b.version = y.version ∧ y.holders.count .publication ≤ b.holders.count .publication
      ∧ (y.version = v → y.holders.count .publication = b.holders.count .publication - 1) := by
  obtain ⟨b, inside, rfl⟩ := List.mem_map.1 there
  refine ⟨b, inside, ?_⟩
  dsimp only at settled ⊢
  split at settled
  next named =>
    rw [if_pos named]
    split at settled
    · simp [VersionBuf.settled] at settled
    next kept =>
      rw [if_neg kept]
      exact ⟨settled, rfl, (List.erase_sublist ..).count_le _, fun _ => List.count_erase_self⟩
  next other =>
    rw [if_neg other]
    exact ⟨settled, rfl, Nat.le_refl _, fun same => absurd ⟨same, settled⟩ other⟩

/-- Of the versions of a list, one count of publication is taken at least. -/
theorem foldl_hold_publication (bs : List VersionBuf) {l : Learner} {y : VersionBuf}
    (there : y ∈ (bs.foldl (fun l b => l.hold b.version (fun hs => hs.erase .publication)) l).buffers) (settled : y.settled) :
    ∃ b ∈ l.buffers, b.version = y.version ∧ y.holders.count .publication ≤ b.holders.count .publication
      ∧ ((∃ x ∈ bs, x.version = y.version) → y.holders.count .publication ≤ b.holders.count .publication - 1) := by
  suffices strong : ∃ b ∈ l.buffers, b.settled ∧ b.version = y.version ∧ y.holders.count .publication ≤ b.holders.count .publication
      ∧ ((∃ x ∈ bs, x.version = y.version) → y.holders.count .publication ≤ b.holders.count .publication - 1) by
    obtain ⟨b, inside, -, rest⟩ := strong
    exact ⟨b, inside, rest⟩
  induction bs generalizing l with
  | nil => exact ⟨y, there, settled, rfl, Nat.le_refl _, fun ⟨x, bad, _⟩ => absurd bad List.not_mem_nil⟩
  | cons a bs ih =>
    obtain ⟨b, inside, bSettled, version, fewer, taken⟩ := ih there
    obtain ⟨b', inside', bSettled', version', fewer', taken'⟩ := hold_erase_publication inside bSettled
    refine ⟨b', inside', bSettled', version'.trans version, fewer.trans fewer', fun ⟨x, named, same⟩ => ?_⟩
    rcases List.mem_cons.1 named with rfl | named
    · exact fewer.trans (Nat.le_of_eq (taken' (version.trans same.symm)))
    · exact (taken ⟨x, named, same⟩).trans (Nat.sub_le_sub_right fewer' 1)

/-! ## The end of a publication (10 R303, 09 R255) -/

/-- A context in which no version is on its way to a target any more, and the version that was has lost its publication's count unless it goes elsewhere. -/
def Ctx.Released (c d : Ctx) (l : Learner) (p : Publication) : Prop := (∀ y ∈ d.pubs, y.entry = p.entry → y.flight = 0)
  ∧ ((∀ y ∈ c.pubs, y.waiting ≠ p.flight ∧ (y.entry ≠ p.entry → y.flight ≠ p.flight)) → p.waiting ≠ p.flight →
    (∀ y ∈ l.buffers, y.holders.count .publication ≤ 1) → ∀ m, d.learn = some m → ∀ y ∈ m.buffers, y.version = p.flight → y.state = .current ∨ y.state = .held → .publication ∉ y.holders)

/-- The publications of a context when one of them is over. -/
def Ctx.pubsAfter (c : Ctx) (p : Publication) : List Publication :=
  updWhere c.pubs (fun y => y.entry == p.entry) (fun _ => { p with flight := 0, sends := 0, cmds := [] })

theorem mem_pubsAfter {c : Ctx} {p y : Publication} (there : y ∈ c.pubsAfter p) : y = { p with flight := 0, sends := 0, cmds := [] } ∨ y ∈ c.pubs ∧ y.entry ≠ p.entry := by
  obtain ⟨x, inside, rfl⟩ := List.mem_map.1 there
  split
  next => exact .inl rfl
  next other => exact .inr ⟨inside, by simpa using other⟩

/-- A learner whose versions that no publication names have lost the count of theirs. -/
def Ctx.unheld (c : Ctx) (l : Learner) : Learner :=
  (l.buffers.filter (fun b => b.holders.contains .publication && !c.publishing b.version)).foldl (fun l b => l.hold b.version (fun hs => hs.erase .publication)) l

theorem endHolds_unheld {s : State} {k : Nat} {c : Ctx} {l : Learner} (hc : s.ctx? k = some c) (hl : c.learn = some l) :
    (s.endHolds k).ctx? k = some { c with learn := some (c.unheld l) } := (ctx?_updCtx _ _ _ c hc).trans (by rw [hl]; rfl)

theorem unheld_released {c : Ctx} {l : Learner} {v : Nat} (unnamed : c.publishing v = false) (counts : ∀ y ∈ l.buffers, y.holders.count .publication ≤ 1) {y : VersionBuf}
    (there : y ∈ (c.unheld l).buffers) (version : y.version = v) (settled : y.settled) : .publication ∉ y.holders := by
  obtain ⟨b, inside, same, fewer, taken⟩ := foldl_hold_publication _ there settled
  have one := counts b inside
  refine List.count_eq_zero.1 (Nat.le_zero.1 ?_)
  by_cases held : .publication ∈ b.holders
  · have listed : b ∈ l.buffers.filter (fun b => b.holders.contains .publication && !c.publishing b.version) := by
      simp [inside, held, same.trans version, unnamed]
    exact (taken ⟨b, listed, same⟩).trans (Nat.sub_le_of_le_add one)
  · rw [List.count_eq_zero.2 held] at fewer
    exact fewer

section
variable {s : State} {k : Nat} (p : Publication) (code : Nat)

/-- Completed commands leave no trace in contexts and memory. -/
theorem completes_keeps {β : Type} (g : State → β) (done : ∀ t id, g (State.complete t id code 0 []) = g t) (ids : List Nat) (t : State) :
    g (ids.foldl (fun t id => t.complete id code 0 []) t) = g t := foldl_keeps g _ done ids t

theorem endPublication_keeps {β : Type} (g : State → β) (done : ∀ t id, g (State.complete t id code 0 []) = g t) (put : ∀ t d, g (State.putCtx t k d) = g t) :
    g (endPublication s k p code) = g s := by
  have upd (t : State) (f : Ctx → Ctx) : g (t.updCtx k f) = g t := by
    unfold State.updCtx
    split
    · rfl
    · exact put _ _
  have released : g (((s.setPub k { p with flight := 0, sends := 0, cmds := [] }).endHolds k).afterRelease k) = g s :=
    (afterRelease_keeps g put).trans ((upd _ _).trans (upd _ _))
  unfold endPublication
  dsimp only
  split
  · exact released
  · exact (completes_keeps code g done _ _).trans released

@[simp] theorem endPublication_mem : (endPublication s k p code).mem = s.mem := endPublication_keeps p code State.mem (fun _ _ => complete_mem ..) (fun _ _ => rfl)

theorem endPublication_other {j : Nat} (other : j ≠ k) : (endPublication s k p code).ctx? j = s.ctx? j :=
  endPublication_keeps p code (State.ctx? · j) (fun t id => congrArg (nfind · j) (complete_ctxs t id code 0 [])) (fun t d => ctx?_putCtx_other t k j d other)

theorem endPublication_released {c : Ctx} {l : Learner} (hc : s.ctx? k = some c) (hl : c.learn = some l) (flying : p.flight ≠ 0) :
    ∃ d, (endPublication s k p code).ctx? k = some d ∧ c.Released d l p := by
  have ended : (s.setPub k { p with flight := 0, sends := 0, cmds := [] }).ctx? k = some { c with pubs := c.pubsAfter p } := ctx?_updCtx _ _ _ c hc
  obtain ⟨d, hd, granted⟩ := afterRelease_granted (endHolds_unheld ended hl)
  have pubs : d.pubs = c.pubsAfter p := by
    obtain ⟨learn, steps, rfl⟩ := granted.rest
    rfl
  refine ⟨d, ?_, fun y there same => ?_, fun unnamed waits counts m hm y there version settled => ?_⟩
  · unfold endPublication
    dsimp only
    rw [hd]
    exact (completes_keeps code (State.ctx? · k) (fun t id => congrArg (nfind · k) (complete_ctxs t id code 0 [])) _ _).trans hd
  · rcases mem_pubsAfter (pubs ▸ there) with rfl | ⟨-, other⟩
    · rfl
    · exact absurd same other
  · obtain ⟨n, hn, kept⟩ := granted.versions m hm
    obtain rfl := Option.some.inj hn
    refine unheld_released ?_ counts (kept y there settled) version settled
    refine Bool.eq_false_iff.2 fun named => ?_
    obtain ⟨q, inside, goes⟩ := List.any_eq_true.1 named
    rcases mem_pubsAfter inside with rfl | ⟨inside, other⟩
    · simp [Ne.symm flying, waits] at goes
    · simp [(unnamed q inside).1, (unnamed q inside).2 other] at goes

end

/-! ## A version arrives and becomes current (10 R302, R304) -/

/-- A learner whose first free buffer has taken a version that arrives with its tracked-state copy. -/
def Learner.took (l : Learner) (v : Nat) (tracked : List (List Byte)) : Learner :=
  { l.pend v with buffers := (l.pend v).buffers.map (fun y => if y.state == .pending then { y with tracked := tracked } else y) }

section
variable {l : Learner} {f : VersionBuf} (v : Nat) (tracked : List (List Byte))

theorem took_version (idle : ∀ y ∈ l.buffers, y.state ≠ .pending) {y : VersionBuf} (there : y ∈ (l.took v tracked).buffers) (pending : y.state = .pending) : y.version = v := by
  obtain ⟨x, inside, rfl⟩ := List.mem_map.1 there
  have same (y : VersionBuf) (is : y = if x.state == .pending then { x with tracked := tracked } else x) : y.state = x.state ∧ y.version = x.version := by
    subst is
    split <;> exact ⟨rfl, rfl⟩
  obtain ⟨state, version⟩ := same _ rfl
  rw [state] at pending
  rw [version]
  rcases mem_pend inside with old | new
  · exact absurd pending (idle x old)
  · exact new.2

theorem took_pending (found : l.buffers.find? (fun y => y.state == .free) = some f) :
    ∃ y ∈ (l.took v tracked).buffers, y.addr = f.addr ∧ y.state = .pending ∧ y.version = v ∧ y.tracked = tracked := by
  obtain ⟨before, after, -, pended⟩ := pend_first found v
  unfold Learner.took
  rw [pended]
  exact ⟨{ f with state := .pending, version := v, digest := none, tracked := tracked }, by simp, rfl, rfl, rfl, rfl⟩

end

/-- Buffers of which each is promoted: what was pending is current, and nothing is pending. -/
theorem promoted_current {c : Ctx} {l m : Learner} {v : Nat} (hm : c.learn = some m) {f : VersionBuf → VersionBuf} (promoted : ∀ b : VersionBuf, b.Promoted (f b))
    (buffers : m.buffers = l.buffers.map f) (one : ∃ y ∈ l.buffers, y.state = .pending) (same : ∀ y ∈ l.buffers, y.state = .pending → y.version = v) :
    c.currentVersion = v ∧ c.nonePending := by
  obtain ⟨b, there, pending⟩ := one
  refine ⟨currentVersion_eq hm ⟨f b, buffers ▸ List.mem_map_of_mem there, (promoted b).current.2 pending⟩ fun y mem isCurrent => ?_, fun m' hm' y mem => ?_⟩
  · obtain ⟨x, inside, rfl⟩ := List.mem_map.1 (buffers ▸ mem)
    have pending := (promoted x).current.1 isCurrent
    exact ((promoted x).version pending).trans (same x inside pending)
  · obtain rfl : m = m' := Option.some.inj (hm.symm.trans hm')
    obtain ⟨x, -, rfl⟩ := List.mem_map.1 (buffers ▸ mem)
    exact (promoted x).notPending

theorem withDigest_republished (b : VersionBuf) (digest : List Byte) : b.Republished (if b.state == .current then { b with digest := some digest } else b) := by
  split
  · exact ⟨rfl, .rfl, .rfl, fun _ => rfl, fun held fence => ⟨held, rfl, fence⟩⟩
  · exact .refl b

/-- The pending version of a rollout context becomes current, and none is pending (10 R302). -/
theorem makeVersionCurrent_ctx? {s : State} {k v : Nat} {c : Ctx} {l : Learner} (hc : s.ctx? k = some c) (hl : c.learn = some l) (one : ∃ y ∈ l.buffers, y.state = .pending)
    (same : ∀ y ∈ l.buffers, y.state = .pending → y.version = v) (digest : List Byte) :
    ∃ d, (makeVersionCurrent s k digest).ctx? k = some d ∧ d.currentVersion = v ∧ d.nonePending := by
  obtain ⟨f, promoted, buffers⟩ := makeCurrent_promotes l ((l.buffers.find? (fun b => b.state == .pending)).elim [] (·.tracked))
  refine ⟨_, ctx?_updCtx _ _ _ c hc, ?_⟩
  refine promoted_current (l := l) (f := fun b => if (f b).state == .current then { f b with digest := some digest } else f b) (congrArg (Option.map _) hl)
    (fun b => (promoted b).republished (withDigest_republished (f b) digest)) ?_ one same
  dsimp only
  rw [buffers, List.map_map]
  rfl

/-- What a write does does not depend on the contexts. -/
theorem storePart_withCtxs (s : State) (x : List (Nat × Ctx)) (a : Nat) (b : List Byte) (p : Bool) :
    ({ s with ctxs := x } : State).storePart a b p = { s.storePart a b p with ctxs := x } := by
  have withdrawn : ({ s with ctxs := x } : State).withdrawn a = s.withdrawn a := rfl
  have farOut : ({ s with ctxs := x } : State).farOut a = s.farOut a := rfl
  have lostAt : ({ s with ctxs := x } : State).lostAt a = s.lostAt a := rfl
  unfold State.storePart
  simp only [withdrawn, farOut, lostAt]
  split
  · rfl
  · split <;> rfl

theorem storeGo_withCtxs (n : Nat) (s : State) (x : List (Nat × Ctx)) (a : Nat) (b : List Byte) (p : Bool) :
    State.storeGo n { s with ctxs := x } a b p = { State.storeGo n s a b p with ctxs := x } := by
  induction n generalizing s a b with
  | zero => rfl
  | succ n ih =>
    unfold State.storeGo
    split
    · rfl
    · dsimp only
      rw [storePart_withCtxs, ih]

theorem store_mem_congr {s t : State} (same : t = { s with ctxs := t.ctxs }) (a : Nat) (b : List Byte) : (t.store a b).mem = (s.store a b).mem := by
  have moved := congrArg State.mem (storeGo_withCtxs (b.length / 64 + 2) s t.ctxs a b false)
  rw [same]
  exact moved

theorem nothing_pending {bs : List VersionBuf} (idle : ∀ y ∈ bs, y.state ≠ .pending) : bs.any (fun b => b.state == .pending) = false :=
  List.any_eq_false.2 (fun y there => by simpa using idle y there)

/-- A version goes into the first free buffer of a target that has none pending (10 R302). -/
theorem deliverVersion_free {s : State} {k : Nat} {c : Ctx} {l : Learner} {f : VersionBuf} (hc : s.ctx? k = some c) (hl : c.learn = some l)
    (idle : ∀ y ∈ l.buffers, y.state ≠ .pending) (found : l.buffers.find? (fun y => y.state == .free) = some f) (v : Nat) (bytes : List Byte) (tracked : List (List Byte)) :
    deliverVersion s k v bytes tracked = some ((s.putCtx k { c with learn := some (l.took v tracked) }).store f.addr bytes) := by
  unfold deliverVersion
  simp only [hc, hl, nothing_pending idle, found]
  rfl

/-! ## The target of a list entry (10 R302, 12 R358) -/

/-- A test that a number's record fails before and after a change finds what it found. -/
theorem find?_nset {α : Type} {m : List (Nat × α)} {k : Nat} {v w : α} {p : Nat × α → Bool} (there : nfind m k = some v) (before : p (k, v) = false) (after : p (k, w) = false) :
    (nset m k w).find? p = m.find? p := by
  induction m with
  | nil => cases there
  | cons a m ih =>
    unfold nfind at there
    unfold nset
    split
    · rw [List.find?_cons_of_neg (by simp [after])]
    · split
      next same =>
        rw [if_pos same.symm] at there
        have this : a = (k, v) := Prod.ext same.symm (Option.some.inj there)
        rw [this, List.find?_cons_of_neg (by simp [after]), List.find?_cons_of_neg (by simp [before])]
      next other =>
        rw [if_neg (Ne.symm other)] at there
        rw [List.find?_cons, List.find?_cons, ih there]

/-- A context that is no rollout context is no target, and what becomes of its publications changes no target. -/
theorem setPub_pubTarget {s : State} {k : Nat} {c : Ctx} (hc : s.ctx? k = some c) (learner : c.desc.kind ≠ 3) (p : Publication) (e : Nat) :
    (s.setPub k p).pubTarget c e = s.pubTarget c e := by
  unfold State.setPub State.pubTarget State.resident
  rw [updCtx_some _ _ _ c hc]
  simp only [List.find?_filter]
  exact find?_nset hc (by simp [learner]) (by simp [learner])

end Sys2Proof.Machine

/-! PROOFS. The commands of publication (10 R302, R303): versions that go into flight, that are checked at their targets, and that come from another module. -/

namespace Sys2Proof.Machine

/-! ## Sending again (10 R303) -/

section
variable {s : State} {k : Nat} {c : Ctx} {l : Learner} {b : VersionBuf} {p : Publication}

theorem resend_fails (again : 2 ≤ p.sends) : resend s k c l b p = failPublication s k c p := if_neg (Nat.not_lt.2 again)

variable (hc : s.ctx? k = some c) (learner : c.desc.kind ≠ 3) (first : p.sends < 2)
include hc learner first

theorem resend_remote (elsewhere : s.pubTarget c p.entry = none) : resend s k c l b p = sendVersion (s.setPub k { p with sends := p.sends + 1 }) k c l b p.entry := by
  refine (if_pos first).trans ?_
  dsimp only
  rw [setPub_pubTarget hc learner, elsewhere]

theorem resend_local {kt : Nat} {tc : Ctx} (here : s.pubTarget c p.entry = some (kt, tc)) : resend s k c l b p =
    (let t := s.setPub k { p with sends := p.sends + 1 }; (deliverVersion (t.discardPending kt) kt p.flight (t.bufferBytes c l b) b.tracked).getD t) := by
  refine (if_pos first).trans ?_
  dsimp only
  rw [setPub_pubTarget hc learner, here]

end

/-! ## WEIGHT_PUBLICATION (10 R302, R303) -/

/-- A publication whose waiting version goes into flight. -/
def Publication.sent (p : Publication) : Publication := { p with flight := p.waiting, waiting := 0, sends := 1, cmds := p.next, next := [] }

theorem publishOne_sends {s : State} {k : Nat} {c : Ctx} {l : Learner} {p : Publication} {b : VersionBuf} (hb : l.bufferOf p.waiting = some b) (known : b.digest.isSome = true)
    (elsewhere : s.pubTarget c p.entry = none) : publishOne s k c l p = some (sendVersion (s.setPub k p.sent) k c l b p.entry) := by
  unfold publishOne
  simp only [hb, elsewhere]
  exact if_neg (by simp [Option.isSome_iff_ne_none.1 known])

theorem publishOne_delivers {s : State} {k : Nat} {c : Ctx} {l : Learner} {p : Publication} {b : VersionBuf} (hb : l.bufferOf p.waiting = some b) (known : b.digest.isSome = true)
    {kt : Nat} {tc : Ctx} (here : s.pubTarget c p.entry = some (kt, tc)) :
    publishOne s k c l p = deliverVersion (s.setPub k p.sent) kt p.waiting (s.bufferBytes c l b) b.tracked := by
  unfold publishOne
  simp only [hb, here]
  exact if_neg (by simp [Option.isSome_iff_ne_none.1 known])

theorem setPub_other {s : State} {k j : Nat} (p : Publication) (other : j ≠ k) : (s.setPub k p).ctx? j = s.ctx? j := by
  unfold State.setPub State.updCtx
  split
  · rfl
  · exact ctx?_putCtx_other _ _ _ _ other

section
variable {s : State} {k : Nat} {c : Ctx} {l : Learner} (hk : k < 64) (hc : s.ctx? k = some c) (hl : c.learn = some l)
include hk hc hl

theorem weightPublication_first : exec (.weightPublication k) s =
    .next (((c.pubs.filter (fun p => p.waiting != 0 && p.flight == 0)).findSome? (publishOne s k c l)).getD s) := by
  refine (withCtx_some hk hc _).trans (congrArg _ ?_)
  simp only [hl]

/-- The first waiting version goes where it can. -/
theorem weightPublication_goes {p : Publication} (found : c.pubs.find? (fun y => y.waiting != 0 && y.flight == 0) = some p) {t : State}
    (goes : publishOne s k c l p = some t) : exec (.weightPublication k) s = .next t := by
  rw [weightPublication_first hk hc hl]
  rw [← List.head?_filter] at found
  obtain ⟨rest, waiting⟩ := List.head?_eq_some_iff.1 found
  rw [waiting, List.findSome?_cons, goes]
  rfl

theorem weightPublication_delivers {p : Publication} {b : VersionBuf} (found : c.pubs.find? (fun y => y.waiting != 0 && y.flight == 0) = some p)
    (hb : l.bufferOf p.waiting = some b) (known : b.digest.isSome = true) {kt : Nat} {tc : Ctx} {tl : Learner} {f : VersionBuf}
    (here : s.pubTarget c p.entry = some (kt, tc)) (other : kt ≠ k) (ht : s.ctx? kt = some tc) (htl : tc.learn = some tl) (idle : ∀ y ∈ tl.buffers, y.state ≠ .pending)
    (free : tl.buffers.find? (fun y => y.state == .free) = some f) : exec (.weightPublication k) s =
      .next (((s.setPub k p.sent).putCtx kt { tc with learn := some (tl.took p.waiting b.tracked) }).store f.addr (s.bufferBytes c l b)) :=
  weightPublication_goes hk hc hl found ((publishOne_delivers hb known here).trans
    (deliverVersion_free ((setPub_other p.sent other).trans ht) htl idle free _ _ _))

/-! ## PUBLICATION_DIGEST_CHECK (10 R302, R303) -/

section
variable {e : Nat} {p : Publication} {b : VersionBuf} {d : List Byte} (learner : c.desc.kind ≠ 3) (flies : c.pubs.find? (fun y => y.entry == e && y.flight != 0) = some p)
  (hb : l.bufferOf p.flight = some b) (hd : b.digest = some d) (held : Bool)
include learner flies hb hd

omit hd in
theorem digestCheck_remote (elsewhere : s.pubTarget c p.entry = none) :
    exec (.publicationDigestCheck k e held) s = .next (if held = true then endPublication s k p 0x00 else resend s k c l b p) := by
  refine (withCtx_some hk hc _).trans (congrArg _ ?_)
  rw [if_neg learner]
  simp only [hl, flies, hb, elsewhere]

section
variable {kt : Nat} {tc : Ctx} {tl : Learner} (here : s.pubTarget c p.entry = some (kt, tc)) (htl : tc.learn = some tl)
include here htl

theorem digestCheck_same (same : s.arrived tl.pendingBuf (c.weightTensors l) d = .same) :
    exec (.publicationDigestCheck k e held) s = .next (endPublication (makeVersionCurrent s kt d) k p 0x00) := by
  refine (withCtx_some hk hc _).trans (congrArg _ ?_)
  rw [if_neg learner]
  simp only [hl, flies, hb, here, htl, hd, Option.map_some, Option.getD_some, same]

theorem digestCheck_differs (differs : s.arrived tl.pendingBuf (c.weightTensors l) d = .differs) : exec (.publicationDigestCheck k e held) s = .next (resend s k c l b p) := by
  refine (withCtx_some hk hc _).trans (congrArg _ ?_)
  rw [if_neg learner]
  simp only [hl, flies, hb, here, htl, hd, Option.map_some, Option.getD_some, differs]

theorem digestCheck_poison {a : Nat} (poison : s.arrived tl.pendingBuf (c.weightTensors l) d = .poison a) :
    exec (.publicationDigestCheck k e held) s = .next (s.putCtx kt (tc.raisePoison a 0x06)) := by
  refine (withCtx_some hk hc _).trans (congrArg _ ?_)
  rw [if_neg learner]
  simp only [hl, flies, hb, here, htl, hd, Option.map_some, Option.getD_some, poison]

/-- A digest that holds makes the version current in its target and ends the publication. -/
theorem digestCheck_current (ht : s.ctx? kt = some tc) (other : kt ≠ k) (same : s.arrived tl.pendingBuf (c.weightTensors l) d = .same)
    (one : ∃ y ∈ tl.buffers, y.state = .pending) (version : ∀ y ∈ tl.buffers, y.state = .pending → y.version = p.flight) : ∃ t tc' c',
      exec (.publicationDigestCheck k e held) s = .next t ∧ t.ctx? k = some c' ∧ c.Released c' l p ∧ t.ctx? kt = some tc' ∧ tc'.currentVersion = p.flight ∧ tc'.nonePending := by
  obtain ⟨-, flying⟩ : p.entry = e ∧ p.flight ≠ 0 := by simpa using List.find?_some flies
  obtain ⟨tc', there, current, none⟩ := makeVersionCurrent_ctx? ht htl one version d
  have own : (makeVersionCurrent s kt d).ctx? k = some c := by
    unfold makeVersionCurrent
    rw [updCtx_some _ _ _ tc ht, ctx?_putCtx_other _ _ _ _ other.symm, hc]
  obtain ⟨c', hc', released⟩ := endPublication_released p 0x00 own hl flying
  exact ⟨_, tc', c', digestCheck_same hk hc hl learner flies hb hd held here htl same, hc', released, (endPublication_other p 0x00 other).trans there, current, none⟩

end

end

/-! ## Versions from another module (10 R302) -/

/-- The tensors that an announcement names. -/
def State.noteTensors (s : State) (c : Ctx) (a : Nat) : List TensorEntry :=
  ((List.range (s.loadNat (a + 4) 4)).map (fun i => BitVec.ofNat 32 (s.loadNat (a + 64 + 4 * i) 4))).filterMap
    (fun id => c.slots.findSome? (fun p => p.2.tensors.find? (fun t => t.id == id)))

/-- The tracked-state copy that has come behind the working copy. -/
def State.noteTracked (s : State) (c : Ctx) (a buf : Nat) : List (List Byte) :=
  pieces 96 (s.loadNat (a + 8) 4 / 96) (s.load (buf + workSize (s.noteTensors c a)) (s.loadNat (a + 8) 4))

section
variable {a : Nat} {f : VersionBuf} (rollout : c.desc.kind = 3) (idle : ∀ y ∈ l.buffers, y.state ≠ .pending) (free : l.buffers.find? (fun y => y.state == .free) = some f)
  (held : Bool)
include rollout idle free

theorem arrival_differs (differs : s.arrived f.addr (s.noteTensors c a) (s.load (a + 32) 32) = .differs) : exec (.publicationDigestCheck k a held) s = .next s := by
  refine (withCtx_some hk hc _).trans (congrArg _ ?_)
  unfold State.noteTensors at differs
  rw [if_pos rollout]
  unfold takeArrived
  simp only [hl, nothing_pending idle, free, differs]

theorem arrival_poison {g : Nat} (poison : s.arrived f.addr (s.noteTensors c a) (s.load (a + 32) 32) = .poison g) :
    exec (.publicationDigestCheck k a held) s = .next (s.putCtx k (c.raisePoison g 0x06)) := by
  refine (withCtx_some hk hc _).trans (congrArg _ ?_)
  unfold State.noteTensors at poison
  rw [if_pos rollout]
  unfold takeArrived
  simp only [hl, nothing_pending idle, free, poison]

theorem arrival_same (same : s.arrived f.addr (s.noteTensors c a) (s.load (a + 32) 32) = .same) : ∃ tracked, exec (.publicationDigestCheck k a held) s =
    .next (makeVersionCurrent (s.putCtx k { c with learn := some (l.took (s.loadNat a 2) tracked) }) k (s.load (a + 32) 32)) := by
  refine ⟨s.noteTracked c a f.addr, (withCtx_some hk hc _).trans (congrArg _ ?_)⟩
  unfold State.noteTensors at same
  rw [if_pos rollout]
  unfold takeArrived
  simp only [hl, nothing_pending idle, free, same]
  rfl

/-- A version whose digest holds becomes current, with its announced number. -/
theorem arrival_current (same : s.arrived f.addr (s.noteTensors c a) (s.load (a + 32) 32) = .same) :
    ∃ t d, exec (.publicationDigestCheck k a held) s = .next t ∧ t.ctx? k = some d ∧ d.currentVersion = s.loadNat a 2 ∧ d.nonePending := by
  obtain ⟨tracked, taken⟩ := arrival_same hk hc hl rollout idle free held same
  obtain ⟨y, there, -, pending, -⟩ := took_pending (s.loadNat a 2) tracked free
  obtain ⟨d, hd, current, none⟩ := makeVersionCurrent_ctx? (ctx?_putCtx s k { c with learn := some (l.took (s.loadNat a 2) tracked) }) rfl ⟨y, there, pending⟩
    (fun _ => took_version _ _ idle) (s.load (a + 32) 32)
  exact ⟨_, d, taken, hd, current, none⟩

end

end

end Sys2Proof.Machine

/-! PROOFS. Checkpoints (10 R305 to R307), and the statement of publication and checkpoints, put together. -/

namespace Sys2Proof.Machine

/-! ## CHECKPOINT_START (10 R305, R306) -/

theorem hostWrite_ctxs (s : State) (k a : Nat) (bytes : List Byte) : (s.hostWrite k a bytes).ctxs = s.ctxs := by
  unfold State.hostWrite
  split
  · rfl
  · split <;> rfl

/-- What a checkpoint says of the version that it holds, and of the command that asked for it. -/
structure Checkpoint.Of (ck : Checkpoint) (s : State) (c : Ctx) (l : Learner) (b : VersionBuf) (cmd : Option HostCmd) : Prop where
  version : ck.version = b.version
  digest : ck.digest = b.digest.getD []
  stepCount : ck.stepCount = l.stepCount.toNat
  command : ck.cmd = cmd.map HostCmd.id
  started : ck.started = s.st.now.toNat
  full : ck.full = (c.ckpts.isEmpty || decide (c.desc.fullInterval ≤ c.ckpts.length) || (cmd.map (fun x => x.fieldAt 16 1)).getD 0 % 2 == 1)

theorem Checkpoint.Of.full_iff {ck : Checkpoint} {s : State} {c : Ctx} {l : Learner} {b : VersionBuf} {cmd : Option HostCmd} (h : ck.Of s c l b cmd) :
    ck.full = true ↔ c.ckpts = [] ∨ c.desc.fullInterval ≤ c.ckpts.length ∨ ∃ x, cmd = some x ∧ x.fieldAt 16 1 % 2 = 1 := by
  rw [h.full]
  cases cmd <;> simp [or_assoc]

/-- A checkpoint is written to memory and the host bus; of the contexts it changes its own alone, which holds the version. -/
theorem writeCheckpoint_eq (s : State) (k : Nat) (c : Ctx) (l : Learner) (b : VersionBuf) (cmd : Option HostCmd) : ∃ (ck : Checkpoint) (t : State),
    writeCheckpoint s k c l b cmd = (t.addHold k b.version .checkpoint).updCtx k (fun c =>
      { c with ckptNow := some ck, ckptLog := c.ckptLog ++ [(ck.id, ck.version)], ckptDue := if cmd.isSome then c.ckptDue else false })
    ∧ t.ctxs = s.ctxs ∧ ck.Of s c l b cmd := by
  refine ⟨_, _, rfl, ?_, rfl, rfl, rfl, rfl, rfl, rfl⟩
  split
  · exact store_ctxs ..
  · exact (hostWrite_ctxs ..).trans (store_ctxs ..)

section
variable {s : State} {k : Nat} {c : Ctx} {l : Learner} (hk : k < 64) (hc : s.ctx? k = some c) (hl : c.learn = some l)

/-- A context with a checkpoint in flight, which holds its version. -/
def Ctx.checkpointing (c : Ctx) (l : Learner) (ck : Checkpoint) (commanded : Bool) : Ctx :=
  { c with learn := some (l.hold ck.version (fun hs => hs ++ [.checkpoint])), ckptNow := some ck, ckptLog := c.ckptLog ++ [(ck.id, ck.version)]
           ckptDue := if commanded then c.ckptDue else false }

section
include hc hl

theorem writeCheckpoint_ctx? (b : VersionBuf) (cmd : Option HostCmd) : ∃ ck : Checkpoint,
    (writeCheckpoint s k c l b cmd).ctx? k = some (c.checkpointing l ck cmd.isSome) ∧ ck.Of s c l b cmd := by
  obtain ⟨ck, t, written, ctxs, of⟩ := writeCheckpoint_eq s k c l b cmd
  have there : t.ctx? k = some c := (congrArg (nfind · k) ctxs).trans hc
  have held : (t.addHold k b.version .checkpoint).ctx? k = some { c with learn := some (l.hold ck.version (fun hs => hs ++ [.checkpoint])) } :=
    (ctx?_updCtx _ _ _ c there).trans (by rw [hl, of.version]; rfl)
  refine ⟨ck, ?_, of⟩
  rw [written, ctx?_updCtx _ _ _ _ held]
  rfl

include hk

theorem checkpointStart_writes {b : VersionBuf} {d : List Byte} (current : l.buffers.find? (fun y => y.state == .current) = some b) (known : b.digest = some d)
    (idle : c.ckptNow = none) (asked : c.ckptDue = true ∨ (s.ckptCmd k).isSome = true) :
    exec (.checkpointStart k) s = .next (writeCheckpoint s k c l b (s.ckptCmd k)) := by
  refine (withCtx_some hk hc _).trans (congrArg _ ?_)
  simp only [hl, current]
  refine if_neg ?_
  rcases asked with due | commanded
  · simp [idle, known, due]
  · simp [idle, known, Option.isSome_iff_ne_none.1 commanded]

end

/-! ## The end of a checkpoint (10 R306, R307) -/

section
include hc hl

/-- A checkpoint that is over is kept or given up, and lets go of its version. -/
theorem endCheckpoint_eq (ck : Checkpoint) (keep : Bool) : endCheckpoint s k ck keep = (s.putCtx k { c with
    ckptNow := none, ckpts := if keep then (if ck.full then [ck] else c.ckpts ++ [ck]) else c.ckpts
    learn := some (l.hold ck.version (fun hs => hs.erase .checkpoint)) }).afterRelease k := by
  unfold endCheckpoint State.dropHold
  dsimp only
  rw [updCtx_some _ _ _ c hc, updCtx_some _ _ _ _ (ctx?_putCtx _ _ _), putCtx_putCtx, hl]
  rfl

theorem endCheckpoint_kept (ck : Checkpoint) : ∃ d, (endCheckpoint s k ck true).ctx? k = some d ∧ d.ckptNow = none
    ∧ d.ckpts = (if ck.full then [ck] else c.ckpts ++ [ck]) := by
  rw [endCheckpoint_eq hc hl]
  obtain ⟨d, hd, granted⟩ := afterRelease_granted (ctx?_putCtx s k _)
  refine ⟨d, hd, ?_⟩
  obtain ⟨learn, steps, rfl⟩ := granted.rest
  exact ⟨rfl, rfl⟩

theorem endCheckpoint_mem (ck : Checkpoint) (keep : Bool) : (endCheckpoint s k ck keep).mem = s.mem := by
  rw [endCheckpoint_eq hc hl]
  exact afterRelease_keeps State.mem (fun _ _ => rfl)

include hk

theorem checkpointComplete_keeps {ck : Checkpoint} (now : c.ckptNow = some ck) : ∃ t d, exec (.checkpointComplete k) s = .next t ∧ t.ctx? k = some d ∧ d.ckptNow = none
    ∧ d.ckpts = (if ck.full then [ck] else c.ckpts ++ [ck]) ∧ t.mem = s.mem := by
  obtain ⟨d, hd, idle, kept⟩ := endCheckpoint_kept hc hl ck
  have mem := endCheckpoint_mem hc hl ck true
  cases command : ck.cmd with
  | none =>
    refine ⟨endCheckpoint s k ck true, d, (withCtx_some hk hc _).trans (congrArg _ ?_), hd, idle, kept, mem⟩
    simp only [now, command]
  | some id =>
    refine ⟨(endCheckpoint s k ck true).complete id 0x00 0 (leBytes 8 ck.id ++ leBytes 8 ck.sent), d, (withCtx_some hk hc _).trans (congrArg _ ?_),
      (congrArg (nfind · k) (complete_ctxs ..)).trans hd, idle, kept, (complete_mem ..).trans mem⟩
    simp only [now, command]

theorem checkpointDeadlineExpiry_gives_up {ck : Checkpoint} (now : c.ckptNow = some ck) (service : ck.cmd = none) (late : ck.started + 60 * second ≤ s.st.now.toNat) :
    exec (.checkpointDeadlineExpiry k) s = .next ((s.putCtx k { c with
      ckptNow := none, learn := some (l.hold ck.version (fun hs => hs.erase .checkpoint)) }).afterRelease k) := by
  refine (withCtx_some hk hc _).trans (congrArg _ ?_)
  simp only [now]
  rw [if_pos ⟨by simp [service], late⟩]
  exact endCheckpoint_eq hc hl ck false

end

end

/-- Settles O38: a publication by where its version goes and what its end releases, an arrival by its digest, a checkpoint by what its start and its end leave. -/
theorem publicationAndCheckpoints : Obligations.PublicationAndCheckpoints := by
  unfold Obligations.PublicationAndCheckpoints
  intro s k c l hk hc hl
  refine ⟨weightPublication_first hk hc hl, fun p b found hb known => ⟨?sends, ?delivers⟩, fun e p b d learner flies hb hd => ⟨fun elsewhere => ?elsewhere,
    fun kt tc tl held here other ht htl => ?onModule⟩, fun a held f rollout idle free => ?arrival, fun b d current known idle asked => ?start, fun ck now => ?ends⟩
  case sends => exact fun elsewhere => weightPublication_goes hk hc hl found (publishOne_sends hb known elsewhere)
  case delivers =>
    intro kt tc tl f here other ht htl idle free
    have delivered := weightPublication_delivers hk hc hl found hb known here other ht htl idle free
    refine ⟨_, _, _, delivered, ?_, (store_ctx? ..).trans (ctx?_putCtx ..), rfl, store_mem_congr ?_ _ _, took_pending _ _ free⟩
    · exact (store_ctx? ..).trans (ctx?_putCtx_other _ _ _ _ other.symm)
    · exact (congrArg (State.putCtx · kt _) (updCtx_eq s k _)).trans rfl
  case elsewhere =>
    have answered := digestCheck_remote hk hc hl learner flies hb
    obtain ⟨-, flying⟩ : p.entry = e ∧ p.flight ≠ 0 := by simpa using List.find?_some flies
    obtain ⟨c', hc', released⟩ := endPublication_released p 0x00 hc hl flying
    refine ⟨⟨_, answered true elsewhere, ⟨c', hc', released⟩, endPublication_mem p 0x00⟩, fun first => ?_, fun again => ?_⟩
    · exact (answered false elsewhere).trans (congrArg _ (resend_remote hc learner first elsewhere))
    · exact (answered false elsewhere).trans (congrArg _ (resend_fails again))
  case onModule =>
    refine ⟨fun same one version => ?_, fun differs first => ?_, fun differs again => ?_, fun a poison => digestCheck_poison hk hc hl learner flies hb hd held here htl poison⟩
    · obtain ⟨t, tc', c', taken, hc', released, there, current, none⟩ := digestCheck_current hk hc hl learner flies hb hd held here htl ht other same one version
      exact ⟨t, tc', taken, ⟨c', hc', released⟩, there, current, none⟩
    · exact (digestCheck_differs hk hc hl learner flies hb hd held here htl differs).trans (congrArg _ (resend_local hc learner first here))
    · exact (digestCheck_differs hk hc hl learner flies hb hd held here htl differs).trans (congrArg _ (resend_fails again))
  case arrival =>
    exact ⟨arrival_current hk hc hl rollout idle free held, arrival_differs hk hc hl rollout idle free held, fun g => arrival_poison hk hc hl rollout idle free held⟩
  case start =>
    obtain ⟨ck, there, of⟩ := writeCheckpoint_ctx? hc hl b (s.ckptCmd k)
    exact ⟨_, _, ck, checkpointStart_writes hk hc hl current known idle asked, there, rfl, of.version, of.digest.trans (by rw [known]; rfl), of.stepCount, of.command,
      of.started, of.full_iff, of.version ▸ rfl, rfl⟩
  case ends => exact ⟨checkpointComplete_keeps hk hc hl now, checkpointDeadlineExpiry_gives_up hk hc hl now⟩

end Sys2Proof.Machine

/-! PROOFS. What operations on contexts, steps and the core map leave of the health record, of the physical cores and of the mirage units (11 R310, R323, 16 R425). -/

namespace Sys2Proof.Machine

/-- The health record, the physical cores and the mirage units stay as they were. -/
structure SameUnits (s t : State) : Prop where
  health : t.health = s.health
  phys : t.faults.phys = s.faults.phys
  mirage : t.faults.mirage = s.faults.mirage

section
variable {s t u : State}

theorem SameUnits.refl (s : State) : SameUnits s s := ⟨rfl, rfl, rfl⟩

theorem SameUnits.rawPhys (h : SameUnits s t) (die p : Nat) : t.rawPhys die p = s.rawPhys die p := congrArg (nget Phys.fresh · (136 * die + p)) h.phys

theorem SameUnits.ite {p : Prop} [Decidable p] {a b : State} (ha : SameUnits s a) (hb : SameUnits s b) : SameUnits s (if p then a else b) := by
  split <;> assumption

theorem SameUnits.foldl {α : Type} {f : State → α → State} {l : List α} (h : SameUnits s t) (hf : ∀ u a, SameUnits s u → SameUnits s (f u a)) :
    SameUnits s (l.foldl f t) := by
  induction l generalizing t with
  | nil => exact h
  | cons a l ih => exact ih (hf t a h)

/-- Where the health record and the fault aggregator stay, their units stay. -/
theorem SameUnits.frame (h : SameUnits s t) (health : u.health = t.health := by with_reducible rfl) (faults : u.faults = t.faults := by with_reducible rfl) : SameUnits s u :=
  ⟨health.trans h.health, (congrArg Faults.phys faults).trans h.phys, (congrArg Faults.mirage faults).trans h.mirage⟩

/-! ## Contexts, replies, memory, sends -/

theorem SameUnits.putCtx {k c} (h : SameUnits s t) : SameUnits s (t.putCtx k c) := h.frame rfl rfl

theorem SameUnits.updCtx {k f} (h : SameUnits s t) : SameUnits s (t.updCtx k f) := h.frame (updCtx_health ..) (updCtx_faults ..)

theorem SameUnits.raise {e} (h : SameUnits s t) : SameUnits s (t.raise e) := h.frame rfl rfl

theorem SameUnits.complete {id code result tail} (h : SameUnits s t) : SameUnits s (t.complete id code result tail) :=
  h.frame (complete_health ..) (complete_faults ..)

theorem SameUnits.completeAll {ids code} (h : SameUnits s t) : SameUnits s (t.completeAll ids code) := h.foldl fun _ _ h => h.complete

theorem SameUnits.store {a b} (h : SameUnits s t) : SameUnits s (t.store a b) := by
  rw [store_mem]
  exact h.frame

theorem SameUnits.putRange {a n b p} (h : SameUnits s t) : SameUnits s (t.putRange a n b p) := h.frame rfl rfl

theorem SameUnits.spend (h : SameUnits s t) : SameUnits s t.spend := h.frame rfl rfl

theorem SameUnits.sent (h : SameUnits s t) (sent : SentOnly t u) : SameUnits s u := by
  rw [sent]
  exact h.frame

theorem SameUnits.post {p b} (h : SameUnits s t) : SameUnits s (t.post p b) := h.ite (h.frame rfl rfl)

theorem SameUnits.postTo {job rank b} (h : SameUnits s t) : SameUnits s (t.postTo job rank b) := by
  unfold State.postTo
  split
  exacts [h, h.post]

/-! ## Reports (11 R326, R327) -/

/-- The suspect table holds no units. -/
theorem SameUnits.setSuspect {i x} (h : SameUnits s t) : SameUnits s (t.setSuspect i x) := ⟨h.health, h.phys, h.mirage⟩

theorem SameUnits.sendRelays (h : SameUnits s t) : SameUnits s t.sendRelays := by
  refine SameUnits.foldl ⟨h.health, h.phys, h.mirage⟩ fun _ _ h => ?_
  split
  exacts [h, h.postTo]

theorem SameUnits.relay {key cause rep} (h : SameUnits s t) : SameUnits s (t.relay key cause rep) := by
  refine SameUnits.ite ?_ h
  split
  · exact h
  · exact h
  · refine SameUnits.sendRelays ⟨h.health, h.phys, h.mirage⟩

theorem SameUnits.reportN {key cause n rep} (h : SameUnits s t) : SameUnits s (t.reportN key cause n rep) := by
  unfold State.reportN
  split
  · split
    exacts [h, h.setSuspect]
  · split
    · have full : SameUnits s { t with faults := { t.faults with overflow := true } } := ⟨h.health, h.phys, h.mirage⟩
      have noted : SameUnits s { t with faults := { t.faults with overflow := true, lastOverflow := some t.st.now.toNat } } := ⟨h.health, h.phys, h.mirage⟩
      dsimp only
      split
      exacts [full.ite noted.raise, noted.raise]
    · exact h.setSuspect.raise

theorem SameUnits.report {key cause rep} (h : SameUnits s t) : SameUnits s (t.report key cause rep) := h.reportN.relay

theorem SameUnits.suspectState {key state cause level rep} (h : SameUnits s t) : SameUnits s (t.suspectState key state cause level rep) := by
  unfold State.suspectState
  split
  · exact h
  · split
    exacts [h, h.ite h.setSuspect.raise]

theorem SameUnits.reportAs {key cause state level rep} (h : SameUnits s t) : SameUnits s (t.reportAs key cause state level rep) := by
  unfold State.reportAs
  split
  · exact h.report.suspectState
  · dsimp only
    split
    · exact h.report
    · split
      exacts [h.report, h.report.setSuspect]

/-! ## Rings and completions of STEPs (02 R64, 09 R280, R282) -/

theorem SameUnits.ringPut {c ring r entry} (h : SameUnits s t) : SameUnits s (t.ringPut c ring r entry).1 := by
  unfold State.ringPut
  dsimp only
  exact (h.store.ite h).store.store

theorem SameUnits.produce {k ring entry} (h : SameUnits s t) : SameUnits s (t.produce k ring entry) := by
  unfold State.produce
  split
  · exact h
  · split
    exacts [h, h.ringPut.updCtx.ite h.putCtx.raise]

theorem SameUnits.setStep {k st} (h : SameUnits s t) : SameUnits s (t.setStep k st) := h.updCtx

theorem SameUnits.onStep {k cmd f} (h : SameUnits s t) (hf : ∀ c st, SameUnits s (f c st)) : SameUnits s (t.onStep k cmd f) := by
  unfold State.onStep
  split
  exacts [h, hf _ _]

theorem SameUnits.sendRec {k c dest r} (h : SameUnits s t) : SameUnits s (t.sendRec k c dest r).1 := h.sent (sendRec_sentOnly ..)

theorem SameUnits.tellFailure {k c st again poison} (h : SameUnits s t) : SameUnits s (tellFailure t k c st again poison) :=
  h.sent (tellFailure_sentOnly ..)

theorem SameUnits.finishStep {k st code tail} (h : SameUnits s t) : SameUnits s (t.finishStep k st code tail) :=
  have replied := (h.updCtx (k := k)).complete
  replied.ite replied.updCtx

theorem SameUnits.trackUpdate {k stats} (h : SameUnits s t) : SameUnits s (t.trackUpdate k stats) := by
  unfold State.trackUpdate
  split
  · exact h
  · split
    exacts [h, h.putCtx.store]

theorem SameUnits.discardPending {k} (h : SameUnits s t) : SameUnits s (t.discardPending k) := h.updCtx

theorem SameUnits.abortAll {k c st again} (h : SameUnits s t) : SameUnits s (abortAll t k c st again) :=
  have told := h.tellFailure.raise
  (told.setStep.ite (SameUnits.setStep (SameUnits.updCtx told.discardPending.frame))).ite told.discardPending.finishStep

theorem SameUnits.giveUp {k c st code} (h : SameUnits s t) : SameUnits s (giveUp t k c st code) := h.tellFailure.raise.discardPending.finishStep

theorem SameUnits.tryFinish {k cmd} (h : SameUnits s t) : SameUnits s (tryFinish t k cmd) := by
  refine h.onStep fun _ _ => ?_
  split
  · exact h
  · exact h
  · exact h.ite (h.ite ((h.ite h.setStep.raise).ite (h.produce.ite h).finishStep))

/-! ## Decisions of a STEP (09 R257, R275 to R277) -/

theorem SameUnits.adoptSkip {k st stats result} (h : SameUnits s t) : SameUnits s (adoptSkip t k st stats result) :=
  have released := h.discardPending.trackUpdate.setStep
  h.ite (released.raise.ite released).tryFinish

theorem SameUnits.tryAllocate {k cmd} (h : SameUnits s t) : SameUnits s (tryAllocate t k cmd) := by
  refine h.onStep fun _ _ => ?_
  split
  exacts [h, h.putCtx.setStep.ite h]

theorem SameUnits.adoptApply {k c st stats} (h : SameUnits s t) : SameUnits s (adoptApply t k c st stats) := by
  unfold Machine.adoptApply
  split
  exacts [h, h.giveUp.ite h.putCtx.setStep.tryAllocate]

theorem SameUnits.passDecision {k c st apply stats} (h : SameUnits s t) : SameUnits s (passDecision t k c st apply stats) :=
  have told := h.sent (sendRecs_sentOnly ..)
  told.adoptSkip.ite (told.ite told.adoptApply)

theorem SameUnits.decideCommit {k c st} (h : SameUnits s t) : SameUnits s (decideCommit t k c st) := by
  refine SameUnits.ite ?_ (h.passDecision.ite h.abortAll)
  split
  exacts [h, h.store.setStep.ite h.sendRec.setStep]

theorem SameUnits.tryPrepare {k cmd} (h : SameUnits s t) : SameUnits s (tryPrepare t k cmd) :=
  h.onStep fun _ _ => ((h.setStep.decideCommit.ite h.setStep.sendRec).ite h.setStep).ite h

/-! ## Deaths (13 R378, 14 R385) -/

theorem SameUnits.capture {k cause tag opcode kind} (h : SameUnits s t) : SameUnits s (t.capture k cause tag opcode kind) := by
  unfold State.capture
  split
  exacts [h, h.store.frame]

theorem SameUnits.abortColls {k c again} (h : SameUnits s t) : SameUnits s (t.abortColls k c again) :=
  SameUnits.foldl h.frame fun _ _ h => h.foldl fun _ _ h => h.postTo

/-- Samples are no units: a context that ends takes its own along. -/
theorem SameUnits.endSamples {k} (h : SameUnits s t) : SameUnits s (t.endSamples k) := ⟨h.health, h.phys, h.mirage⟩

theorem SameUnits.beginClose {k} (h : SameUnits s t) : SameUnits s (t.beginClose k) := by
  unfold State.beginClose
  split
  · exact h
  next c _ =>
    have told : SameUnits s ((t.abortColls k c false).endSamples k) := h.abortColls.endSamples
    exact h.ite told.putCtx.frame

theorem SameUnits.die {k c code cause tail} (h : SameUnits s t) : SameUnits s (t.die k c code cause tail) :=
  have replied := (h.capture.raise.foldl fun _ _ h => h.complete).completeAll
  (replied.foldl fun _ _ h => h.tellFailure).beginClose

/-! ## Logical cores that move (02 R44, R46, 05 R131) -/

theorem SameUnits.saveCore {c l x} (h : SameUnits s t) : SameUnits s (t.saveCore c l x).1 := by
  unfold State.saveCore
  split
  · exact h
  · have started : SameUnits s (t.saveOpaque (c.slotAddr l)) := (h.foldl fun _ _ h => h.store).spend
    exact started.putRange.putRange.putRange.putRange.putRange

theorem SameUnits.park {k l} (h : SameUnits s t) : SameUnits s (t.park k l) := by
  have saved : SameUnits s (t.saveOne k l) := by
    unfold State.saveOne
    split
    · exact h
    · split
      exacts [h, h.saveCore.putCtx]
  exact saved.updCtx

theorem SameUnits.nextOn {k host l} (h : SameUnits s t) : SameUnits s (t.nextOn k host l) := by
  unfold State.nextOn
  split
  · exact h
  · refine h.ite ?_
    split
    exacts [h, (h.foldl fun _ _ h => h.park).updCtx]

theorem SameUnits.moveIdle {k l} (h : SameUnits s t) : SameUnits s (t.moveIdle k l) := by
  unfold State.moveIdle
  split
  · exact h
  · split
    exacts [h, h.ite ((h.putCtx.ite h).ite (h.ite (h.park.ite h.updCtx)))]

theorem SameUnits.rehost {k} (h : SameUnits s t) : SameUnits s (t.rehost k) := by
  unfold State.rehost
  split
  · exact h
  next c _ =>
    have unlinked : SameUnits s (t.bridgesFail c) := h.foldl fun _ _ h => h.report
    refine h.ite (h.die.ite (unlinked.die.ite (SameUnits.updCtx (SameUnits.ite ?_ ?moved))))
    case moved => exact h.putCtx.foldl fun _ _ h => h.moveIdle
    refine SameUnits.foldl (h.putCtx.foldl fun _ _ h => h.moveIdle) fun _ _ h => ?_
    split
    exacts [h, h.nextOn]

theorem SameUnits.rehostAll {die pos} (h : SameUnits s t) : SameUnits s (t.rehostAll die pos) := h.foldl fun _ _ h => h.rehost

/-- The core map says which physical core holds a position, and nothing about the cores. -/
theorem SameUnits.setPosition {die pos p} (h : SameUnits s t) : SameUnits s (t.setPosition die pos p) := ⟨h.health, h.phys, h.mirage⟩

theorem SameUnits.unfold {die} (h : SameUnits s t) : SameUnits s (t.unfold die) := by
  unfold State.unfold
  extract_lets filled
  have filled_same : SameUnits s filled := by
    refine h.foldl fun _ _ h => ?_
    split
    exacts [h, h.setPosition.rehostAll]
  exact SameUnits.ite ⟨filled_same.health, filled_same.phys, filled_same.mirage⟩ filled_same

theorem SameUnits.returned {die} (h : SameUnits s t) : SameUnits s (t.returned die) := h.ite h.unfold

end

end Sys2Proof.Machine

/-! PROOFS. Checks of samples, re-checks, self-tests, twins, sieves and quiet suspects (11 R312 to R326): each command by what it finds. -/

namespace Sys2Proof.Machine

/-! ## Lists changed in one place -/

theorem length_updAt {α : Type} (l : List α) (i : Nat) (f : α → α) : (updAt l i f).length = l.length := by
  induction l generalizing i with
  | nil => rfl
  | cons a l ih =>
    cases i with
    | zero => rfl
    | succ i => exact congrArg (· + 1) (ih i)

theorem getD_updAt {α : Type} (d : α) {l : List α} {i : Nat} (inside : i < l.length) (f : α → α) : (updAt l i f).getD i d = f (l.getD i d) := by
  induction l generalizing i with
  | nil => exact absurd inside (Nat.not_lt_zero i)
  | cons a l ih =>
    cases i with
    | zero => rfl
    | succ i => exact ih (Nat.lt_of_succ_lt_succ inside)

section
variable {s : State}

/-! ## MIRAGE_CHECK (R312) -/

/-- A closed sample of a die is a sample of that die. -/
theorem closedSample_die {die i n : Nat} {x : Sample} (found : s.closedSample die i = some n) (there : s.faults.samples[n]? = some x) : x.die = die := by
  have closed := (List.mem_filter.1 (List.mem_of_getElem? found)).2
  simp only [there, Bool.and_eq_true, beq_iff_eq] at closed
  exact closed.1

theorem mirageCheck_eq {die i n : Nat} {x : Sample} (inside : die < 4) (found : s.closedSample die i = some n) (there : s.faults.samples[n]? = some x) :
    exec (.mirageCheck die i) s = .next (if (s.mirageUnit die).inService && !(s.mirageUnit die).testing then s.check n x else s) := by
  refine (withUnit_ok inside _).trans (congrArg _ ?_)
  simp only [found, there]

/-! ## RECHECK_VERDICT (R315 to R317) -/

theorem recheckVerdict_eq {i n : Nat} {x y : Sample} {xs ys : List W64} (found : s.pendingRecheck i = some n) (there : s.faults.samples[n]? = some x)
    (goes : (s.freeIdle n x).faults.samples[n]? = some y) :
    exec (.recheckVerdict i xs ys) s = .next (if y.freed && xs.length == y.elements.length && ys.length == y.elements.length
      then (s.freeIdle n x).judge n y (y.verdict xs ys) else s.freeIdle n x) := by
  refine congrArg Host.Outcome.next ?_
  simp only [found, there, goes]

section
variable {n : Nat} {x : Sample}

theorem freeIdle_noY (noY : x.other = none) : s.freeIdle n x = if s.hostsRun x.die x.phys then s else s.startRecheck n := by
  simp only [State.freeIdle, noY]

theorem freeIdle_someY {d p : Nat} (someY : x.other = some (d, p)) : s.freeIdle n x = if x.freed || s.hostsRun d p then s else s.freeY n d p := by
  simp only [State.freeIdle, someY]

end

/-- A retired core stands in the health record (R317). -/
theorem retireCore_retired (s : State) (die p : Nat) : (die, p) ∈ (s.retireCore die p).health.retiredCores := by
  have recorded : (s.retireCore die p).health = if s.health.retiredCores.contains (die, p) then s.health else
      ({ s.health with retiredCores := s.health.retiredCores ++ [(die, p)] } : Health).written := by
    unfold State.retireCore
    dsimp only
    split
    · rfl
    · split <;> rfl
  rw [recorded]
  split
  next known => exact List.contains_iff_mem.1 known
  · exact List.mem_append_right _ (List.mem_singleton.2 rfl)

/-- The end of a re-check that retires core X leaves it retired: what follows it keeps the health record. -/
theorem endRecheck_retired (s : State) (n : Nat) (x : Sample) : (x.die, x.phys) ∈ (s.endRecheck n x true).health.retiredCores := by
  unfold State.endRecheck
  extract_lets dropped freed retired
  have gone : (x.die, x.phys) ∈ retired.health.retiredCores := retireCore_retired freed x.die x.phys
  split
  · exact gone
  next c _ =>
    have kept : SameUnits retired (c.steps.foldl (fun s st => tryPrepare s x.ctx st.cmd) retired) := (SameUnits.refl retired).foldl fun _ _ h => h.tryPrepare
    rwa [kept.health]

theorem judge_permanent_retires (s : State) (n : Nat) (x : Sample) : (x.die, x.phys) ∈ (s.judge n x .permanent).health.retiredCores := endRecheck_retired ..

/-- A second inconclusive verdict retires core X. -/
theorem judge_inconclusive_again {x : Sample} (again : x.attempts ≠ 0) (s : State) (n : Nat) :
    (x.die, x.phys) ∈ (s.judge n x .inconclusive).health.retiredCores := by
  unfold State.judge
  rw [if_neg again]
  exact endRecheck_retired ..

/-- The first inconclusive verdict asks for another core Y. -/
theorem judge_inconclusive_first {x : Sample} (first : x.attempts = 0) (s : State) (n : Nat) : s.judge n x .inconclusive = s.nextY n x := if_pos first

/-! ## MIRAGE_SELF_TEST (R317) -/

theorem mirageSelfTest_eq {die : Nat} (inside : die < 4) (pass : Bool) :
    exec (.mirageSelfTest die pass) s = .next (if !(s.mirageUnit die).testing then s
      else if pass then s.setMirage die { s.mirageUnit die with testing := false } else (s.reportAs (mirageKey die) 0x04 3 1 {}).mirageOut die) := withUnit_ok inside _

theorem mirageUnit_setMirage {die : Nat} (fitted : die < s.faults.mirage.length) (m : MirageUnit) : (s.setMirage die m).mirageUnit die = m := getD_updAt _ fitted _

theorem degrade_degraded (s : State) (code : Nat) : code ∈ (s.degrade code).rst.degraded := by
  unfold State.degrade
  dsimp only
  split
  next known => exact List.contains_iff_mem.1 known
  · exact List.mem_append_right _ (List.mem_singleton.2 rfl)

/-- A unit that goes out of service is marked so, and the module is degraded by it. -/
theorem mirageOut_outOfService {die : Nat} (fitted : die < s.faults.mirage.length) :
    ((s.mirageOut die).mirageUnit die).inService = false ∧ 500 + die ∈ (s.mirageOut die).rst.degraded := by
  have left : die < (s.abandonDie die).faults.mirage.length := (length_updAt ..).symm ▸ fitted
  exact ⟨congrArg MirageUnit.inService (mirageUnit_setMirage left _), degrade_degraded _ (500 + die)⟩

/-! ## TWIN_MISMATCH (R320, R321) -/

/-- A death ends in the closing of its context; what comes before it changes no context. -/
theorem die_beginClose (s : State) (k : Nat) (c : Ctx) (code cause : Nat) (tail : List Byte) :
    ∃ t : State, t.ctxs = s.ctxs ∧ s.die k c code cause tail = t.beginClose k := by
  refine ⟨_, ?_, rfl⟩
  refine (foldl_keeps State.ctxs _ (fun t (st : StepRun) => (tellFailure_sentOnly t k c st false (cause == 3)).ctxs) _ _).trans ?_
  refine (completes_keeps 0x20 State.ctxs (fun t id => complete_ctxs t id 0x20 0 []) _ _).trans ?_
  refine (foldl_keeps State.ctxs _ (fun t (x : HostCmd) => complete_ctxs t x.id code 0 tail) _ _).trans ?_
  show (s.capture k cause _ _ 0).ctxs = s.ctxs
  unfold State.capture
  split
  · rfl
  · dsimp only
    exact store_ctxs ..

/-- A context that closes holds no work (13 R378). -/
theorem beginClose_closing {k : Nat} {c : Ctx} (hc : s.ctx? k = some c) (going : c.status ≠ .closing) :
    ∃ c', (s.beginClose k).ctx? k = some c' ∧ c'.status = .closing ∧ c'.run = none ∧ c'.steps = [] := by
  unfold State.beginClose
  simp only [hc]
  rw [if_neg (by simpa using going)]
  exact ⟨_, ctx?_putCtx .., rfl, rfl, rfl⟩

theorem die_closing {k : Nat} {c : Ctx} (hc : s.ctx? k = some c) (going : c.status ≠ .closing) (d : Ctx) (code cause : Nat) (tail : List Byte) :
    ∃ c', (s.die k d code cause tail).ctx? k = some c' ∧ c'.status = .closing ∧ c'.run = none ∧ c'.steps = [] := by
  obtain ⟨t, same, closes⟩ := die_beginClose s k d code cause tail
  rw [closes]
  exact beginClose_closing ((congrArg (nfind · k) same).trans hc) going

theorem twinSuspect_ctxs (s : State) (die p q : Nat) (rep : Report) : (s.twinSuspect die p q rep).ctxs = s.ctxs := by
  show (s.report _ 0x05 rep).ctxs = s.ctxs
  rw [report_reportedOnly]

section
variable {k l engine index die p : Nat} {c : Ctx} {x : Core} {d shadow : W64}

theorem CoreTurn.twinMismatch_differs (h : CoreTurn s k l c x) (twin : c.desc.twin = true) (host : s.coreAt c l = some (die, p))
    (output : s.twinOutput c l x engine = some (index, d)) (differs : d ≠ shadow) :
    ∃ t c', exec (.twinMismatch k l engine index shadow) s = .next t ∧ t.ctx? k = some c' ∧ c'.status = .closing ∧ c'.run = none ∧ c'.steps = [] := by
  have going : c.status ≠ .closing := by
    rw [h.running]
    decide
  have closes (t : State) (same : t.ctxs = s.ctxs) (tail : List Byte) : ∃ c', (t.die k c 0x31 2 tail).ctx? k = some c' ∧ c'.status = .closing ∧ c'.run = none ∧ c'.steps = [] :=
    die_closing ((congrArg (nfind · k) same).trans h.hasCtx) going ..
  show ∃ t c', execTwinMismatch k l engine index shadow s = .next t ∧ _
  unfold execTwinMismatch
  rw [withCore_turn h]
  simp only [output, host]
  rw [if_pos (by simpa [h.live, twin] using differs)]
  refine (closes _ ?_ _).elim fun c' closed => ⟨_, c', rfl, closed⟩
  split
  · exact (twinSuspect_ctxs ..).trans (twinSuspect_ctxs ..)
  · rfl

theorem CoreTurn.twinMismatch_same (h : CoreTurn s k l c x) (host : s.coreAt c l = some (die, p)) (output : s.twinOutput c l x engine = some (index, d)) :
    exec (.twinMismatch k l engine index d) s = .next s := by
  refine (withCore_turn h _).trans (congrArg _ ?_)
  simp only [output, host, bne_self_eq_false, Bool.and_false, Bool.false_eq_true, if_false]

end

/-! ## Sieves (R322, R323) -/

section
variable {die core : Nat}

@[simp] theorem rawPhys_setPhys (s : State) (die p : Nat) (x : Phys) : (s.setPhys die p x).rawPhys die p = x := nget_nset_same ..

theorem withPhys_ok (hd : die < 4) (hc : core < 136) (f : State) : withPhys die core f = .next f := if_neg (by omega)

theorem sieveDue_early (hd : die < 4) (hc : core < 136) (early : s.st.now.toNat < s.dueAt die core) : exec (.sieveDue die core) s = .next s :=
  (withPhys_ok hd hc _).trans (congrArg _ (if_pos early))

theorem sieveDue_idle (hd : die < 4) (hc : core < 136) (due : s.dueAt die core ≤ s.st.now.toNat) (idle : s.idleForSieve die core = true) :
    exec (.sieveDue die core) s = .next (if s.sieving die = false ∧ s.firstDue die core = true then s.startSieve die core else s) := by
  refine (withPhys_ok hd hc _).trans (congrArg _ ?_)
  rw [if_neg (Nat.not_lt.2 due), if_pos idle]
  simp only [Bool.and_eq_true, Bool.not_eq_true']

theorem sieveDue_busy (hd : die < 4) (hc : core < 136) (due : s.dueAt die core ≤ s.st.now.toNat) (busy : s.idleForSieve die core = false)
    (fresh : (s.rawPhys die core).due = none) (sieving : (s.rawPhys die core).state ≠ .sieve) (kept : (die, core) ∉ s.health.retiredCores) :
    exec (.sieveDue die core) s = .next (s.setPhys die core { s.rawPhys die core with due := some s.st.now.toNat }) := by
  refine (withPhys_ok hd hc _).trans (congrArg _ ?_)
  rw [if_neg (Nat.not_lt.2 due), if_neg (by simp [busy]), if_pos (by simpa [fresh, kept] using sieving)]

theorem sieveForced_eq (hd : die < 4) (hc : core < 136) {due : Nat} (since : (s.rawPhys die core).due = some due) :
    exec (.sieveForced die core) s = .next (if s.inUse die core && decide (due + 72 * hourUnits ≤ s.st.now.toNat)
      then s.setPhys die core { s.rawPhys die core with forced := true } else s) := by
  refine (withPhys_ok hd hc _).trans (congrArg _ ?_)
  simp only [since]

theorem sieveComplete_eq (hd : die < 4) (hc : core < 136) (pass : Bool) :
    exec (.sieveComplete die core pass) s = .next (if (s.rawPhys die core).state == .sieve then s.sieveEnds die core pass else s) := withPhys_ok hd hc _

theorem sieveComplete_other (hd : die < 4) (hc : core < 136) (other : (s.rawPhys die core).state ≠ .sieve) (pass : Bool) :
    exec (.sieveComplete die core pass) s = .next s := (sieveComplete_eq hd hc pass).trans (congrArg _ (if_neg (by simpa using other)))

theorem sieveComplete_sieved (hd : die < 4) (hc : core < 136) (sieving : (s.rawPhys die core).state = .sieve) (pass : Bool) :
    exec (.sieveComplete die core pass) s = .next (s.sieveEnds die core pass) := (sieveComplete_eq hd hc pass).trans (congrArg _ (if_pos (by simp [sieving])))

/-- A sieve that ends is counted by its die's unit, and its core takes the state `x` with no sieve due; what follows depends on the result. -/
def State.sieveCounted (s : State) (die p : Nat) (pass : Bool) (x : PhysState) : State :=
  let m := s.mirageUnit die
  let t := s.setMirage die { m with sieveRun := satAdd 32 m.sieveRun 1, sieveFail := if pass then m.sieveFail else satAdd 32 m.sieveFail 1 }
  t.setPhys die p { s.rawPhys die p with state := x, lastSieve := s.st.now.toNat, due := none, forced := false }

theorem sieveEnds_retired (retired : (die, core) ∈ s.health.retiredCores) (pass : Bool) :
    s.sieveEnds die core pass = (s.sieveCounted die core pass .retired).recordSieve die core pass := by
  have known : s.health.retiredCores.contains (die, core) = true := List.contains_iff_mem.2 retired
  unfold State.sieveEnds State.sieveCounted
  simp only [setMirage_health, setMirage_st, known, if_true]
  rfl

theorem sieveEnds_passes (kept : (die, core) ∉ s.health.retiredCores) :
    s.sieveEnds die core true = ((s.sieveCounted die core true .spare).returned die).twinPassed die core := by
  have known : s.health.retiredCores.contains (die, core) = false := by simpa using kept
  unfold State.sieveEnds State.sieveCounted
  simp only [setMirage_health, setMirage_st, known, if_true, Bool.false_eq_true, if_false]
  rfl

/-- A core that fails its sieve is retired and the failure recorded; what follows leaves the health record. -/
theorem sieveEnds_fails (kept : (die, core) ∉ s.health.retiredCores) :
    ∃ u : State, (s.sieveEnds die core false).health = ((u.retireCore die core).recordSieve die core false).health := by
  have known : s.health.retiredCores.contains (die, core) = false := by simpa using kept
  have settled (t : State) : (t.twinFailed die core).health = t.health := by
    unfold State.twinFailed
    split <;> rfl
  refine ⟨(s.sieveCounted die core false .spare).reportAs (coreKey die core) 0x06 3 1 {}, ?_⟩
  unfold State.sieveEnds State.sieveCounted
  simp only [setMirage_health, setMirage_st, known, Bool.false_eq_true, if_false]
  split
  · exact settled _
  · exact settled _

theorem recordSieve_recorded (s : State) (pass : Bool) : (die, core, pass) ∈ (s.recordSieve die core pass).health.coreResults :=
  List.mem_append_right _ (List.mem_singleton.2 rfl)

/-- A core without a twin only returns to the pool. -/
theorem twinPassed_alone (alone : (s.rawPhys die core).twin = none) : s.twinPassed die core = s := by
  unfold State.twinPassed
  simp only [alone]

theorem sieveEnds_passes_alone (kept : (die, core) ∉ s.health.retiredCores) (alone : (s.rawPhys die core).twin = none) :
    (s.sieveEnds die core true).health = s.health
      ∧ (s.sieveEnds die core true).rawPhys die core = { s.rawPhys die core with state := .spare, lastSieve := s.st.now.toNat, due := none, forced := false } := by
  have same : SameUnits (s.sieveCounted die core true .spare) ((s.sieveCounted die core true .spare).returned die) := (SameUnits.refl _).returned
  have returned := (same.rawPhys die core).trans (rawPhys_setPhys _ die core _)
  rw [sieveEnds_passes kept, twinPassed_alone ((congrArg Phys.twin returned).trans alone)]
  exact ⟨same.health, returned⟩

end

/-! ## SUSPECT_CLEAR_TIMEOUT (R326) -/

theorem suspectClearTimeout_eq {i : Nat} {e : Suspect} (inside : i < 1024) (there : nfind s.faults.suspects i = some e) :
    exec (.suspectClearTimeout i) s = .next (if (e.state = 1 ∨ e.state = 2) ∧ e.lastTime.toNat + dayUnits ≤ s.st.now.toNat then s.setSuspect i { e with state := 5 } else s) := by
  refine (withUnit_ok inside _).trans (congrArg _ ?_)
  simp only [there]

end

/-- Settles O39: each command by what it finds; a retired core stays in the health record through what follows its verdict, and a death closes its context. That
MIRAGE_DISAGREE counts elements (log 104) and that the shadow's digest is an operand (log 149) are the model's choices. -/
theorem faultChecks : Obligations.FaultChecks := by
  unfold Obligations.FaultChecks
  intro s
  refine ⟨fun die i n x inside found there => ⟨fun service idle => ?checked, fun away => ?unchecked⟩,
    fun i n x xs ys found there => ⟨fun y goes => ⟨fun freed hx hy => ?judged, fun waits => ?waits⟩, fun noY runs => (freeIdle_noY noY).trans (if_pos runs),
      fun noY free => (freeIdle_noY noY).trans (if_neg (by simp [free])), fun freed someY => ?freed, fun d p someY waits => ?freesY,
      judge_permanent_retires s n x, fun again => judge_inconclusive_again again s n, fun first => judge_inconclusive_first first s n⟩,
    ⟨rfl, rfl, fun _ => rfl, rfl, rfl, fun _ => rfl⟩,
    fun die inside => ⟨fun testing => ⟨(mirageSelfTest_eq inside true).trans (by simp [testing]), fun fitted => ?fails⟩,
      fun idle pass => (mirageSelfTest_eq inside pass).trans (by simp [idle])⟩,
    fun k l engine index c x die p d shadow h twin host output => ⟨h.twinMismatch_differs twin host output, fun same => same ▸ h.twinMismatch_same host output⟩,
    fun die core hd hc => ⟨sieveDue_early hd hc, sieveDue_idle hd hc, sieveDue_busy hd hc, fun due since used late => ?forced, fun due since early => ?deferred,
      fun pass other => sieveComplete_other hd hc other pass, fun sieving => ?sieved⟩,
    fun i e inside there => ⟨fun quiet late => (suspectClearTimeout_eq inside there).trans (congrArg _ (if_pos ⟨quiet, late⟩)), fun stays => ?stays⟩⟩
  case checked =>
    rw [mirageCheck_eq inside found there, ← closedSample_die found there]
    rw [← closedSample_die found there] at service idle
    rw [if_pos (by simp [service, idle])]
    simp only [State.check, List.length_eq_zero_iff]
  case unchecked => exact (mirageCheck_eq inside found there).trans (congrArg _ (if_neg (by rcases away with out | testing <;> simp [*])))
  case judged => exact (recheckVerdict_eq found there goes).trans (congrArg _ (if_pos (by simp [freed, hx, hy])))
  case waits => exact (recheckVerdict_eq found there goes).trans (congrArg _ (if_neg (by simp [waits])))
  case freed =>
    obtain ⟨⟨d, p⟩, someY⟩ := Option.isSome_iff_exists.1 someY
    exact (freeIdle_someY someY).trans (if_pos (by simp [freed]))
  case freesY => rw [freeIdle_someY someY, waits, Bool.false_or]
  case fails =>
    have same : SameUnits s (s.reportAs (mirageKey die) 0x04 3 1 {}) := (SameUnits.refl s).reportAs
    exact ⟨_, (mirageSelfTest_eq inside false).trans (by simp [testing]), mirageOut_outOfService (same.mirage ▸ fitted)⟩
  case forced => exact (sieveForced_eq hd hc since).trans (congrArg _ (if_pos (by simp [used, late])))
  case deferred => exact (sieveForced_eq hd hc since).trans (congrArg _ (if_neg (by simp [Nat.not_le.2 early])))
  case sieved =>
    have ends := sieveComplete_sieved hd hc sieving
    refine ⟨fun retired pass => ⟨_, (ends pass).trans (congrArg _ (sieveEnds_retired retired pass)), recordSieve_recorded .., ?_, rfl, rfl⟩, fun kept => ?_,
      fun kept alone => ?_⟩
    · exact congrArg Phys.state (rawPhys_setPhys ..)
    · obtain ⟨u, recorded⟩ := sieveEnds_fails kept
      exact ⟨_, ends false, recorded ▸ retireCore_retired u die core, recorded ▸ recordSieve_recorded ..⟩
    · obtain ⟨health, core⟩ := sieveEnds_passes_alone kept alone
      exact ⟨_, ends true, health, congrArg Phys.state core, congrArg Phys.due core⟩
  case stays =>
    refine (suspectClearTimeout_eq inside there).trans (congrArg _ (if_neg ?_))
    omega

end Sys2Proof.Machine

/-! PROOFS. Rows of the host's commands by the checks of their arguments (12 R346), ACK_ATTENTION, and the attention log when it is full (12 R351, R353). -/

namespace Sys2Proof.Machine

/-! ## Arguments of commands (12 R346) -/

section
variable {ok : Bool} {code off : Nat} {l : List (Option Bad)}

theorem firstBad_ok (pass : ok = true) : firstBad (wantArg ok code off :: l) = firstBad l := by rw [wantArg, if_pos pass]; rfl
theorem firstBad_bad (fail : ok = false) : firstBad (wantArg ok code off :: l) = some (argBad code off) := by rw [wantArg, if_neg (by simp [fail])]; rfl

end

theorem firstBad_append (l m : List (Option Bad)) : firstBad (l ++ m) = (firstBad l).or (firstBad m) := List.findSome?_append

section
variable {s : State} {id : Nat} {checks : List (Option Bad)} {effect : State}

theorem checked_bad {b : Bad} (bad : firstBad checks = some b) : s.checked id checks effect = s.complete id b.code b.result [] := by
  rw [State.checked, bad]
  rfl

theorem checked_good (good : firstBad checks = none) : s.checked id checks effect = effect := by rw [State.checked, good]

end

section
variable {i : Instr} {s : State} {id op code off : Nat} {c : HostCmd} {b : Bad} {checks : HostCmd → List (Option Bad)} {effect : HostCmd → State}

/-- A command whose arguments fail a check completes with the code and the place of the first that fails. -/
theorem command_refused (row : exec i s = withCmd id op s fun c => s.checked id (checks c) (effect c)) (turn : CmdTurn s id op c)
    (bad : firstBad (checks c) = some b) (answers : b.code = code := by rfl) (place : b.result = off := by rfl) : exec i s = .next (s.complete id code off []) := by
  rw [row, withCmd_turn turn, checked_bad bad, ← answers, ← place]

/-- A command whose arguments pass has its effect. -/
theorem command_proceeds (row : exec i s = withCmd id op s fun c => s.checked id (checks c) (effect c)) (turn : CmdTurn s id op c)
    (good : firstBad (checks c) = none) : exec i s = .next (effect c) := by
  rw [row, withCmd_turn turn, checked_good good]

end

/-! ## Commands on a context -/

section
variable {i : Instr} {s : State} {id op code off k : Nat} {c : HostCmd} {x : Ctx} {b : Bad} {checks : HostCmd → Nat → Ctx → List (Option Bad)}
  {effect : HostCmd → Nat → Ctx → State}

theorem ctxCommand_refused (row : exec i s = withCtxCmd id op s fun c k x => s.checked id (checks c k x) (effect c k x)) (turn : CtxCmdTurn s id op c k x)
    (bad : firstBad (checks c k x) = some b) (answers : b.code = code := by rfl) (place : b.result = off := by rfl) :
    exec i s = .next (s.complete id code off []) := by
  rw [row, withCtxCmd_turn turn, checked_bad bad, ← answers, ← place]

theorem ctxCommand_proceeds (row : exec i s = withCtxCmd id op s fun c k x => s.checked id (checks c k x) (effect c k x)) (turn : CtxCmdTurn s id op c k x)
    (good : firstBad (checks c k x) = none) : exec i s = .next (effect c k x) := by
  rw [row, withCtxCmd_turn turn, checked_good good]

end

/-! ## ACK_ATTENTION (12 R353) -/

/-- A command that completes leaves the attention log alone, and does not look at it. -/
theorem complete_setAttn (s : State) (a : Attention) (id code result : Nat) (tail : List Byte) :
    ({ s with attn := a } : State).complete id code result tail = { s.complete id code result tail with attn := a } := by
  have same : ({ s with attn := a } : State).cmd? id = s.cmd? id := rfl
  unfold State.complete
  rw [same]
  split <;> rfl

/-- The log once every entry up to a sequence is acknowledged. -/
def Attention.ackTo (a : Attention) (q : W32) : Attention :=
  { a with log := a.log.map (fun e => if (q - e.seq).toNat < 2 ^ 31 then { e with acked := true } else e)
           lost := if q == a.seq then 0 else a.lost, lostLevel := if q == a.seq then 0 else a.lostLevel }

theorem ackAttention_acks {s : State} {id : Nat} {c : HostCmd} (turn : CmdTurn s id 0x0F c)
    (due : BitVec.ofNat 32 (c.fieldAt 20 4) = s.attn.seq ∨ 2 ^ 31 ≤ (BitVec.ofNat 32 (c.fieldAt 20 4) - s.attn.seq).toNat) :
    exec (.ackAttention id) s = .next { s.complete id 0 0 [] with attn := s.attn.ackTo (BitVec.ofNat 32 (c.fieldAt 20 4)) } := by
  refine (command_proceeds rfl turn (firstBad_ok ?_)).trans (congrArg _ (complete_setAttn s (s.attn.ackTo (BitVec.ofNat 32 (c.fieldAt 20 4))) id 0 0 []))
  rcases due with same | behind
  · rw [same, BitVec.sub_self]
    rfl
  · rw [decide_eq_true behind, Bool.or_true]

/-- Settles O51: a sequence by whether it lies ahead of ATTN_SEQ. -/
theorem ackAttention : Obligations.AckAttention := by
  unfold Obligations.AckAttention
  intro s id c turn q reached
  refine ⟨fun due => ?_, fun other ahead => command_refused rfl turn (firstBad_bad ?_)⟩
  · exact ⟨_, ackAttention_acks turn due, List.map_congr_left fun e _ => (if_congr decide_eq_true_iff rfl rfl).symm, rfl,
      fun all => ⟨if_pos (beq_iff_eq.2 all), if_pos (beq_iff_eq.2 all)⟩,
      fun some => ⟨if_neg (mt beq_iff_eq.1 some), if_neg (mt beq_iff_eq.1 some)⟩, complete_rst .., rfl⟩
  · rw [decide_eq_false (Nat.not_le.2 ahead), Bool.or_false, beq_eq_false_iff_ne]
    exact fun zero => other (sub_eq_zero.1 (BitVec.eq_of_toNat_eq zero))

/-! ## The attention log when it is full (12 R351) -/

/-- Every event counts in ATTN_SEQ. -/
theorem add_seq (a : Attention) (e : AttnEntry) : (a.add e).seq = e.seq := by
  unfold Attention.add
  extract_lets lose counted
  split
  · rfl
  · split
    · rfl
    · split
      · rfl
      · split <;> rfl

section
variable {a : Attention} {e : AttnEntry} (full : a.log.length = 4096)
include full

theorem add_full_acked {i : Nat} (first : a.log.findIdx? (·.acked) = some i) : a.add e = { a with seq := e.seq, log := a.log.eraseIdx i ++ [e] } := by
  simp [Attention.add, full, first]

theorem add_full_low (unread : a.log.findIdx? (·.acked) = none) (low : e.level ≤ 2) :
    a.add e = { a with seq := e.seq, lost := min 2047 (a.lost + 1), lostLevel := max a.lostLevel e.level } := by
  simp [Attention.add, full, unread, low]

theorem add_full_replaces {i : Nat} {x : AttnEntry} (unread : a.log.findIdx? (·.acked) = none) (high : 3 ≤ e.level)
    (first : a.log.findIdx? (fun y => decide (y.level ≤ 2)) = some i) (there : a.log[i]? = some x) :
    a.add e = { seq := e.seq, log := a.log.eraseIdx i ++ [e], lost := min 2047 (a.lost + 1), lostLevel := max a.lostLevel x.level } := by
  have not_low : ¬e.level ≤ 2 := by omega
  simp [Attention.add, full, unread, not_low, first, there]

theorem add_full_high (unread : a.log.findIdx? (·.acked) = none) (high : 3 ≤ e.level) (none : a.log.findIdx? (fun y => decide (y.level ≤ 2)) = none) :
    a.add e = { a with seq := e.seq, lost := min 2047 (a.lost + 1), lostLevel := max a.lostLevel e.level } := by
  have not_low : ¬e.level ≤ 2 := by omega
  simp [Attention.add, full, unread, not_low, none]

end

theorem findIdx?_first {α : Type} {p : α → Bool} {l : List α} {i : Nat} {x : α} (there : l[i]? = some x) (found : p x = true)
    (first : ∀ j y, j < i → l[j]? = some y → p y = false) : l.findIdx? p = some i := by
  obtain ⟨inside, rfl⟩ := List.getElem?_eq_some_iff.1 there
  exact List.findIdx?_eq_some_iff_getElem.2 ⟨inside, found, fun j before => by simp [first j _ before (List.getElem?_eq_getElem (before.trans inside))]⟩

/-- Settles O57: a new event by what the full log has to give up for it. -/
theorem attentionLogReplacement : Obligations.AttentionLogReplacement := by
  unfold Obligations.AttentionLogReplacement
  intro s e full a b lose
  obtain ⟨n, seq, level, acked, added⟩ : ∃ n : AttnEntry, n.seq = a.seq + 1 ∧ n.level = e.level ∧ n.acked = false ∧ b = a.add n := ⟨_, rfl, rfl, rfl, rfl⟩
  have unread (none : ∀ x ∈ a.log, x.acked = false) : a.log.findIdx? (·.acked) = Option.none := List.findIdx?_eq_none_iff.2 none
  have low_iff (x : AttnEntry) : decide (x.level ≤ 2) = false ↔ 3 ≤ x.level := by simp [Nat.lt_iff_add_one_le]
  refine ⟨?_, fun i x there read first => ?_, fun none => ⟨fun low => ?_, fun high i x there low first => ?_, fun high all => ?_⟩⟩
  · rw [added, add_seq, seq]
  · have := add_full_acked (e := n) full (findIdx?_first there read first)
    exact ⟨n, seq, level, acked, by rw [added, this], by rw [added, this], by rw [added, this]⟩
  · have := add_full_low (e := n) full (unread none) (level ▸ low)
    exact ⟨by rw [added, this], by rw [added, this], by rw [added, this, level]⟩
  · have := add_full_replaces (e := n) full (unread none) (level ▸ high)
      (findIdx?_first there (decide_eq_true low) fun j y before at' => (low_iff y).2 (first j y before at')) there
    exact ⟨n, seq, level, acked, by rw [added, this], by rw [added, this], by rw [added, this]⟩
  · have := add_full_high (e := n) full (unread none) (level ▸ high) (List.findIdx?_eq_none_iff.2 fun x hx => (low_iff x).2 (all x hx))
    exact ⟨by rw [added, this], by rw [added, this], by rw [added, this, level]⟩

end Sys2Proof.Machine

/-! PROOFS. Fetches, reply records and MSI-X (12 R339 to R342, R347). -/

namespace Sys2Proof.Machine

/-! ## Fetches (12 R339, R347) -/

section
variable {s : State} {n : Nat}

theorem commandFetch_fetches (inside : n < 64) (able : s.fetches = true) (enabled : (ringGet s.host n).sqEnable = true)
    (filled : (ringGet s.host n).sqHead ≠ (ringGet s.host n).sqDoor) (f : FetchResult) :
    exec (.commandFetch n f) s = .next (match f with | .entry bytes => s.fetched n bytes | .error => s.stopRing n false | .poisoned => s.stopRing n false) := by
  show execCommandFetch n f s = _
  exact (withRing_ok s inside _).trans (congrArg _ (if_pos (by simp [able, enabled, filled])))

theorem commandFetch_idle (inside : n < 64)
    (idle : s.fetches = false ∨ (ringGet s.host n).sqEnable = false ∨ (ringGet s.host n).sqHead = (ringGet s.host n).sqDoor) (f : FetchResult) :
    exec (.commandFetch n f) s = .next s := by
  show execCommandFetch n f s = _
  exact (withRing_ok s inside _).trans (congrArg _ (if_neg (by rcases idle with h | h | h <;> simp [h])))

/-! ## Reply records (12 R341, R342) -/

/-- What a record's write leaves of the host interface, before its MSI-X. -/
def State.recordWritten (s : State) (n : Nat) (w : Reply) (rest : List Reply) : State :=
  let r := ringGet s.host n
  ((s.busWrite (r.rqBase.toNat + 32 * (r.rqProduced.toNat % 2 ^ r.rqExp)) (s.replyBytes w)).putRing n
    { r with waiting := rest, rqProduced := r.rqProduced + 1, armed := false }).writeShadow n

theorem writeReply_space {w : Reply} {rest : List Reply} (waits : (ringGet s.host n).waiting = w :: rest) (enabled : (ringGet s.host n).rqEnable = true)
    (space : ((ringGet s.host n).rqProduced - (ringGet s.host n).rqTail).toNat < 2 ^ (ringGet s.host n).rqExp) :
    s.writeReply n = if (ringGet s.host n).armed then { s.recordWritten n w rest with host := (s.recordWritten n w rest).host.msix n } else s.recordWritten n w rest := by
  unfold State.writeReply
  simp only [waits]
  exact if_pos (by simp only [Ring.canReply, waits, enabled, space, List.isEmpty_cons, Bool.not_false, decide_true, Bool.and_true])

theorem writeReply_full {w : Reply} {rest : List Reply} (waits : (ringGet s.host n).waiting = w :: rest)
    (full : (ringGet s.host n).rqEnable = false ∨ 2 ^ (ringGet s.host n).rqExp ≤ ((ringGet s.host n).rqProduced - (ringGet s.host n).rqTail).toNat) :
    s.writeReply n = s := by
  unfold State.writeReply
  simp only [waits]
  refine if_neg ?_
  rcases full with off | full
  · simp [Ring.canReply, off]
  · rw [Ring.canReply, decide_eq_false (Nat.not_lt.2 full), Bool.and_false]
    exact Bool.false_ne_true

theorem writeReply_none (none : (ringGet s.host n).waiting = []) : s.writeReply n = s := by
  unfold State.writeReply
  simp only [none]

theorem replyWrite_eq (inside : n < 64) : exec (.replyWrite n) s = .next (if s.resetting 7 || s.resetting 8 then s else s.writeReply n) :=
  withRing_ok s inside fun _ => if s.resetting 7 || s.resetting 8 then s else s.writeReply n

theorem replyWrite_writes (inside : n < 64) (up : s.resetting 7 = false) (up' : s.resetting 8 = false) : exec (.replyWrite n) s = .next (s.writeReply n) :=
  (replyWrite_eq inside).trans (congrArg _ (if_neg (by simp [up, up'])))

theorem recordWritten_busWrites (w : Reply) (rest : List Reply) : (s.recordWritten n w rest).host.busWrites = s.host.busWrites
    ++ [((ringGet s.host n).rqBase.toNat + 32 * ((ringGet s.host n).rqProduced.toNat % 2 ^ (ringGet s.host n).rqExp), s.replyBytes w),
      ((ringGet s.host n).rqShadow.toNat, leBytes 4 ((ringGet s.host n).rqProduced + 1).toNat ++ leBytes 4 s.attn.seq.toNat)] := by
  unfold State.recordWritten State.writeShadow
  extract_lets r now
  have taken : now = { r with waiting := rest, rqProduced := r.rqProduced + 1, armed := false } := ringGet_putRing ..
  rw [taken]
  exact List.append_assoc ..

/-- A message changes the messages sent and pending alone. -/
theorem msix_keeps {β : Type} (g : HostIf → β) {h : HostIf} (sent : ∀ x, g { h with msixSent := x } = g h) (pending : ∀ x, g { h with pba := x } = g h) :
    g (h.msix n) = g h := by
  unfold HostIf.msix
  split
  · rfl
  · split
    · exact pending _
    · exact sent _

/-- A message of a vector is not sent where MSI-X is off, is sent where the vector is not masked, and is kept as pending where it is (R342). -/
theorem msix_off {h : HostIf} (off : h.msixEnable = false) (n : Nat) : (h.msix n).msixSent = h.msixSent := by
  rw [HostIf.msix, if_pos (by simp [off])]

theorem msix_sent {h : HostIf} (on : h.msixEnable = true) (unmasked : h.vectorMasked n = false) : (h.msix n).msixSent = h.msixSent ++ [n] := by
  simp [HostIf.msix, on, unmasked]

theorem msix_pending {h : HostIf} (on : h.msixEnable = true) (masked : h.vectorMasked n = true) :
    (h.msix n).msixSent = h.msixSent ∧ (h.msix n).pba = h.pba ||| BitVec.ofNat 64 (2 ^ n) := by
  simp [HostIf.msix, on, masked]

end

/-- Settles O45: a fetch by its ring and what comes back, a record by the space for it and the vector of its ring. -/
theorem fetchesAndReplies : Obligations.FetchesAndReplies := by
  unfold Obligations.FetchesAndReplies
  intro s n inside r
  refine ⟨fun able enabled filled => ⟨fun bytes => ?entry, commandFetch_fetches inside able enabled filled .error,
      commandFetch_fetches inside able enabled filled .poisoned⟩,
    commandFetch_idle inside, fun w rest up up' waits => ⟨fun enabled space => ?written, fun full => ?waits⟩, fun idle => ?idle⟩
  case entry =>
    exact ⟨_, commandFetch_fetches inside able enabled filled (.entry bytes), rfl, rfl, ringGet_putRing ..,
      fun m other => ringGet_putRing_other _ _ _ _ other, rfl, rfl, rfl⟩
  case written =>
    have row := (replyWrite_writes inside up up').trans (congrArg _ (writeReply_space waits enabled space))
    by_cases armed : r.armed = true
    · rw [if_pos armed] at row
      refine ⟨_, row, (msix_keeps (ringGet · n) (fun _ => rfl) (fun _ => rfl)).trans (ringGet_putRing ..),
        (msix_keeps HostIf.busWrites (fun _ => rfl) (fun _ => rfl)).trans (recordWritten_busWrites ..), fun off => ?_,
        fun _ on unmasked => ?_, fun _ on masked => ?_, rfl, rfl, rfl⟩
      · exact msix_off (h := (s.recordWritten n w rest).host) (off.resolve_left (by simp [armed])) n
      · exact msix_sent on unmasked
      · exact msix_pending on masked
    · rw [if_neg armed] at row
      exact ⟨_, row, ringGet_putRing .., recordWritten_busWrites .., fun _ => rfl, fun bad => absurd bad armed, fun bad => absurd bad armed, rfl, rfl, rfl⟩
  case waits => exact (replyWrite_writes inside up up').trans (congrArg _ (writeReply_full waits full))
  case idle =>
    refine (replyWrite_eq inside).trans (congrArg _ ?_)
    rcases idle with up | up | none
    · exact if_pos (by simp [up])
    · exact if_pos (by simp [up])
    · rw [writeReply_none none, ite_self]

end Sys2Proof.Machine

/-! PROOFS. Writes of registers by the state of the module and by the kind of the register, and the rows of a ring (12 R337 to R342, 17 R441 to R446). -/

namespace Sys2Proof.Machine

/-! ## Writes of registers (17 R441 to R446) -/

section
variable {s : State}

/-- A module that is not ready takes no write but one of RESET_CTRL. -/
theorem hostWriteReg_away {off width : Nat} {v : W64} {full : Bool} (away : s.reachable = false ∨ s.writable = false ∧ off ≠ 0x50000) :
    s.hostWriteReg off width v full = s := by
  unfold State.hostWriteReg
  rcases away with away | ⟨away, other⟩
  · exact if_pos (by simp [away])
  · rw [if_neg (c := off = 0x50000 ∧ _) fun here => other here.1]
    simp [away]

theorem writable_stage (ready : s.writable = true) : s.mesa.stage = 0xF ∧ s.resetting 7 = false := by simpa [State.writable] using ready

/-- A ready module drops a low half that is held for another register, then takes the write. -/
theorem hostWriteReg_ready (there : s.reachable = true) (ready : s.writable = true) (off width : Nat) (v : W64) (full : Bool) :
    s.hostWriteReg off width v full = if full = false ∨ ¬(width = 4 ∨ width = 8) ∨ off % width ≠ 0 then (s.dropHeld off).badAccess off 1
      else if width = 8 then (s.dropHeld off).write64Any off v else (s.dropHeld off).write32 off (BitVec.ofNat 32 (lo32 v)) := by
  unfold State.hostWriteReg
  rw [if_neg (by simp [there, (writable_stage ready).1]), if_neg (by simp [ready])]

theorem dropHeld_none (free : s.host.held = none) (off : Nat) : s.dropHeld off = s := by
  unfold State.dropHeld
  rw [free]

theorem dropHeld_own {o off : Nat} {x : W32} (held : s.host.held = some (o, x)) (own : off = o ∨ off = o + 4) : s.dropHeld off = s := by
  unfold State.dropHeld
  simp only [held]
  exact if_pos own

/-- The low half held for a register is discarded and counted (17 R442). -/
def State.halfDropped (s : State) (o : Nat) : State := ({ s with host := { s.host with held := none } } : State).badAccess o 6

theorem dropHeld_other {o off : Nat} {x : W32} (held : s.host.held = some (o, x)) (other : off ≠ o) (other' : off ≠ o + 4) : s.dropHeld off = s.halfDropped o := by
  unfold State.dropHeld
  simp only [held]
  exact if_neg (by simp [other, other'])

/-- A write elsewhere finds the module as it is once the held half is gone. -/
theorem hostWriteReg_dropped {o off : Nat} {x : W32} (there : s.reachable = true) (ready : s.writable = true) (held : s.host.held = some (o, x)) (other : off ≠ o)
    (other' : off ≠ o + 4) (width : Nat) (v : W64) (full : Bool) : s.hostWriteReg off width v full = (s.halfDropped o).hostWriteReg off width v full := by
  rw [hostWriteReg_ready there ready, dropHeld_other held other other', hostWriteReg_ready (s := s.halfDropped o) there ready, dropHeld_none (s := s.halfDropped o) rfl]

theorem ofNat_lo32_zeroExtend (v : W32) : BitVec.ofNat 32 (lo32 (v.zeroExtend 64)) = v := by
  apply BitVec.eq_of_toNat_eq
  simp [lo32]
  omega

theorem host32_ready {off : Nat} (there : s.reachable = true) (ready : s.writable = true) (free : s.host.held = none) (aligned : off % 4 = 0) (v : W32) :
    s.host32 off v = s.write32 off v := by
  rw [State.host32, hostWriteReg_ready there ready, dropHeld_none free, if_neg (by simp [aligned]), if_neg (by decide), ofNat_lo32_zeroExtend]

end

/-! ## The registers of a ring (12 R337) -/

/-- The kind of a word of a ring's registers, by its place in them. -/
def ringKind (base : Nat) : Nat → RegKind
  | 0x00 => .rw64 base
  | 0x04 => .rw64 base
  | 0x08 => .rw32
  | 0x0C => .ro32
  | 0x10 => .rw64 (base + 0x10)
  | 0x14 => .rw64 (base + 0x10)
  | 0x18 => .rw32
  | 0x1C => .rw32
  | 0x20 => .rw64 (base + 0x20)
  | 0x24 => .rw64 (base + 0x20)
  | 0x28 => .wo32
  | _ => .reserved

section
variable {n : Nat} (inside : n < 64)
include inside

theorem regKind_ring {o : Nat} (small : o < 0x40) : regKind (ringAt n + o) = ringKind (ringAt n) o := by
  have low : (ringAt n + o) % 0x40 = o := by unfold ringAt; omega
  unfold regKind
  rw [if_neg (by unfold ringAt; omega), if_neg (by unfold ringAt; omega), if_neg (by unfold ringAt; omega), if_pos (by unfold ringAt; omega), low]
  unfold ringKind
  split <;> simp

/-- Its 64-bit registers: SQ_BASE, RQ_BASE and RQ_SHADOW. -/
theorem ring_wide {o : Nat} (small : o < 0x40) (wide : regKind (ringAt n + o) = .rw64 (ringAt n + o)) : o = 0 ∨ o = 0x10 ∨ o = 0x20 := by
  rw [regKind_ring inside small] at wide
  unfold ringKind at wide
  split at wide <;> simp_all

theorem regKind_door : regKind (0x1000 + 0x40 * n) = .wo32 := by
  unfold regKind
  rw [if_neg (by omega), if_neg (by omega), if_pos (by omega), if_pos (by omega)]

theorem regKind_below_door : regKind (0x0FFC + 0x40 * n) = .reserved := by
  rcases Nat.eq_zero_or_pos n with rfl | some
  · rfl
  · unfold regKind
    rw [if_neg (by omega), if_neg (by omega), if_pos (by omega), if_neg (by omega)]

end

/-- The places that the rows of a ring write: its doorbell, its control registers, its tail and its arm. -/
def ringPlace (n p : Nat) : Prop := p = 0x1000 + 0x40 * n ∨ ∃ q, (q = 0x08 ∨ q = 0x18 ∨ q = 0x1C ∨ q = 0x28) ∧ p = ringAt n + q

/-- No 64-bit register lies there. -/
theorem ringPlace_apart {n p o : Nat} (inside : n < 64) (place : ringPlace n p) (wide : regKind o = .rw64 o) : p ≠ o ∧ p ≠ o + 4 := by
  rcases place with rfl | ⟨q, named, rfl⟩
  · refine ⟨fun same => ?_, fun same => ?_⟩
    · rw [← same, regKind_door inside] at wide
      exact RegKind.noConfusion wide
    · rw [show o = 0x0FFC + 0x40 * n by omega, regKind_below_door inside] at wide
      exact RegKind.noConfusion wide
  · refine ⟨fun same => ?_, fun same => ?_⟩
    · have := ring_wide inside (by omega) (same ▸ wide)
      omega
    · rw [show o = ringAt n + (q - 4) by omega] at wide
      have := ring_wide inside (by omega) wide
      omega

/-! ## Writes of a ring's registers (12 R339 to R342) -/

section
variable {s : State} {n : Nat} (inside : n < 64)
include inside

theorem write32_door (v : W32) : s.write32 (0x1000 + 0x40 * n) v = s.doorbell n v := by
  unfold State.write32 State.write32At
  rw [regKind_door inside]
  dsimp only
  rw [if_neg (by omega), if_pos (by omega), show (0x1000 + 0x40 * n - 0x1000) / 0x40 = n by omega]

/-- A 32-bit write in a ring's registers, by its place. -/
theorem write32_ring {o : Nat} (small : o < 0x40) (kind : ringKind (ringAt n) o = .rw32 ∨ ringKind (ringAt n) o = .wo32) (v : W32) : s.write32 (ringAt n + o) v =
    if o = 0x08 then s.writeSqCtrl n v else if o = 0x18 then s.writeRqCtrl n v else if o = 0x1C then s.putRing n { ringGet s.host n with rqTail := v }
    else if v.getLsbD 0 then s.putRing n { ringGet s.host n with armed := true } else s := by
  have at' : s.write32 (ringAt n + o) v = s.write32At (ringAt n + o) v := by
    unfold State.write32
    rw [regKind_ring inside small]
    rcases kind with kind | kind <;> rw [kind]
  have low : (ringAt n + o) % 0x40 = o := by unfold ringAt; omega
  have number : (ringAt n + o - 0x10000) / 0x40 = n := by unfold ringAt; omega
  rw [at']
  unfold State.write32At
  rw [if_neg (by unfold ringAt; omega), if_neg (by unfold ringAt; omega)]
  dsimp only
  rw [number, low]
  split <;> simp_all

end

/-! ## SQ_CTRL and RQ_CTRL (12 R338 to R340, 17 R443) -/

section
variable (s : State) (n : Nat) (w : W32)

/-- A submission ring as a write of its control register leaves its Error bit, and then its reply ring and size. -/
def Ring.sqCleared (r : Ring) (w : W32) : Ring := { r with sqError := r.sqError && !w.getLsbD 30 }
def Ring.sqSet (r : Ring) (w : W32) : Ring := { r.sqCleared w with sqReply := fld w 16 6, sqExp := fld w 0 5 }

theorem sqCleared_eq (r : Ring) : (if w.getLsbD 30 then { r with sqError := false } else r) = r.sqCleared w := by
  unfold Ring.sqCleared
  split
  next clears => rw [clears, Bool.not_true, Bool.and_false]
  next keeps => rw [Bool.eq_false_iff.2 keeps, Bool.not_false, Bool.and_true]

theorem writeSqCtrl_on (on : (ringGet s.host n).sqEnable = true) :
    s.writeSqCtrl n w = if fld w 16 6 = (ringGet s.host n).sqReply ∧ fld w 0 5 = (ringGet s.host n).sqExp
      then s.putRing n { (ringGet s.host n).sqCleared w with sqEnable := w.getLsbD 31 }
      else (s.putRing n { (ringGet s.host n).sqCleared w with sqEnable := w.getLsbD 31 }).badAccess (ringAt n + 0x08) 3 := by
  unfold State.writeSqCtrl
  extract_lets r r1 reply exp held r2
  have cleared : r1 = r.sqCleared w := sqCleared_eq w r
  rw [show r.sqEnable = true from on]
  rw [if_pos rfl]
  unfold held
  rw [cleared]

theorem writeSqCtrl_off (off : (ringGet s.host n).sqEnable = false) : s.writeSqCtrl n w =
    if !w.getLsbD 31 then s.putRing n ((ringGet s.host n).sqSet w)
    else if (ringGet s.host n).sqBase.toNat % 4096 ≠ 0 ∨ expOk (fld w 0 5) = false ∨ s.ringTooNew n (fld w 0 5) = true then
      (s.putRing n ((ringGet s.host n).sqSet w)).stopRing n false
    else s.putRing n { (ringGet s.host n).sqSet w with sqEnable := true, sqHead := 0, sqDoor := 0 } := by
  unfold State.writeSqCtrl
  extract_lets r r1 reply exp held r2
  have cleared : r1 = r.sqCleared w := sqCleared_eq w r
  rw [show r.sqEnable = false from off]
  rw [if_neg Bool.false_ne_true]
  unfold r2
  rw [cleared]
  rfl

/-- A reply ring as a write of its control register leaves its Error bit, and then its size. -/
def Ring.rqCleared (r : Ring) (w : W32) : Ring := { r with rqError := r.rqError && !w.getLsbD 30 }
def Ring.rqSet (r : Ring) (w : W32) : Ring := { r.rqCleared w with rqExp := fld w 0 5 }

theorem rqCleared_eq (r : Ring) : (if w.getLsbD 30 then { r with rqError := false } else r) = r.rqCleared w := by
  unfold Ring.rqCleared
  split
  next clears => rw [clears, Bool.not_true, Bool.and_false]
  next keeps => rw [Bool.eq_false_iff.2 keeps, Bool.not_false, Bool.and_true]

theorem writeRqCtrl_on (on : (ringGet s.host n).rqEnable = true) :
    s.writeRqCtrl n w = if fld w 0 5 = (ringGet s.host n).rqExp then s.putRing n { (ringGet s.host n).rqCleared w with rqEnable := w.getLsbD 31 }
      else (s.putRing n { (ringGet s.host n).rqCleared w with rqEnable := w.getLsbD 31 }).badAccess (ringAt n + 0x18) 3 := by
  unfold State.writeRqCtrl
  extract_lets r r1 exp held r2
  have cleared : r1 = r.rqCleared w := rqCleared_eq w r
  rw [show r.rqEnable = true from on]
  rw [if_pos rfl]
  unfold held
  rw [cleared]

theorem writeRqCtrl_off (off : (ringGet s.host n).rqEnable = false) : s.writeRqCtrl n w =
    if !w.getLsbD 31 then s.putRing n ((ringGet s.host n).rqSet w)
    else if (ringGet s.host n).rqBase.toNat % 4096 ≠ 0 ∨ (ringGet s.host n).rqShadow.toNat % 8 ≠ 0 ∨
      expOk (fld w 0 5) = false ∨ s.ringTooNew n (fld w 0 5) = true then
      (s.putRing n ((ringGet s.host n).rqSet w)).stopRing n true
    else (s.putRing n { (ringGet s.host n).rqSet w with rqEnable := true, rqProduced := 0, rqTail := 0 }).writeShadow n := by
  unfold State.writeRqCtrl
  extract_lets r r1 exp held r2
  have cleared : r1 = r.rqCleared w := rqCleared_eq w r
  rw [show r.rqEnable = false from off]
  rw [if_neg Bool.false_ne_true]
  unfold r2
  rw [cleared]
  rfl

end

/-! ## The rows of a ring -/

/-- What a row of a ring writes, and where: the same from every state. -/
def writesAt (i : Instr) (p : Nat) (w : W32) : Prop := ∀ s, exec i s = .next (s.host32 p w)

section
variable {s : State} {n : Nat} (inside : n < 64)
include inside

theorem doorbellWrite_at (v : W32) : writesAt (.doorbellWrite n v) (0x1000 + 0x40 * n) v := fun s => withRing_ok s inside fun _ => s.host32 _ v
theorem sqEnable_at (v : W32) : writesAt (.sqEnable n v) (ringAt n + 0x08) (v ||| 0x80000000) := fun s => withRing_ok s inside fun _ => s.host32 _ _
theorem sqDisable_at (v : W32) : writesAt (.sqDisable n v) (ringAt n + 0x08) (v &&& 0x7FFFFFFF) := fun s => withRing_ok s inside fun _ => s.host32 _ _
theorem rqEnable_at (v : W32) : writesAt (.rqEnable n v) (ringAt n + 0x18) (v ||| 0x80000000) := fun s => withRing_ok s inside fun _ => s.host32 _ _
theorem rqDisable_at (v : W32) : writesAt (.rqDisable n v) (ringAt n + 0x18) (v &&& 0x7FFFFFFF) := fun s => withRing_ok s inside fun _ => s.host32 _ _
theorem rqTailWrite_at (v : W32) : writesAt (.rqTailWrite n v) (ringAt n + 0x1C) v := fun s => withRing_ok s inside fun _ => s.host32 _ _
theorem rqArmWrite_at (v : W32) : writesAt (.rqArmWrite n v) (ringAt n + 0x28) v := fun s => withRing_ok s inside fun _ => s.host32 _ _
theorem ringErrorClear_at (reply : Bool) (v : W32) :
    writesAt (.ringErrorClear n reply v) (ringAt n + if reply then 0x18 else 0x08) (v ||| 0x40000000) := fun s => withRing_ok s inside fun _ => s.host32 _ _

end

section
variable {s : State} {i : Instr} {n p : Nat} {w : W32} (row : writesAt i p w)
include row

theorem row_away (place : ringPlace n p) (away : s.reachable = false ∨ s.writable = false) (inside : n < 64) : exec i s = .next s := by
  have other : p ≠ 0x50000 := by
    rcases place with rfl | ⟨q, named, rfl⟩
    · omega
    · unfold ringAt; omega
  exact (row s).trans (congrArg _ (hostWriteReg_away (away.imp_right fun away => ⟨away, other⟩)))

theorem row_drops {o : Nat} {x : W32} (inside : n < 64) (place : ringPlace n p) (there : s.reachable = true) (ready : s.writable = true)
    (held : s.host.held = some (o, x)) (wide : regKind o = .rw64 o) : exec i s = exec i (s.halfDropped o) := by
  obtain ⟨other, other'⟩ := ringPlace_apart inside place wide
  exact (row s).trans ((congrArg _ (hostWriteReg_dropped there ready held other other' ..)).trans (row _).symm)

theorem row_writes (there : s.reachable = true) (ready : s.writable = true) (free : s.host.held = none) (aligned : p % 4 = 0) : exec i s = .next (s.write32 p w) :=
  (row s).trans (congrArg _ (host32_ready there ready free aligned w))

end

/-! ## Doorbells (12 R339, 17 R443, R446) -/

section
variable {s : State} {n : Nat} {v : W32}

theorem doorbell_held (up : s.resetting 6 = true) (n : Nat) (v : W32) :
    s.doorbell n v = { s with host := { s.host with heldDoorbells := s.host.heldDoorbells ++ [(n, v)] } } := if_pos up

variable (up : s.resetting 6 = false)
include up

theorem doorbell_disabled (off : (ringGet s.host n).sqEnable = false) (v : W32) : s.doorbell n v = s.badAccess (0x1000 + 0x40 * n) 4 := by
  unfold State.doorbell
  extract_lets r place behind
  rw [if_neg (by simp [up]), if_pos (by simp [r, off])]

variable (on : (ringGet s.host n).sqEnable = true)
include on

theorem doorbell_behind (least : 1 ≤ ((ringGet s.host n).sqDoor - v).toNat) (most : ((ringGet s.host n).sqDoor - v).toNat ≤ 2 ^ 31) :
    s.doorbell n v = s.badAccess (0x1000 + 0x40 * n) 5 := by
  unfold State.doorbell
  extract_lets r place behind
  rw [if_neg (by simp [up]), if_neg (by simp [r, on]), if_pos ⟨least, most⟩]

theorem doorbell_forward (forward : ((ringGet s.host n).sqDoor - v).toNat = 0 ∨ 2 ^ 31 < ((ringGet s.host n).sqDoor - v).toNat) : s.doorbell n v =
    if 2 ^ (ringGet s.host n).sqExp < (v - (ringGet s.host n).sqHead).toNat ∨ s.ringTooNew n (ringGet s.host n).sqExp = true then s.stopRing n false
    else s.putRing n { ringGet s.host n with sqDoor := v } := by
  unfold State.doorbell
  extract_lets r place behind
  rw [if_neg (by simp [up]), if_neg (by simp [r, on]), if_neg (by simp only [behind, r]; omega)]

end

/-- Settles O44: a row by the state of the module, then by its register; a doorbell by where it points, a control register by whether its ring is enabled. That a
locked field counts only where it changes (log 116) and that a ring too new for version 2 stops late (logs 115, 165) are the model's choices. -/
theorem ringsAndDoorbells : Obligations.RingsAndDoorbells := by
  unfold Obligations.RingsAndDoorbells
  intro s n inside r put rows
  have placed (i : Instr) (row : rows i) : ∃ p w, writesAt i p w ∧ ringPlace n p := by
    rcases row with ⟨v, rfl | rfl | rfl | rfl | rfl | rfl | rfl⟩ | ⟨b, v, rfl⟩
    · exact ⟨_, _, doorbellWrite_at inside v, .inl rfl⟩
    · exact ⟨_, _, sqEnable_at inside v, .inr ⟨_, by simp, rfl⟩⟩
    · exact ⟨_, _, sqDisable_at inside v, .inr ⟨_, by simp, rfl⟩⟩
    · exact ⟨_, _, rqEnable_at inside v, .inr ⟨_, by simp, rfl⟩⟩
    · exact ⟨_, _, rqDisable_at inside v, .inr ⟨_, by simp, rfl⟩⟩
    · exact ⟨_, _, rqTailWrite_at inside v, .inr ⟨_, by simp, rfl⟩⟩
    · exact ⟨_, _, rqArmWrite_at inside v, .inr ⟨_, by simp, rfl⟩⟩
    · exact ⟨_, _, ringErrorClear_at inside b v, .inr ⟨_, by cases b <;> simp, rfl⟩⟩
  refine ⟨fun i row away => ?away, fun i o x row there ready held wide => ?drops,
    fun there ready free => ⟨fun v => ?door, fun i v w row => ?sq, fun i v w row => ?rq, fun v => ?tail⟩⟩
  case away =>
    obtain ⟨p, w, writes, place⟩ := placed i row
    exact row_away writes place away inside
  case drops =>
    obtain ⟨p, w, writes, place⟩ := placed i row
    exact row_drops writes inside place there ready held wide
  case door =>
    have writes : exec (.doorbellWrite n v) s = .next (s.doorbell n v) :=
      (row_writes (doorbellWrite_at inside v) there ready free (by omega)).trans (congrArg _ (write32_door inside v))
    refine ⟨fun up => writes.trans (congrArg _ (doorbell_held up n v)), fun up => ⟨fun on forward fits old => ?_, fun on least most => ?_,
      fun on forward bad => ?_, fun off => ?_⟩⟩
    · exact writes.trans (congrArg _ ((doorbell_forward up on forward).trans (if_neg (not_or.2 ⟨Nat.not_lt.2 fits, Bool.eq_false_iff.1 old⟩))))
    · exact writes.trans (congrArg _ (doorbell_behind up on least most))
    · exact writes.trans (congrArg _ ((doorbell_forward up on forward).trans (if_pos bad)))
    · exact writes.trans (congrArg _ (doorbell_disabled up off v))
  case sq =>
    have writes : exec i s = .next (s.writeSqCtrl n w) := by
      have at' : writesAt i (ringAt n + 0x08) w := by
        rcases row with ⟨rfl, rfl⟩ | ⟨rfl, rfl⟩ | ⟨rfl, rfl⟩
        exacts [sqEnable_at inside v, sqDisable_at inside v, ringErrorClear_at inside false v]
      exact (row_writes at' there ready free (by unfold ringAt; omega)).trans (congrArg _ (write32_ring inside (by omega) (.inl rfl) w))
    refine ⟨fun on same => ?_, fun on other => ?_, fun off disable => ?_, fun off enable good => ?_, fun off enable bad => ?_⟩
    · exact writes.trans (congrArg _ ((writeSqCtrl_on s n w on).trans (if_pos same)))
    · exact writes.trans (congrArg _ ((writeSqCtrl_on s n w on).trans (if_neg other)))
    · exact writes.trans (congrArg _ ((writeSqCtrl_off s n w off).trans (if_pos (by rw [disable]; rfl))))
    · exact writes.trans (congrArg _ ((writeSqCtrl_off s n w off).trans ((if_neg (by simp [enable])).trans (if_neg good))))
    · exact writes.trans (congrArg _ ((writeSqCtrl_off s n w off).trans ((if_neg (by simp [enable])).trans (if_pos bad))))
  case rq =>
    have writes : exec i s = .next (s.writeRqCtrl n w) := by
      have at' : writesAt i (ringAt n + 0x18) w := by
        rcases row with ⟨rfl, rfl⟩ | ⟨rfl, rfl⟩ | ⟨rfl, rfl⟩
        exacts [rqEnable_at inside v, rqDisable_at inside v, ringErrorClear_at inside true v]
      exact (row_writes at' there ready free (by unfold ringAt; omega)).trans (congrArg _ (write32_ring inside (by omega) (.inl rfl) w))
    refine ⟨fun on same => ?_, fun on other => ?_, fun off disable => ?_, fun off enable good => ?_, fun off enable bad => ?_⟩
    · exact writes.trans (congrArg _ ((writeRqCtrl_on s n w on).trans (if_pos same)))
    · exact writes.trans (congrArg _ ((writeRqCtrl_on s n w on).trans (if_neg other)))
    · exact writes.trans (congrArg _ ((writeRqCtrl_off s n w off).trans (if_pos (by rw [disable]; rfl))))
    · exact writes.trans (congrArg _ ((writeRqCtrl_off s n w off).trans ((if_neg (by simp [enable])).trans (if_neg good))))
    · exact writes.trans (congrArg _ ((writeRqCtrl_off s n w off).trans ((if_neg (by simp [enable])).trans (if_pos bad))))
  case tail =>
    have arms : exec (.rqArmWrite n v) s = .next (if v.getLsbD 0 then s.putRing n { ringGet s.host n with armed := true } else s) :=
      (row_writes (rqArmWrite_at inside v) there ready free (by unfold ringAt; omega)).trans (congrArg _ (write32_ring inside (by omega) (.inr rfl) v))
    refine ⟨?_, fun armed => arms.trans (congrArg _ (if_pos armed)), fun unarmed => arms.trans (congrArg _ (if_neg (Bool.eq_false_iff.1 unarmed)))⟩
    exact (row_writes (rqTailWrite_at inside v) there ready free (by unfold ringAt; omega)).trans (congrArg _ (write32_ring inside (by omega) (.inl rfl) v))

end Sys2Proof.Machine

/-! PROOFS. Accesses of the host to registers and to device memory (12 R335, R342, 14 R392, 17 R441 to R446, 07 R213). -/

namespace Sys2Proof.Machine

/-! ## Register writes by their kind (17 R441, R442) -/

section
variable {s : State}

theorem hostWriteReg_malformed (there : s.reachable = true) (ready : s.writable = true) (free : s.host.held = none) {off width : Nat} {full : Bool}
    (bad : full = false ∨ ¬(width = 4 ∨ width = 8) ∨ off % width ≠ 0) (v : W64) : s.hostWriteReg off width v full = s.badAccess off 1 := by
  rw [hostWriteReg_ready there ready, if_pos bad, dropHeld_none free]

theorem host32_high {base : Nat} {lo : W32} (there : s.reachable = true) (ready : s.writable = true) (held : s.host.held = some (base, lo))
    (aligned : (base + 4) % 4 = 0) (hi : W32) : s.host32 (base + 4) hi = s.write32 (base + 4) hi := by
  rw [State.host32, hostWriteReg_ready there ready, dropHeld_own held (.inr rfl), if_neg (by simp [aligned]), if_neg (by decide), ofNat_lo32_zeroExtend]

theorem write32_discarded {off : Nat} (kind : discards off = true) (v : W32) : s.write32 off v = s.badAccess off 2 := by
  unfold discards at kind
  unfold State.write32
  split at kind <;> simp_all

/-- The low half of a 64-bit register is held. -/
theorem write32_low {off : Nat} (kind : regKind off = .rw64 off) (v : W32) : s.write32 off v = { s with host := { s.host with held := some (off, v) } } := by
  unfold State.write32
  rw [kind]
  exact if_pos rfl

/-- Its high half takes effect with the low half that is held. -/
theorem write32_high {base : Nat} {lo : W32} (kind : regKind (base + 4) = .rw64 base) (held : s.host.held = some (base, lo)) (hi : W32) : s.write32 (base + 4) hi =
    ({ s with host := { s.host with held := none } } : State).write64 base (BitVec.ofNat 64 (hi.toNat * 2 ^ 32 + lo.toNat)) := by
  unfold State.write32
  rw [kind, held]
  simp

end

/-! ## RESET_CTRL (14 R392, R399) -/

/-- A reset that is requested runs, or lies in one that runs already. -/
theorem beginReset_runs (s : State) (r : ResetRec) : ∃ y ∈ (s.beginReset r).rst.inProgress, s.domainIn y r = true ∨ y.kind = r.kind := by
  unfold State.beginReset
  split
  next running =>
    obtain ⟨x, runs, contains⟩ := List.any_eq_true.1 running
    exact ⟨_, List.mem_map_of_mem runs, .inl (by rw [if_pos contains]; exact contains)⟩
  · exact ⟨_, List.mem_append_right _ (List.mem_singleton.2 rfl), .inr rfl⟩

/-- Only a reset of the module contains one of kind 0x07. -/
theorem domainIn_module {s : State} {y r : ResetRec} (module : r.kind = 7) (contains : s.domainIn y r = true) : y.kind = 7 ∨ y.kind = 8 := by
  simp [State.domainIn, module] at contains
  omega

theorem domainIn_retrain {s : State} {y r : ResetRec} (retrain : r.kind = 8) (contains : s.domainIn y r = true) : y.kind = 8 := by
  simp [State.domainIn, retrain] at contains
  omega

/-- RESET_CTRL takes its request in every state of a module that can be reached, but for one whose boot has failed (17 R446). -/
theorem host32_resetCtrl {s : State} (there : s.reachable = true) (boots : s.mesa.stage ≠ 0xE) (v : W32) :
    ∃ t : State, s.host32 0x50000 v = t.resetRequest v.toNat := by
  cases ready : s.writable with
  | true =>
    refine ⟨s.dropHeld 0x50000, ?_⟩
    rw [State.host32, hostWriteReg_ready there ready, if_neg (by simp), if_neg (by simp), ofNat_lo32_zeroExtend]
    rfl
  | false =>
    refine ⟨s, ?_⟩
    have low : lo32 (v.zeroExtend 64) = v.toNat := by simp [lo32]; omega
    unfold State.host32 State.hostWriteReg
    rw [if_neg (by simp [there, boots]), if_pos (by simp [ready]), if_pos (by simp), low]

theorem moduleReset_runs (s : State) (cause : Nat) : ∃ y ∈ (s.moduleReset 7 cause).rst.inProgress, y.kind = 7 ∨ y.kind = 8 := by
  obtain ⟨y, runs, contains | same⟩ := beginReset_runs s ⟨7, 0, 0, cause, countedKind 7, [], none, 0, 1⟩
  · exact ⟨y, runs, domainIn_module rfl contains⟩
  · exact ⟨y, runs, .inl same⟩

theorem retrainReset_runs (s : State) (cause : Nat) : ∃ y ∈ (s.moduleReset 8 cause).rst.inProgress, y.kind = 8 := by
  obtain ⟨y, runs, contains | same⟩ := beginReset_runs s ⟨8, 0, 0, cause, countedKind 8, [], none, 0, 1⟩
  · exact ⟨y, runs, domainIn_retrain rfl contains⟩
  · exact ⟨y, runs, same⟩

/-! ## Reads (17 R441, R442) -/

/-- A word that a read returns. -/
def State.wordOut (s : State) (h : HostIf) (w : W32) : State := { s with host := { h with lastRead := some ⟨leBytes 4 w.toNat, false⟩ } }

section
variable {s : State} {off base : Nat}

theorem read32_narrow (narrow : ∀ base, regKind off ≠ .ro64 base ∧ regKind off ≠ .rw64 base) : s.read32 off = s.wordOut s.host (s.visibleWord off) := by
  unfold State.read32
  extract_lets give
  split
  next wide => exact absurd wide (narrow _).1
  next wide => exact absurd wide (narrow _).2
  · rfl

/-- The low half of a 64-bit register latches its high half. -/
theorem read32_low (wide : regKind off = .ro64 off ∨ regKind off = .rw64 off) :
    s.read32 off = s.wordOut { s.host with latch := some (s.visibleWord (off + 4)) } (s.visibleWord off) := by
  unfold State.read32
  rcases wide with wide | wide <;> simp only [wide, if_true] <;> rfl

theorem read32_latched {w : W32} (high : off ≠ base) (fixed : regKind off = .ro64 base) (latched : s.host.latch = some w) : s.read32 off = s.wordOut s.host w := by
  have now : s.host.latch.getD (s.visibleWord off) = w := by rw [latched]; rfl
  unfold State.read32
  simp only [fixed, if_neg high, now]
  rfl

theorem read32_stands (high : off ≠ base) (writes : regKind off = .rw64 base) : s.read32 off = s.wordOut s.host (s.visibleWord off) := by
  unfold State.read32
  simp only [writes, if_neg high]
  rfl

end

/-! ## The device window (12 R335, 07 R204, R213) -/

section
variable {s : State} {off len : Nat} {bytes : List Byte}

/-- What a read of the window returns. -/
def State.readOut (s : State) (bytes : List Byte) (poisoned : Bool) : State := { s with host := { s.host with lastRead := some ⟨bytes, poisoned⟩ } }

theorem bar2Read_away (away : s.bar2Ready (s.host.winBase.toNat + off) = false) (len : Nat) : exec (.bar2Read off len) s = .next s :=
  congrArg Host.Outcome.next (if_neg (by simp [away]))

theorem bar2Write_away (away : s.bar2Ready (s.host.winBase.toNat + off) = false) (bytes : List Byte) : exec (.bar2Write off bytes) s = .next s :=
  congrArg Host.Outcome.next (if_neg (by simp [away]))

variable (ready : s.bar2Ready (s.host.winBase.toNat + off) = true)
include ready

theorem bar2_taken (within : off + len ≤ 2 ^ 36) : (s.bar2Ready (s.host.winBase.toNat + off) && decide (off + len ≤ 2 ^ 36)) = true := by
  rw [ready, decide_eq_true within]
  rfl

/-- Bytes that all answer come back, with a notice where one is poisoned. -/
theorem bar2Read_answers (within : off + len ≤ 2 ^ 36) {g : Nat → Seen} (answers : ∀ i, i < len → s.deviceByte (s.host.winBase.toNat + off + i) = some (g i)) :
    exec (.bar2Read off len) s = .next (if (List.range len).any (fun i => (g i).poisoned)
      then (s.readOut ((List.range len).map (fun i => (g i).byte)) true).raise { level := 1, source := 4, count := s.host.winBase.toNat + off }
      else s.readOut ((List.range len).map (fun i => (g i).byte)) false) := by
  show execBar2Read off len s = _
  unfold execBar2Read
  extract_lets a seen poisoned _ shown
  have found : seen = (List.range len).map (fun i => some (g i)) := List.map_congr_left fun i inside => answers i (List.mem_range.1 inside)
  have known : seen.all Option.isSome = true := by rw [found]; simp
  have hot : poisoned = (List.range len).any (fun i => (g i).poisoned) := by simp only [poisoned, found, List.any_map, Function.comp_def]
  have out : shown = s.readOut ((List.range len).map (fun i => (g i).byte)) poisoned := by
    simp only [shown, found, List.map_map, Function.comp_def]
    rfl
  rw [if_pos (bar2_taken ready within), if_pos known, out, hot]
  cases (List.range len).any (fun i => (g i).poisoned) <;> rfl

/-- Where a byte does not answer, the read gives ones and counts. -/
theorem bar2Read_fails (within : off + len ≤ 2 ^ 36) {i : Nat} (inside : i < len) (silent : s.deviceByte (s.host.winBase.toNat + off + i) = none) :
    exec (.bar2Read off len) s = .next (s.readOut (List.replicate len 0xFF) false).hostBad := by
  show execBar2Read off len s = _
  unfold execBar2Read
  extract_lets a seen
  have unanswered : ¬seen.all Option.isSome = true := fun all =>
    Bool.false_ne_true (List.all_eq_true.1 all none (List.mem_map.2 ⟨i, List.mem_range.2 inside, silent⟩))
  rw [if_pos (bar2_taken ready within), if_neg unanswered]
  rfl

theorem bar2Write_memory (within : off + bytes.length ≤ 2 ^ 36) (some : 0 < bytes.length)
    (memory : s.host.winBase.toNat + off + bytes.length ≤ nearTop ∨ farBase ≤ s.host.winBase.toNat + off ∧ s.host.winBase.toNat + off + bytes.length ≤ farTop) :
    exec (.bar2Write off bytes) s = .next (s.store (s.host.winBase.toNat + off) bytes) := by
  show execBar2Write off bytes s = _
  unfold execBar2Write
  extract_lets a
  rw [if_pos (bar2_taken ready within)]
  rcases memory with near | ⟨least, most⟩
  · rw [regionOf_eq_near.2 ⟨(by simp only [a]; omega : a < nearTop), rfl⟩, regionOf_eq_near.2 ⟨(by simp only [a]; omega : a + bytes.length - 1 < nearTop), rfl⟩]
  · rw [regionOf_eq_far.2 ⟨least, (by simp only [a]; omega : a < farTop)⟩,
      regionOf_eq_far.2 ⟨by simp only [a]; omega, (by simp only [a]; omega : a + bytes.length - 1 < farTop)⟩]

theorem bar2Write_elsewhere (within : off + bytes.length ≤ 2 ^ 36) 
    (notNear : ¬(s.host.winBase.toNat + off < nearTop ∧ s.host.winBase.toNat + off + bytes.length - 1 < nearTop))
    (notFar : ¬(farBase ≤ s.host.winBase.toNat + off ∧ s.host.winBase.toNat + off < farTop ∧ farBase ≤ s.host.winBase.toNat + off + bytes.length - 1
      ∧ s.host.winBase.toNat + off + bytes.length - 1 < farTop)) : exec (.bar2Write off bytes) s = .next s.hostBad := by
  show execBar2Write off bytes s = _
  unfold execBar2Write
  extract_lets a
  rw [if_pos (bar2_taken ready within)]
  split
  next first last => exact absurd ⟨(regionOf_eq_near.1 first).1, (regionOf_eq_near.1 last).1⟩ notNear
  next first last =>
    obtain ⟨least, most⟩ := regionOf_eq_far.1 first
    obtain ⟨least', most'⟩ := regionOf_eq_far.1 last
    exact absurd ⟨least, most, least', most'⟩ notFar
  · rfl

end

/-- Settles O46: a write by the state of the module, by the half that is held, by its form and by its register; a read by its register; the window by its bytes. That a
low half replaces the latch, and the high half of an RW register is read as it stands, is the model's choice (log 134). -/
theorem hostRegisterAndMemoryAccess : Obligations.HostRegisterAndMemoryAccess := by
  unfold Obligations.HostRegisterAndMemoryAccess
  intro s
  refine ⟨fun away => ?away, fun unready => ?unready, fun there ready => ?writes, fun there boots => ?resets, fun there off => ?reads,
    fun there a b => congrArg Host.Outcome.next (if_pos there), fun off len g ready within => ⟨fun answers => ⟨fun clean => ?clean, fun hot => ?hot⟩, ?silent⟩,
    fun off bytes ready within some => ⟨bar2Write_memory ready within some, fun other => bar2Write_elsewhere ready within other.1 other.2⟩,
    fun off len bytes away => ⟨bar2Read_away away len, bar2Write_away away bytes⟩⟩
  case away =>
    have kept {off width v full} : s.hostWriteReg off width v full = s := hostWriteReg_away (.inl away)
    exact ⟨fun _ _ => congrArg Host.Outcome.next kept, fun _ _ _ _ => congrArg Host.Outcome.next kept, fun _ => congrArg Host.Outcome.next kept,
      congrArg Host.Outcome.next kept, congrArg Host.Outcome.next kept, fun _ => congrArg Host.Outcome.next (if_neg (by simp [away])),
      fun _ _ => congrArg Host.Outcome.next (if_neg (by simp [away]))⟩
  case unready =>
    have kept {off width v full} (other : off ≠ 0x50000) : s.hostWriteReg off width v full = s := hostWriteReg_away (.inr ⟨unready, other⟩)
    exact ⟨fun _ _ other => congrArg Host.Outcome.next (kept other), fun _ => congrArg Host.Outcome.next (kept (by decide)),
      fun _ _ _ _ other => congrArg Host.Outcome.next (kept other)⟩
  case writes =>
    refine ⟨fun free v => ?_, fun free off v aligned kind => ?_, fun base lo hi aligned kind held => ?_, fun lo hi held => ?_,
      fun o x off width v full held other other' => ?_, fun free off width v => ?_,
      fun free off v aligned kind => ?_⟩
    · refine congrArg Host.Outcome.next ?_
      rw [hostWriteReg_ready there ready, if_neg (by decide), if_pos rfl, dropHeld_none free]
      rfl
    · exact congrArg Host.Outcome.next ((host32_ready there ready free aligned v).trans (write32_low kind v))
    · exact congrArg Host.Outcome.next ((host32_high there ready held (by omega) hi).trans (write32_high kind held hi))
    · refine congrArg Host.Outcome.next ((host32_high there ready held (by decide) hi).trans ((write32_high (by decide) held hi).trans ?_))
      have whole : (BitVec.ofNat 64 (hi.toNat * 2 ^ 32 + lo.toNat)).toNat = hi.toNat * 2 ^ 32 + lo.toNat := by
        rw [BitVec.toNat_ofNat, Nat.mod_eq_of_lt (by omega)]
      rw [State.write64, if_pos rfl, whole]
    · exact congrArg Host.Outcome.next (hostWriteReg_dropped there ready held other other' width v full)
    · have malformed {width : Nat} {full : Bool} (bad : full = false ∨ ¬(width = 4 ∨ width = 8) ∨ off % width ≠ 0) :
          exec (.registerWrite off width v full) s = .next (s.badAccess off 1) := congrArg _ (hostWriteReg_malformed there ready free bad v)
      exact ⟨malformed (.inl rfl), fun no4 no8 => malformed (.inr (.inl (by simp [no4, no8]))), fun crooked => malformed (.inr (.inr crooked)),
        fun crooked => malformed (.inr (.inr crooked))⟩
    · refine congrArg Host.Outcome.next ?_
      rw [hostWriteReg_ready there ready, if_neg (by simp [aligned]), if_neg (by decide), dropHeld_none free]
      exact write32_discarded kind _
  case resets =>
    obtain ⟨t, asked⟩ := host32_resetCtrl there boots 0x5A
    obtain ⟨u, asked'⟩ := host32_resetCtrl there boots 0xA5
    exact ⟨⟨_, congrArg Host.Outcome.next asked, moduleReset_runs t 5⟩, ⟨_, congrArg Host.Outcome.next asked', retrainReset_runs u 5⟩⟩
  case reads =>
    have aligned' (aligned : off % 4 = 0) : exec (.lowHalfRead off) s = .next (s.read32 off) := congrArg Host.Outcome.next (if_pos (by simp [there, aligned]))
    refine ⟨fun crooked => congrArg Host.Outcome.next (if_neg (by simp [crooked])), fun aligned narrow => (aligned' aligned).trans (congrArg _ (read32_narrow narrow)),
      fun aligned base wide =>
      ⟨fun low => ?_, fun high fixed w latched => ?_, fun high writes => ?_⟩⟩
    · exact (aligned' aligned).trans (congrArg _ (read32_low (low ▸ wide)))
    · exact (aligned' aligned).trans (congrArg _ (read32_latched high fixed latched))
    · exact (aligned' aligned).trans (congrArg _ (read32_stands high writes))
  case clean =>
    refine (bar2Read_answers ready within answers).trans (congrArg _ (if_neg ?_))
    simp only [List.any_eq_true, List.mem_range, not_exists, not_and, Bool.not_eq_true]
    exact clean
  case hot =>
    refine (bar2Read_answers ready within answers).trans (congrArg _ (if_pos ?_))
    simp only [List.any_eq_true, List.mem_range]
    exact hot
  case silent =>
    rintro ⟨i, inside, silent⟩
    exact bar2Read_fails ready within inside silent

end Sys2Proof.Machine

/-! PROOFS. COMMAND_START (12 R346, R347, R355, R361), and what marking a command leaves. -/

namespace Sys2Proof.Machine

/-! ## Commands that are marked -/

section
variable {s : State} {id : Nat} {c : HostCmd}

theorem cmd?_markCmd (found : s.cmd? id = some c) {f : HostCmd → HostCmd} (same : ∀ x, (f x).id = x.id) : (s.markCmd id f).cmd? id = some (f c) :=
  (find?_updWhere (fun x named => by rwa [same]) s.host.cmds).trans (congrArg (Option.map f) found)

theorem cmd?_id (found : s.cmd? id = some c) : c.id = id := by simpa using List.find?_some (p := fun x : HostCmd => x.id == id) found

/-! ## COMMAND_START (12 R346, R347) -/

variable (found : s.cmd? id = some c)
include found

theorem commandStart_waits (early : s.mayStart c = false) : exec (.commandStart id) s = .next s := by
  show execCommandStart id s = _
  unfold execCommandStart
  simp [found, early]

variable (new : c.started = false) (due : s.mayStart c = true)
include new due

theorem commandStart_refused {code result : Nat} (refused : s.refusal c = some (code, result)) : exec (.commandStart id) s = .next (s.complete id code result []) := by
  show execCommandStart id s = _
  unfold execCommandStart
  simp [found, new, due, refused]

theorem commandStart_starts (passes : s.refusal c = none) : exec (.commandStart id) s = .next (s.markCmd id (fun c => { c with started := true })) := by
  show execCommandStart id s = _
  unfold execCommandStart
  simp [found, new, due, passes]

end

/-- Is the context that a command names Closing? -/
def State.namedCloses (s : State) (c : HostCmd) : Bool := (c.named.bind s.ctx?).elim false fun x => x.status == .closing

theorem namedCloses_iff (s : State) (c : HostCmd) : s.namedCloses c = true ↔ ∃ k x, c.named = some k ∧ s.ctx? k = some x ∧ x.status = .closing := by
  unfold State.namedCloses
  cases c.named with
  | none => simp
  | some k => cases there : s.ctx? k <;> simp [there]

/-- The checks from the fifth on, once the first four have passed. -/
theorem refusal_free {s : State} {c : HostCmd} (known : ¬(0x14 ≤ c.opcode ∨ s.host.session = 2 ∧ newOpcode c.opcode = true))
    (opened : ¬(s.host.session = 0 ∧ c.opcode ≠ 0x00 ∧ c.opcode ≠ 0x01)) (served : ¬(s.rst.outOfService && !servedOutOfService c.opcode) = true)
    (free : ¬s.covered c = true) : s.refusal c = c.reserved.elim
      (if !(c.opcode == 0x04) && s.stranger c then some (0x15, 0) else if !(c.opcode == 0x04) && s.namedCloses c then some (0x20, 0) else none)
      fun o => some (badField, o) := by
  have closes : (match c.named.bind s.ctx? with | none => false | some x => x.status == .closing) = s.namedCloses c := by
    unfold State.namedCloses
    cases c.named.bind s.ctx? <;> rfl
  rw [State.refusal, if_neg known, if_neg opened, if_neg served, if_neg free]
  cases c.reserved with
  | none => exact congrArg (fun b => if !(c.opcode == 0x04) && s.stranger c then _ else if !(c.opcode == 0x04) && b then _ else _) closes
  | some o => rfl

/-- Settles O47: the first check that fails is the refusal; reserved codes at the fifth check (log 133) and the session at the start (log 135) are the model's choices. -/
theorem commandStart : Obligations.CommandStart := by
  unfold Obligations.CommandStart
  intro s id c found new known opened served free wellFormed own closing replies
  refine ⟨commandStart_waits found, fun due => ?_⟩
  have refused {code result : Nat} : s.refusal c = some (code, result) → replies code result := commandStart_refused found new due
  have isKnown : ¬(0x14 ≤ c.opcode ∨ s.host.session = 2 ∧ newOpcode c.opcode = true) ↔ known := by simp only [known, not_or, Nat.not_le]
  have isOpened (h : known) : ¬(s.host.session = 0 ∧ c.opcode ≠ 0x00 ∧ c.opcode ≠ 0x01) ↔ opened := by
    simp only [opened, h, true_and]
    omega
  have isServed (h : opened) : ¬(s.rst.outOfService && !servedOutOfService c.opcode) = true ↔ served := by
    simp only [served, h, true_and]
    cases s.rst.outOfService <;> simp
  have isFree (h : served) : ¬s.covered c = true ↔ free := by simp only [free, h, true_and, Bool.not_eq_true]
  have isOwn (h : wellFormed) : ¬(!(c.opcode == 0x04) && s.stranger c) = true ↔ own := by
    simp only [own, h, true_and]
    cases s.stranger c <;> simp
  have isClosing : (!(c.opcode == 0x04) && s.namedCloses c) = true ↔ closing := by
    rw [Bool.and_eq_true, namedCloses_iff, Bool.not_eq_true', beq_eq_false_iff_ne]
  have reserves (h : free) := refusal_free (isKnown.2 h.1.1.1) ((isOpened h.1.1.1).2 h.1.1) ((isServed h.1.1).2 h.1) ((isFree h.1).2 h)
  refine ⟨fun unknown => refused ?_, fun known unopened => refused ?_, fun opened unserved => refused ?_, fun served covered => refused ?_,
    fun free o reserved => refused ?_, fun wellFormed stranger => refused ?_, fun own closes => refused ?_,
    fun own stays => ⟨_, commandStart_starts found new due ?_, cmd?_markCmd found fun _ => rfl, rfl, rfl, rfl, rfl⟩⟩
  · exact if_pos (not_not.1 (mt isKnown.1 unknown))
  · rw [State.refusal, if_neg (isKnown.2 known), if_pos (not_not.1 (mt (isOpened known).1 unopened))]
  · rw [State.refusal, if_neg (isKnown.2 opened.1), if_neg ((isOpened opened.1).2 opened), if_pos (not_not.1 (mt (isServed opened).1 unserved))]
  · rw [State.refusal, if_neg (isKnown.2 served.1.1), if_neg ((isOpened served.1.1).2 served.1), if_neg ((isServed served.1).2 served),
      if_pos (not_not.1 (mt (isFree served).1 covered))]
  · rw [reserves free, reserved]
    rfl
  · rw [reserves wellFormed.1, wellFormed.2, Option.elim_none, if_pos (not_not.1 (mt (isOwn wellFormed).1 stranger))]
  · rw [reserves own.1.1, own.1.2, Option.elim_none, if_neg ((isOwn own.1).2 own), if_pos (isClosing.2 closes)]
  · rw [reserves own.1.1, own.1.2, Option.elim_none, if_neg ((isOwn own.1).2 own), if_neg (mt isClosing.1 stays)]

end Sys2Proof.Machine

/-! PROOFS. NOP, OPEN_SESSION, LOAD_PROGRAM, MAP_MEMORY and CREATE_CONTEXT (12 R354 to R358, 13 R362 to R369). -/

namespace Sys2Proof.Machine

/-! ## NOP and OPEN_SESSION (12 R354, R355) -/

section
variable {s : State} {id : Nat} {c : HostCmd}

theorem sharedVersion_new {highest lowest : Nat} (least : lowest ≤ 3) (most : 3 ≤ highest) : sharedVersion highest lowest = some 3 := if_pos ⟨least, most⟩

theorem sharedVersion_old {lowest : Nat} (least : lowest ≤ 2) : sharedVersion 2 lowest = some 2 := (if_neg (by omega)).trans (if_pos ⟨least, Nat.le_refl 2⟩)

theorem sharedVersion_none {highest lowest : Nat} (apart : highest < 2 ∨ 3 < lowest) : sharedVersion highest lowest = none := by
  rw [sharedVersion, if_neg (by omega), if_neg (by omega)]

theorem inRange_iff {lo hi x : Nat} : inRange lo hi x = true ↔ lo ≤ x ∧ x ≤ hi := by simp [inRange]
theorem inRange_out {lo hi x : Nat} (out : x < lo ∨ hi < x) : inRange lo hi x = false := by
  rw [Bool.eq_false_iff, ne_eq, inRange_iff]
  omega

variable (turn : CmdTurn s id 0x01 c)
include turn

/-- What OPEN_SESSION does with a range of versions that is well formed. -/
theorem openSession_range (h : 1 ≤ c.fieldAt 16 1 ∧ c.fieldAt 16 1 ≤ 15) (l : 1 ≤ c.fieldAt 17 1 ∧ c.fieldAt 17 1 ≤ c.fieldAt 16 1) :
    exec (.openSession id) s = .next ((sharedVersion (c.fieldAt 16 1) (c.fieldAt 17 1)).elim (s.complete id 0x13 0 []) fun v =>
      if s.host.session ≠ 0 ∧ v ≠ s.host.session ∧ s.ctxs.isEmpty = false then s.complete id 0x11 16 []
      else ({ s with host := { s.host with session := v } } : State).complete id 0 v []) := by
  refine (command_proceeds rfl turn ((firstBad_ok (inRange_iff.2 h)).trans (firstBad_ok (inRange_iff.2 l)))).trans (congrArg _ ?_)
  dsimp only
  cases sharedVersion (c.fieldAt 16 1) (c.fieldAt 17 1) <;> rfl

theorem openSession_highest (h : c.fieldAt 16 1 = 0 ∨ 16 ≤ c.fieldAt 16 1) : exec (.openSession id) s = .next (s.complete id 0x12 16 []) :=
  command_refused rfl turn (firstBad_bad (inRange_out (by omega)))

theorem openSession_lowest (least : 1 ≤ c.fieldAt 16 1) (most : c.fieldAt 16 1 ≤ 15) (l : c.fieldAt 17 1 = 0 ∨ c.fieldAt 16 1 < c.fieldAt 17 1) :
    exec (.openSession id) s = .next (s.complete id 0x12 17 []) :=
  command_refused rfl turn ((firstBad_ok (inRange_iff.2 ⟨least, most⟩)).trans (firstBad_bad (inRange_out (by omega))))

end

/-! ## LOAD_PROGRAM (05 R155, 12 R357) -/

section
variable {s : State} {id k : Nat} {c : HostCmd} {x : Ctx} (turn : CtxCmdTurn s id 0x02 c k x)
include turn

theorem loadProgram_slot (slot : 15 < c.fieldAt 16 1) : exec (.loadProgram id) s = .next (s.complete id 0x12 16 []) :=
  ctxCommand_refused rfl turn (firstBad_bad (decide_eq_false (Nat.not_le.2 slot)))

theorem loadProgram_short (slot : c.fieldAt 16 1 ≤ 15) (short : c.fieldAt 20 4 < 64) : exec (.loadProgram id) s = .next (s.complete id 0x12 20 []) :=
  ctxCommand_refused rfl turn ((firstBad_ok (decide_eq_true slot)).trans (firstBad_bad (decide_eq_false (Nat.not_le.2 short))))

theorem loadProgram_place (slot : c.fieldAt 16 1 ≤ 15) (long : 64 ≤ c.fieldAt 20 4)
    (place : ¬(c.fieldAt 24 8 % 64 = 0 ∧ inMemory (c.fieldAt 24 8) (c.fieldAt 20 4) = true)) : exec (.loadProgram id) s = .next (s.complete id 0x12 24 []) :=
  ctxCommand_refused rfl turn ((firstBad_ok (decide_eq_true slot)).trans ((firstBad_ok (decide_eq_true long)).trans (firstBad_bad (by simpa using place))))

/-- A container that is well placed is read, and fills its slot or gives its reason. -/
theorem loadProgram_reads (slot : c.fieldAt 16 1 ≤ 15) (long : 64 ≤ c.fieldAt 20 4) (aligned : c.fieldAt 24 8 % 64 = 0)
    (inside : inMemory (c.fieldAt 24 8) (c.fieldAt 20 4) = true) :
    let bytes := s.readThrough (c.fieldAt 24 8) (c.fieldAt 20 4)
    let t := if s.loadPoison (c.fieldAt 24 8) (c.fieldAt 20 4) then s.spend else s
    exec (.loadProgram id) s = .next ((firstFail (t.loadFails x bytes)).elim
      ((t.putCtx k (x.putProgram (c.fieldAt 16 1) (programOf bytes x.desc.cores))).complete id 0 0 [])
      fun f => t.complete id (loadCode f.reason) f.reason (leBytes 4 f.sec ++ leBytes 4 f.idx)) := by
  intro bytes t
  refine (ctxCommand_proceeds rfl turn ((firstBad_ok (decide_eq_true slot)).trans ((firstBad_ok (decide_eq_true long)).trans
    (firstBad_ok (by simp [aligned, inside]))))).trans (congrArg _ ?_)
  dsimp only
  cases firstFail (t.loadFails x bytes) <;> rfl

end

/-! ## MAP_MEMORY (12 R336, R357, R464) -/

section
variable {s : State} {id k : Nat} {c : HostCmd} {x : Ctx}

theorem mapMemory_again (found : s.cmd? id = some c) (isMap : c.opcode = 3) (begun : c.begun = true) :
    exec (.mapMemory id) s = .next (if s.underOld (c.fieldAt 20 4) c.mark then s else s.complete id 0 0 []) := by
  show execMapMemory id s = _
  unfold execMapMemory
  rw [found]
  exact if_pos (by simp [isMap, begun])

theorem mapMemory_turn (turn : CtxCmdTurn s id 0x03 c k x) : exec (.mapMemory id) s = .next (s.mapMemory id c k x) := by
  show execMapMemory id s = _
  unfold execMapMemory
  rw [turn.fetched]
  exact (if_neg (by simp [turn.fresh])).trans (withCtxCmd_turn turn _)

end

section
variable {s : State} {c : HostCmd} (id k : Nat) (x : Ctx)

theorem mapMemory_grant (isOp : c.fieldAt 16 1 = 1) : s.mapMemory id c k x = s.checked id (s.rangeBad (c.fieldAt 24 8) (c.fieldAt 32 8))
    ((s.putCtx k { x with grants := x.grants ++ [⟨c.fieldAt 24 8, c.fieldAt 32 8, c.fieldAt 17 1 % 8⟩] }).complete id 0 0 []) := by
  unfold State.mapMemory
  simp only [isOp]
  rfl

theorem mapMemory_revoke (isOp : c.fieldAt 16 1 = 2) :
    s.mapMemory id c k x = s.checked id (s.rangeBad (c.fieldAt 24 8) (c.fieldAt 32 8) ++ [wantArg (x.holds (c.fieldAt 24 8) (c.fieldAt 32 8)) outOfRange 24])
      ((s.putCtx k { x with grants := x.grants.flatMap (fun g => g.without (c.fieldAt 24 8) (c.fieldAt 32 8)) }).complete id 0 0 []) := by
  unfold State.mapMemory
  simp only [isOp]
  rfl

/-- The effect of a change of an index: the command goes on while requests under the old entry do. -/
theorem changeEntry_eq (s : State) (id i : Nat) (replaced : Bool) : Host.Outcome.next (ρ := Refusal) (φ := Fault) (s.changeEntry id i replaced) =
    if (replaced && s.underOld i s.net.nextId) = true then .next (s.markCmd id (fun y => { y with begun := true, mark := s.net.nextId }))
    else .next (s.complete id 0 0 []) := apply_ite Host.Outcome.next ..

theorem mapMemory_entry (isOp : c.fieldAt 16 1 = 3) : s.mapMemory id c k x = s.checked id (s.entryBad c k)
    (({ s with xlate := nset s.xlate (c.fieldAt 20 4) (entryOf c (s.xlVersion + 1)), xlVersion := s.xlVersion + 1 } : State).changeEntry id (c.fieldAt 20 4)
      (nfind s.xlate (c.fieldAt 20 4)).isSome) := by
  unfold State.mapMemory
  simp only [isOp]

theorem mapMemory_remove (isOp : c.fieldAt 16 1 = 4) : s.mapMemory id c k x = s.checked id [wantArg (decide (c.fieldAt 20 4 ≤ 4095)) outOfRange 20,
      wantArg ((nfind s.xlate (c.fieldAt 20 4)).elim true fun o => o.ctx == k) badField 20]
    (({ s with xlate := ndel s.xlate (c.fieldAt 20 4) } : State).changeEntry id (c.fieldAt 20 4) (nfind s.xlate (c.fieldAt 20 4)).isSome) := by
  unfold State.mapMemory
  simp only [isOp]
  cases nfind s.xlate (c.fieldAt 20 4) <;> rfl

end

/-- Settles O48: each command by the first of its checks that fails, then by what it asks for. Bytes of poisoned granules as free values (log 77), which fields of a
descriptor are zero (log 79) and the refusal at once of an illegal partition (log 131) are the model's choices. -/
theorem sessionAndContextCommands : Obligations.SessionAndContextCommands := by
  unfold Obligations.SessionAndContextCommands
  intro s id c refused
  refine ⟨fun turn => withCmd_turn turn _, fun turn => ?session, fun k x turn => ?load, fun k x turn => ?map, mapMemory_again, fun k turn names => ?create⟩
  case session =>
    intro h l go fits
    have taken {v : Nat} (shared : sharedVersion h l = some v) (least : 1 ≤ h) (most : h ≤ 15) (low : 1 ≤ l) (high : l ≤ h) :
        (fits v → exec (.openSession id) s = go v) ∧ (¬fits v → exec (.openSession id) s = .next (s.complete id 0x11 16 [])) := by
      have row := openSession_range turn ⟨least, most⟩ ⟨low, high⟩
      rw [show sharedVersion (c.fieldAt 16 1) (c.fieldAt 17 1) = some v from shared, Option.elim_some] at row
      have iff : ¬(s.host.session ≠ 0 ∧ v ≠ s.host.session ∧ s.ctxs.isEmpty = false) ↔ fits v := by
        simp only [fits, List.isEmpty_eq_false_iff]
        tauto
      exact ⟨fun fit => row.trans (congrArg _ (if_neg (iff.2 fit))), fun unfit => row.trans (congrArg _ (if_pos (not_not.1 (mt iff.1 unfit))))⟩
    refine ⟨fun ⟨_, most, least, _⟩ fit => ?_, fun ⟨two, least, _⟩ fit => ?_, fun unfit => ?_, fun none => ?_,
      openSession_highest turn, openSession_lowest turn⟩
    · exact (taken (sharedVersion_new (by assumption) (by assumption)) (by omega) most least (by omega)).1 fit
    · exact (taken (two ▸ sharedVersion_old (by assumption)) (by omega) (by omega) least (by omega)).1 fit
    · rcases unfit with ⟨three, most, least, low, unfit⟩ | ⟨two, least, low, unfit⟩
      · exact (taken (sharedVersion_new low three) (by omega) most least (by omega)).2 unfit
      · exact (taken (two ▸ sharedVersion_old low) (by omega) (by omega) least (by omega)).2 unfit
    · have row := openSession_range turn (by omega) (by omega)
      rwa [sharedVersion_none (by omega), Option.elim_none] at row
  case load =>
    refine ⟨loadProgram_slot turn, loadProgram_short turn, loadProgram_place turn, fun slot long aligned inside => ⟨fun sound => ?_, fun f fails => ?_⟩⟩
    · exact (loadProgram_reads turn slot long aligned inside).trans (by rw [sound, Option.elim_none])
    · exact (loadProgram_reads turn slot long aligned inside).trans (by rw [fails, Option.elim_some])
  case map =>
    intro a n i waits put cut old
    have row := mapMemory_turn turn
    have change (t : State) (checks : List (Option Bad)) (same : t.net = s.net) (good : firstBad checks = none) :
        Host.Outcome.next (ρ := Refusal) (φ := Fault) (s.checked id checks (t.changeEntry id i (nfind s.xlate i).isSome)) =
          if old then waits t else .next (t.complete id 0 0 []) := by
      have under : t.underOld i t.net.nextId = s.underOld i s.net.nextId := by simp only [State.underOld, same]
      rw [checked_good good, changeEntry_eq, under, same]
    have bad {checks : List (Option Bad)} {effect : State} (is : s.mapMemory id c k x = s.checked id checks effect) : refused (.mapMemory id) checks :=
      fun b bad => row.trans (congrArg _ (is.trans (checked_bad bad)))
    refine ⟨fun op => ⟨bad (mapMemory_grant id k x op), fun good => ?_⟩, fun op => ⟨fun good holds => ?_, fun b bad => ?_, fun good lacks => ?_⟩,
      fun op => ⟨bad (mapMemory_entry id k x op), fun good => ?_⟩, fun op within own => ?_, fun op beyond => ?_, fun op within ⟨o, there, other⟩ => ?_⟩
    · exact row.trans (congrArg _ ((mapMemory_grant id k x op).trans (checked_good good)))
    · exact row.trans (congrArg _ ((mapMemory_revoke id k x op).trans (checked_good (by rw [firstBad_append, good]; exact firstBad_ok holds))))
    · exact row.trans (congrArg _ ((mapMemory_revoke id k x op).trans (checked_bad (by rw [firstBad_append, bad]; rfl))))
    · exact row.trans (congrArg _ ((mapMemory_revoke id k x op).trans (checked_bad (b := argBad outOfRange 24)
        (by rw [firstBad_append, good]; exact firstBad_bad lacks))))
    · exact row.trans ((congrArg _ (mapMemory_entry id k x op)).trans (change put _ rfl good))
    · refine row.trans ((congrArg _ (mapMemory_remove id k x op)).trans (change cut _ rfl ((firstBad_ok (decide_eq_true within)).trans (firstBad_ok ?_))))
      cases there : nfind s.xlate (c.fieldAt 20 4) with
      | none => rfl
      | some o => exact beq_iff_eq.2 (own o there)
    · exact row.trans (congrArg _ ((mapMemory_remove id k x op).trans (checked_bad (firstBad_bad (decide_eq_false (Nat.not_le.2 beyond))))))
    · refine row.trans (congrArg _ ((mapMemory_remove id k x op).trans (checked_bad ((firstBad_ok (decide_eq_true within)).trans (firstBad_bad ?_)))))
      rw [there, Option.elim_some]
      exact beq_eq_false_iff_ne.2 other
  case create =>
    intro m
    refine (withCmd_turn turn _).trans (congrArg _ ?_)
    simp only [names]
    cases s.createBad c k <;> rfl

end Sys2Proof.Machine

/-! PROOFS. What the schedule leaves of the commands and the work of a context (13 R364 to R377). -/

namespace Sys2Proof.Machine

/-! ## What neither saves nor restores of cores change -/

/-- The commands in hand are the same, and so is a part of every context. -/
structure SameBy {γ : Type} (g : Ctx → γ) (s t : State) : Prop where
  host : t.host = s.host
  part : ∀ j, (t.ctx? j).map g = (s.ctx? j).map g

section
variable {γ : Type} {g : Ctx → γ} {s t u : State} {k : Nat} {c d : Ctx}

theorem SameBy.refl (s : State) : SameBy g s s := ⟨rfl, fun _ => rfl⟩

theorem SameBy.trans (h : SameBy g s t) (h' : SameBy g t u) : SameBy g s u := ⟨h'.host.trans h.host, fun j => (h'.part j).trans (h.part j)⟩

/-- What a larger part determines stays with it. -/
theorem SameBy.of_part {δ : Type} (f : γ → δ) (h : SameBy g s t) : SameBy (f ∘ g) s t :=
  ⟨h.host, fun j => by rw [← Option.map_map, h.part j, Option.map_map]⟩

theorem SameBy.ite {p : Prop} [Decidable p] {a b : State} (ha : SameBy g s a) (hb : SameBy g s b) : SameBy g s (if p then a else b) := by
  split <;> assumption

theorem SameBy.foldl {α : Type} {f : State → α → State} {l : List α} (h : SameBy g s t) (hf : ∀ u a, SameBy g s u → SameBy g s (f u a)) :
    SameBy g s (l.foldl f t) := by
  induction l generalizing t with
  | nil => exact h
  | cons a l ih => exact ih (hf t a h)

theorem SameBy.frame (h : SameBy g s t) (host : u.host = t.host := by rfl) (ctxs : u.ctxs = t.ctxs := by rfl) : SameBy g s u :=
  h.trans ⟨host, fun j => congrArg (fun l => (nfind l j).map g) ctxs⟩

theorem SameBy.putCtx (h : SameBy g s t) (hc : t.ctx? k = some c) (same : g d = g c) : SameBy g s (t.putCtx k d) := by
  refine h.trans ⟨rfl, fun j => ?_⟩
  by_cases here : j = k
  · rw [here, ctx?_putCtx, hc, Option.map_some, Option.map_some, same]
  · rw [ctx?_putCtx_other t k j d here]

theorem SameBy.updCtx {f : Ctx → Ctx} (h : SameBy g s t) (keeps : ∀ c, g (f c) = g c) : SameBy g s (t.updCtx k f) := by
  unfold State.updCtx
  split
  · exact h
  next c hc => exact h.putCtx hc (keeps c)

theorem SameBy.found (h : SameBy g s t) (hc : s.ctx? k = some c) : ∃ d, t.ctx? k = some d ∧ g d = g c :=
  Option.map_eq_some_iff.1 ((h.part k).trans (congrArg (Option.map g) hc))

end

/-- What a context has to do: its program, its STEPs, and whether it is on its cores. -/
def Ctx.tasks (c : Ctx) : (Option RunPhase × List StepRun) × CtxStatus := ((c.run, c.steps), c.status)

/-- What a context has to do, wherever its state lies. -/
def Ctx.work (c : Ctx) : Option RunPhase × List StepRun := c.tasks.1

section
variable {s t : State} {k l : Nat} {c : Ctx}

theorem SameBy.work (h : SameBy Ctx.tasks s t) : SameBy Ctx.work s t := h.of_part Prod.fst

/-! ## Saves, restores and starts of programs -/

theorem putRange_host (s : State) (a n : Nat) (b : SMap 8) (p : SMap 1) : (s.putRange a n b p).host = s.host := rfl

theorem stores_host {α : Type} (a : α → Nat) (b : State → α → List Byte) (l : List α) (s : State) :
    (l.foldl (fun (t : State) x => t.store (a x) (b t x)) s).host = s.host := foldl_keeps State.host _ (fun t x => store_host t (a x) (b t x)) l s

theorem saveOpaque_host (s : State) (a : Nat) : (s.saveOpaque a).host = s.host := by
  unfold State.saveOpaque
  rw [spend_host]
  exact stores_host (fun r : Nat × Nat => a + r.1) (fun t r => t.freeBytes r.2) [row1, row3, row5] s

theorem saveCore_host (s : State) (c : Ctx) (l : Nat) (x : Core) : (s.saveCore c l x).1.host = s.host := by
  unfold State.saveCore
  split
  · rfl
  · simp only
    rw [putRange_host, putRange_host, putRange_host, putRange_host, putRange_host, saveOpaque_host]

theorem SameBy.saveOne (h : SameBy Ctx.tasks s t) : SameBy Ctx.tasks s (t.saveOne k l) := by
  unfold State.saveOne
  split
  · exact h
  next c hc =>
    split
    · exact h
    next x hx =>
      have saved : (t.saveCore c l x).1.ctx? k = some c := (congrArg (nfind · k) (saveCore_ctxs t c l x)).trans hc
      exact (h.frame (saveCore_host t c l x) (saveCore_ctxs t c l x)).putCtx (d := c.putCore l (t.saveCore c l x).2) saved rfl

theorem SameBy.park (h : SameBy Ctx.tasks s t) : SameBy Ctx.tasks s (t.park k l) :=
  h.saveOne.updCtx fun c => by split <;> rfl

theorem SameBy.saveAll (h : SameBy Ctx.tasks s t) : SameBy Ctx.tasks s (t.saveAll k) := by
  unfold State.saveAll
  split
  · exact h
  · exact h.foldl fun _ _ h => h.saveOne

theorem restoreOne_tasks (c : Ctx) (s : State) (l : Nat) : (c.restoreOne s l).tasks = c.tasks := by
  unfold Ctx.restoreOne
  split
  · rfl
  · dsimp only
    split <;> rfl

theorem restoreThe_tasks (c : Ctx) (s : State) (p : Core → Bool) : (c.restoreThe s p).tasks = c.tasks := by
  refine foldl_keeps Ctx.tasks _ (fun d x => ?_) _ c
  split
  · exact restoreOne_tasks d s x.1
  · rfl

theorem SameBy.startNow {key : BitVec 128} {version : Nat} (h : SameBy Ctx.tasks s t) : SameBy Ctx.tasks s (startNow t k key version) := by
  unfold Machine.startNow
  split
  · exact h
  next c hc =>
    split
    · exact h
    · refine SameBy.foldl (h.putCtx hc ?_) fun _ _ h => h.park
      exact restoreThe_tasks c t _

/-- A loaded program becomes the one that the context has to run. -/
theorem startProgram_tasks {run : RunPhase} (key : BitVec 128) (version : Nat) (hc : s.ctx? k = some c) (loaded : (nfind c.slots run.slot).isSome = true) :
    SameBy Ctx.tasks (s.putCtx k { c with run := some run }) (startProgram s k run key version) := by
  obtain ⟨p, hp⟩ := Option.isSome_iff_exists.1 loaded
  have put : SameBy Ctx.tasks (s.putCtx k { c with run := some run }) (s.putCtx k { c with run := some run, deferred := some (key, version) }) := by
    refine ⟨rfl, fun j => ?_⟩
    by_cases here : j = k
    · rw [here, ctx?_putCtx, ctx?_putCtx]
      rfl
    · rw [ctx?_putCtx_other s k j _ here, ctx?_putCtx_other s k j _ here]
  unfold startProgram
  simp only [hc, hp]
  exact put.startNow.ite put

/-! ## The schedule (13 R364 to R377) -/

theorem replan_work (s : State) (c : Ctx) : (s.replan c).work = c.work := by
  unfold State.replan
  split <;> rfl

theorem SameBy.becomeRunning {stored : Bool} (h : SameBy Ctx.work s t) : SameBy Ctx.work s (t.becomeRunning k stored) := by
  unfold State.becomeRunning
  split
  · exact h
  next c hc =>
    dsimp only
    generalize measures : List.foldl _ t _ = m
    have measured : SameBy Ctx.work t m := by
      rw [← measures]
      exact (SameBy.refl t).foldl fun u x h =>
        have cleared := h.updCtx (k := x.1) (f := fun y => { y with asked := none }) fun _ => rfl
        SameBy.ite cleared.frame cleared
    obtain ⟨d, hd, same⟩ := measured.found hc
    have put := (h.trans measured).putCtx
      (d := { (m.replan c) with status := .running, placed := m.st.now, resume := false, preempt := false, asked := none, lateFrom := none })
      hd ((replan_work m c).trans same.symm)
    split
    · exact put
    · exact put.trans (SameBy.refl _).startNow.work

theorem SameBy.takeCores (h : SameBy Ctx.work s t) : SameBy Ctx.work s (t.takeCores k) := by
  unfold State.takeCores
  split
  · exact h
  next c _ =>
    have saved : SameBy Ctx.work s ((t.rivals k c).foldl (fun t x => if x.2.status == .idle then t.saveAll x.1 else t) t) :=
      h.foldl fun _ _ h => (h.trans (SameBy.refl _).saveAll.work).ite h
    exact (saved.ite saved.becomeRunning).ite h

theorem SameBy.schedule (h : SameBy Ctx.work s t) : SameBy Ctx.work s t.schedule := by
  unfold State.schedule State.settleCores
  dsimp only
  refine SameBy.foldl (h.foldl fun u x h => ?_) fun _ _ h => h.takeCores
  have asked : SameBy Ctx.work s (u.askToLeave x.1 u.st.now.toNat) := by
    refine h.updCtx fun c => ?_
    split <;> rfl
  exact (h.ite (asked.ite h)).ite (h.updCtx fun _ => rfl)

/-- A context that wakes keeps what it has to do. -/
theorem SameBy.wake (h : SameBy Ctx.work s t) : SameBy Ctx.work s (t.wake k) := by
  unfold State.wake State.becomeWaiting
  split
  · exact h
  next c hc =>
    split
    · exact (h.putCtx (d := { c with status := .waiting, vtime := _ }) hc rfl).schedule
    · exact h

/-- Only an Idle context wakes (13 R364). -/
theorem wake_of_not_idle (hc : s.ctx? k = some c) (busy : c.status ≠ .idle) : s.wake k = s := by
  unfold State.wake
  rw [hc]
  exact if_neg (by simpa using busy)

end

end Sys2Proof.Machine

/-! PROOFS. Commands on a context's work (12 R357 to R361, 13 R378, 10 R302 to R308). -/

namespace Sys2Proof.Machine

/-! ## Checks that commands on a context share -/

/-- A slot that a command may name. -/
def Ctx.loaded (x : Ctx) (slot : Nat) : Prop := slot ≤ 15 ∧ (nfind x.slots slot).isSome = true

section
variable {x : Ctx} {slot off : Nat}

theorem slotBad_beyond (beyond : 15 < slot) : firstBad (x.slotBad slot off) = some (argBad outOfRange off) := firstBad_bad (decide_eq_false (Nat.not_le.2 beyond))

theorem slotBad_empty (within : slot ≤ 15) (empty : (nfind x.slots slot).isSome = false) : firstBad (x.slotBad slot off) = some (argBad badField off) :=
  (firstBad_ok (decide_eq_true within)).trans (firstBad_bad empty)

theorem slotBad_loaded (loaded : x.loaded slot) : firstBad (x.slotBad slot off) = none :=
  (firstBad_ok (decide_eq_true loaded.1)).trans (firstBad_ok loaded.2)

theorem slotBad_unloaded (un : ¬x.loaded slot) : ∃ code, (code = 0x11 ∨ code = 0x12) ∧ firstBad (x.slotBad slot off) = some (argBad code off) := by
  rcases Nat.lt_or_ge 15 slot with beyond | within
  · exact ⟨_, .inr rfl, slotBad_beyond beyond⟩
  · exact ⟨_, .inl rfl, slotBad_empty within (Bool.eq_false_iff.2 fun full => un ⟨within, full⟩)⟩

/-- A refusal of a field says which byte. -/
theorem argBad_result {code off : Nat} (codes : code = 0x11 ∨ code = 0x12) (within : off < 65536) : (argBad code off).result = off :=
  (if_pos codes).trans (Nat.mod_eq_of_lt within)

theorem firstBad_single (b : Option Bad) : firstBad [b] = b := by cases b <;> rfl

/-- Only a learner with a checkpoint area takes and restores checkpoints. -/
theorem checkpoints_iff (x : Ctx) : (x.desc.kind == 2 && x.desc.ckptAddr != 0) = true ↔ x.desc.kind = 2 ∧ x.desc.ckptAddr ≠ 0 := by
  rw [Bool.and_eq_true, beq_iff_eq, bne_iff_ne]

end

section
variable {s : State} {id k : Nat} {c : HostCmd} {x : Ctx}

theorem begin_begun {op : Nat} (turn : CmdTurn s id op c) {t : State} (same : t.host = (s.begin' id).host) : (t.cmd? id).map HostCmd.begun = some true := by
  have found : t.cmd? id = (s.begin' id).cmd? id := by rw [State.cmd?, same, State.cmd?]
  exact congrArg (Option.map HostCmd.begun) (found.trans (cmd?_markCmd turn.fetched fun _ => rfl))

/-! ## DESTROY_CONTEXT (12 R361, 13 R378) -/

theorem completeAll_ctxs (s : State) (ids : List Nat) (code : Nat) : (s.completeAll ids code).ctxs = s.ctxs :=
  completes_keeps code State.ctxs (fun t id => complete_ctxs t id code 0 []) ids s

theorem tellFailures_ctxs (s : State) (k : Nat) (c : Ctx) (poison : Bool) : (tellFailures s k c poison).ctxs = s.ctxs :=
  foldl_keeps State.ctxs _ (fun t st => (tellFailure_sentOnly t k c st false poison).ctxs) _ s

theorem destroy_closes (id : Nat) (hc : s.ctx? k = some x) (going : x.status ≠ .closing) :
    ∃ y, (s.destroy id k x).ctx? k = some y ∧ y.status = .closing ∧ y.run = none ∧ y.steps = [] ∧ y.closeCmd = some id := by
  unfold State.destroy
  extract_lets others runs t u
  have told : (tellFailures u k x false).ctx? k = some x :=
    (congrArg (nfind · k) ((tellFailures_ctxs ..).trans ((completeAll_ctxs ..).trans (completeAll_ctxs ..)))).trans hc
  obtain ⟨y, hy, status, run, steps⟩ := beginClose_closing told going
  exact ⟨_, ctx?_updCtx _ _ _ y hy, status, run, steps, rfl⟩

/-! ## RUN (12 R359) -/

theorem run_starts (turn : CtxCmdTurn s id 0x06 c k x) (loaded : x.loaded (c.fieldAt 16 1)) : ∃ t y, exec (.run id) s = .next t ∧ t.ctx? k = some y
    ∧ (t.cmd? id).map HostCmd.begun = some true ∧ y.run = some (RunPhase.of id (c.fieldAt 16 1) (BitVec.ofNat 64 (c.fieldAt 24 8)))
    ∧ (x.status ≠ .idle → y.status = x.status) := by
  have runs := startProgram_tasks (run := RunPhase.of id (c.fieldAt 16 1) (BitVec.ofNat 64 (c.fieldAt 24 8)))
    (grainKey "VXGRKEY1" x.digestJob (BitVec.ofNat 64 (c.fieldAt 24 8))) 0 (s := s.begin' id) turn.hasCtx loaded.2
  obtain ⟨d, hd, tasks⟩ := runs.found (ctx?_putCtx ..)
  have woken := runs.work.wake (k := k)
  obtain ⟨y, hy, work⟩ := woken.found (ctx?_putCtx ..)
  refine ⟨_, y, ctxCommand_proceeds rfl turn (slotBad_loaded loaded), hy, begin_begun turn.toCmdTurn woken.host, congrArg Prod.fst work, fun busy => ?_⟩
  have status : d.status = x.status := congrArg Prod.snd tasks
  rw [wake_of_not_idle hd (status ▸ busy), hd] at hy
  exact Option.some.inj hy ▸ status


/-! ## STEP (01 R26, 12 R359) -/

/-- The slots that a STEP names: the rollouts' one may be none. -/
def Ctx.slotsLoaded (x : Ctx) (slots : List Nat) : Prop :=
  (slots.getD 0 0 = 0xFF ∨ x.loaded (slots.getD 0 0)) ∧ x.loaded (slots.getD 1 0) ∧ x.loaded (slots.getD 2 0) ∧ x.loaded (slots.getD 3 0)

/-- The checks of the slots that a STEP names. -/
def Ctx.placesBad (x : Ctx) (slots : List Nat) : List (Option Bad) :=
  (if slots.getD 0 0 = 0xFF then [] else x.slotBad (slots.getD 0 0) 16) ++ x.slotBad (slots.getD 1 0) 17 ++ x.slotBad (slots.getD 2 0) 18
    ++ x.slotBad (slots.getD 3 0) 19

theorem firstBad_placesBad (x : Ctx) (slots : List Nat) : firstBad (x.placesBad slots) =
    (firstBad (if slots.getD 0 0 = 0xFF then [] else x.slotBad (slots.getD 0 0) 16)).or ((firstBad (x.slotBad (slots.getD 1 0) 17)).or
      ((firstBad (x.slotBad (slots.getD 2 0) 18)).or (firstBad (x.slotBad (slots.getD 3 0) 19)))) := by
  simp only [Ctx.placesBad, firstBad_append, Option.or_assoc]

theorem firstSlot_good {slot : Nat} (good : slot = 0xFF ∨ x.loaded slot) : firstBad (if slot = 0xFF then [] else x.slotBad slot 16) = none := by
  split
  · rfl
  next named => exact slotBad_loaded (good.resolve_left named)

theorem placesBad_loaded {slots : List Nat} (loaded : x.slotsLoaded slots) : firstBad (x.placesBad slots) = none := by
  obtain ⟨first, second, third, fourth⟩ := loaded
  rw [firstBad_placesBad, firstSlot_good first, slotBad_loaded second, slotBad_loaded third, slotBad_loaded fourth]
  rfl

/-- The first of a STEP's slots that is not loaded refuses it. -/
theorem placesBad_unloaded {slots : List Nat} (un : ¬x.slotsLoaded slots) :
    ∃ code off, (code = 0x11 ∨ code = 0x12) ∧ 16 ≤ off ∧ off ≤ 19 ∧ firstBad (x.placesBad slots) = some (argBad code off) := by
  rw [firstBad_placesBad]
  by_cases first : slots.getD 0 0 = 0xFF ∨ x.loaded (slots.getD 0 0)
  · rw [firstSlot_good first, Option.none_or]
    by_cases second : x.loaded (slots.getD 1 0)
    · rw [slotBad_loaded second, Option.none_or]
      by_cases third : x.loaded (slots.getD 2 0)
      · obtain ⟨code, codes, bad⟩ := slotBad_unloaded (off := 19) fun fourth => un ⟨first, second, third, fourth⟩
        exact ⟨code, 19, codes, by decide, by decide, by rw [slotBad_loaded third, Option.none_or, bad]⟩
      · obtain ⟨code, codes, bad⟩ := slotBad_unloaded (off := 18) third
        exact ⟨code, 18, codes, by decide, by decide, by rw [bad, Option.some_or]⟩
    · obtain ⟨code, codes, bad⟩ := slotBad_unloaded (off := 17) second
      exact ⟨code, 17, codes, by decide, by decide, by rw [bad, Option.some_or]⟩
  · obtain ⟨code, codes, bad⟩ := slotBad_unloaded (off := 16) (mt Or.inr first)
    exact ⟨code, 16, codes, by decide, by decide, by rw [if_neg (mt Or.inl first), bad, Option.some_or]⟩

/-- The slots that a STEP names. -/
def HostCmd.stepSlots (c : HostCmd) : List Nat := (List.range 4).map (fun i => c.fieldAt (16 + i) 1)

/-- Is a counter later than that of the latest completed step or restored checkpoint? -/
def Ctx.newer (x : Ctx) (counter : Nat) : Bool := x.lastDone.elim true fun n => decide (n < counter)

/-- The checks of a STEP, in their order. -/
def HostCmd.stepBad (c : HostCmd) (x : Ctx) : Option Bad :=
  (wantArg (x.desc.kind == 2) badField 8).or ((firstBad (x.placesBad c.stepSlots)).or ((firstBad (x.paramsBad (c.stepSlots.getD 2 0))).or
    (wantArg (x.newer (c.fieldAt 24 8)) outOfRange 24)))

theorem stepBad_eq (c : HostCmd) (x : Ctx) : c.stepBad x = firstBad ([wantArg (x.desc.kind == 2) badField 8] ++ (if c.stepSlots.getD 0 0 = 0xFF then []
    else x.slotBad (c.stepSlots.getD 0 0) 16) ++ x.slotBad (c.stepSlots.getD 1 0) 17 ++ x.slotBad (c.stepSlots.getD 2 0) 18 ++ x.slotBad (c.stepSlots.getD 3 0) 19
    ++ x.paramsBad (c.stepSlots.getD 2 0) ++ [wantArg (match x.lastDone with | none => true | some n => decide (n < c.fieldAt 24 8)) outOfRange 24]) := by
  have newer : (match x.lastDone with | none => true | some n => decide (n < c.fieldAt 24 8)) = x.newer (c.fieldAt 24 8) := by
    unfold Ctx.newer
    cases x.lastDone <;> rfl
  simp only [HostCmd.stepBad, firstBad_placesBad, firstBad_append, firstBad_single, Option.or_assoc, newer]

theorem step_refused (turn : CtxCmdTurn s id 0x07 c k x) {b : Bad} (bad : c.stepBad x = some b) : exec (.step id) s = .next (s.complete id b.code b.result []) :=
  ctxCommand_refused rfl turn ((stepBad_eq c x).symm.trans bad)

/-- The context with the STEP that it takes. -/
def HostCmd.stepTaken (c : HostCmd) (id : Nat) (x : Ctx) : Ctx :=
  { x with steps := x.steps ++ [StepRun.start id (c.fieldAt 24 8) c.stepSlots (c.fieldAt 20 1 % 2 == 1)] }

theorem step_taken (turn : CtxCmdTurn s id 0x07 c k x) (good : c.stepBad x = none) :
    exec (.step id) s = .next (((s.begin' id).putCtx k (c.stepTaken id x)).wake k) :=
  (ctxCommand_proceeds (i := .step id) rfl turn ((stepBad_eq c x).symm.trans good)).trans rfl

theorem newer_iff (x : Ctx) (counter : Nat) : x.newer counter = true ↔ ∀ n, x.lastDone = some n → n < counter := by
  unfold Ctx.newer
  cases x.lastDone <;> simp

section
variable (learner : x.desc.kind = 2)
include learner

theorem stepBad_of_kind : c.stepBad x = (firstBad (x.placesBad c.stepSlots)).or ((firstBad (x.paramsBad (c.stepSlots.getD 2 0))).or
    (wantArg (x.newer (c.fieldAt 24 8)) outOfRange 24)) := by
  rw [HostCmd.stepBad, wantArg, if_pos (beq_iff_eq.2 learner), Option.none_or]

variable (loaded : x.slotsLoaded c.stepSlots)
include loaded

theorem stepBad_of_loaded : c.stepBad x = (firstBad (x.paramsBad (c.stepSlots.getD 2 0))).or (wantArg (x.newer (c.fieldAt 24 8)) outOfRange 24) := by
  rw [stepBad_of_kind learner, placesBad_loaded loaded, Option.none_or]

/-- A STEP that begins is the context's newest; a context that is not Idle changes in no other way. -/
theorem step_starts (turn : CtxCmdTurn s id 0x07 c k x) (params : firstBad (x.paramsBad (c.stepSlots.getD 2 0)) = none)
    (newer : x.newer (c.fieldAt 24 8) = true) : ∃ t y, exec (.step id) s = .next t ∧ (t.cmd? id).map HostCmd.begun = some true ∧ t.ctx? k = some y
      ∧ y.steps = (c.stepTaken id x).steps ∧ (x.status ≠ .idle → y = { x with steps := y.steps } ∧ t.mem = s.mem) := by
  have good : c.stepBad x = none := by rw [stepBad_of_loaded learner loaded, params, wantArg, if_pos newer, Option.none_or]
  have woken := (SameBy.refl ((s.begin' id).putCtx k (c.stepTaken id x))).wake (k := k)
  obtain ⟨y, hy, work⟩ := woken.found (ctx?_putCtx ..)
  have steps : y.steps = (c.stepTaken id x).steps := congrArg Prod.snd work
  refine ⟨_, y, step_taken turn good, begin_begun turn.toCmdTurn woken.host, hy, steps, fun busy => ?_⟩
  have stays := wake_of_not_idle (s := (s.begin' id).putCtx k (c.stepTaken id x)) (ctx?_putCtx ..) busy
  rw [stays, ctx?_putCtx] at hy
  rw [stays, steps]
  exact ⟨(Option.some.inj hy).symm, rfl⟩

end

/-! ## PUBLISH_WEIGHTS (12 R360, 10 R302, R303) -/

/-- A target for which a command has a version wait. -/
def Publication.awaits (p : Publication) (id version : Nat) : Publication := { p with waiting := version, next := p.next ++ [id] }

/-- The publication list once a version waits for one of its targets. -/
def awaitOne (id version : Nat) (ps : List Publication) (p : Publication) : List Publication := updWhere ps (fun y => y.entry == p.entry) (fun _ => p.awaits id version)

theorem awaitOne_entries (id version : Nat) (ps : List Publication) (p : Publication) : (awaitOne id version ps p).map (·.entry) = ps.map (·.entry) := by
  unfold awaitOne updWhere
  rw [List.map_map]
  refine List.map_congr_left fun y _ => ?_
  by_cases same : (y.entry == p.entry) = true
  · exact (congrArg Publication.entry (if_pos same)).trans (beq_iff_eq.1 same).symm
  · exact congrArg Publication.entry (if_neg same)

theorem awaitOne_other {id version : Nat} {ps : List Publication} {p q : Publication} (there : q ∈ ps) (other : p.entry ≠ q.entry) : q ∈ awaitOne id version ps p :=
  List.mem_map.2 ⟨q, there, if_neg fun same => other (beq_iff_eq.1 same).symm⟩

theorem awaitOne_self {id version : Nat} {ps : List Publication} {p : Publication} (there : p.entry ∈ ps.map (·.entry)) :
    p.awaits id version ∈ awaitOne id version ps p := by
  obtain ⟨q, member, same⟩ := List.mem_map.1 there
  exact List.mem_map.2 ⟨q, member, if_pos (beq_iff_eq.2 same)⟩

section
variable {id version : Nat} {l : List Publication}

/-- Targets that are not named stay as they are. -/
theorem awaitAll_other {q : Publication} (others : ∀ p ∈ l, p.entry ≠ q.entry) : ∀ {ps : List Publication},
    q ∈ ps → q ∈ l.foldl (awaitOne id version) ps := by
  induction l with
  | nil => exact fun there => there
  | cons p l ih => exact fun there => ih (fun p' member => others p' (.tail p member)) (awaitOne_other there (others p (.head l)))

/-- Every named target has the version wait for it. -/
theorem awaitAll_named (once : (l.map (·.entry)).Nodup) : ∀ {ps : List Publication}, (∀ p ∈ l, p.entry ∈ ps.map (·.entry)) → ∀ p ∈ l,
    p.awaits id version ∈ l.foldl (awaitOne id version) ps := by
  induction l with
  | nil => exact fun _ p member => absurd member List.not_mem_nil
  | cons q l ih =>
    intro ps there p member
    obtain ⟨new, once⟩ := List.nodup_cons.1 once
    rcases List.mem_cons.1 member with rfl | later
    · exact awaitAll_other (q := p.awaits id version) (fun p' later same => new (List.mem_map.2 ⟨p', later, same⟩)) (awaitOne_self (there p (.head l)))
    · exact ih once (fun p' later => awaitOne_entries id version ps q ▸ there p' (.tail q later)) p later

end

/-- A publication changes its context alone, and there the target that it names. -/
theorem publishTo_pubs {y : Ctx} (hy : s.ctx? k = some y) (id version : Nat) (p : Publication) :
    ∃ z, (s.publishTo k id version p).ctx? k = some z ∧ z.pubs = awaitOne id version y.pubs p
      ∧ s.publishTo k id version p = { s with ctxs := (s.publishTo k id version p).ctxs } := by
  unfold State.publishTo State.setPub State.holdToPublish State.endHolds
  refine ⟨_, ctx?_updCtx _ _ _ _ (ctx?_updCtx _ _ _ _ (ctx?_updCtx _ _ _ y hy)), rfl, ?_⟩
  rw [updCtx_eq, updCtx_eq (s.updCtx _ _), updCtx_eq s]

theorem publishAll_pubs (id version : Nat) (l : List Publication) {y : Ctx} (hy : s.ctx? k = some y) :
    ∃ t z, l.foldl (fun s p => s.publishTo k id version p) s = t ∧ t.ctx? k = some z
      ∧ z.pubs = l.foldl (awaitOne id version) y.pubs ∧ t = { s with ctxs := t.ctxs } := by
  induction l generalizing s y with
  | nil => exact ⟨s, y, rfl, hy, rfl, rfl⟩
  | cons p l ih =>
    obtain ⟨z, hz, pubs, frame⟩ := publishTo_pubs hy id version p
    obtain ⟨t, w, is, hw, all, rest⟩ := ih hz
    refine ⟨t, w, is, hw, all.trans (congrArg (l.foldl (awaitOne id version)) pubs), rest.trans ?_⟩
    rw [frame]

/-- Does the context hold a version that it may publish? -/
def Ctx.resident (x : Ctx) (version : Nat) : Bool :=
  match x.learn with
  | none => false
  | some l => version != 0 && l.buffers.any (fun b => b.version == version && (b.state == .current || b.state == .held))

theorem resident_iff (x : Ctx) (version : Nat) : x.resident version = true ↔
    ∃ l b, x.learn = some l ∧ b ∈ l.buffers ∧ b.version = version ∧ version ≠ 0 ∧ (b.state = .current ∨ b.state = .held) := by
  unfold Ctx.resident
  cases x.learn with
  | none => simp
  | some l =>
    simp only [Bool.and_eq_true, bne_iff_ne, List.any_eq_true, Bool.or_eq_true, beq_iff_eq, Option.some.injEq, exists_and_left, exists_eq_left']
    exact ⟨fun ⟨nonzero, b, there, same, kept⟩ => ⟨b, there, same, nonzero, kept⟩,
      fun ⟨b, there, same, nonzero, kept⟩ => ⟨nonzero, b, there, same, kept⟩⟩

/-- The version that a command publishes: the one named, else the current one. -/
def HostCmd.published (c : HostCmd) (x : Ctx) : Nat := if c.fieldAt 20 2 = 0 then x.currentVersion else c.fieldAt 20 2

/-- Does a command publish to a target? -/
def HostCmd.targets (c : HostCmd) (p : Publication) : Bool := c.fieldAt 16 4 == 0xFFFFFFFF || p.entry == c.fieldAt 16 4

section
variable (turn : CtxCmdTurn s id 0x08 c k x)
include turn

theorem publishWeights_kind (other : x.desc.kind ≠ 2) : exec (.publishWeights id) s = .next (s.complete id 0x11 8 []) :=
  ctxCommand_refused rfl turn (firstBad_bad (beq_eq_false_iff_ne.2 other))

variable (learner : x.desc.kind = 2)
include learner

theorem publishWeights_entry (named : c.fieldAt 16 4 ≠ 0xFFFFFFFF) (beyond : x.desc.pubCount ≤ c.fieldAt 16 4) :
    exec (.publishWeights id) s = .next (s.complete id 0x12 16 []) :=
  ctxCommand_refused rfl turn ((firstBad_ok (beq_iff_eq.2 learner)).trans (firstBad_bad (by simp [named, beyond])))

variable (within : c.fieldAt 16 4 = 0xFFFFFFFF ∨ c.fieldAt 16 4 < x.desc.pubCount)
include within

theorem publishWeights_absent (absent : x.resident (c.published x) = false) : exec (.publishWeights id) s = .next (s.complete id 0x12 20 []) :=
  ctxCommand_refused rfl turn ((firstBad_ok (beq_iff_eq.2 learner)).trans ((firstBad_ok (by simpa using within)).trans (firstBad_bad absent)))

theorem publishWeights_publishes (there : x.resident (c.published x) = true) : exec (.publishWeights id) s = .next
    (if (x.pubs.filter c.targets).isEmpty then s.complete id 0 0 []
     else (x.pubs.filter c.targets).foldl (fun s p => s.publishTo k id (c.published x) p) (s.begin' id)) :=
  (ctxCommand_proceeds (i := .publishWeights id) rfl turn ((firstBad_ok (beq_iff_eq.2 learner)).trans
    ((firstBad_ok (by simpa using within)).trans (firstBad_ok there)))).trans rfl

end

/-! ## RESTORE (10 R308, 12 R360) -/

theorem restore_reply (s : State) (id k : Nat) (own peers : Option (List Byte)) (follow : List Byte → Option State) :
    (match (match own with | some m => some m | none => peers).bind follow with
      | some t => t.complete id 0 (match t.ctx? k with | none => 0 | some y => y.currentVersion) []
      | none => s.spend.complete id 0x31 0 []) = match (own.orElse fun _ => peers).bind follow with
      | some t => t.complete id 0 (match t.ctx? k with | none => 0 | some y => y.currentVersion) []
      | none => s.spend.complete id 0x31 0 [] := by
  cases own <;> rfl

section
variable (turn : CtxCmdTurn s id 0x0A c k x) {host : List Byte} (able : x.desc.kind = 2 ∧ x.desc.ckptAddr ≠ 0)
  (placed : c.fieldAt 16 1 % 2 ≠ 1 ∨ (c.fieldAt 32 8 % 64 = 0 ∧ s.inHostWindow k (c.fieldAt 32 8) 1 = true))
include turn able placed

/-- The manifest that RESTORE follows, else its peer's. -/
theorem restore_takes {l : Learner} (known : x.learn = some l) :
    let copy := if c.fieldAt 16 1 % 2 = 1 then host else []
    let found := (s.manifestOf x l (x.shardShape l) (c.fieldAt 24 8) copy).orElse (fun _ =>
      if x.desc.modules ≠ 1 ∧ ¬c.fieldAt 16 1 % 2 = 1 then some (s.peerManifest x l (x.shardShape l) (c.fieldAt 24 8)) else none)
    exec (.restore id host) s = .next (match found.bind (fun m => (s.chunksFrom x (x.shardShape l) m copy (List.range (x.shardShape l).chunks)).bind
        (fun b => s.restoreFrom k (c.fieldAt 24 8) x l (x.shardShape l) m b)) with
      | some t => t.complete id 0 (match t.ctx? k with | none => 0 | some y => y.currentVersion) []
      | none => s.spend.complete id 0x31 0 []) := by
  intro copy found
  refine (ctxCommand_proceeds rfl turn ((firstBad_ok ((checkpoints_iff x).2 able)).trans (firstBad_ok ?_))).trans (congrArg Host.Outcome.next ?_)
  · rcases placed with own | ⟨aligned, inside⟩
    · simp [own]
    · simp [aligned, inside]
  · have supplied : (if (c.fieldAt 16 1 % 2 == 1) = true then host else []) = copy := if_congr beq_iff_eq rfl rfl
    have peer : (if (x.desc.modules != 1 && !(c.fieldAt 16 1 % 2 == 1)) = true then some (s.peerManifest x l (x.shardShape l) (c.fieldAt 24 8)) else none) =
        if x.desc.modules ≠ 1 ∧ ¬c.fieldAt 16 1 % 2 = 1 then some (s.peerManifest x l (x.shardShape l) (c.fieldAt 24 8)) else none := if_congr (by simp) rfl rfl
    simp only [known, supplied, peer, found]
    exact restore_reply s id k _ _ _

end

/-! ## CHECKPOINT (12 R360, 10 R305) -/

section
variable (turn : CtxCmdTurn s id 0x09 c k x)
include turn

theorem checkpoint_unable (un : ¬(x.desc.kind = 2 ∧ x.desc.ckptAddr ≠ 0)) : exec (.checkpoint id) s = .next (s.complete id 0x11 8 []) :=
  ctxCommand_refused rfl turn (firstBad_bad (Bool.eq_false_iff.2 (mt (checkpoints_iff x).1 un)))

variable (able : x.desc.kind = 2 ∧ x.desc.ckptAddr ≠ 0)
include able

theorem checkpoint_own (own : c.fieldAt 16 1 / 2 % 2 ≠ 1) : exec (.checkpoint id) s = .next (s.begin' id) :=
  (ctxCommand_proceeds (i := .checkpoint id) rfl turn ((firstBad_ok ((checkpoints_iff x).2 able)).trans
    ((firstBad_ok (by simp [own])).trans (firstBad_ok (by simp [own]))))).trans rfl

theorem checkpoint_sink (aligned : c.fieldAt 24 8 % 64 = 0) (inside : s.inHostWindow k (c.fieldAt 24 8) 1 = true)
    (fits : s.inHostWindow k (c.fieldAt 24 8) (c.fieldAt 32 8) = true) : exec (.checkpoint id) s = .next (s.begin' id) :=
  (ctxCommand_proceeds (i := .checkpoint id) rfl turn ((firstBad_ok ((checkpoints_iff x).2 able)).trans
    ((firstBad_ok (by simp [aligned, inside])).trans (firstBad_ok (by simp [fits]))))).trans rfl

variable (sink : c.fieldAt 16 1 / 2 % 2 = 1)
include sink

theorem checkpoint_place (place : ¬(c.fieldAt 24 8 % 64 = 0 ∧ s.inHostWindow k (c.fieldAt 24 8) 1 = true)) :
    exec (.checkpoint id) s = .next (s.complete id 0x12 24 []) :=
  ctxCommand_refused rfl turn ((firstBad_ok ((checkpoints_iff x).2 able)).trans (firstBad_bad (by simpa [sink] using place)))

theorem checkpoint_long (aligned : c.fieldAt 24 8 % 64 = 0) (inside : s.inHostWindow k (c.fieldAt 24 8) 1 = true)
    (long : s.inHostWindow k (c.fieldAt 24 8) (c.fieldAt 32 8) = false) : exec (.checkpoint id) s = .next (s.complete id 0x12 32 []) :=
  ctxCommand_refused rfl turn ((firstBad_ok ((checkpoints_iff x).2 able)).trans ((firstBad_ok (by simp [aligned, inside])).trans (firstBad_bad (by simp [sink, long]))))

end

end

/-- Settles O49: each command by the first of its checks that fails, then by its effect. BAD_FIELD at byte 8 on another kind of context (log 118), parameters
checked at STEP (log 80) and the host's copy as operand of RESTORE (log 91) are the model's choices. -/
theorem contextJobCommands : Obligations.ContextJobCommands := by
  unfold Obligations.ContextJobCommands
  intro s id c k x refused begun
  refine ⟨fun turn going => ?destroy, fun turn => ?run, fun turn => ?step, fun turn => ?publish, fun turn => ?checkpoint,
    fun turn host => ?restore, fun turn => ?shares⟩
  case destroy =>
    obtain ⟨y, closed⟩ := destroy_closes (s := s.begin' id) id turn.hasCtx going
    exact ⟨_, y, withCtxCmd_turn turn _, closed⟩
  case run =>
    exact ⟨fun beyond => ctxCommand_refused rfl turn (slotBad_beyond beyond),
      fun within empty => ctxCommand_refused rfl turn (slotBad_empty within (by rw [empty]; rfl)),
      fun within full => run_starts turn ⟨within, full⟩⟩
  case step =>
    intro slots loaded placed newer
    refine ⟨fun other => step_refused turn (b := argBad badField 8) ?_, fun learner un => ?_, fun learner loaded b bad => step_refused turn ?_,
      fun learner loaded params old => step_refused turn (b := argBad outOfRange 24) ?_,
      fun learner loaded params later => step_starts learner loaded turn params ((newer_iff x _).2 later)⟩
    · rw [HostCmd.stepBad, wantArg, if_neg (by simpa using other), Option.some_or]
    · obtain ⟨code, off, codes, low, high, bad⟩ := placesBad_unloaded un
      have first : c.stepBad x = some (argBad code off) :=
        (stepBad_of_kind learner).trans (by rw [show firstBad (x.placesBad c.stepSlots) = _ from bad, Option.some_or])
      refine ⟨code, off, codes, low, high, ctxCommand_refused rfl turn ((stepBad_eq c x).symm.trans first) rfl (argBad_result codes ?_)⟩
      exact Nat.lt_of_le_of_lt high (by decide)
    · exact (stepBad_of_loaded learner loaded).trans (by rw [show firstBad (x.paramsBad (c.stepSlots.getD 2 0)) = _ from bad, Option.some_or])
    · refine (stepBad_of_loaded learner loaded).trans ?_
      rw [show firstBad (x.paramsBad (c.stepSlots.getD 2 0)) = _ from params, Option.none_or, wantArg, if_neg (mt (newer_iff x _).1 old)]
  case publish =>
    intro entry version there named
    refine ⟨publishWeights_kind turn, publishWeights_entry turn, fun learner within absent =>
      publishWeights_absent turn learner within (Bool.eq_false_iff.2 (mt (resident_iff x _).1 absent)), fun learner within there => ?_⟩
    have publishes := publishWeights_publishes turn learner within ((resident_iff x _).2 there)
    have names (p : Publication) : c.targets p = true ↔ named p := by
      rw [HostCmd.targets, Bool.or_eq_true, beq_iff_eq, beq_iff_eq]
    refine ⟨fun nobody => publishes.trans (congrArg Host.Outcome.next (if_pos ?_)), fun ⟨q, there, naming⟩ once => ?_⟩
    · exact List.isEmpty_iff.2 (List.filter_eq_nil_iff.2 fun p member => mt (names p).1 (nobody p member))
    · have some : ¬(x.pubs.filter c.targets).isEmpty = true := fun empty =>
        List.filter_eq_nil_iff.1 (List.isEmpty_iff.1 empty) q there ((names q).2 naming)
      obtain ⟨t, y, is, hy, pubs, frame⟩ := publishAll_pubs id (c.published x) (x.pubs.filter c.targets) (s := s.begin' id) turn.hasCtx
      refine ⟨t, y, publishes.trans (congrArg Host.Outcome.next ((if_neg some).trans is)), begin_begun turn.toCmdTurn (by rw [frame]),
        hy, by rw [frame]; rfl, by rw [frame]; rfl,
        fun p member naming => ?_, fun p member unnamed => ?_⟩
      · exact pubs ▸ awaitAll_named (once.sublist (List.filter_sublist.map _)) (fun p' member => List.mem_map_of_mem (List.mem_of_mem_filter member)) p
          (List.mem_filter.2 ⟨member, (names p).2 naming⟩)
      · refine pubs ▸ awaitAll_other (fun p' member same => unnamed ?_) member
        exact ((names p').1 (List.mem_filter.1 member).2).imp_right (same ▸ ·)
  case checkpoint => exact ⟨checkpoint_unable turn, checkpoint_own turn, checkpoint_place turn, checkpoint_long turn,
    fun able _ => checkpoint_sink turn able⟩
  case restore =>
    refine ⟨fun un => ?_, fun able supplied place => ?_, fun able placed l known => restore_takes turn able placed known⟩
    · exact ctxCommand_refused rfl turn (firstBad_bad (Bool.eq_false_iff.2 (mt (checkpoints_iff x).1 un)))
    · exact ctxCommand_refused rfl turn ((firstBad_ok ((checkpoints_iff x).2 able)).trans (firstBad_bad (by simpa [supplied] using place)))
  case shares =>
    exact ⟨fun weight => (ctxCommand_proceeds (i := .setShares id) rfl turn (firstBad_ok (bne_iff_ne.2 weight))).trans rfl,
      fun zero => ctxCommand_refused rfl turn (firstBad_bad (by rw [zero]; rfl))⟩

end Sys2Proof.Machine

/-! PROOFS. Commands on the module, and the expiry of commands (12 R350, R357, 13 R372, 14 R383 to R399, 15 R400, 16 R428, R429). -/

namespace Sys2Proof.Machine

/-! ## Commands that have been replied to -/

section
variable {s t : State} {id : Nat}

/-- A command with this identifier is no longer in hand. -/
def State.Replied (s : State) (id : Nat) : Prop := s.cmd? id = none

theorem State.Replied.frame (h : s.Replied id) (host : t.host = s.host := by rfl) : t.Replied id := by
  rw [State.Replied, State.cmd?, host]
  exact h

/-- A reply ends its own command and no other one comes back. -/
theorem State.Replied.complete {j code result : Nat} {tail : List Byte} (h : s.Replied id) : (s.complete j code result tail).Replied id := by
  unfold State.complete
  split
  · exact h
  · exact List.find?_eq_none.2 fun x member => List.find?_eq_none.1 h x (List.mem_of_mem_filter member)

theorem complete_replied (s : State) (id code result : Nat) (tail : List Byte) : (s.complete id code result tail).Replied id := by
  unfold State.complete
  split
  next none => exact none
  · refine List.find?_eq_none.2 fun x member => ?_
    have other := (List.mem_filter.1 member).2
    simpa using other

theorem State.Replied.foldl {α : Type} {f : State → α → State} {l : List α} (h : s.Replied id) (keeps : ∀ t a, t.Replied id → (f t a).Replied id) :
    (l.foldl f s).Replied id := by
  induction l generalizing s with
  | nil => exact h
  | cons a l ih => exact ih (keeps s a h)

theorem State.Replied.completeAll {ids : List Nat} {code : Nat} (h : s.Replied id) : (s.completeAll ids code).Replied id := h.foldl fun _ _ h => h.complete

theorem State.Replied.tellFailures {k : Nat} {c : Ctx} {poison : Bool} (h : s.Replied id) : (tellFailures s k c poison).Replied id := by
  refine h.foldl fun t st h => h.frame ?_
  rw [tellFailure_sentOnly]

theorem State.Replied.beginClose {k : Nat} (h : s.Replied id) : (s.beginClose k).Replied id := by
  unfold State.beginClose
  split
  · exact h
  next c _ =>
    have told : (s.abortColls k c false).Replied id := by
      have only := (abortColls_posted s k c false).only
      exact h.frame (by rw [only])
    split
    · exact h
    · exact told.frame

theorem State.Replied.killByReset {k : Nat} (h : s.Replied id) : (s.killByReset k).Replied id := by
  unfold State.killByReset
  split
  · exact h
  · dsimp only
    split
    · exact h.completeAll
    · exact (h.frame (t := s.raise _)).completeAll.tellFailures.beginClose

/-- The reset of a partition replies to commands and fetches none. -/
theorem State.Replied.resetPartition {die num cause : Nat} {cmds : List Nat} {ctx : Option Nat} (h : s.Replied id) :
    (s.resetDomain 2 die num cause cmds ctx).Replied id := by
  unfold State.resetDomain State.beginReset
  split
  · exact h.frame
  · extract_lets inner rest r rst t u
    have killed : u.Replied id := State.Replied.killByReset (s := t) h.frame
    exact killed.frame

/-- A command that hangs its context has been replied to. -/
theorem hang_replied (s : State) (c : HostCmd) (k : Nat) (x : Ctx) (fresh : x.hung = false) : (s.hang c k x).Replied c.id := by
  unfold State.hang
  rw [if_neg (by simp [fresh])]
  exact ((complete_replied _ c.id _ _ _).completeAll.tellFailures.beginClose.frame (updCtx_host ..)).resetPartition

end

/-! ## Fields of a command -/

theorem leNat_lt (bs : List Byte) : leNat bs < 256 ^ bs.length := by
  induction bs with
  | nil => exact Nat.one_pos
  | cons b bs ih =>
    have byte := b.isLt
    rw [leNat, List.length_cons, Nat.pow_succ]
    omega

theorem fieldAt_lt (c : HostCmd) (off n : Nat) : c.fieldAt off n < 256 ^ n :=
  Nat.lt_of_lt_of_le (leNat_lt _) (Nat.pow_le_pow_right (by decide) (List.length_take_le ..))

/-! ## SET_CARAVAN_TABLE (13 R372) -/

section
variable {s : State} {id : Nat} {c : HostCmd}

section
variable (turn : CmdTurn s id 0x0C c)
include turn

theorem setCaravanTable_clears (none : c.fieldAt 16 4 = 0) : exec (.setCaravanTable id) s =
    .next (({ s with caravan := { Caravan.reset with lastNotice := s.caravan.lastNotice } } : State).complete id 0 0 []) :=
  (withCmd_turn turn _).trans (congrArg Host.Outcome.next (if_pos none))

theorem setCaravanTable_some (some : c.fieldAt 16 4 ≠ 0) : exec (.setCaravanTable id) s =
    .next (s.checked id [wantArg (decide (32 ≤ c.fieldAt 16 4)) outOfRange 16,
        wantArg (c.fieldAt 24 8 % 64 == 0 && inMemory (c.fieldAt 24 8) (c.fieldAt 16 4)) outOfRange 24, s.caravanBad c.fetched (c.fieldAt 24 8) (c.fieldAt 16 4)]
      (({ s with caravan := { s.caravan with next := Option.some (s.caravanAt (c.fieldAt 24 8)) } } : State).complete id 0 0 [])) :=
  (withCmd_turn turn _).trans (congrArg Host.Outcome.next (if_neg some))

end

/-- A table that is well placed is refused by its own checks alone. -/
theorem caravanChecks_placed {n a : Nat} {own : Option Bad} (long : 32 ≤ n) (aligned : a % 64 = 0) (inside : inMemory a n = true) :
    firstBad [wantArg (decide (32 ≤ n)) outOfRange 16, wantArg (a % 64 == 0 && inMemory a n) outOfRange 24, own] = own :=
  (firstBad_ok (decide_eq_true long)).trans ((firstBad_ok (by rw [aligned, inside]; rfl)).trans (by cases own <;> rfl))

/-! ## QUERY_ATTENTION (12 R350, R353) -/

/-- What a query gives, by its kind. -/
def State.queried (s : State) (kind first n : Nat) : List (List Byte) :=
  match kind with
  | 1 => ((s.attn.from (BitVec.ofNat 32 first)).take n).map AttnEntry.bytes
  | 2 => ((s.faults.from first).take n).map Suspect.bytes
  | _ => []

/-- What is written to the host does not change the attention log that the reply tells of. -/
theorem answerQuery_eq (s : State) (id a : Nat) (items : List (List Byte)) :
    (let t := if items.isEmpty then s else s.busWrite a (items.flatMap (fun y => y))
     t.complete id 0 items.length (leBytes 4 t.attn.seq.toNat ++ leBytes 4 t.attnSummary)) =
    (if items = [] then s else s.busWrite a (items.flatMap (fun y => y))).complete id 0 items.length (leBytes 4 s.attn.seq.toNat ++ leBytes 4 s.attnSummary) := by
  cases items <;> rfl

section
variable (turn : CmdTurn s id 0x0E c)
include turn

theorem queryAttention_first (suspects : c.fieldAt 16 1 = 2) (beyond : 1023 < c.fieldAt 20 4) : exec (.queryAttention id) s = .next (s.complete id 0x12 20 []) :=
  command_refused rfl turn (firstBad_bad (by simpa [suspects] using beyond))

variable (first : c.fieldAt 16 1 ≠ 2 ∨ c.fieldAt 20 4 ≤ 1023)
include first

theorem queryAttention_count (uncounted : ¬(c.fieldAt 16 1 = 3 ∨ (1 ≤ c.fieldAt 24 4 ∧ c.fieldAt 24 4 ≤ 4096))) :
    exec (.queryAttention id) s = .next (s.complete id 0x12 24 []) :=
  command_refused rfl turn ((firstBad_ok (by simpa using first)).trans (firstBad_bad (by simpa [inRange] using uncounted)))

variable (counted : c.fieldAt 16 1 = 3 ∨ (1 ≤ c.fieldAt 24 4 ∧ c.fieldAt 24 4 ≤ 4096))
include counted

theorem queryAttention_place (unaligned : c.fieldAt 32 8 % 64 ≠ 0) : exec (.queryAttention id) s = .next (s.complete id 0x12 32 []) :=
  command_refused rfl turn ((firstBad_ok (by simpa using first)).trans ((firstBad_ok (by simpa [inRange] using counted)).trans
    (firstBad_bad (beq_eq_false_iff_ne.2 unaligned))))

theorem queryAttention_gives (aligned : c.fieldAt 32 8 % 64 = 0) {items : List (List Byte)} (are : s.queried (c.fieldAt 16 1) (c.fieldAt 20 4) (c.fieldAt 24 4) = items) :
    exec (.queryAttention id) s = .next ((if items = [] then s else s.busWrite (c.fieldAt 32 8) (items.flatMap (fun y => y))).complete id 0 items.length
      (leBytes 4 s.attn.seq.toNat ++ leBytes 4 s.attnSummary)) := by
  rw [← are]
  refine (command_proceeds (i := .queryAttention id) rfl turn ((firstBad_ok (by simpa using first)).trans ((firstBad_ok (by simpa [inRange] using counted)).trans
    (firstBad_ok (beq_iff_eq.2 aligned))))).trans (congrArg Host.Outcome.next ?_)
  exact answerQuery_eq s id _ _

end

/-! ## READ_CAPTURE (14 R385) -/

theorem readCapture_found (turn : CmdTurn s id 0x10 c) {slot : Nat} {x : Capture} (found : s.captureOf (c.fieldAt 16 4) = some (slot, x)) :
    let n := min (c.fieldAt 32 4) x.bytes.length
    let t := s.busWrite (c.fieldAt 24 8) (s.readThrough (captureArea + captureSlot * slot) n)
    let t := if s.loadPoison (captureArea + captureSlot * slot) n then t.spend else t
    exec (.readCapture id) s = .next (s.checked id [wantArg (c.fieldAt 24 8 % 64 == 0) outOfRange 24]
      (({ t with captures := nset s.captures slot { x with read := true } } : State).complete id 0 n [])) := by
  intro n t u
  have captures : u.captures = s.captures := by
    show (if _ then _ else _ : State).captures = _
    split <;> rfl
  rw [← captures]
  refine (withCmd_turn turn _).trans (congrArg Host.Outcome.next ?_)
  simp only [found]
  rfl

/-! ## RESET_DOMAIN (14 R389, R399) -/

theorem resetDomain_proceeds (turn : CmdTurn s id 0x11 c) (good : firstBad (s.resetBad (c.fieldAt 16 1) (c.fieldAt 17 1) (c.fieldAt 18 2)) = none) :
    exec (.resetDomain id) s = .next (if 6 ≤ c.fieldAt 16 1 then (s.complete id 0 0 []).resetDomain (c.fieldAt 16 1) 0 0 1 [] none
      else match c.named with
        | some k => (match s.ctx? k with
          | none => (s.begin' id).refuse id (argBad 0x15 0)
          | some x => (s.begin' id).resetDomain (c.fieldAt 16 1) x.die k 1 [id] (some k))
        | none => (s.begin' id).resetDomain (c.fieldAt 16 1) (c.fieldAt 17 1) (c.fieldAt 18 2) 1 [id] none) :=
  (command_proceeds (i := .resetDomain id) rfl turn good).trans rfl

/-- A reset that is not of a partition names no context. -/
theorem resetDomain_unnamed (isReset : c.opcode = 0x11) (kind : c.fieldAt 16 1 ≠ 2) : c.named = none := by
  unfold HostCmd.named
  rw [isReset]
  exact if_neg (by simp [namesContext, kind])

/-- A die of the module may be reset. -/
theorem resetBad_die {die num : Nat} (there : die ≤ 3) (small : num ≤ 0xFFFF) : firstBad (s.resetBad 3 die num) = none :=
  (firstBad_ok (decide_eq_true there)).trans ((firstBad_ok (decide_eq_true small)).trans (firstBad_ok rfl))

/-! ## REINSTATE (16 R429) -/

section
variable (turn : CmdTurn s id 0x12 c) (host : List Byte)
include turn

theorem reinstate_serving (serving : s.rst.outOfService = false) : exec (.reinstate id host) s = .next (s.complete id 0 0 []) :=
  (withCmd_turn turn _).trans (congrArg Host.Outcome.next (if_pos (by rw [serving]; rfl)))

variable (out : s.rst.outOfService = true)
include out

theorem reinstate_checks : exec (.reinstate id host) s = .next (s.checked id [wantArg (c.fieldAt 16 4 == 2612) outOfRange 16,
      wantArg (c.fieldAt 24 8 % 64 == 0) outOfRange 24]
    (if s.mesa.failed || !s.reinstates ((host ++ zeros 2612).take 2612) then s.complete id 0x42 0 [] else s.reinstate id)) :=
  (withCmd_turn turn _).trans (congrArg Host.Outcome.next (if_neg (by rw [out]; decide)))

/-- A record of the right size is followed where the Mesa controller can check it and accepts it. -/
theorem reinstate_record (size : c.fieldAt 16 4 = 2612) (aligned : c.fieldAt 24 8 % 64 = 0) : exec (.reinstate id host) s = .next
    (if s.mesa.failed = false ∧ s.reinstates ((host ++ zeros 2612).take 2612) = true then s.reinstate id else s.complete id 0x42 0 []) := by
  refine (reinstate_checks turn host out).trans (congrArg Host.Outcome.next ?_)
  refine (checked_good ((firstBad_ok (beq_iff_eq.2 size)).trans (firstBad_ok (beq_iff_eq.2 aligned)))).trans ?_
  rw [← ite_not]
  exact if_congr (by simp) rfl rfl

end

/-! ## Expiry (14 R381 to R384) -/

section
variable (found : s.cmd? id = some c) {d : Nat} (deadline : s.deadline c = some d)
include found deadline

theorem expiry_early (early : s.st.now.toNat < c.fetched.toNat + d) : exec (.commandDeadlineExpiry id) s = .next s := by
  show execCommandDeadlineExpiry id s = _
  unfold execCommandDeadlineExpiry
  simp [found, deadline, early]

variable (due : c.fetched.toNat + d ≤ s.st.now.toNat)
include due

theorem expiry_unstarted (new : c.started = false) : exec (.commandDeadlineExpiry id) s = .next (s.complete id 0x22 0 []) := by
  show execCommandDeadlineExpiry id s = _
  unfold execCommandDeadlineExpiry
  simp [found, deadline, Nat.not_lt.2 due, new]

variable (started : c.started = true)
include started

theorem expiry_reset (isReset : c.opcode = 0x11) : exec (.commandDeadlineExpiry id) s = .next (s.expireReset c) := by
  show execCommandDeadlineExpiry id s = _
  unfold execCommandDeadlineExpiry
  simp [found, deadline, Nat.not_lt.2 due, started, isReset]

variable (other : c.opcode ≠ 0x11)
include other

theorem expiry_hangs {k : Nat} {x : Ctx} (names : c.named = some k) (hasCtx : s.ctx? k = some x) :
    exec (.commandDeadlineExpiry id) s = .next (s.hang c k x) := by
  show execCommandDeadlineExpiry id s = _
  unfold execCommandDeadlineExpiry
  simp [found, deadline, Nat.not_lt.2 due, started, other, names, hasCtx]

theorem expiry_restarts (names : c.named = none) : exec (.commandDeadlineExpiry id) s =
    .next ((s.restartPair (s.hostPair (servicePair c.opcode))).complete id 0x22 0 []) := by
  show execCommandDeadlineExpiry id s = _
  unfold execCommandDeadlineExpiry
  simp [found, deadline, Nat.not_lt.2 due, started, other, names]

end

end

/-- Settles O50: each command by the first of its checks that fails, then by its effect. REINSTATE answered before its arguments are checked (log 137), the pair
that serves a command (log 82), and an expired reset of a port or channel (log 127) are the model's choices. -/
theorem moduleCommands : Obligations.ModuleCommands := by
  unfold Obligations.ModuleCommands
  intro s id c refused
  refine ⟨fun turn => ?caravan, fun turn => ?power, fun turn => ?query, fun turn slot x found => ?capture, fun turn missing => ?missing, fun turn => ?reset,
    fun turn host => ?reinstate, fun turn => ?attest, fun found d deadline => ?expiry⟩
  case caravan =>
    intro n a
    have row (long : 32 ≤ n) := setCaravanTable_some turn (show n ≠ 0 by omega)
    refine ⟨setCaravanTable_clears turn, fun some short => ?_, fun long place => ?_, fun long aligned inside b bad => ?_, fun long aligned inside good => ?_⟩
    · exact (setCaravanTable_some turn some).trans (congrArg Host.Outcome.next (checked_bad (firstBad_bad (decide_eq_false (Nat.not_le.2 short)))))
    · refine (row long).trans (congrArg Host.Outcome.next (checked_bad (b := argBad outOfRange 24) ?_))
      exact (firstBad_ok (decide_eq_true long)).trans (firstBad_bad (by simpa using place))
    · exact (row long).trans (congrArg Host.Outcome.next (checked_bad ((caravanChecks_placed long aligned inside).trans bad)))
    · exact (row long).trans (congrArg Host.Outcome.next (checked_good ((caravanChecks_placed long aligned inside).trans good)))
  case power =>
    intro w
    refine ⟨fun least most => ?_, fun out => command_refused rfl turn (firstBad_bad (inRange_out out))⟩
    exact (command_proceeds (i := .setPowerLimit id) rfl turn (firstBad_ok (inRange_iff.2 ⟨least, most⟩))).trans rfl
  case query =>
    intro kind first n a counted tail give
    refine ⟨queryAttention_first turn, queryAttention_count turn, queryAttention_place turn, fun within counts aligned =>
      ⟨fun log => ?_, fun suspects => ?_, fun count => ?_⟩⟩
    · exact queryAttention_gives turn within counts aligned (by rw [show c.fieldAt 16 1 = 1 from log]; rfl)
    · exact queryAttention_gives turn within counts aligned (by rw [show c.fieldAt 16 1 = 2 from suspects]; rfl)
    · exact queryAttention_gives turn within counts aligned (by rw [show c.fieldAt 16 1 = 3 from count]; rfl)
  case capture =>
    have row := readCapture_found turn found
    exact ⟨fun unaligned => row.trans (congrArg Host.Outcome.next (checked_bad (b := argBad outOfRange 24) (firstBad_bad (beq_eq_false_iff_ne.2 unaligned)))),
      fun aligned => row.trans (congrArg Host.Outcome.next (checked_good (firstBad_ok (beq_iff_eq.2 aligned))))⟩
  case missing =>
    refine (withCmd_turn turn _).trans (congrArg Host.Outcome.next ?_)
    simp only [missing]
    rfl
  case reset =>
    intro kind die num
    have effect := resetDomain_proceeds turn
    refine ⟨fun b bad => command_refused rfl turn bad, fun good => ⟨fun large => ?_, fun small => ?_,
      fun k x partition names hasCtx => ?_⟩, fun isDie there => ?_⟩
    · exact (effect good).trans (congrArg Host.Outcome.next (if_pos large))
    · refine (effect good).trans (congrArg Host.Outcome.next ((if_neg (by omega)).trans ?_))
      rw [resetDomain_unnamed turn.isOp (by omega)]
    · refine (effect good).trans (congrArg Host.Outcome.next ((if_neg (by omega)).trans ?_))
      simp only [names, hasCtx]
      exact congrArg (fun kind => (s.begin' id).resetDomain kind x.die k 1 [id] (some k)) partition
    · rw [isDie]
      exact resetBad_die there (Nat.le_of_lt_succ (fieldAt_lt c 18 2))
  case reinstate =>
    refine ⟨reinstate_serving turn host, fun out size => ?_, fun out size unaligned => ?_, reinstate_record turn host⟩
    · exact (reinstate_checks turn host out).trans (congrArg Host.Outcome.next (checked_bad (firstBad_bad (beq_eq_false_iff_ne.2 size))))
    · refine (reinstate_checks turn host out).trans (congrArg Host.Outcome.next (checked_bad (b := argBad outOfRange 24) ?_))
      exact (firstBad_ok (beq_iff_eq.2 size)).trans (firstBad_bad (beq_eq_false_iff_ne.2 unaligned))
  case attest =>
    intro kind a bytes
    have effect (aligned : a % 64 = 0) := command_proceeds (i := .attest id) rfl turn (firstBad_ok (beq_iff_eq.2 aligned))
    refine ⟨fun unaligned => command_refused rfl turn (firstBad_bad (beq_eq_false_iff_ne.2 unaligned)), fun aligned failed => ?_, fun aligned works digest => ?_,
      fun aligned works signed => ?_⟩
    · exact (effect aligned).trans (congrArg Host.Outcome.next (if_pos failed))
    · refine (effect aligned).trans (congrArg Host.Outcome.next ((if_neg (by simp [works])).trans ?_))
      exact congrArg (fun t : State => (t.busWrite a bytes).complete id 0 bytes.length []) (if_pos digest)
    · refine (effect aligned).trans (congrArg Host.Outcome.next ((if_neg (by simp [works])).trans ?_))
      exact congrArg (fun t : State => (t.busWrite a bytes).complete id 0 bytes.length []) (if_neg signed)
  case expiry =>
    refine ⟨expiry_early found deadline, fun due => ⟨expiry_unstarted found deadline due, expiry_reset found deadline due, fun started other k x names hasCtx => ?_,
      expiry_restarts found deadline due⟩⟩
    have hangs := expiry_hangs found deadline due started other names hasCtx
    refine ⟨fun hung => hangs.trans (congrArg Host.Outcome.next (if_pos hung)), fun fresh => ⟨_, hangs, ?_⟩⟩
    exact cmd?_id found ▸ hang_replied s c k x fresh

end Sys2Proof.Machine
